-- ==== Sys2Proof/Word.lean ====
section
/-! DEFINITION. The word types of the Skechea S9 and the sorted key-value list used wherever the manual names a
collection of records by number (threads, cores, dies, packets). -/

namespace Sys2Proof

/-- A byte (R11). -/
abbrev Byte := BitVec 8
/-- A 32-bit word: an instruction word or a general register (R198, R14). -/
abbrev Word := BitVec 32
/-- A 64-bit value: a register pair, an address, a derivation id. -/
abbrev DWord := BitVec 64

/-- A finite map from numbers, as a list of pairs with rising keys. -/
abbrev NMap (α : Type) := List (Nat × α)

namespace NMap

/-- The value listed under a key. -/
def find {α : Type} : NMap α → Nat → Option α
  | [], _ => none
  | (k, v) :: rest, i => if k = i then some v else find rest i

/-- Lists a value under a key, in key order, replacing an earlier one. -/
def put {α : Type} : NMap α → Nat → α → NMap α
  | [], i, x => [(i, x)]
  | (k, v) :: rest, i, x =>
    if i < k then (i, x) :: (k, v) :: rest
    else if i = k then (i, x) :: rest
    else (k, v) :: put rest i x

/-- Removes a key. -/
def drop {α : Type} (m : NMap α) (i : Nat) : NMap α := m.filter (fun p => p.1 != i)

/-- Changes the value under a key, if one is listed. -/
def adjust {α : Type} (m : NMap α) (i : Nat) (f : α → α) : NMap α :=
  m.map (fun p => if p.1 = i then (p.1, f p.2) else p)

/-- The listed values in key order. -/
def vals {α : Type} (m : NMap α) : List α := m.map (·.2)

/-- The listed keys in order. -/
def keys {α : Type} (m : NMap α) : List Nat := m.map (·.1)

end NMap

end Sys2Proof
end

