-- ==== Sys2Proof/Syntax.lean ====
section
/-! DEFINITION. The steps of the part: one constructor per row of spec/opcode_table.json, with the operand fields of the
long format (R202 to R206) and the operands of the rows that no word encodes. -/

namespace Sys2Proof

/-- The fields of a long instruction other than OP8 and LEN (R202).  `lit` is the literal of words 3 and 4, present when
LEN = 10. -/
structure Long where
  m4 : BitVec 4
  a : BitVec 9
  d : BitVec 9
  kc : BitVec 2
  kb : BitVec 2
  fs : BitVec 1
  e : BitVec 9
  c : BitVec 9
  b : BitVec 9
  sub : BitVec 13
  yh : BitVec 1
  hint : BitVec 3
  ret : BitVec 2
  gc : BitVec 1
  n2 : BitVec 1
  g2 : BitVec 4
  n1 : BitVec 1
  g1 : BitVec 4
  ka : BitVec 2
  lit : Option (BitVec 64)
  deriving DecidableEq, Repr, Inhabited

/-- What a scrub read finds in a line (R412). -/
inductive ScrubFinding where
  | clean
  | corrected
  | uncorrectable
  deriving DecidableEq, Repr

/-- A link whose flit failed its check (R429): inside a core die, a die edge between two core dies, or a gateway's
attachment. -/
inductive Link where
  | inside (die : Nat)
  | edge (dieA dieB : Nat)
  | attachment (gateway : Nat)
  deriving DecidableEq, Repr

/-- What the boot sequence finds (R172, R173, R372): the outside world's part of a package reset. -/
structure BootOutcome where
  imageOk : Bool                 -- step 1
  badStack : Option Nat          -- step 2
  badLpddr : List Nat            -- step 2: link gateways whose LPDDR fails
  failing : List (Nat × Nat)     -- step 4: (core die, position) whose core fails test
  leakage : List (Nat × Nat × Nat)  -- step 4: die, position, measured leakage current; 0 where none is listed
  badRouters : List (Nat × Nat)  -- step 3: (core die, position) whose router is faulty
  cutOff : List Nat              -- step 4: core dies whose working routers cannot reach the mesh
  connected : Bool               -- step 5
  badPorts : List Nat            -- step 7
  hostPortOk : Bool              -- step 8
  deriving DecidableEq, Repr

/-- A collective, view, work or remote-access message that crosses packages, as the far side sent it (R143, R153). -/
structure FarPacket where
  typ : Nat
  src : Nat
  dst : Nat
  inc : Nat
  seq : Nat
  dvc : Nat
  deriv : DWord
  addr : DWord
  payload : List Byte
  priv : Bool                          -- of a remote access: its thread is privileged (log 53)
  counted : Option (Nat × Nat × Nat)   -- of a PUT or PUTS packet: the descriptor, its step, and the bytes that it counts off (log 53)
  ord : Bool
  esc : Bool
  dn : Bool
  age : Nat
  parent : Option DWord                -- DERIV of the record that an enqueue, atomic or reduction comes from (log 53)
  deriving DecidableEq, Repr

/-- A slot of a Drinyx unit (R153): kind, DVC and what it holds.  Of the flits of a packet the last one gives the whole packet. -/
inductive DrinyxSlot where
  /-- kinds 0 to 5 -/
  | flit (cls dvc : Nat) (packet : Option FarPacket)
  /-- kind 6, link control: credit returns of the 12 input buffers (buffer 2c + v), the highest unit accepted in order, the unit whose replay
  is asked for, and a fragment of a re-attestation message -/
  | control (returns : List Nat) (acked replay : Option Nat) (fragment : List Byte)
  /-- kind 7 -/
  | empty
  deriving DecidableEq, Repr

/-- A Drinyx unit as received (R153, R430): its sequence number, whether its tag matches, and its four slots. -/
structure DrinyxUnit where
  seq : Nat
  tagOk : Bool
  slots : List DrinyxSlot
  deriving DecidableEq, Repr


/-- Names of the long-format rows of the opcode table (R215 and the variants the table lists on rows of their own). -/
inductive LongOp where
  | nop | mov | lit | add | sub | mul | mulh | mad | div | rem | min | max | abs | neg | and | or | xor | not
  | shl | shr | sar | rot | bfx | bfi | popc | clz | brev | sel | setp | plop | lea | gaddr | bra | brx
  | call | ret | join | leave | waitk | kmov | vote | shfl | scan | redg | yield | exit | getsr | setsr
  | fadd | fsub | fmul | ffma | fmin | fmax | fsetp | frcp | fdiv | fsqrt | frsq | fex2 | flg2 | fsin | fcos
  | ftanh | frnd | cvt | f2i | i2f | pack | unpk | hfma2 | dot4 | fcls | fclsTest | fscale | ld | st | lds
  | sts | ldc | stc | ldx | stx | setfe | atom | red | pref | flush | flushAll | fence | get | put | puts
  | ratom | bara | barw | sstep | sstepBind | engk | engw | tmma | tmmas | twmma | titer | tpoly | twait
  | tver | tlda | tsta | tzero | tenq | tcoef | tcoefGet | tcb | tbld | ttrn | tfeed | vadd | vmul | vfma
  | vmax | vmin | vexp | vred | vbcast | vmovRow | vmovGet | vmovPut | vcvt | raysend | boxt | trit | tlook
  | hitq | rque | recq | recqHeld | recj | send | recv | abind | abindUn | balw | cinit | cred | cwait
  | baddq | blkq | view | viewSet | resid | residReq | trap | rte | brk | cswap | tlbi | eschedLoad
  | eschedStep | eschedAdv | eschedClr | clkSync | clkCyc | clkWait | perf | mapq
  deriving DecidableEq, Repr

/-- OP8 of each long row (R215). -/
def LongOp.code : LongOp → BitVec 8
  | .nop => 0x00#8
  | .mov => 0x01#8
  | .lit => 0x02#8
  | .add => 0x03#8
  | .sub => 0x04#8
  | .mul => 0x05#8
  | .mulh => 0x06#8
  | .mad => 0x07#8
  | .div => 0x08#8
  | .rem => 0x09#8
  | .min => 0x0A#8
  | .max => 0x0B#8
  | .abs => 0x0C#8
  | .neg => 0x0D#8
  | .and => 0x0E#8
  | .or => 0x0F#8
  | .xor => 0x10#8
  | .not => 0x11#8
  | .shl => 0x12#8
  | .shr => 0x13#8
  | .sar => 0x14#8
  | .rot => 0x15#8
  | .bfx => 0x16#8
  | .bfi => 0x17#8
  | .popc => 0x18#8
  | .clz => 0x19#8
  | .brev => 0x1A#8
  | .sel => 0x1B#8
  | .setp => 0x1C#8
  | .plop => 0x1D#8
  | .lea => 0x1E#8
  | .gaddr => 0x1F#8
  | .bra => 0x20#8
  | .brx => 0x21#8
  | .call => 0x22#8
  | .ret => 0x23#8
  | .join => 0x24#8
  | .leave => 0x25#8
  | .waitk => 0x26#8
  | .kmov => 0x27#8
  | .vote => 0x28#8
  | .shfl => 0x29#8
  | .scan => 0x2A#8
  | .redg => 0x2B#8
  | .yield => 0x2C#8
  | .exit => 0x2D#8
  | .getsr => 0x2E#8
  | .setsr => 0x2F#8
  | .fadd => 0x30#8
  | .fsub => 0x31#8
  | .fmul => 0x32#8
  | .ffma => 0x33#8
  | .fmin => 0x34#8
  | .fmax => 0x35#8
  | .fsetp => 0x36#8
  | .frcp => 0x37#8
  | .fdiv => 0x38#8
  | .fsqrt => 0x39#8
  | .frsq => 0x3A#8
  | .fex2 => 0x3B#8
  | .flg2 => 0x3C#8
  | .fsin => 0x3D#8
  | .fcos => 0x3E#8
  | .ftanh => 0x3F#8
  | .frnd => 0x40#8
  | .cvt => 0x41#8
  | .f2i => 0x42#8
  | .i2f => 0x43#8
  | .pack => 0x44#8
  | .unpk => 0x45#8
  | .hfma2 => 0x46#8
  | .dot4 => 0x47#8
  | .fcls => 0x48#8
  | .fclsTest => 0x48#8
  | .fscale => 0x49#8
  | .ld => 0x50#8
  | .st => 0x51#8
  | .lds => 0x52#8
  | .sts => 0x53#8
  | .ldc => 0x54#8
  | .stc => 0x55#8
  | .ldx => 0x56#8
  | .stx => 0x57#8
  | .setfe => 0x58#8
  | .atom => 0x59#8
  | .red => 0x5A#8
  | .pref => 0x5B#8
  | .flush => 0x5C#8
  | .flushAll => 0x5C#8
  | .fence => 0x5D#8
  | .get => 0x5E#8
  | .put => 0x5F#8
  | .puts => 0x60#8
  | .ratom => 0x61#8
  | .bara => 0x62#8
  | .barw => 0x63#8
  | .sstep => 0x64#8
  | .sstepBind => 0x64#8
  | .engk => 0x65#8
  | .engw => 0x66#8
  | .tmma => 0x80#8
  | .tmmas => 0x81#8
  | .twmma => 0x82#8
  | .titer => 0x83#8
  | .tpoly => 0x84#8
  | .twait => 0x85#8
  | .tver => 0x86#8
  | .tlda => 0x87#8
  | .tsta => 0x88#8
  | .tzero => 0x89#8
  | .tenq => 0x8A#8
  | .tcoef => 0x8B#8
  | .tcoefGet => 0x8B#8
  | .tcb => 0x8C#8
  | .tbld => 0x8D#8
  | .ttrn => 0x8E#8
  | .tfeed => 0x8F#8
  | .vadd => 0x90#8
  | .vmul => 0x91#8
  | .vfma => 0x92#8
  | .vmax => 0x93#8
  | .vmin => 0x94#8
  | .vexp => 0x95#8
  | .vred => 0x96#8
  | .vbcast => 0x97#8
  | .vmovRow => 0x98#8
  | .vmovGet => 0x98#8
  | .vmovPut => 0x98#8
  | .vcvt => 0x99#8
  | .raysend => 0xA0#8
  | .boxt => 0xA1#8
  | .trit => 0xA2#8
  | .tlook => 0xA3#8
  | .hitq => 0xA4#8
  | .rque => 0xA5#8
  | .recq => 0xA6#8
  | .recqHeld => 0xA6#8
  | .recj => 0xA7#8
  | .send => 0xA8#8
  | .recv => 0xA9#8
  | .abind => 0xAA#8
  | .abindUn => 0xAA#8
  | .balw => 0xAB#8
  | .cinit => 0xAC#8
  | .cred => 0xAD#8
  | .cwait => 0xAE#8
  | .baddq => 0xAF#8
  | .blkq => 0xB0#8
  | .view => 0xB1#8
  | .viewSet => 0xB1#8
  | .resid => 0xB2#8
  | .residReq => 0xB2#8
  | .trap => 0xC0#8
  | .rte => 0xC1#8
  | .brk => 0xC2#8
  | .cswap => 0xC3#8
  | .tlbi => 0xC4#8
  | .eschedLoad => 0xC5#8
  | .eschedStep => 0xC5#8
  | .eschedAdv => 0xC5#8
  | .eschedClr => 0xC5#8
  | .clkSync => 0xC6#8
  | .clkCyc => 0xC6#8
  | .clkWait => 0xC6#8
  | .perf => 0xC7#8
  | .mapq => 0xC8#8

/-- One step of the part: an instruction word's row, or a row that no word encodes (spec/opcode_table.json).
The docstring of each constructor is its row's mnemonic and governing rule.  The instruction rows act on the
issue group State.cur; an event row without operands acts on the object whose key is State.obj. -/
inductive Instr where
  /-- NOP (R227). -/
  | nop (o : Long)
  /-- MOV (R227). -/
  | mov (o : Long)
  /-- LIT (R227). -/
  | lit (o : Long)
  /-- ADD (R227). -/
  | add (o : Long)
  /-- SUB (R227). -/
  | sub (o : Long)
  /-- MUL (R227). -/
  | mul (o : Long)
  /-- MULH (R227). -/
  | mulh (o : Long)
  /-- MAD (R227). -/
  | mad (o : Long)
  /-- DIV (R228). -/
  | div (o : Long)
  /-- REM (R228). -/
  | rem (o : Long)
  /-- MIN (R227). -/
  | min (o : Long)
  /-- MAX (R227). -/
  | max (o : Long)
  /-- ABS (R227). -/
  | abs (o : Long)
  /-- NEG (R227). -/
  | neg (o : Long)
  /-- AND (R227). -/
  | and (o : Long)
  /-- OR (R227). -/
  | or (o : Long)
  /-- XOR (R227). -/
  | xor (o : Long)
  /-- NOT (R227). -/
  | not (o : Long)
  /-- SHL (R229). -/
  | shl (o : Long)
  /-- SHR (R229). -/
  | shr (o : Long)
  /-- SAR (R229). -/
  | sar (o : Long)
  /-- ROT (R229). -/
  | rot (o : Long)
  /-- BFX (R230). -/
  | bfx (o : Long)
  /-- BFI (R230). -/
  | bfi (o : Long)
  /-- POPC (R231). -/
  | popc (o : Long)
  /-- CLZ (R231). -/
  | clz (o : Long)
  /-- BREV (R231). -/
  | brev (o : Long)
  /-- SEL (R232). -/
  | sel (o : Long)
  /-- SETP (R233). -/
  | setp (o : Long)
  /-- PLOP (R234). -/
  | plop (o : Long)
  /-- LEA (R235). -/
  | lea (o : Long)
  /-- GADDR (R237). -/
  | gaddr (o : Long)
  /-- BRA (R238). -/
  | bra (o : Long)
  /-- BRX (R239). -/
  | brx (o : Long)
  /-- CALL (R240). -/
  | call (o : Long)
  /-- RET (R240). -/
  | ret (o : Long)
  /-- JOIN (R25). -/
  | join (o : Long)
  /-- LEAVE (R25). -/
  | leave (o : Long)
  /-- WAITK (R25). -/
  | waitk (o : Long)
  /-- KMOV (R242). -/
  | kmov (o : Long)
  /-- VOTE (R244). -/
  | vote (o : Long)
  /-- SHFL (R245). -/
  | shfl (o : Long)
  /-- SCAN (R246). -/
  | scan (o : Long)
  /-- REDG (R246). -/
  | redg (o : Long)
  /-- YIELD (R247). -/
  | yield (o : Long)
  /-- EXIT (R247). -/
  | exit (o : Long)
  /-- GETSR (R248). -/
  | getsr (o : Long)
  /-- SETSR (R248). -/
  | setsr (o : Long)
  /-- FADD (R254). -/
  | fadd (o : Long)
  /-- FSUB (R254). -/
  | fsub (o : Long)
  /-- FMUL (R254). -/
  | fmul (o : Long)
  /-- FFMA (R254). -/
  | ffma (o : Long)
  /-- FMIN (R255). -/
  | fmin (o : Long)
  /-- FMAX (R255). -/
  | fmax (o : Long)
  /-- FSETP (R256). -/
  | fsetp (o : Long)
  /-- FRCP (R258). -/
  | frcp (o : Long)
  /-- FDIV (R257). -/
  | fdiv (o : Long)
  /-- FSQRT (R257). -/
  | fsqrt (o : Long)
  /-- FRSQ (R258). -/
  | frsq (o : Long)
  /-- FEX2 (R258). -/
  | fex2 (o : Long)
  /-- FLG2 (R258). -/
  | flg2 (o : Long)
  /-- FSIN (R258). -/
  | fsin (o : Long)
  /-- FCOS (R258). -/
  | fcos (o : Long)
  /-- FTANH (R258). -/
  | ftanh (o : Long)
  /-- FRND (R259). -/
  | frnd (o : Long)
  /-- CVT (R260). -/
  | cvt (o : Long)
  /-- F2I (R261). -/
  | f2i (o : Long)
  /-- I2F (R262). -/
  | i2f (o : Long)
  /-- PACK (R263). -/
  | pack (o : Long)
  /-- UNPK (R264). -/
  | unpk (o : Long)
  /-- HFMA2 (R265). -/
  | hfma2 (o : Long)
  /-- DOT4 (R266). -/
  | dot4 (o : Long)
  /-- FCLS (R267). -/
  | fcls (o : Long)
  /-- FCLS_TEST (R267). -/
  | fclsTest (o : Long)
  /-- FSCALE (R254). -/
  | fscale (o : Long)
  /-- LD (R274). -/
  | ld (o : Long)
  /-- ST (R274). -/
  | st (o : Long)
  /-- LDS (R274). -/
  | lds (o : Long)
  /-- STS (R274). -/
  | sts (o : Long)
  /-- LDC (R274). -/
  | ldc (o : Long)
  /-- STC (R274). -/
  | stc (o : Long)
  /-- LDX (R275). -/
  | ldx (o : Long)
  /-- STX (R275). -/
  | stx (o : Long)
  /-- SETFE (R276). -/
  | setfe (o : Long)
  /-- ATOM (R277). -/
  | atom (o : Long)
  /-- RED (R279). -/
  | red (o : Long)
  /-- PREF (R280). -/
  | pref (o : Long)
  /-- FLUSH (R281). -/
  | flush (o : Long)
  /-- FLUSH_ALL (R281). -/
  | flushAll (o : Long)
  /-- FENCE (R282). -/
  | fence (o : Long)
  /-- GET (R283). -/
  | get (o : Long)
  /-- PUT (R284). -/
  | put (o : Long)
  /-- PUTS (R285). -/
  | puts (o : Long)
  /-- RATOM (R286). -/
  | ratom (o : Long)
  /-- BARA (R288). -/
  | bara (o : Long)
  /-- BARW (R288). -/
  | barw (o : Long)
  /-- SSTEP (R290). -/
  | sstep (o : Long)
  /-- SSTEP_BIND (R290). -/
  | sstepBind (o : Long)
  /-- ENGK (R291). -/
  | engk (o : Long)
  /-- ENGW (R293). -/
  | engw (o : Long)
  /-- TMMA (R297). -/
  | tmma (o : Long)
  /-- TMMAS (R297). -/
  | tmmas (o : Long)
  /-- TWMMA (R307). -/
  | twmma (o : Long)
  /-- TITER (R297). -/
  | titer (o : Long)
  /-- TPOLY (R297). -/
  | tpoly (o : Long)
  /-- TWAIT (R301). -/
  | twait (o : Long)
  /-- TVER (R302). -/
  | tver (o : Long)
  /-- TLDA (R299). -/
  | tlda (o : Long)
  /-- TSTA (R299). -/
  | tsta (o : Long)
  /-- TZERO (R297). -/
  | tzero (o : Long)
  /-- TENQ (R300). -/
  | tenq (o : Long)
  /-- TCOEF (R303). -/
  | tcoef (o : Long)
  /-- TCOEF_GET (R303). -/
  | tcoefGet (o : Long)
  /-- TCB (R304). -/
  | tcb (o : Long)
  /-- TBLD (R305). -/
  | tbld (o : Long)
  /-- TTRN (R297). -/
  | ttrn (o : Long)
  /-- TFEED (R297). -/
  | tfeed (o : Long)
  /-- VADD (R309). -/
  | vadd (o : Long)
  /-- VMUL (R309). -/
  | vmul (o : Long)
  /-- VFMA (R309). -/
  | vfma (o : Long)
  /-- VMAX (R309). -/
  | vmax (o : Long)
  /-- VMIN (R309). -/
  | vmin (o : Long)
  /-- VEXP (R309). -/
  | vexp (o : Long)
  /-- VRED (R311). -/
  | vred (o : Long)
  /-- VBCAST (R312). -/
  | vbcast (o : Long)
  /-- VMOV_ROW (R312). -/
  | vmovRow (o : Long)
  /-- VMOV_GET (R312). -/
  | vmovGet (o : Long)
  /-- VMOV_PUT (R312). -/
  | vmovPut (o : Long)
  /-- VCVT (R313). -/
  | vcvt (o : Long)
  /-- RAYSEND (R321). -/
  | raysend (o : Long)
  /-- BOXT (R317). -/
  | boxt (o : Long)
  /-- TRIT (R318). -/
  | trit (o : Long)
  /-- TLOOK (R319). -/
  | tlook (o : Long)
  /-- HITQ (R321). -/
  | hitq (o : Long)
  /-- RQUE (R326). -/
  | rque (o : Long)
  /-- RECQ (R321). -/
  | recq (o : Long)
  /-- RECQ_HELD (R324). -/
  | recqHeld (o : Long)
  /-- RECJ (R325). -/
  | recj (o : Long)
  /-- SEND (R321). -/
  | send (o : Long)
  /-- RECV (R327). -/
  | recv (o : Long)
  /-- ABIND (R328). -/
  | abind (o : Long)
  /-- ABIND_UN (R328). -/
  | abindUn (o : Long)
  /-- BALW (R329). -/
  | balw (o : Long)
  /-- CINIT (R330). -/
  | cinit (o : Long)
  /-- CRED (R332). -/
  | cred (o : Long)
  /-- CWAIT (R336). -/
  | cwait (o : Long)
  /-- BADDQ (R334). -/
  | baddq (o : Long)
  /-- BLKQ (R333). -/
  | blkq (o : Long)
  /-- VIEW (R335). -/
  | view (o : Long)
  /-- VIEW_SET (R335). -/
  | viewSet (o : Long)
  /-- RESID (R320). -/
  | resid (o : Long)
  /-- RESID_REQ (R320). -/
  | residReq (o : Long)
  /-- TRAP (R338). -/
  | trap (o : Long)
  /-- RTE (R339). -/
  | rte (o : Long)
  /-- BRK (R340). -/
  | brk (o : Long)
  /-- CSWAP (R341). -/
  | cswap (o : Long)
  /-- TLBI (R342). -/
  | tlbi (o : Long)
  /-- ESCHED_LOAD (R343). -/
  | eschedLoad (o : Long)
  /-- ESCHED_STEP (R343). -/
  | eschedStep (o : Long)
  /-- ESCHED_ADV (R343). -/
  | eschedAdv (o : Long)
  /-- ESCHED_CLR (R343). -/
  | eschedClr (o : Long)
  /-- CLK_SYNC (R345). -/
  | clkSync (o : Long)
  /-- CLK_CYC (R345). -/
  | clkCyc (o : Long)
  /-- CLK_WAIT (R345). -/
  | clkWait (o : Long)
  /-- PERF (R346). -/
  | perf (o : Long)
  /-- MAPQ (R344). -/
  | mapq (o : Long)
  /-- CLAUSE_START (R211). -/
  | clauseStart (kind : BitVec 2) (length : BitVec 8) (setb : BitVec 4) (seta : BitVec 4) (wait : BitVec 12)
  /-- MOV_SHORT (R214). -/
  | movShort (a : BitVec 9) (d : BitVec 9)
  /-- ADD_SHORT (R214). -/
  | addShort (a : BitVec 9) (d : BitVec 9)
  /-- SUB_SHORT (R214). -/
  | subShort (a : BitVec 9) (d : BitVec 9)
  /-- ADDI (R214). -/
  | addi (i : BitVec 6) (a : BitVec 9) (d : BitVec 9)
  /-- SHLI (R214). -/
  | shli (i : BitVec 6) (a : BitVec 9) (d : BitVec 9)
  /-- SHRI (R214). -/
  | shri (i : BitVec 6) (a : BitVec 9) (d : BitVec 9)
  /-- SARI (R214). -/
  | sari (i : BitVec 6) (a : BitVec 9) (d : BitVec 9)
  /-- ANDI (R214). -/
  | andi (i : BitVec 6) (a : BitVec 9) (d : BitVec 9)
  /-- LIS (R214). -/
  | lis (lo : BitVec 6) (hi : BitVec 9) (d : BitVec 9)
  /-- FADD_SHORT (R214). -/
  | faddShort (a : BitVec 9) (d : BitVec 9)
  /-- FMUL_SHORT (R214). -/
  | fmulShort (a : BitVec 9) (d : BitVec 9)
  /-- LDW (R214). -/
  | ldw (i : BitVec 6) (a : BitVec 9) (d : BitVec 9)
  /-- STW (R214). -/
  | stw (i : BitVec 6) (a : BitVec 9) (d : BitVec 9)
  /-- LDSW (R214). -/
  | ldsw (i : BitVec 6) (a : BitVec 9) (d : BitVec 9)
  /-- STSW (R214). -/
  | stsw (i : BitVec 6) (a : BitVec 9) (d : BitVec 9)
  /-- JOIN_SHORT (R214). -/
  | joinShort (k : BitVec 4)
  /-- LEAVE_SHORT (R214). -/
  | leaveShort (k : BitVec 4)
  /-- WAITK_SHORT (R214). -/
  | waitkShort (k : BitVec 4)
  /-- BRA_SHORT (R201). -/
  | braShort (off : BitVec 19) (neg : BitVec 1) (gp : BitVec 4)
  /-- CALL_SHORT (R201). -/
  | callShort (off : BitVec 19) (neg : BitVec 1) (gp : BitVec 4)
  /-- NOP_SHORT (R214). -/
  | nopShort
  /-- RET_SHORT (R214). -/
  | retShort
  /-- EXIT_SHORT (R214). -/
  | exitShort
  /-- YIELD_SHORT (R214). -/
  | yieldShort
  /-- OPERATION_COMPLETE (R212). -/
  | operationComplete (thread : Nat) (op : Nat)
  /-- L1_MISS_FILL (R65). -/
  | l1MissFill (core : Nat) (line : Nat)
  /-- TABLE_WALK_END (R402). -/
  | tableWalkEnd (die : Nat) (walk : Nat)
  /-- TRANSLATION_TIMEOUT (R404). -/
  | translationTimeout (die : Nat) (walk : Nat)
  /-- SCRUB (R412). -/
  | scrub (line : Nat) (found : ScrubFinding)
  /-- UNCORRECTABLE_L1_LINE_LOSS (R414). -/
  | uncorrectableL1LineLoss (core : Nat) (line : Nat)
  /-- EVHEAD (R366). -/
  | evhead (value : Word)
  /-- PLACEMENT_RETRY (R111). -/
  | placementRetry (slice : Nat) (treelet : Nat)
  /-- CREDIT_RETURN_TIMEOUT (R156). -/
  | creditReturnTimeout (core : Nat) (src : Nat)
  /-- MESH_FLIT_CRC_FAIL (R429). -/
  | meshFlitCrcFail (link : Link)
  /-- DRINYX_UNIT_RECEIVE (R430). -/
  | drinyxUnitReceive (port : Nat) (unit : DrinyxUnit)
  /-- DRINYX_REPLAY_REQUEST (R430). -/
  | drinyxReplayRequest (port : Nat) (seq : Nat)
  /-- REATTESTATION_COMPLETE (R431). -/
  | reattestationComplete (port : Nat) (ok : Bool)
  /-- PORT_TRAINING (R155). -/
  | portTraining (port : Nat) (farPackage : Nat) (farPort : Nat) (ok : Bool)
  /-- DIE_REJOIN (R438). -/
  | dieRejoin (die : Nat) (passed : Bool)
  /-- PACKAGE_RESET (R172). -/
  | packageReset (boot : BootOutcome)
  /-- HOST_POSTED_WRITE (R96). -/
  | hostPostedWrite (pa : Nat) (data : List Byte) (poisoned : Bool)
  /-- HOST_READ (R96). -/
  | hostRead (pa : Nat) (len : Nat)
  /-- RESET_PACKAGE (R375). -/
  | resetPackage (ring : Nat) (boot : BootOutcome)
  /-- CRBASE (R368). -/
  | crbase (ring : Nat) (value : DWord)
  /-- PRESUME (R41). -/
  | presume (core : Nat) (value : Word)
  /-- PRAISE_TEAM (R49). -/
  | praiseTeam (core : Nat) (slot : Nat)
  /-- DBGCTL_RESUME (R340). -/
  | dbgctlResume (core : Nat) (slot : Nat)
  /-- TABORT (R387). -/
  | tabort (core : Nat) (slot : Nat)
  /-- PERFSEL (R346). -/
  | perfsel (core : Nat) (value : Word)
  /-- PERFCLR (R346). -/
  | perfclr (core : Nat) (value : Word)
  /-- MXCLR (R397). -/
  | mxclr (core : Nat) (value : Word)
  /-- DSIZE (R121). -/
  | dsize (slice : Nat) (value : Word)
  /-- REPAGE (R421). -/
  | repage (slice : Nat) (treelet : Word)
  /-- REGISTER_WRITE (R13). -/
  | registerWrite (ep : Nat) (offset : Nat) (data : List Byte)
  /-- KICK (R291). -/
  | kick (hart : Nat) (asid : Nat) (desc : DWord)
  /-- VIEW_INSTALL_ACKNOWLEDGMENT (R159). -/
  | viewInstallAcknowledgment (domain : Nat) (die : Nat)
  /-- FAIRNESS_WINDOW_EXPIRY (R22); acts on the group named by State.obj. -/
  | fairnessWindowExpiry
  /-- LATE_REFUSAL_TRAP (R391); acts on the thread named by State.obj. -/
  | lateRefusalTrap
  /-- TEAM_ADMIT (R29); acts on the grid named by State.obj. -/
  | teamAdmit
  /-- CLUSTER_START (R31); acts on the grid named by State.obj. -/
  | clusterStart
  /-- TEAM_RETIRE (R30); acts on the team named by State.obj. -/
  | teamRetire
  /-- RECORD_THREAD_START (R36); acts on the core named by State.obj. -/
  | recordThreadStart
  /-- WAVE_FORM (R37); acts on the core named by State.obj. -/
  | waveForm
  /-- WAVE_WAIT_EXPIRY (R37); acts on the core named by State.obj. -/
  | waveWaitExpiry
  /-- TILE_TASK_RECORD_DISPATCH (R38); acts on the core named by State.obj. -/
  | tileTaskRecordDispatch
  /-- PREEMPT_FORCED (R40); acts on the team named by State.obj. -/
  | preemptForced
  /-- PREEMPT_SAVE_COMPLETE (R40); acts on the team named by State.obj. -/
  | preemptSaveComplete
  /-- TEAM_RESTORE (R41); acts on the team named by State.obj. -/
  | teamRestore
  /-- PRIORITY0_PREEMPTION (R43); acts on the core named by State.obj. -/
  | priority0Preemption
  /-- CONTEXT_SWAP_DECISION (R45); acts on the core named by State.obj. -/
  | contextSwapDecision
  /-- CONTEXT_SWAP_COMPLETE (R45); acts on the core named by State.obj. -/
  | contextSwapComplete
  /-- TILE_TASK_START (R131); acts on the core named by State.obj. -/
  | tileTaskStart
  /-- SHAWM_STEP (R134); acts on the core named by State.obj. -/
  | shawmStep
  /-- TILE_TASK_COMPLETE (R130); acts on the core named by State.obj. -/
  | tileTaskComplete
  /-- TWMMA_RUN (R308); acts on the core named by State.obj. -/
  | twmmaRun
  /-- VERSION_UNREACHABLE (R395); acts on the team named by State.obj. -/
  | versionUnreachable
  /-- HART_JOB_START (R93); acts on the hart named by State.obj. -/
  | hartJobStart
  /-- MAILBOX_POLL_TRY (R293); acts on the thread named by State.obj. -/
  | mailboxPollTry
  /-- CLOCK_WAIT_EXPIRY (R345); acts on the thread named by State.obj. -/
  | clockWaitExpiry
  /-- REQ_READ (R67); acts on the packet named by State.obj. -/
  | reqRead
  /-- REQ_WRITE (R67); acts on the packet named by State.obj. -/
  | reqWrite
  /-- REQ_ATOMIC (R278); acts on the packet named by State.obj. -/
  | reqAtomic
  /-- REQ_REDUCTION (R73); acts on the packet named by State.obj. -/
  | reqReduction
  /-- REQ_GET (R283); acts on the packet named by State.obj. -/
  | reqGet
  /-- REQ_PUT_PAYLOAD (R284); acts on the packet named by State.obj. -/
  | reqPutPayload
  /-- REQ_PUTS_PAYLOAD (R285); acts on the packet named by State.obj. -/
  | reqPutsPayload
  /-- REQ_PUTS_SIGNAL (R285); acts on the packet named by State.obj. -/
  | reqPutsSignal
  /-- REQ_RATOM (R286); acts on the packet named by State.obj. -/
  | reqRatom
  /-- REQ_FULL_EMPTY_ACCESS (R71); acts on the packet named by State.obj. -/
  | reqFullEmptyAccess
  /-- REQ_SPILL_WRITE (R118); acts on the packet named by State.obj. -/
  | reqSpillWrite
  /-- REQ_TABLE_WALK_READ (R74); acts on the packet named by State.obj. -/
  | reqTableWalkRead
  /-- SSTEP_ARRIVAL_AT_HOME (R290); acts on the packet named by State.obj. -/
  | sstepArrivalAtHome
  /-- RSP_DATA (R144); acts on the packet named by State.obj. -/
  | rspData
  /-- RSP_ACKNOWLEDGMENT (R144); acts on the packet named by State.obj. -/
  | rspAcknowledgment
  /-- RSP_REFUSAL (R401); acts on the packet named by State.obj. -/
  | rspRefusal
  /-- FE_RETRY_RESEND (R409); acts on the thread named by State.obj. -/
  | feRetryResend
  /-- FE_WAIT_TIMEOUT (R410); acts on the thread named by State.obj. -/
  | feWaitTimeout
  /-- EVENT_RECORD_WRITE (R365). -/
  | eventRecordWrite
  /-- RAY_ARRIVAL_AT_CORE (R115); acts on the packet named by State.obj. -/
  | rayArrivalAtCore
  /-- RAY_ARRIVAL_AT_SLICE (R113); acts on the packet named by State.obj. -/
  | rayArrivalAtSlice
  /-- ROUTE_FILL (R108); acts on the packet named by State.obj. -/
  | routeFill
  /-- ROUTE_UPDATE (R108); acts on the packet named by State.obj. -/
  | routeUpdate
  /-- GRANT_REQUEST (R111); acts on the packet named by State.obj. -/
  | grantRequest
  /-- RESERVATION_RELEASE (R420); acts on the packet named by State.obj. -/
  | reservationRelease
  /-- GRANT_REPLY (R112); acts on the packet named by State.obj. -/
  | grantReply
  /-- PAGE_FLIT (R112); acts on the packet named by State.obj. -/
  | pageFlit
  /-- INSTALL (R112); acts on the packet named by State.obj. -/
  | install
  /-- COUNTER_INCREMENT (R110); acts on the packet named by State.obj. -/
  | counterIncrement
  /-- EVICTION_REPORT (R113); acts on the packet named by State.obj. -/
  | evictionReport
  /-- COUNTER_DECAY (R110); acts on the slice named by State.obj. -/
  | counterDecay
  /-- RESIDENCY_QUERY_OR_REQUEST (R117); acts on the packet named by State.obj. -/
  | residencyQueryOrRequest
  /-- RESIDENCY_REPLY (R320); acts on the packet named by State.obj. -/
  | residencyReply
  /-- RETIRE_NOTICE (R442); acts on the packet named by State.obj. -/
  | retireNotice
  /-- HIT_ARRIVAL (R37); acts on the packet named by State.obj. -/
  | hitArrival
  /-- MESSAGE_ARRIVAL (R321); acts on the packet named by State.obj. -/
  | messageArrival
  /-- REMOTE_RECORD_ARRIVAL (R321); acts on the packet named by State.obj. -/
  | remoteRecordArrival
  /-- RECJ_ARRIVAL (R325); acts on the packet named by State.obj. -/
  | recjArrival
  /-- COLLECTIVE_BLOCK_ARRIVAL (R161); acts on the packet named by State.obj. -/
  | collectiveBlockArrival
  /-- CREDIT_RETURN (R156); acts on the packet named by State.obj. -/
  | creditReturn
  /-- BROADCAST (R140); acts on the packet named by State.obj. -/
  | broadcast
  /-- PREEMPTION_REQUEST_MESSAGE (R145); acts on the packet named by State.obj. -/
  | preemptionRequestMessage
  /-- INCARNATION_UPDATE (R152); acts on the packet named by State.obj. -/
  | incarnationUpdate
  /-- DRINYX_PARTIAL_UNIT (R154); acts on the port named by State.obj. -/
  | drinyxPartialUnit
  /-- REATTESTATION_TIMEOUT (R431); acts on the port named by State.obj. -/
  | reattestationTimeout
  /-- SESSION_REKEY (R153); acts on the port named by State.obj. -/
  | sessionRekey
  /-- DIE_HEARTBEAT (R434). -/
  | dieHeartbeat
  /-- HEARTBEAT_ANSWER (R434); acts on the packet named by State.obj. -/
  | heartbeatAnswer
  /-- DIE_HEARTBEAT_MISSED (R434); acts on the die named by State.obj. -/
  | dieHeartbeatMissed
  /-- DIE_LOST (R434); acts on the die named by State.obj. -/
  | dieLost
  /-- DIE_DRAINED (R435); acts on the die named by State.obj. -/
  | dieDrained
  /-- PACKAGE_UNREACHABLE (R432); acts on the pkg named by State.obj. -/
  | packageUnreachable
  /-- VIEW_PROPOSE (R159); acts on the packet named by State.obj. -/
  | viewPropose
  /-- VIEW_ACCEPT (R159); acts on the packet named by State.obj. -/
  | viewAccept
  /-- VIEW_REJECT (R159); acts on the packet named by State.obj. -/
  | viewReject
  /-- VIEW_COMMIT (R159); acts on the packet named by State.obj. -/
  | viewCommit
  /-- VIEW_JOIN (R449); acts on the packet named by State.obj. -/
  | viewJoin
  /-- LOSS_REPORT (R446); acts on the packet named by State.obj. -/
  | lossReport
  /-- CHALUMEAU_HEARTBEAT (R446). -/
  | chalumeauHeartbeat
  /-- CHALUMEAU_HEARTBEAT_LOSS (R446); acts on the pkg named by State.obj. -/
  | chalumeauHeartbeatLoss
  /-- HOST_LINK_DOWN (R369); acts on the link of the gateway named by State.obj, or of the host port. -/
  | hostLinkDown
  /-- HOST_LINK_RETRAINED (R369); acts on the link of the gateway named by State.obj, or of the host port. -/
  | hostLinkRetrained
  /-- HOST_LINK_CORRECTED_ERROR (R369). -/
  | hostLinkCorrectedError
  /-- SERVICE_CORE_TAKEOVER (R371). -/
  | serviceCoreTakeover
  /-- LIFETIME_FOLD (R176). -/
  | lifetimeFold
  /-- TEMPERATURE_THROTTLE (R7); acts on the die named by State.obj. -/
  | temperatureThrottle
  /-- TEMPERATURE_RECOVER (R370); acts on the die named by State.obj. -/
  | temperatureRecover
  /-- TEMPERATURE_SHUTDOWN (R370); acts on the die named by State.obj. -/
  | temperatureShutdown
  /-- SUPPLY_DROOP (R370); acts on the die named by State.obj. -/
  | supplyDroop
  /-- LAUNCH (R170); completes the grid named by State.obj, or accepts the command in hand. -/
  | launch
  /-- MAP (R168); acts on the command in hand. -/
  | map
  /-- UNMAP (R168); acts on the command in hand. -/
  | unmap
  /-- REPLAY_ALL (R403); acts on the command in hand. -/
  | replayAll
  /-- QUEUE_SETUP (R168); acts on the command in hand. -/
  | queueSetup
  /-- VIEW_SETUP (R158); acts on the command in hand. -/
  | viewSetup
  /-- VIEW_CHANGE (R159); acts on the command in hand. -/
  | viewChange
  /-- RESET_DIE (R375); acts on the command in hand. -/
  | resetDie
  /-- ATTEST (R174); acts on the command in hand. -/
  | attest
  /-- CONFIG_READ (R168); acts on the command in hand. -/
  | configRead
  /-- PORT_SETUP (R168); acts on the command in hand. -/
  | portSetup
  /-- HOST_SWITCH (R171); acts on the command in hand. -/
  | hostSwitch
  /-- LIFETIME_READ (R176); acts on the command in hand. -/
  | lifetimeRead
  /-- PLAOD_UNASSIGNED_OPCODE (R367); acts on the command in hand. -/
  | plaodUnassignedOpcode
  /-- PRAISE_ALL (R49); acts on the core named by State.obj. -/
  | praiseAll
  /-- PENDING_UPDATE_AT_HOME (R91); acts on the packet named by State.obj. -/
  | pendingUpdateAtHome
  /-- CHALUMEAU_HEARTBEAT_ARRIVAL (R446); acts on the packet named by State.obj. -/
  | chalumeauHeartbeatArrival
  deriving DecidableEq, Repr

/-- The long row with its operand fields, for the rows of the long format. -/
def Instr.long? : Instr → Option (LongOp × Long)
  | .clauseStart _ _ _ _ _ => none
  | .fairnessWindowExpiry => none
  | .operationComplete _ _ => none
  | .lateRefusalTrap => none
  | .teamAdmit => none
  | .clusterStart => none
  | .teamRetire => none
  | .recordThreadStart => none
  | .waveForm => none
  | .waveWaitExpiry => none
  | .tileTaskRecordDispatch => none
  | .preemptForced => none
  | .preemptSaveComplete => none
  | .teamRestore => none
  | .priority0Preemption => none
  | .contextSwapDecision => none
  | .contextSwapComplete => none
  | .tileTaskStart => none
  | .shawmStep => none
  | .tileTaskComplete => none
  | .twmmaRun => none
  | .versionUnreachable => none
  | .hartJobStart => none
  | .mailboxPollTry => none
  | .clockWaitExpiry => none
  | .l1MissFill _ _ => none
  | .reqRead => none
  | .reqWrite => none
  | .reqAtomic => none
  | .reqReduction => none
  | .reqGet => none
  | .reqPutPayload => none
  | .reqPutsPayload => none
  | .reqPutsSignal => none
  | .reqRatom => none
  | .reqFullEmptyAccess => none
  | .reqSpillWrite => none
  | .reqTableWalkRead => none
  | .sstepArrivalAtHome => none
  | .rspData => none
  | .rspAcknowledgment => none
  | .rspRefusal => none
  | .feRetryResend => none
  | .feWaitTimeout => none
  | .tableWalkEnd _ _ => none
  | .translationTimeout _ _ => none
  | .scrub _ _ => none
  | .uncorrectableL1LineLoss _ _ => none
  | .eventRecordWrite => none
  | .evhead _ => none
  | .rayArrivalAtCore => none
  | .rayArrivalAtSlice => none
  | .routeFill => none
  | .routeUpdate => none
  | .grantRequest => none
  | .reservationRelease => none
  | .grantReply => none
  | .placementRetry _ _ => none
  | .pageFlit => none
  | .install => none
  | .counterIncrement => none
  | .evictionReport => none
  | .counterDecay => none
  | .residencyQueryOrRequest => none
  | .residencyReply => none
  | .retireNotice => none
  | .hitArrival => none
  | .messageArrival => none
  | .remoteRecordArrival => none
  | .recjArrival => none
  | .collectiveBlockArrival => none
  | .creditReturn => none
  | .creditReturnTimeout _ _ => none
  | .broadcast => none
  | .preemptionRequestMessage => none
  | .incarnationUpdate => none
  | .meshFlitCrcFail _ => none
  | .drinyxUnitReceive _ _ => none
  | .drinyxReplayRequest _ _ => none
  | .drinyxPartialUnit => none
  | .reattestationComplete _ _ => none
  | .reattestationTimeout => none
  | .sessionRekey => none
  | .portTraining _ _ _ _ => none
  | .dieHeartbeat => none
  | .heartbeatAnswer => none
  | .dieHeartbeatMissed => none
  | .dieLost => none
  | .dieDrained => none
  | .dieRejoin _ _ => none
  | .packageUnreachable => none
  | .viewPropose => none
  | .viewAccept => none
  | .viewReject => none
  | .viewCommit => none
  | .viewJoin => none
  | .lossReport => none
  | .chalumeauHeartbeat => none
  | .chalumeauHeartbeatLoss => none
  | .packageReset _ => none
  | .hostPostedWrite _ _ _ => none
  | .hostRead _ _ => none
  | .hostLinkDown => none
  | .hostLinkRetrained => none
  | .hostLinkCorrectedError => none
  | .serviceCoreTakeover => none
  | .lifetimeFold => none
  | .temperatureThrottle => none
  | .temperatureRecover => none
  | .temperatureShutdown => none
  | .supplyDroop => none
  | .launch => none
  | .map => none
  | .unmap => none
  | .replayAll => none
  | .queueSetup => none
  | .viewSetup => none
  | .viewChange => none
  | .resetDie => none
  | .resetPackage _ _ => none
  | .attest => none
  | .configRead => none
  | .portSetup => none
  | .hostSwitch => none
  | .lifetimeRead => none
  | .plaodUnassignedOpcode => none
  | .crbase _ _ => none
  | .presume _ _ => none
  | .praiseAll => none
  | .praiseTeam _ _ => none
  | .dbgctlResume _ _ => none
  | .tabort _ _ => none
  | .perfsel _ _ => none
  | .perfclr _ _ => none
  | .mxclr _ _ => none
  | .dsize _ _ => none
  | .repage _ _ => none
  | .registerWrite _ _ _ => none
  | .nop o => some (.nop, o)
  | .mov o => some (.mov, o)
  | .lit o => some (.lit, o)
  | .add o => some (.add, o)
  | .sub o => some (.sub, o)
  | .mul o => some (.mul, o)
  | .mulh o => some (.mulh, o)
  | .mad o => some (.mad, o)
  | .div o => some (.div, o)
  | .rem o => some (.rem, o)
  | .min o => some (.min, o)
  | .max o => some (.max, o)
  | .abs o => some (.abs, o)
  | .neg o => some (.neg, o)
  | .and o => some (.and, o)
  | .or o => some (.or, o)
  | .xor o => some (.xor, o)
  | .not o => some (.not, o)
  | .shl o => some (.shl, o)
  | .shr o => some (.shr, o)
  | .sar o => some (.sar, o)
  | .rot o => some (.rot, o)
  | .bfx o => some (.bfx, o)
  | .bfi o => some (.bfi, o)
  | .popc o => some (.popc, o)
  | .clz o => some (.clz, o)
  | .brev o => some (.brev, o)
  | .sel o => some (.sel, o)
  | .setp o => some (.setp, o)
  | .plop o => some (.plop, o)
  | .lea o => some (.lea, o)
  | .gaddr o => some (.gaddr, o)
  | .bra o => some (.bra, o)
  | .brx o => some (.brx, o)
  | .call o => some (.call, o)
  | .ret o => some (.ret, o)
  | .join o => some (.join, o)
  | .leave o => some (.leave, o)
  | .waitk o => some (.waitk, o)
  | .kmov o => some (.kmov, o)
  | .vote o => some (.vote, o)
  | .shfl o => some (.shfl, o)
  | .scan o => some (.scan, o)
  | .redg o => some (.redg, o)
  | .yield o => some (.yield, o)
  | .exit o => some (.exit, o)
  | .getsr o => some (.getsr, o)
  | .setsr o => some (.setsr, o)
  | .fadd o => some (.fadd, o)
  | .fsub o => some (.fsub, o)
  | .fmul o => some (.fmul, o)
  | .ffma o => some (.ffma, o)
  | .fmin o => some (.fmin, o)
  | .fmax o => some (.fmax, o)
  | .fsetp o => some (.fsetp, o)
  | .frcp o => some (.frcp, o)
  | .fdiv o => some (.fdiv, o)
  | .fsqrt o => some (.fsqrt, o)
  | .frsq o => some (.frsq, o)
  | .fex2 o => some (.fex2, o)
  | .flg2 o => some (.flg2, o)
  | .fsin o => some (.fsin, o)
  | .fcos o => some (.fcos, o)
  | .ftanh o => some (.ftanh, o)
  | .frnd o => some (.frnd, o)
  | .cvt o => some (.cvt, o)
  | .f2i o => some (.f2i, o)
  | .i2f o => some (.i2f, o)
  | .pack o => some (.pack, o)
  | .unpk o => some (.unpk, o)
  | .hfma2 o => some (.hfma2, o)
  | .dot4 o => some (.dot4, o)
  | .fcls o => some (.fcls, o)
  | .fclsTest o => some (.fclsTest, o)
  | .fscale o => some (.fscale, o)
  | .ld o => some (.ld, o)
  | .st o => some (.st, o)
  | .lds o => some (.lds, o)
  | .sts o => some (.sts, o)
  | .ldc o => some (.ldc, o)
  | .stc o => some (.stc, o)
  | .ldx o => some (.ldx, o)
  | .stx o => some (.stx, o)
  | .setfe o => some (.setfe, o)
  | .atom o => some (.atom, o)
  | .red o => some (.red, o)
  | .pref o => some (.pref, o)
  | .flush o => some (.flush, o)
  | .flushAll o => some (.flushAll, o)
  | .fence o => some (.fence, o)
  | .get o => some (.get, o)
  | .put o => some (.put, o)
  | .puts o => some (.puts, o)
  | .ratom o => some (.ratom, o)
  | .bara o => some (.bara, o)
  | .barw o => some (.barw, o)
  | .sstep o => some (.sstep, o)
  | .sstepBind o => some (.sstepBind, o)
  | .engk o => some (.engk, o)
  | .engw o => some (.engw, o)
  | .tmma o => some (.tmma, o)
  | .tmmas o => some (.tmmas, o)
  | .twmma o => some (.twmma, o)
  | .titer o => some (.titer, o)
  | .tpoly o => some (.tpoly, o)
  | .twait o => some (.twait, o)
  | .tver o => some (.tver, o)
  | .tlda o => some (.tlda, o)
  | .tsta o => some (.tsta, o)
  | .tzero o => some (.tzero, o)
  | .tenq o => some (.tenq, o)
  | .tcoef o => some (.tcoef, o)
  | .tcoefGet o => some (.tcoefGet, o)
  | .tcb o => some (.tcb, o)
  | .tbld o => some (.tbld, o)
  | .ttrn o => some (.ttrn, o)
  | .tfeed o => some (.tfeed, o)
  | .vadd o => some (.vadd, o)
  | .vmul o => some (.vmul, o)
  | .vfma o => some (.vfma, o)
  | .vmax o => some (.vmax, o)
  | .vmin o => some (.vmin, o)
  | .vexp o => some (.vexp, o)
  | .vred o => some (.vred, o)
  | .vbcast o => some (.vbcast, o)
  | .vmovRow o => some (.vmovRow, o)
  | .vmovGet o => some (.vmovGet, o)
  | .vmovPut o => some (.vmovPut, o)
  | .vcvt o => some (.vcvt, o)
  | .raysend o => some (.raysend, o)
  | .boxt o => some (.boxt, o)
  | .trit o => some (.trit, o)
  | .tlook o => some (.tlook, o)
  | .hitq o => some (.hitq, o)
  | .rque o => some (.rque, o)
  | .recq o => some (.recq, o)
  | .recqHeld o => some (.recqHeld, o)
  | .recj o => some (.recj, o)
  | .send o => some (.send, o)
  | .recv o => some (.recv, o)
  | .abind o => some (.abind, o)
  | .abindUn o => some (.abindUn, o)
  | .balw o => some (.balw, o)
  | .cinit o => some (.cinit, o)
  | .cred o => some (.cred, o)
  | .cwait o => some (.cwait, o)
  | .baddq o => some (.baddq, o)
  | .blkq o => some (.blkq, o)
  | .view o => some (.view, o)
  | .viewSet o => some (.viewSet, o)
  | .resid o => some (.resid, o)
  | .residReq o => some (.residReq, o)
  | .trap o => some (.trap, o)
  | .rte o => some (.rte, o)
  | .brk o => some (.brk, o)
  | .cswap o => some (.cswap, o)
  | .tlbi o => some (.tlbi, o)
  | .eschedLoad o => some (.eschedLoad, o)
  | .eschedStep o => some (.eschedStep, o)
  | .eschedAdv o => some (.eschedAdv, o)
  | .eschedClr o => some (.eschedClr, o)
  | .clkSync o => some (.clkSync, o)
  | .clkCyc o => some (.clkCyc, o)
  | .clkWait o => some (.clkWait, o)
  | .perf o => some (.perf, o)
  | .mapq o => some (.mapq, o)
  | .movShort _ _ => none
  | .addShort _ _ => none
  | .subShort _ _ => none
  | .addi _ _ _ => none
  | .shli _ _ _ => none
  | .shri _ _ _ => none
  | .sari _ _ _ => none
  | .andi _ _ _ => none
  | .lis _ _ _ => none
  | .faddShort _ _ => none
  | .fmulShort _ _ => none
  | .ldw _ _ _ => none
  | .stw _ _ _ => none
  | .ldsw _ _ _ => none
  | .stsw _ _ _ => none
  | .joinShort _ => none
  | .leaveShort _ => none
  | .waitkShort _ => none
  | .braShort _ _ _ => none
  | .callShort _ _ _ => none
  | .nopShort => none
  | .retShort => none
  | .exitShort => none
  | .yieldShort => none
  | .pendingUpdateAtHome => none
  | .kick _ _ _ => none
  | .chalumeauHeartbeatArrival => none
  | .viewInstallAcknowledgment _ _ => none

/-- The instruction of a long row. -/
def LongOp.instr (op : LongOp) (o : Long) : Instr :=
  match op with
  | .nop => .nop o
  | .mov => .mov o
  | .lit => .lit o
  | .add => .add o
  | .sub => .sub o
  | .mul => .mul o
  | .mulh => .mulh o
  | .mad => .mad o
  | .div => .div o
  | .rem => .rem o
  | .min => .min o
  | .max => .max o
  | .abs => .abs o
  | .neg => .neg o
  | .and => .and o
  | .or => .or o
  | .xor => .xor o
  | .not => .not o
  | .shl => .shl o
  | .shr => .shr o
  | .sar => .sar o
  | .rot => .rot o
  | .bfx => .bfx o
  | .bfi => .bfi o
  | .popc => .popc o
  | .clz => .clz o
  | .brev => .brev o
  | .sel => .sel o
  | .setp => .setp o
  | .plop => .plop o
  | .lea => .lea o
  | .gaddr => .gaddr o
  | .bra => .bra o
  | .brx => .brx o
  | .call => .call o
  | .ret => .ret o
  | .join => .join o
  | .leave => .leave o
  | .waitk => .waitk o
  | .kmov => .kmov o
  | .vote => .vote o
  | .shfl => .shfl o
  | .scan => .scan o
  | .redg => .redg o
  | .yield => .yield o
  | .exit => .exit o
  | .getsr => .getsr o
  | .setsr => .setsr o
  | .fadd => .fadd o
  | .fsub => .fsub o
  | .fmul => .fmul o
  | .ffma => .ffma o
  | .fmin => .fmin o
  | .fmax => .fmax o
  | .fsetp => .fsetp o
  | .frcp => .frcp o
  | .fdiv => .fdiv o
  | .fsqrt => .fsqrt o
  | .frsq => .frsq o
  | .fex2 => .fex2 o
  | .flg2 => .flg2 o
  | .fsin => .fsin o
  | .fcos => .fcos o
  | .ftanh => .ftanh o
  | .frnd => .frnd o
  | .cvt => .cvt o
  | .f2i => .f2i o
  | .i2f => .i2f o
  | .pack => .pack o
  | .unpk => .unpk o
  | .hfma2 => .hfma2 o
  | .dot4 => .dot4 o
  | .fcls => .fcls o
  | .fclsTest => .fclsTest o
  | .fscale => .fscale o
  | .ld => .ld o
  | .st => .st o
  | .lds => .lds o
  | .sts => .sts o
  | .ldc => .ldc o
  | .stc => .stc o
  | .ldx => .ldx o
  | .stx => .stx o
  | .setfe => .setfe o
  | .atom => .atom o
  | .red => .red o
  | .pref => .pref o
  | .flush => .flush o
  | .flushAll => .flushAll o
  | .fence => .fence o
  | .get => .get o
  | .put => .put o
  | .puts => .puts o
  | .ratom => .ratom o
  | .bara => .bara o
  | .barw => .barw o
  | .sstep => .sstep o
  | .sstepBind => .sstepBind o
  | .engk => .engk o
  | .engw => .engw o
  | .tmma => .tmma o
  | .tmmas => .tmmas o
  | .twmma => .twmma o
  | .titer => .titer o
  | .tpoly => .tpoly o
  | .twait => .twait o
  | .tver => .tver o
  | .tlda => .tlda o
  | .tsta => .tsta o
  | .tzero => .tzero o
  | .tenq => .tenq o
  | .tcoef => .tcoef o
  | .tcoefGet => .tcoefGet o
  | .tcb => .tcb o
  | .tbld => .tbld o
  | .ttrn => .ttrn o
  | .tfeed => .tfeed o
  | .vadd => .vadd o
  | .vmul => .vmul o
  | .vfma => .vfma o
  | .vmax => .vmax o
  | .vmin => .vmin o
  | .vexp => .vexp o
  | .vred => .vred o
  | .vbcast => .vbcast o
  | .vmovRow => .vmovRow o
  | .vmovGet => .vmovGet o
  | .vmovPut => .vmovPut o
  | .vcvt => .vcvt o
  | .raysend => .raysend o
  | .boxt => .boxt o
  | .trit => .trit o
  | .tlook => .tlook o
  | .hitq => .hitq o
  | .rque => .rque o
  | .recq => .recq o
  | .recqHeld => .recqHeld o
  | .recj => .recj o
  | .send => .send o
  | .recv => .recv o
  | .abind => .abind o
  | .abindUn => .abindUn o
  | .balw => .balw o
  | .cinit => .cinit o
  | .cred => .cred o
  | .cwait => .cwait o
  | .baddq => .baddq o
  | .blkq => .blkq o
  | .view => .view o
  | .viewSet => .viewSet o
  | .resid => .resid o
  | .residReq => .residReq o
  | .trap => .trap o
  | .rte => .rte o
  | .brk => .brk o
  | .cswap => .cswap o
  | .tlbi => .tlbi o
  | .eschedLoad => .eschedLoad o
  | .eschedStep => .eschedStep o
  | .eschedAdv => .eschedAdv o
  | .eschedClr => .eschedClr o
  | .clkSync => .clkSync o
  | .clkCyc => .clkCyc o
  | .clkWait => .clkWait o
  | .perf => .perf o
  | .mapq => .mapq o

end Sys2Proof
end

