-- ==== Sys2Proof/Decode.lean ====
section
/-! DEFINITION. Reading an instruction word and writing one: the formats of R198 to R209, the short map of R214 and the
long map of R215.  Fields are taken apart here, once.  After the decoder stands the encoder. -/

namespace Sys2Proof

/-! ## Fields of SUB13 (R206) -/

/-- TYPE, SUB13 3:0. -/
def Long.ty (o : Long) : BitVec 4 := o.sub.extractLsb' 0 4
/-- RM, SUB13 6:4. -/
def Long.rm (o : Long) : BitVec 3 := o.sub.extractLsb' 4 3
/-- SAT, SUB13 7. -/
def Long.sat (o : Long) : Bool := o.sub.getLsbD 7
/-- P5, SUB13 12:8. -/
def Long.p5 (o : Long) : BitVec 5 := o.sub.extractLsb' 8 5
/-- SIZE, SUB13 2:0 of the memory layout. -/
def Long.size (o : Long) : BitVec 3 := o.sub.extractLsb' 0 3
/-- SCOPE, SUB13 5:3. -/
def Long.scope (o : Long) : BitVec 3 := o.sub.extractLsb' 3 3
/-- ORD, SUB13 7:6. -/
def Long.ord (o : Long) : BitVec 2 := o.sub.extractLsb' 6 2
/-- MODE, SUB13 10:8. -/
def Long.mode (o : Long) : BitVec 3 := o.sub.extractLsb' 8 3
/-- The signed word offset of BRA and relative CALL: word 1 bits 26:0 (R238). -/
def Long.off27 (o : Long) : BitVec 27 := o.e ++ o.c ++ o.b
/-- The special-register index of GETSR and SETSR (R248). -/
def Long.srIndex (o : Long) : Nat := (o.m4.extractLsb' 0 3).toNat * 512 + o.b.toNat

/-! ## Decoding -/

/-- Why a word is no instruction. -/
inductive DecodeError where
  /-- No bytes are left. -/
  | nothing
  /-- The instruction extends past the words given. -/
  | truncated
  /-- OP8 is unassigned (R215). -/
  | unassignedOp8 (code : BitVec 8)
  /-- OP6 is unassigned (R214). -/
  | unassignedOp6 (code : BitVec 6)
  /-- X6 of OP6 0x0F or 0x12 is unassigned (R214). -/
  | unassignedX6 (x : BitVec 6)
  /-- A field that the short form does not use is not zero (R214, R379). -/
  | unusedField (w : Word)
  deriving DecidableEq, Repr

/-- The row of the long map that OP8, M4 and MODE select; none when OP8 is unassigned (R215).  Where the opcode table lists
the variants of one opcode on rows of their own, M4 or MODE selects among them; a value that no variant has selects the
plain row, whose field check then refuses it. -/
def longRow (code : BitVec 8) (m4 : BitVec 4) (mode : BitVec 3) : Option LongOp :=
  match code.toNat with
  | 0x00 => some .nop
  | 0x01 => some .mov
  | 0x02 => some .lit
  | 0x03 => some .add
  | 0x04 => some .sub
  | 0x05 => some .mul
  | 0x06 => some .mulh
  | 0x07 => some .mad
  | 0x08 => some .div
  | 0x09 => some .rem
  | 0x0A => some .min
  | 0x0B => some .max
  | 0x0C => some .abs
  | 0x0D => some .neg
  | 0x0E => some .and
  | 0x0F => some .or
  | 0x10 => some .xor
  | 0x11 => some .not
  | 0x12 => some .shl
  | 0x13 => some .shr
  | 0x14 => some .sar
  | 0x15 => some .rot
  | 0x16 => some .bfx
  | 0x17 => some .bfi
  | 0x18 => some .popc
  | 0x19 => some .clz
  | 0x1A => some .brev
  | 0x1B => some .sel
  | 0x1C => some .setp
  | 0x1D => some .plop
  | 0x1E => some .lea
  | 0x1F => some .gaddr
  | 0x20 => some .bra
  | 0x21 => some .brx
  | 0x22 => some .call
  | 0x23 => some .ret
  | 0x24 => some .join
  | 0x25 => some .leave
  | 0x26 => some .waitk
  | 0x27 => some .kmov
  | 0x28 => some .vote
  | 0x29 => some .shfl
  | 0x2A => some .scan
  | 0x2B => some .redg
  | 0x2C => some .yield
  | 0x2D => some .exit
  | 0x2E => some .getsr
  | 0x2F => some .setsr
  | 0x30 => some .fadd
  | 0x31 => some .fsub
  | 0x32 => some .fmul
  | 0x33 => some .ffma
  | 0x34 => some .fmin
  | 0x35 => some .fmax
  | 0x36 => some .fsetp
  | 0x37 => some .frcp
  | 0x38 => some .fdiv
  | 0x39 => some .fsqrt
  | 0x3A => some .frsq
  | 0x3B => some .fex2
  | 0x3C => some .flg2
  | 0x3D => some .fsin
  | 0x3E => some .fcos
  | 0x3F => some .ftanh
  | 0x40 => some .frnd
  | 0x41 => some .cvt
  | 0x42 => some .f2i
  | 0x43 => some .i2f
  | 0x44 => some .pack
  | 0x45 => some .unpk
  | 0x46 => some .hfma2
  | 0x47 => some .dot4
  | 0x48 => if m4 = 1#4 then some .fclsTest else some .fcls
  | 0x49 => some .fscale
  | 0x50 => some .ld
  | 0x51 => some .st
  | 0x52 => some .lds
  | 0x53 => some .sts
  | 0x54 => some .ldc
  | 0x55 => some .stc
  | 0x56 => some .ldx
  | 0x57 => some .stx
  | 0x58 => some .setfe
  | 0x59 => some .atom
  | 0x5A => some .red
  | 0x5B => some .pref
  | 0x5C => if m4.getLsbD 1 ∧ ¬ m4.getLsbD 2 ∧ ¬ m4.getLsbD 3 then some .flushAll else some .flush
  | 0x5D => some .fence
  | 0x5E => some .get
  | 0x5F => some .put
  | 0x60 => some .puts
  | 0x61 => some .ratom
  | 0x62 => some .bara
  | 0x63 => some .barw
  | 0x64 => if mode = 1#3 then some .sstepBind else some .sstep
  | 0x65 => some .engk
  | 0x66 => some .engw
  | 0x80 => some .tmma
  | 0x81 => some .tmmas
  | 0x82 => some .twmma
  | 0x83 => some .titer
  | 0x84 => some .tpoly
  | 0x85 => some .twait
  | 0x86 => some .tver
  | 0x87 => some .tlda
  | 0x88 => some .tsta
  | 0x89 => some .tzero
  | 0x8A => some .tenq
  | 0x8B => if m4 = 1#4 then some .tcoefGet else some .tcoef
  | 0x8C => some .tcb
  | 0x8D => some .tbld
  | 0x8E => some .ttrn
  | 0x8F => some .tfeed
  | 0x90 => some .vadd
  | 0x91 => some .vmul
  | 0x92 => some .vfma
  | 0x93 => some .vmax
  | 0x94 => some .vmin
  | 0x95 => some .vexp
  | 0x96 => some .vred
  | 0x97 => some .vbcast
  | 0x98 => if m4 = 1#4 then some .vmovGet else if m4 = 2#4 then some .vmovPut else some .vmovRow
  | 0x99 => some .vcvt
  | 0xA0 => some .raysend
  | 0xA1 => some .boxt
  | 0xA2 => some .trit
  | 0xA3 => some .tlook
  | 0xA4 => some .hitq
  | 0xA5 => some .rque
  | 0xA6 => if m4.getLsbD 1 ∧ ¬ m4.getLsbD 2 ∧ ¬ m4.getLsbD 3 then some .recqHeld else some .recq
  | 0xA7 => some .recj
  | 0xA8 => some .send
  | 0xA9 => some .recv
  | 0xAA => if m4 = 1#4 then some .abindUn else some .abind
  | 0xAB => some .balw
  | 0xAC => some .cinit
  | 0xAD => some .cred
  | 0xAE => some .cwait
  | 0xAF => some .baddq
  | 0xB0 => some .blkq
  | 0xB1 => if m4 = 1#4 then some .viewSet else some .view
  | 0xB2 => if m4 = 1#4 then some .residReq else some .resid
  | 0xC0 => some .trap
  | 0xC1 => some .rte
  | 0xC2 => some .brk
  | 0xC3 => some .cswap
  | 0xC4 => some .tlbi
  | 0xC5 => if m4 = 1#4 then some .eschedStep else if m4 = 2#4 then some .eschedAdv else if m4 = 3#4 then some .eschedClr else some .eschedLoad
  | 0xC6 => if m4 = 1#4 then some .clkCyc else if m4 = 2#4 then some .clkWait else some .clkSync
  | 0xC7 => some .perf
  | 0xC8 => some .mapq
  | _ => none

/-- The fields of words 0 to 2 of a long instruction (R202). -/
def longFields (w0 w1 w2 : Word) (lit : Option (BitVec 64)) : Long where
  m4 := w0.extractLsb' 28 4
  a := w0.extractLsb' 19 9
  d := w0.extractLsb' 10 9
  kc := w1.extractLsb' 30 2
  kb := w1.extractLsb' 28 2
  fs := w1.extractLsb' 27 1
  e := w1.extractLsb' 18 9
  c := w1.extractLsb' 9 9
  b := w1.extractLsb' 0 9
  sub := w2.extractLsb' 19 13
  yh := w2.extractLsb' 18 1
  hint := w2.extractLsb' 15 3
  ret := w2.extractLsb' 13 2
  gc := w2.extractLsb' 12 1
  n2 := w2.extractLsb' 11 1
  g2 := w2.extractLsb' 7 4
  n1 := w2.extractLsb' 6 1
  g1 := w2.extractLsb' 2 4
  ka := w2.extractLsb' 0 2
  lit := lit

/-- A long instruction from its words (R202, R215). -/
def decodeLong (w0 w1 w2 : Word) (lit : Option (BitVec 64)) : Except DecodeError Instr :=
  let o := longFields w0 w1 w2 lit
  match longRow (w0.extractLsb' 2 8) o.m4 o.mode with
  | some op => .ok (op.instr o)
  | none => .error (.unassignedOp8 (w0.extractLsb' 2 8))

/-- A short instruction from its word (R201, R214). -/
def decodeShort (w : Word) : Except DecodeError Instr :=
  let x := w.extractLsb' 26 6
  let a := w.extractLsb' 17 9
  let d := w.extractLsb' 8 9
  let plain (i : Instr) : Except DecodeError Instr := if x = 0#6 then .ok i else .error (.unusedField w)
  let bare (i : Instr) : Except DecodeError Instr :=
    if a = 0#9 ∧ d = 0#9 then .ok i else .error (.unusedField w)
  match (w.extractLsb' 2 6).toNat with
  | 0x00 => plain (.movShort a d)
  | 0x01 => plain (.addShort a d)
  | 0x02 => plain (.subShort a d)
  | 0x03 => .ok (.addi x a d)
  | 0x04 => .ok (.shli x a d)
  | 0x05 => .ok (.shri x a d)
  | 0x06 => .ok (.sari x a d)
  | 0x07 => .ok (.andi x a d)
  | 0x08 => .ok (.lis x a d)
  | 0x09 => plain (.faddShort a d)
  | 0x0A => plain (.fmulShort a d)
  | 0x0B => .ok (.ldw x a d)
  | 0x0C => .ok (.stw x a d)
  | 0x0D => .ok (.ldsw x a d)
  | 0x0E => .ok (.stsw x a d)
  | 0x0F =>
    let k := x.extractLsb' 0 4
    if 11 < k.toNat then .error (.unassignedX6 x)
    else match (x.extractLsb' 4 2).toNat with
      | 0 => bare (.joinShort k)
      | 1 => bare (.leaveShort k)
      | 2 => bare (.waitkShort k)
      | _ => .error (.unassignedX6 x)
  | 0x10 => .ok (.braShort (w.extractLsb' 13 19) (w.extractLsb' 12 1) (w.extractLsb' 8 4))
  | 0x11 => .ok (.callShort (w.extractLsb' 13 19) (w.extractLsb' 12 1) (w.extractLsb' 8 4))
  | 0x12 =>
    match x.toNat with
    | 0 => bare .nopShort
    | 1 => bare .retShort
    | 2 => bare .exitShort
    | 3 => bare .yieldShort
    | _ => .error (.unassignedX6 x)
  | _ => .error (.unassignedOp6 (w.extractLsb' 2 6))

/-- The clause header in a word whose LEN is 11 (R209). -/
def decodeHeader (w : Word) : Instr :=
  .clauseStart (w.extractLsb' 30 2) (w.extractLsb' 22 8) (w.extractLsb' 18 4) (w.extractLsb' 14 4) (w.extractLsb' 2 12)

/-- The words an instruction occupies, from LEN of its first word (R198). -/
def lenWords (w : Word) : Nat :=
  match (w.extractLsb' 0 2).toNat with
  | 1 => 3
  | 2 => 5
  | _ => 1

/-- Reads one instruction from the front of a list of words (R198): the instruction and the words after it. -/
def decode (ws : List Word) : Except DecodeError (Instr × List Word) :=
  match ws with
  | [] => .error .nothing
  | w0 :: rest =>
    match (w0.extractLsb' 0 2).toNat with
    | 0 => (decodeShort w0).map (fun i => (i, rest))
    | 1 =>
      match rest with
      | w1 :: w2 :: rest' => (decodeLong w0 w1 w2 none).map (fun i => (i, rest'))
      | _ => .error .truncated
    | 2 =>
      match rest with
      | w1 :: w2 :: w3 :: w4 :: rest' => (decodeLong w0 w1 w2 (some (w4 ++ w3))).map (fun i => (i, rest'))
      | _ => .error .truncated
    | _ => .ok (decodeHeader w0, rest)

/-- The words that a list of bytes holds, each little-endian (R11, R198); a tail of fewer than four bytes is dropped. -/
def wordsOfBytes : List Byte → List Word
  | b0 :: b1 :: b2 :: b3 :: rest => (b3 ++ b2 ++ b1 ++ b0) :: wordsOfBytes rest
  | _ => []

/-- The four bytes of a word, lowest address first (R11). -/
def bytesOfWord (w : Word) : List Byte :=
  [w.extractLsb' 0 8, w.extractLsb' 8 8, w.extractLsb' 16 8, w.extractLsb' 24 8]

/-- Reads one instruction from bytes as they lie in memory: total on any bytes. -/
def decodeBytes (bs : List Byte) : Except DecodeError (Instr × List Word) := decode (wordsOfBytes bs)

/-- The instruction read from words whose bits are w, the first word lowest; the words that nbits leaves out are zero. -/
def decodeTableWord (nbits w : Nat) : Option Instr :=
  let v := w % 2 ^ nbits
  match decodeBytes ((List.range 5).flatMap (fun i => bytesOfWord (BitVec.ofNat 32 (v / 2 ^ (32 * i))))) with
  | .ok (i, _) => some i
  | .error _ => none

/-! ## Encoding -/

/-- M4 and MODE pick this row among the rows that share its opcode. -/
def LongOp.selects (op : LongOp) (o : Long) : Bool :=
  match op with
  | .nop => true
  | .mov => true
  | .lit => true
  | .add => true
  | .sub => true
  | .mul => true
  | .mulh => true
  | .mad => true
  | .div => true
  | .rem => true
  | .min => true
  | .max => true
  | .abs => true
  | .neg => true
  | .and => true
  | .or => true
  | .xor => true
  | .not => true
  | .shl => true
  | .shr => true
  | .sar => true
  | .rot => true
  | .bfx => true
  | .bfi => true
  | .popc => true
  | .clz => true
  | .brev => true
  | .sel => true
  | .setp => true
  | .plop => true
  | .lea => true
  | .gaddr => true
  | .bra => true
  | .brx => true
  | .call => true
  | .ret => true
  | .join => true
  | .leave => true
  | .waitk => true
  | .kmov => true
  | .vote => true
  | .shfl => true
  | .scan => true
  | .redg => true
  | .yield => true
  | .exit => true
  | .getsr => true
  | .setsr => true
  | .fadd => true
  | .fsub => true
  | .fmul => true
  | .ffma => true
  | .fmin => true
  | .fmax => true
  | .fsetp => true
  | .frcp => true
  | .fdiv => true
  | .fsqrt => true
  | .frsq => true
  | .fex2 => true
  | .flg2 => true
  | .fsin => true
  | .fcos => true
  | .ftanh => true
  | .frnd => true
  | .cvt => true
  | .f2i => true
  | .i2f => true
  | .pack => true
  | .unpk => true
  | .hfma2 => true
  | .dot4 => true
  | .fcls => !(o.m4 == 1#4)
  | .fclsTest => o.m4 == 1#4
  | .fscale => true
  | .ld => true
  | .st => true
  | .lds => true
  | .sts => true
  | .ldc => true
  | .stc => true
  | .ldx => true
  | .stx => true
  | .setfe => true
  | .atom => true
  | .red => true
  | .pref => true
  | .flush => !(o.m4.getLsbD 1 && !o.m4.getLsbD 2 && !o.m4.getLsbD 3)
  | .flushAll => o.m4.getLsbD 1 && !o.m4.getLsbD 2 && !o.m4.getLsbD 3
  | .fence => true
  | .get => true
  | .put => true
  | .puts => true
  | .ratom => true
  | .bara => true
  | .barw => true
  | .sstep => !(o.mode == 1#3)
  | .sstepBind => o.mode == 1#3
  | .engk => true
  | .engw => true
  | .tmma => true
  | .tmmas => true
  | .twmma => true
  | .titer => true
  | .tpoly => true
  | .twait => true
  | .tver => true
  | .tlda => true
  | .tsta => true
  | .tzero => true
  | .tenq => true
  | .tcoef => !(o.m4 == 1#4)
  | .tcoefGet => o.m4 == 1#4
  | .tcb => true
  | .tbld => true
  | .ttrn => true
  | .tfeed => true
  | .vadd => true
  | .vmul => true
  | .vfma => true
  | .vmax => true
  | .vmin => true
  | .vexp => true
  | .vred => true
  | .vbcast => true
  | .vmovRow => !(o.m4 == 1#4) && !(o.m4 == 2#4)
  | .vmovGet => o.m4 == 1#4
  | .vmovPut => o.m4 == 2#4
  | .vcvt => true
  | .raysend => true
  | .boxt => true
  | .trit => true
  | .tlook => true
  | .hitq => true
  | .rque => true
  | .recq => !(o.m4.getLsbD 1 && !o.m4.getLsbD 2 && !o.m4.getLsbD 3)
  | .recqHeld => o.m4.getLsbD 1 && !o.m4.getLsbD 2 && !o.m4.getLsbD 3
  | .recj => true
  | .send => true
  | .recv => true
  | .abind => !(o.m4 == 1#4)
  | .abindUn => o.m4 == 1#4
  | .balw => true
  | .cinit => true
  | .cred => true
  | .cwait => true
  | .baddq => true
  | .blkq => true
  | .view => !(o.m4 == 1#4)
  | .viewSet => o.m4 == 1#4
  | .resid => !(o.m4 == 1#4)
  | .residReq => o.m4 == 1#4
  | .trap => true
  | .rte => true
  | .brk => true
  | .cswap => true
  | .tlbi => true
  | .eschedLoad => !(o.m4 == 1#4) && !(o.m4 == 2#4) && !(o.m4 == 3#4)
  | .eschedStep => o.m4 == 1#4
  | .eschedAdv => o.m4 == 2#4
  | .eschedClr => o.m4 == 3#4
  | .clkSync => !(o.m4 == 1#4) && !(o.m4 == 2#4)
  | .clkCyc => o.m4 == 1#4
  | .clkWait => o.m4 == 2#4
  | .perf => true
  | .mapq => true

/-- Bytes of a long instruction (R198). -/
def Long.bytes (o : Long) : Nat := if o.lit.isSome then 20 else 12

/-- The words of a long instruction (R202, R224). -/
def encodeLong (op : LongOp) (o : Long) : List Word :=
  let len : BitVec 2 := if o.lit.isSome then 2#2 else 1#2
  let w0 : Word := o.m4 ++ o.a ++ o.d ++ op.code ++ len
  let w1 : Word := o.kc ++ o.kb ++ o.fs ++ o.e ++ o.c ++ o.b
  let w2 : Word := o.sub ++ o.yh ++ o.hint ++ o.ret ++ o.gc ++ o.n2 ++ o.g2 ++ o.n1 ++ o.g1 ++ o.ka
  match o.lit with
  | none => [w0, w1, w2]
  | some v => [w0, w1, w2, v.extractLsb' 0 32, v.extractLsb' 32 32]

/-- A form S word (R201). -/
def encodeS (op6 x : BitVec 6) (a d : BitVec 9) : List Word := [x ++ a ++ d ++ op6 ++ 0#2]

/-- A form SB word (R201). -/
def encodeSB (op6 : BitVec 6) (off : BitVec 19) (neg : BitVec 1) (gp : BitVec 4) : List Word :=
  [off ++ neg ++ gp ++ op6 ++ 0#2]

/-- The words of an instruction; a row that no word encodes has none. -/
def encode (i : Instr) : List Word :=
  match i.long? with
  | some (op, o) => encodeLong op o
  | none =>
    match i with
    | .movShort a d => encodeS 0x00#6 0#6 a d
    | .addShort a d => encodeS 0x01#6 0#6 a d
    | .subShort a d => encodeS 0x02#6 0#6 a d
    | .addi x a d => encodeS 0x03#6 x a d
    | .shli x a d => encodeS 0x04#6 x a d
    | .shri x a d => encodeS 0x05#6 x a d
    | .sari x a d => encodeS 0x06#6 x a d
    | .andi x a d => encodeS 0x07#6 x a d
    | .lis x a d => encodeS 0x08#6 x a d
    | .faddShort a d => encodeS 0x09#6 0#6 a d
    | .fmulShort a d => encodeS 0x0A#6 0#6 a d
    | .ldw x a d => encodeS 0x0B#6 x a d
    | .stw x a d => encodeS 0x0C#6 x a d
    | .ldsw x a d => encodeS 0x0D#6 x a d
    | .stsw x a d => encodeS 0x0E#6 x a d
    | .joinShort k => encodeS 0x0F#6 (0#2 ++ k) 0#9 0#9
    | .leaveShort k => encodeS 0x0F#6 (1#2 ++ k) 0#9 0#9
    | .waitkShort k => encodeS 0x0F#6 (2#2 ++ k) 0#9 0#9
    | .braShort off neg gp => encodeSB 0x10#6 off neg gp
    | .callShort off neg gp => encodeSB 0x11#6 off neg gp
    | .nopShort => encodeS 0x12#6 0#6 0#9 0#9
    | .retShort => encodeS 0x12#6 1#6 0#9 0#9
    | .exitShort => encodeS 0x12#6 2#6 0#9 0#9
    | .yieldShort => encodeS 0x12#6 3#6 0#9 0#9
    | .clauseStart kind length setb seta wait => [kind ++ length ++ setb ++ seta ++ wait ++ 3#2]
    | _ => []

end Sys2Proof
end

