-- ==== Sys2Proof/Machine/Operands.lean ====
section
/-! DEFINITION. Which fields each long row reads, writes and admits: the tables of R227 to R248, R251, R273, R295, R309 and R316,
and the order of the checks of R379. -/

namespace Sys2Proof.Machine

/-- What a register field of a long instruction stands for (R200, R203). -/
inductive Opd where
  /-- Not used: field and kind are zero. -/
  | none
  /-- Part of a literal field; any value is admitted. -/
  | raw
  /-- A general source of n registers beginning at a multiple of align. -/
  | src (n align : Nat)
  /-- A general destination of n registers beginning at a multiple of align. -/
  | dst (n align : Nat)
  /-- A register of a non-general class with values 0 to max; kind 00. -/
  | named (max : Nat)
  deriving DecidableEq, Repr

/-- The operands of one row and whether the remaining fields of words 0, 1 and 2 hold admitted values. -/
structure Shape where
  d : Opd := .none
  a : Opd := .none
  b : Opd := .none
  c : Opd := .none
  e : Opd := .none
  ok0 : Bool := true
  ok1 : Bool := true
  ok2 : Bool := true
  deriving DecidableEq, Repr

/-- The type field names a 64-bit type, I64 or Z64 (R177). -/
def isWide (t : BitVec 4) : Bool := t == 2#4 || t == 3#4
/-- Registers of one element of an integer type of R225. -/
def intRegs (t : BitVec 4) : Nat := if isWide t then 2 else 1
/-- Registers of a memory datum of a size code (R270). -/
def sizeRegs (z : BitVec 3) : Nat :=
  match z.toNat with
  | 3 => 2
  | 4 => 4
  | 5 => 8
  | _ => 1
/-- Width in bits of an element of a type code (R177). -/
def typeBits (t : BitVec 4) : Nat :=
  match t.toNat with
  | 0 | 1 | 8 => 32
  | 2 | 3 => 64
  | 4 | 5 | 9 | 10 => 16
  | 13 | 14 => 4
  | _ => 8

/-- A value is one of a short list of codes. -/
def oneOf (l : List Nat) (v : Nat) : Bool := l.contains v

/-- SUB13 of the arithmetic layout with the admitted types, roundings, SAT and P5 (R206). -/
def arith (o : Long) (types rms : List Nat) (sat : Bool) (p5s : Nat → Bool) : Bool :=
  oneOf types o.ty.toNat && oneOf rms o.rm.toNat && (sat || !o.sat) && p5s o.p5.toNat

/-- SUB13 of the memory layout with the admitted sizes, modes, orders and scopes (R268). -/
def memory (o : Long) (size mode ord scope : Nat → Bool) : Bool :=
  o.sub.extractLsb' 11 2 == 0#2 && size o.size.toNat && mode o.mode.toNat && ord o.ord.toNat && scope o.scope.toNat

/-- Admits only zero. -/
def zero (n : Nat) : Bool := n == 0
/-- Admits every value. -/
def anyVal (_ : Nat) : Bool := true
/-- Admits values up to m. -/
def upTo (m n : Nat) : Bool := decide (n ≤ m)

/-- Types of the integer opcodes (R225). -/
def intTypes : List Nat := [0, 1, 2, 3]
/-- Types of FADD and its like (R251). -/
def floatTypes : List Nat := [8, 9, 10]
/-- Rounding codes 0 to 6 (R185). -/
def roundings : List Nat := [0, 1, 2, 3, 4, 5, 6]

/-- SIZE B and H alone may carry SX (R273). -/
def sxOk (o : Long) (bit : Nat) : Bool := !o.mode.getLsbD bit || decide (o.size.toNat ≤ 1)

/-- The operation and kind of an atomic are a pair of R277, and the size suits the kind. -/
def atomOk (o : Long) : Bool :=
  let op := if o.m4.toNat < 10 then o.m4.toNat else o.m4.toNat - 10
  let kind := o.mode.toNat % 4
  if kind ≤ 1 then oneOf [2, 3] o.size.toNat else oneOf [0, 1, 2, 6, 7] op && o.size == 2#3

/-- An A and B element type of the matrix instructions agree: both integer or both floating (R125, R295). -/
def mmaTypes (o : Long) : Bool :=
  let t := o.ty.toNat
  let s := o.p5.toNat
  (oneOf [6, 7] t && oneOf [6, 7] s) || (oneOf [9, 10, 11, 12, 13, 14] t && oneOf [9, 10, 11, 12, 13, 14] s)

/-- SUB13 of a tile instruction: RM and SAT zero (R294). -/
def tile (o : Long) (types : List Nat) (p5s : Nat → Bool) : Bool := arith o types [0] false p5s

/-- The codebook operand of TWMMA is used (R306). -/
def usesCodebook (o : Long) : Bool := o.ty == 14#4 || o.p5 == 14#5

/-- A two-operand or three-operand integer row (R227). -/
def shapeInt (o : Long) (b c : Bool) (sat : Bool) : Shape :=
  let w := Opd.src (intRegs o.ty) (intRegs o.ty)
  { d := .dst (intRegs o.ty) (intRegs o.ty), a := w, b := if b then w else .none, c := if c then w else .none,
    ok0 := o.m4 == 0#4, ok1 := o.fs == 0#1, ok2 := arith o intTypes [0] sat zero }

/-- A floating-point row of R251 with 32-bit operands. -/
def shapeF (o : Long) (b c : Bool) (types rms : List Nat) (sat : Bool) : Shape :=
  { d := .dst 1 1, a := .src 1 1, b := if b then .src 1 1 else .none, c := if c then .src 1 1 else .none,
    ok0 := o.m4 == 0#4, ok1 := o.fs == 0#1, ok2 := arith o types rms sat zero }

/-- A row without operands whose SUB13 is zero. -/
def shapeBare (o : Long) (fs : Bool) : Shape :=
  { ok0 := o.m4 == 0#4, ok1 := fs || o.fs == 0#1, ok2 := o.sub == 0#13 }

/-- A relative branch: word 1 bits 26:0 hold the offset (R238). -/
def shapeRel (o : Long) (d : Opd) (m4 : Bool) : Shape :=
  { d := d, b := .raw, c := .raw, e := .raw, ok0 := m4,
    ok1 := o.fs == 0#1 && o.kb == 0#2 && o.kc == 0#2, ok2 := o.sub == 0#13 }

/-- Width of an address operand that SCR turns into a scratch address (R295, R316). -/
def scrAddr (scr : Bool) : Opd := if scr then .src 1 1 else .src 2 2

/-- A row instruction on rows d, a, b, c (R309). -/
def shapeRow (o : Long) (b c : Bool) (types : List Nat) (rms : List Nat) (sat : Bool) (m4 : Bool) : Shape :=
  { d := .named 255, a := .named 255, b := if b then .named 255 else .none, c := if c then .named 255 else .none,
    ok0 := m4, ok2 := arith o types rms sat zero }

/-- Roundings that a row type admits: floats 0 to 6, integers 0 (R309). -/
def rowRm (o : Long) : List Nat := if oneOf floatTypes o.ty.toNat then roundings else [0]
/-- Types of VADD and its like (R309). -/
def rowTypes : List Nat := [8, 9, 10, 0, 1]

/-- The field table of every long row.  PACK to F16 or BF16, which R263 gives a c of kind 01 and R203 an unused c of kind 00, may have either
with C = 0 (DESIGN CHOICE, log 161). -/
def shape (op : LongOp) (o : Long) : Shape :=
  let w := Opd.src (intRegs o.ty) (intRegs o.ty)
  let wd := Opd.dst (intRegs o.ty) (intRegs o.ty)
  let n := sizeRegs o.size
  let m := o.m4.toNat
  let p := o.p5.toNat
  let noFs := o.fs == 0#1
  let m0 := o.m4 == 0#4
  match op with
  | .nop => shapeBare o false
  | .mov => shapeInt o false false false
  | .lit => { d := wd, a := w, ok0 := m0, ok1 := noFs,
              ok2 := arith o intTypes [0] false zero && (o.ka == 1#2 || o.ka == 3#2) }
  | .add | .sub | .mul => shapeInt o true false true
  | .mulh | .min | .max | .and | .or | .xor => shapeInt o true false false
  | .mad => shapeInt o true true true
  | .div | .rem => shapeInt o true false true
  | .abs | .neg => shapeInt o false false true
  | .not => shapeInt o false false false
  | .shl => { shapeInt o true false true with b := .src 1 1 }
  | .shr | .sar | .rot => { shapeInt o true false false with b := .src 1 1 }
  | .bfx => { shapeInt o false true false with c := .src 1 1 }
  | .bfi => { shapeInt o true true false with c := .src 1 1 }
  | .popc | .clz => { shapeInt o false false false with d := .dst 1 1 }
  | .brev => shapeInt o false false false
  | .sel => { shapeInt o true false false with ok0 := true }
  | .setp => { d := .named 15, a := w, b := w, c := .named 15, ok0 := upTo 7 m,
               ok1 := noFs && (p % 4 != 0 || o.c == 0#9), ok2 := arith o intTypes [0] false (upTo 3) }
  | .plop => { d := .named 15, a := .named 15, b := .named 15, c := .named 15, ok1 := noFs,
               ok2 := arith o [0] [0] false (upTo 15) }
  | .lea => { d := .dst 2 2, a := .src 2 2, b := .src 1 1, c := .src 2 2, ok0 := m0, ok1 := noFs,
              ok2 := arith o [0, 1] [0] false (upTo 7) }
  | .gaddr => { d := .dst 1 1, e := .dst 1 1, a := .src 1 1, b := .src 1 1, ok0 := upTo 7 m, ok1 := noFs,
                ok2 := o.sub == 0#13 }
  | .bra => shapeRel o .none m0
  | .brx => { shapeBare o false with a := .src 2 2 }
  | .call =>
    let d := if o.m4.getLsbD 1 then Opd.dst 2 2 else .none
    if o.m4.getLsbD 0 then { shapeBare o false with d := d, a := .src 2 2, ok0 := upTo 3 m }
    else shapeRel o d (upTo 3 m)
  | .ret | .yield | .exit => shapeBare o false
  | .join | .leave | .waitk => { shapeBare o false with c := .named 11 }
  | .kmov =>
    let s := { shapeBare o false with c := .named 11, ok0 := upTo 3 m }
    match m with
    | 1 => { s with a := .src 1 1 }
    | 3 => { s with a := .named 11 }
    | _ => { s with d := .dst 1 1 }
  | .vote => { d := if m = 3 then .dst 1 1 else .named 15, a := .named 15, c := .named 11, ok0 := upTo 3 m, ok1 := noFs,
               ok2 := o.sub == 0#13 }
  | .shfl => { d := wd, a := w, b := .src 1 1, c := .named 11, ok0 := upTo 3 m, ok1 := noFs,
               ok2 := arith o intTypes [0] false zero }
  | .scan | .redg =>
    let f := o.ty == 8#4
    { d := wd, a := w, c := .named 11, ok0 := if f then upTo 2 m else upTo 5 m, ok1 := noFs,
      ok2 := arith o [0, 1, 2, 3, 8] (if f then [0, 1, 2, 3, 4, 6] else [0]) (m == 0)
        (if op = .scan then upTo 1 else zero) }
  | .getsr => { d := wd, b := .raw, ok0 := !o.m4.getLsbD 3, ok1 := noFs && o.kb == 0#2, ok2 := arith o [0, 2] [0] false zero }
  | .setsr => { a := w, b := .raw, ok0 := !o.m4.getLsbD 3, ok1 := noFs && o.kb == 0#2, ok2 := arith o [0, 2] [0] false zero }
  | .fadd | .fsub | .fmul | .fdiv => shapeF o true false floatTypes roundings true
  | .fscale => shapeF o true false floatTypes roundings true
  | .ffma => { shapeF o true true floatTypes roundings true with ok0 := upTo 3 m }
  | .fmin | .fmax => { shapeF o true false floatTypes [0] false with ok0 := upTo 1 m }
  | .fsetp => { d := .named 15, a := .src 1 1, b := .src 1 1, c := .named 15, ok0 := upTo 12 m,
                ok1 := noFs && (p % 4 != 0 || o.c == 0#9), ok2 := arith o floatTypes [0] false (upTo 3) }
  | .frcp | .frsq | .fex2 | .flg2 | .fsin | .fcos | .ftanh => shapeF o false false [8] [0, 1, 2, 3, 4, 5, 6, 7] true
  | .fsqrt => shapeF o false false floatTypes roundings true
  | .frnd => { shapeF o false false floatTypes roundings false with ok0 := upTo 1 m }
  | .cvt => { shapeF o false false [] [] true with
              ok0 := if p = 14 then upTo 7 m else m0,
              ok2 := arith o [8, 9, 10, 11, 12, 13, 15] roundings true (oneOf [8, 9, 10, 11, 12, 13, 14, 15]) }
  | .f2i => { shapeF o false false [] [] true with
              d := wd, ok2 := arith o [0, 1, 2, 3, 4, 5, 6, 7] roundings true (oneOf [8, 9, 10, 11, 12, 13]) }
  | .i2f => { shapeF o false false [] [] true with
              a := if p = 2 ∨ p = 3 then .src 2 2 else .src 1 1,
              ok2 := arith o [8, 9, 10, 11, 12, 13] roundings true (upTo 7) }
  | .pack =>
    let raw := o.p5.getLsbD 0
    let half := o.ty == 9#4 || o.ty == 10#4
    { d := .dst 1 1, a := .src 1 1, b := .src 1 1, c := if half then .raw else .src 1 1,
      ok0 := if half then m0 else if o.ty == 13#4 then upTo 3 m else upTo 1 m,
      ok1 := noFs && (!half || (o.c == 0#9 && (o.kc == 0#2 || o.kc == 1#2))),
      ok2 := arith o [9, 10, 11, 12, 13] (if raw then [0] else roundings) (!raw) (upTo 1) }
  | .unpk =>
    { d := .dst 1 1, a := .src 1 1,
      ok0 := if o.ty == 9#4 || o.ty == 10#4 then upTo 1 m else if o.ty == 13#4 || o.ty == 14#4 then upTo 7 m else upTo 3 m,
      ok1 := noFs,
      ok2 := arith o [9, 10, 11, 12, 13, 14] [0] false (if o.ty == 14#4 then upTo 15 else upTo 1) }
  | .hfma2 => shapeF o true true [9, 10] roundings true
  | .dot4 =>
    let f := o.ty == 11#4 || o.ty == 12#4
    { shapeF o true true [] [] true with
      ok2 := arith o [6, 7, 11, 12] (if f then roundings else [0]) true (if f then oneOf [11, 12] else oneOf [6, 7]) }
  | .fcls => shapeF o false false [8, 9, 10, 11, 12, 13, 15] [0] false
  | .fclsTest => { shapeF o true false [8, 9, 10, 11, 12, 13, 15] [0] false with d := .named 15, ok0 := m == 1 }
  | .ld => { d := .dst n n, a := .src 2 2, b := .src 1 1, ok0 := m0,
             ok2 := memory o (upTo 5) (upTo 1) anyVal anyVal && sxOk o 0 }
  | .st => { a := .src 2 2, b := .src 1 1, c := .src n n, ok0 := m0, ok2 := memory o (upTo 5) zero anyVal anyVal }
  | .lds => { d := .dst n n, a := .src 1 1, b := .src 1 1, ok0 := o.mode.getLsbD 1 || m0,
              ok2 := memory o (upTo 5) (upTo 3) anyVal anyVal && sxOk o 0 }
  | .sts => { a := .src 1 1, b := .src 1 1, c := .src n n, ok0 := o.mode.getLsbD 1 || m0,
              ok2 := memory o (upTo 5) (oneOf [0, 2]) anyVal anyVal }
  | .ldc => { d := .dst n n, a := .src 1 1, b := .src 1 1, ok0 := m0, ok2 := memory o (upTo 5) (upTo 1) zero zero && sxOk o 0 }
  | .stc => { a := .src 1 1, b := .src 1 1, c := .src n n, ok0 := m0, ok2 := memory o (upTo 5) zero zero zero }
  | .ldx => { d := .dst n n, a := scrAddr (o.mode.getLsbD 2), b := .src 1 1, ok0 := m0,
              ok2 := memory o (oneOf [2, 3]) (oneOf [0, 1, 4, 5]) zero anyVal }
  | .stx => { a := scrAddr (o.mode.getLsbD 2), b := .src 1 1, c := .src n n, ok0 := m0,
              ok2 := memory o (oneOf [2, 3]) (oneOf [0, 1, 2, 4, 5, 6]) zero anyVal }
  | .setfe => { d := .named 15, a := scrAddr (o.mode.getLsbD 2), b := .src 1 1, ok0 := m0,
                ok2 := memory o (oneOf [3]) (oneOf [0, 1, 4, 5]) zero anyVal }
  | .atom => { d := if m < 10 then .dst n n else .none, a := scrAddr (o.mode.getLsbD 2), b := .src 1 1, c := .src n n,
               e := if m = 7 then .src n n else .none, ok2 := memory o (oneOf [2, 3]) anyVal anyVal anyVal && atomOk o }
  | .red => { a := .src 2 2, b := .src 1 1, c := .src n n, ok0 := upTo 5 m,
              ok2 := memory o (oneOf [2, 3]) (upTo 3) (oneOf [0, 2]) anyVal && atomOk o }
  | .pref => { a := .src 2 2, b := .src 1 1, ok0 := m0, ok2 := o.sub == 0#13 }
  | .flush => { a := .src 2 2, b := .src 1 1, ok0 := upTo 1 m, ok2 := memory o zero zero zero anyVal }
  | .flushAll => { ok0 := upTo 3 m, ok2 := memory o zero zero zero anyVal }
  | .fence => { ok0 := m0, ok2 := memory o zero zero (oneOf [1, 2, 3]) anyVal }
  | .get => { d := .dst n n, a := .src 1 1, b := .src 1 1, c := .src 1 1, ok0 := m0,
              ok2 := memory o (upTo 5) (upTo 3) (upTo 1) (oneOf [3, 4, 5, 6, 7]) && sxOk o 1 }
  | .put => { a := .src 1 1, b := .src 1 1, c := .src 1 1,
              ok2 := memory o (oneOf [4]) (upTo 1) (oneOf [0, 2]) (oneOf [3, 4, 5, 6, 7]) }
  | .puts => { a := .src 1 1, b := .src 1 1, c := .src 1 1, e := .src 2 2,
               ok2 := memory o (oneOf [4]) (upTo 3) (oneOf [0, 2]) (oneOf [3, 4, 5, 6, 7]) }
  | .ratom => { d := if m < 10 then .dst n n else .none, a := .src 1 1, b := .src 1 1, c := .src n n,
                e := if m = 7 then .src n n else .none,
                ok2 := memory o (oneOf [2, 3]) (upTo 3) anyVal (oneOf [3, 4, 5, 6, 7]) && atomOk o }
  | .bara => { d := .dst 1 1, a := .src 1 1, ok2 := memory o zero zero zero (oneOf [2, 3]) }
  | .barw => { a := .src 1 1, ok2 := memory o zero zero zero (oneOf [2, 3]) }
  | .sstep => { d := .dst 1 1, a := .src 2 2, ok0 := m0, ok2 := memory o zero zero zero (oneOf [3, 4, 5, 6, 7]) }
  | .sstepBind => { d := .dst 1 1, a := .src 2 2, ok0 := m0, ok2 := memory o zero (oneOf [1]) zero (oneOf [3, 4, 5, 6, 7]) }
  | .engk => { a := .src 1 1, b := .src 2 2, ok0 := m0, ok2 := memory o zero zero zero (oneOf [4, 5, 6, 7]) }
  | .engw => { d := .dst 2 2, a := .src 2 2, b := .src 1 1, c := .src 2 2, ok0 := m0, ok2 := memory o (oneOf [3]) zero zero anyVal }
  | .tmma => { d := .named 7, a := scrAddr (o.m4.getLsbD 1), b := .src 1 1, c := .src 1 1, e := .src 8 8, ok0 := upTo 3 m,
               ok2 := tile o [6, 7, 9, 10, 11, 12, 13, 14] anyVal && mmaTypes o }
  | .tmmas => { d := .named 7, a := scrAddr (o.m4.getLsbD 1), b := .src 1 1, c := .src 1 1, e := .src 8 8, ok0 := upTo 11 m,
                ok2 := tile o [6, 7, 9, 10, 11, 12, 13, 14] anyVal && mmaTypes o }
  | .twmma =>
    let bits := typeBits o.ty
    { d := if m % 4 = 0 then .dst 32 8 else .dst 16 8,
      a := if bits = 16 then .src 16 8 else if bits = 8 then .src 8 8 else .src 4 4,
      b := .src 1 1, c := .named 11, e := if usesCodebook o then .named 7 else .none,
      ok0 := upTo 2 (m % 4) && upTo 7 m && (m % 4 == 0 || (!o.m4.getLsbD 2 && decide (9 ≤ o.ty.toNat))),
      ok2 := tile o [6, 7, 9, 10, 11, 12, 13, 14] anyVal && mmaTypes o }
  | .titer => { d := .named 7, a := .src 1 1, b := .src 1 1, c := .src 1 1, e := .src 4 4, ok0 := upTo 3 m, ok2 := tile o [8] zero }
  | .tpoly => { d := .named 7, e := .src 4 4, ok0 := upTo 7 m, ok2 := tile o [8, 9, 10] zero }
  | .twait => { d := .named 7, a := .src 1 1, ok0 := m0, ok2 := tile o [0] zero }
  | .tver => { d := .dst 2 2, a := .named 7, ok0 := m0, ok2 := tile o [0] zero }
  | .tlda | .tsta => { d := .named 7, a := scrAddr (o.m4.getLsbD 1), e := .src 4 4, ok0 := oneOf [0, 2] m,
                       ok2 := tile o [0, 8, 9, 10] zero }
  | .tzero => { d := .named 7, e := .src 4 4, ok0 := upTo 1 m, ok2 := tile o [0] zero }
  | .tenq => { a := scrAddr (o.m4.getLsbD 1), ok0 := oneOf [0, 2] m, ok2 := tile o [0] zero }
  | .tcoef => { d := .named 7, a := .src 1 1, ok0 := m0, ok2 := tile o [8] zero }
  | .tcoefGet => { d := .dst 1 1, a := .named 7, ok0 := m == 1, ok2 := tile o [8] zero }
  | .tcb => { d := .named 7, a := scrAddr (o.m4.getLsbD 1), ok0 := oneOf [0, 2] m, ok2 := tile o [0] zero }
  | .tbld => { a := scrAddr (o.m4.getLsbD 1), b := .src 1 1, c := .src 1 1, e := .src 1 1, ok0 := oneOf [0, 2] m,
               ok2 := tile o [6, 7, 8, 9, 10, 11, 12, 13, 14] zero }
  | .ttrn => { d := .named 7, c := .src 1 1, e := .src 4 4, ok0 := m0, ok2 := tile o [0] (oneOf [9, 10, 11, 12, 13]) }
  | .tfeed => { d := .named 7, a := .named 7, b := .src 1 1, e := .src 4 4, ok0 := upTo 1 m,
                ok2 := tile o [9, 10, 11, 12, 13] (oneOf [9, 10, 11, 12, 13, 14]) }
  | .vadd | .vmul => shapeRow o true false rowTypes (rowRm o) true m0
  | .vfma => shapeRow o true true floatTypes roundings true m0
  | .vmax | .vmin => shapeRow o true false rowTypes [0] false (upTo 1 m)
  | .vexp => shapeRow o false false floatTypes (if o.ty == 8#4 then [0] else roundings) true m0
  | .vred => { shapeRow o false false rowTypes (if m = 0 then rowRm o else [0]) (m == 0 && decide (o.ty.toNat ≤ 1)) (upTo 2 m)
               with d := .dst 1 1 }
  | .vbcast => { shapeRow o false false rowTypes [0] false m0 with a := .src 1 1 }
  | .vmovRow => shapeRow o false false [0] [0] false m0
  | .vmovGet => { shapeRow o false false rowTypes [0] false (m == 1) with d := .dst 1 1, b := .src 1 1 }
  | .vmovPut => { shapeRow o false false rowTypes [0] false (m == 2) with a := .src 1 1, b := .src 1 1 }
  | .vcvt => { shapeRow o false false [] [] true m0 with
               ok2 := arith o [0, 8, 9, 10] roundings true (fun q =>
                 oneOf [0, 8, 9, 10] (q % 16) && (q < 16 || (oneOf [9, 10] (q % 16) != oneOf [9, 10] o.ty.toNat))) &&
                 (oneOf [0, 8] (p % 16) || oneOf [8, 9, 10] o.ty.toNat) && (p % 16 != 0 || oneOf [0, 8] o.ty.toNat) &&
                 (o.ty != 0#4 || oneOf [0, 8] (p % 16)) }
  | .raysend | .hitq | .send => { a := .src 1 1, b := if o.m4.getLsbD 0 then .src 1 1 else .src 16 8, ok0 := upTo 1 m,
                                  ok2 := o.sub == 0#13 }
  | .boxt => { d := .dst 8 8, a := .src 8 8, b := .src 1 1, c := .src 1 1, ok0 := m0, ok2 := o.sub == 0#13 }
  | .trit => { d := .dst 8 8, a := .src 8 8, b := .src 1 1, c := .src 4 4, ok0 := m0, ok2 := o.sub == 0#13 }
  | .tlook => { d := .dst 1 1, a := .src 1 1, ok0 := m0, ok2 := o.sub == 0#13 }
  | .rque => { a := .src 1 1, ok0 := upTo 7 m, ok2 := o.sub == 0#13 }
  | .recq => { b := if o.m4.getLsbD 0 then .src 1 1 else .src 8 8, ok0 := upTo 1 m, ok2 := o.sub == 0#13 }
  | .recqHeld => { d := .dst 2 2, b := if o.m4.getLsbD 0 then .src 1 1 else .src 8 8, ok0 := oneOf [2, 3] m, ok2 := o.sub == 0#13 }
  | .recj => { a := .src 2 2, b := .src 1 1, ok0 := m0, ok2 := o.sub == 0#13 }
  | .recv => { d := .dst 16 8, e := .dst 2 2, c := .named 15, ok0 := upTo 1 m, ok2 := o.sub == 0#13 }
  | .abind => { d := .named 3, a := .src 1 1, ok0 := m0, ok2 := o.sub == 0#13 }
  | .abindUn => { d := .named 3, ok0 := m == 1, ok2 := o.sub == 0#13 }
  | .balw => { d := .named 15, a := .named 3, ok0 := decide (1 ≤ m) && upTo 5 m, ok2 := o.sub == 0#13 }
  | .cinit => { d := .dst 1 1, a := .src 1 1, ok0 := m0, ok2 := o.sub == 0#13 }
  | .cred => { a := .src 1 1, b := .src 1 1, c := .src 1 1, ok0 := m0, ok2 := o.sub == 0#13 }
  | .cwait => { d := .dst 2 2, a := .src 2 2, c := .src 2 2, ok0 := m0, ok2 := memory o zero zero zero anyVal }
  | .baddq => { a := .src 1 1, b := .src 1 1, c := .src 1 1, ok0 := upTo 2 m,
                ok2 := oneOf [0, 5] (o.sub.extractLsb' 4 3).toNat && !o.sub.getLsbD 7 && !o.sub.getLsbD 12 }
  | .blkq => { d := .dst 1 1, a := .src 1 1, ok0 := m0, ok2 := o.sub == 0#13 }
  | .view => { d := .dst 2 2, a := .src 1 1, ok0 := m0, ok2 := o.sub == 0#13 }
  | .viewSet => { d := .dst 1 1, a := .src 1 1, b := .src 1 1, ok0 := m == 1, ok2 := o.sub == 0#13 }
  | .resid => { d := .dst 1 1, a := .src 1 1, ok0 := m0, ok2 := o.sub == 0#13 }
  | .residReq => { d := .dst 1 1, a := .src 1 1, ok0 := m == 1, ok2 := o.sub == 0#13 }
  | .trap => { ok0 := m0, ok2 := o.sub.extractLsb' 8 5 == 0#5 }
  | .rte | .brk | .cswap => shapeBare o true
  | .tlbi => { a := .src 2 2, b := .src 1 1, c := .src 1 1, ok0 := upTo 2 m, ok2 := o.sub == 0#13 }
  | .eschedLoad => { a := .src 2 2, b := .src 1 1, c := .src 1 1, ok0 := m0, ok2 := o.sub == 0#13 }
  | .eschedStep => { b := .src 1 1, ok0 := m == 1, ok2 := o.sub == 0#13 }
  | .eschedAdv => { ok0 := m == 2, ok2 := o.sub == 0#13 }
  | .eschedClr => { ok0 := m == 3, ok2 := o.sub == 0#13 }
  | .clkSync => { d := .dst 2 2, ok0 := m0, ok2 := o.sub == 0#13 }
  | .clkCyc => { d := .dst 2 2, ok0 := m == 1, ok2 := o.sub == 0#13 }
  | .clkWait => { a := .src 2 2, ok0 := m == 2, ok2 := o.sub == 0#13 }
  | .perf => { d := .dst 2 2, ok0 := upTo 7 m, ok2 := o.sub == 0#13 }
  | .mapq => { a := .src 2 2, ok0 := m0, ok2 := o.sub == 0#13 }

/-- The opcode is privileged (R216). -/
def privilegedOp : LongOp → Bool
  | .rte | .cswap | .tlbi | .eschedLoad | .eschedStep | .eschedAdv | .eschedClr | .mapq => true
  | _ => false

/-- The special-register index may be used only with PRIV (R347): EPC's write, TSAVE0 and TSAVE1. -/
def privilegedReg (op : LongOp) (i : Nat) : Bool :=
  match op with
  | .getsr => i == 0x102 || i == 0x103
  | .setsr => i == 0x100 || i == 0x102 || i == 0x103
  | _ => false

/-- The special-register index is assigned (R217, R347). -/
def assignedReg (i : Nat) : Bool :=
  decide (i ≤ 0x009) || oneOf [0x010, 0x011, 0x020, 0x021, 0x030, 0x031, 0x040, 0x041, 0x042, 0x043, 0x050, 0x051, 0x052,
    0x060, 0x061, 0x062] i || (decide (0x070 ≤ i) && decide (i ≤ 0x077)) || (decide (0x080 ≤ i) && decide (i ≤ 0x084)) ||
    (decide (0x100 ≤ i) && decide (i ≤ 0x105))

/-- The operand is general, so that its kind may be other than 00 (R203). -/
def Opd.general : Opd → Bool
  | .src _ _ => true
  | _ => false

/-- A misused kind: kind 11 without a literal, or a non-general or unused operand with a kind other than 00. -/
def badKind (o : Long) (op : Opd) (k : BitVec 2) : Bool :=
  match op with
  | .raw => false
  | .src _ _ => k == 3#2 && o.lit.isNone
  | _ => k != 0#2

/-- A register field that its kind leaves unread is not zero (R203). -/
def strayField (op : Opd) (k : BitVec 2) (v : BitVec 9) : Bool :=
  match op with
  | .src _ _ => k != 0#2 && v != 0#9
  | .none => v != 0#9
  | _ => false

/-- How many of KA, KB and KC are 11 on general operands. -/
def litCount (s : Shape) (o : Long) : Nat :=
  (if s.a.general && o.ka == 3#2 then 1 else 0) + (if s.b.general && o.kb == 3#2 then 1 else 0) +
  (if s.c.general && o.kc == 3#2 then 1 else 0)

/-- The first trap of the encoding rows of R379: code and TRAPINFO0 (R378); none when the fields are as the tables say.
Code 0x04 names the lowest word with an offending field; the
registers rows take the first offending field in the order D, A, B, C, E (log 80). -/
def fieldTrap (op : LongOp) (o : Long) (w0 : Word) (priv : Bool) (regs : Nat) : Option (Nat × DWord) :=
  let s := shape op o
  let bad (code : Nat) (word : Nat) : Option (Nat × DWord) := some (code, BitVec.ofNat 32 word ++ w0)
  let fields : List (Nat × Opd × BitVec 9 × BitVec 2) :=
    [(0, s.d, o.d, 0#2), (1, s.a, o.a, o.ka), (2, s.b, o.b, o.kb), (3, s.c, o.c, o.kc), (4, s.e, o.e, 0#2)]
  let outOfClass (f : Nat × Opd × BitVec 9 × BitVec 2) : Bool :=
    match f with
    | (_, .src n al, v, k) => k == 0#2 && (v.toNat % al != 0 || decide (512 < v.toNat + n))
    | (_, .dst n al, v, _) => v.toNat % al != 0 || decide (512 < v.toNat + n)
    | (_, .named m, v, _) => decide (m < v.toNat)
    | _ => false
  let tooHigh (f : Nat × Opd × BitVec 9 × BitVec 2) : Bool :=
    match f with
    | (_, .src n _, v, k) => k == 0#2 && decide (regs < v.toNat + n)
    | (_, .dst n _, v, _) => decide (regs < v.toNat + n)
    | _ => false
  let place (f : Nat × Opd × BitVec 9 × BitVec 2) : DWord := BitVec.ofNat 64 (f.1 * 512 + f.2.2.1.toNat)
  if !priv && (privilegedOp op || ((op == .getsr || op == .setsr) && privilegedReg op o.srIndex)) then some (0x07, w0.setWidth 64)
  else if (o.lit.isSome && litCount s o == 0) || !s.ok0 || strayField s.d 0#2 o.d || strayField s.a o.ka o.a then bad 0x04 0
  else if badKind o s.b o.kb || badKind o s.c o.kc || (decide (1 < litCount s o) && (o.kb == 3#2 || o.kc == 3#2)) || !s.ok1 ||
      strayField s.b o.kb o.b || strayField s.c o.kc o.c || strayField s.e 0#2 o.e then bad 0x04 1
  else if badKind o s.a o.ka || !s.ok2 then bad 0x04 2
  else match fields.find? outOfClass with
    | some f => some (0x05, place f)
    | none => match fields.find? tooHigh with
      | some f => some (0x06, place f)
      | none =>
        if (op == .getsr || op == .setsr) && !assignedReg o.srIndex then bad 0x04 (if o.srIndex < 512 then 1 else 0)
        else none

/-- The opcode ends its clause (R210). -/
def endsClause : LongOp → Bool
  | .bra | .brx | .call | .ret | .exit | .rque | .trap | .rte => true
  | _ => false

/-- The opcode makes a memory event, so that a pending fence holds it back (R282). -/
def memoryEvent : LongOp → Bool
  | .ld | .st | .lds | .sts | .ldc | .stc | .ldx | .stx | .setfe | .atom | .red | .pref | .flush | .flushAll | .fence | .get
  | .put | .puts | .ratom | .bara | .barw | .sstep | .sstepBind | .engk | .engw | .tmma | .tmmas | .titer | .tpoly | .tlda
  | .tsta | .tzero | .tenq | .tcb | .tbld | .ttrn | .tfeed | .twmma | .raysend | .hitq | .recq | .recqHeld | .recj | .send
  | .recv | .rque | .boxt | .trit | .cred | .cwait | .baddq | .tlbi | .eschedLoad | .eschedStep | .eschedAdv | .eschedClr
  | .mapq => true
  | _ => false

end Sys2Proof.Machine
end

