-- ==== Sys2Proof/Config.lean ====
section
/-! DEFINITION. What one implementation fixes and the manual leaves open: free values (constants without a body, so that no
proof can learn one) and the few constants of one package. -/

namespace Sys2Proof.Config

/-- The number of the modelled package within its load/store domain (R59, R140).  DESIGN CHOICE, log 11. -/
def package : Nat := 0

/-- Where the bound of R197 admits several F32 codes as the result of an approximate function: the operand's place from which on the
function returns a magnitude code or one above it.  The function's opcode, the stretch of operands, FPCR.FTZ and the code in.  Free value,
log 18. -/
opaque approxThreshold : Nat → Nat → Bool → Nat → Int

/-- A byte the manual does not give: contents that only the part knows.  The first argument numbers the use, the second
counts the uses.  Free value, log 19. -/
opaque freeByte : Nat → Nat → Byte

/-- Byte i of the running firmware image's digest (R174).  Free value, log 19. -/
opaque firmwareByte : Nat → Byte

/-- Byte i of the Ed25519 signature of the part over some bytes (R174).  Free value, log 19. -/
opaque signatureByte : List Byte → Nat → Byte

/-- Byte i of the image of a lifetime store that holds some counters (R176 gives no layout).  Free value, log 19. -/
opaque lifetimeByte : List (Nat × Nat) → Nat → Byte

/-- A free 64-bit value, by use and count.  Free value, log 16. -/
opaque freeValue : Nat → Nat → DWord

/-- The port a link gateway's hash of (SRC, DEST) selects (R155 names no hash): an index reduced modulo the number of
listed ports.  Free value, log 20. -/
opaque portHash : Nat → Nat → Nat

end Sys2Proof.Config
end

