-- ==== Sys2Proof/Machine/State.lean ====
section
/-! DEFINITION. The state of one package: threads, groups, teams, grids, cores, dies, Serpent slices, link gateways, the host
port, memory and the packets in flight, as plain data, and the state right after package reset. -/

namespace Sys2Proof.Machine

/-! ## Threads (R14, R17, R200) -/

/-- The states of R17.  A thread slot in Free holds no thread and is not listed. -/
inductive ThreadState where
  | runnable
  /-- Waiting: the instruction at the program counter is tried again. -/
  | waiting
  /-- Mask-wait on mask k, at a group-wide instruction (wide) or at a WAITK. -/
  | maskWait (k : Nat) (wide : Bool)
  /-- Mask-wait at BARW or SSTEP (R272). -/
  | barWait
  /-- Parked; retry: an instruction whose register is owed, or a poll, is tried again; otherwise an event ends it. -/
  | parked (retry : Bool)
  | descheduled
  | stopped
  | exited
  deriving DecidableEq, Repr, Inhabited

/-- The clause a thread has fetched (R199, R209). -/
structure Clause where
  base : DWord            -- the header's address
  header : Word
  words : List Word
  deriving DecidableEq, Repr, Inhabited

/-- How a load's bytes become registers (R270). -/
inductive Extend where
  | zero | sign | predicate
  deriving DecidableEq, Repr, Inhabited

/-- Where an outstanding operation stands. -/
inductive OpStatus where
  /-- On its way; its effect has not been performed. -/
  | sent
  /-- Performed: the bytes to write, lowest first. -/
  | ready (data : List Byte)
  /-- Refused with a memory-area code (R401) and the address for TRAPINFO0. -/
  | refused (code : Nat) (info : DWord)
  /-- Its home's retry list was full at this time; it is to be sent again (R409). -/
  | again (since : Nat)
  deriving DecidableEq, Repr, Inhabited

/-- An access to global memory as its home or its cache performs it. -/
inductive Access where
  | load (size : Nat)
  | store (data : List Byte)
  /-- operation, kind and size of R277, operand and swap -/
  | atomic (op kind size : Nat) (operand swap : DWord)
  /-- operation, kind and size of R279 -/
  | reduce (op kind size : Nat) (operand : DWord)
  /-- LDX: remove the data or copy it (R275) -/
  | take (size : Nat) (copy : Bool)
  /-- STX: mode 0 FILL, 1 OVER, 2 FORCE (R275) -/
  | fill (mode : Nat) (data : List Byte)
  | setFe (full : Bool)
  /-- SSTEP arrival of a bound thread at its descriptor (R290) -/
  | arrive
  /-- a superstep's pending-byte change: added or taken (R91) -/
  | pending (add : Bool) (n step : Nat)
  deriving DecidableEq, Repr, Inhabited

/-- One piece of a global access: the physical address of its first byte (R78). -/
structure Piece where
  pa : Nat
  /-- performed at its home, not in the issuing L1 -/
  home : Bool
  access : Access
  hint : Nat := 0                -- allocation hint (R207)
  deriving DecidableEq, Repr, Inhabited

/-- An operation that has issued and not completed (R212, R287). -/
structure Op where
  flag : Option Nat              -- the completion flag it counts on
  dst : Option (Nat × Nat)       -- destination: first register, number of registers
  ext : Extend
  size : Nat                     -- bytes of a datum to extend
  status : OpStatus
  seq : Nat                      -- request sequence number (R143)
  remote : Bool                  -- counts in RPEND (R287)
  global : Bool                  -- an access to global memory: later ones of the thread wait for it
  reads : Bool                   -- a read, for acquire fences (R282)
  held : Bool                    -- the thread is held at the access until it ends (R401, R402)
  acquire : Option Nat           -- scope of an acquire to take when it is performed
  release : Option Nat           -- scope of a release whose own write must reach its home
  line : Option Nat              -- L1 line it waits for
  left : Bool                    -- it has left its core (R272)
  asked : Option Nat             -- when that line was asked of its home in another package, as a fill time
  pieces : List Piece            -- what is still to perform, the first one being on its way
  data : List Byte               -- bytes read by the pieces performed
  failed : Option Nat            -- the code with which a piece has been refused (R400)
  pend : Option (Nat × Nat × Nat)  -- a PUT's descriptor, step and bytes counted in PENDING (R91)
  info : DWord                   -- TRAPINFO0 if refused (R399)
  at_ : DWord                    -- the instruction's address
  next : DWord                   -- where a held thread goes on
  token : Nat                    -- what the operation is for, where more than its destination hangs on its end
  extra : List Nat               -- numbers that its end needs
  issued : Nat                   -- cycle in which it issued
  cls : Nat                      -- structure class of what it accesses (R399)
  deriving DecidableEq, Repr, Inhabited

/-- A thread's special registers (R217, R347). -/
structure Specials where
  fpcr : Word
  fpsr : Word
  region : DWord
  rcount : Word
  record : DWord
  deriv : DWord
  attempt : Word
  dt : List DWord
  trapCause : Word
  info0 : DWord
  info1 : DWord
  info2 : DWord
  info3 : DWord
  epc : DWord
  priv : Bool
  intrap : Bool
  ppriv : Bool
  tsave0 : DWord
  tsave1 : DWord
  carm : DWord
  sendix : Word
  slots : List (Option Nat)      -- endpoints bound to sa0 to sa3 (R157)
  viewDomain : Option Nat        -- the domain VIEWTAG names (R160)
  deriving DecidableEq, Repr, Inhabited

/-- A thread (R14): one lane of one group of a core. -/
structure Thread where
  core : Nat
  lane : Nat
  group : Nat                    -- key of its group
  team : Nat                     -- key of its team
  state : ThreadState
  yielded : Bool                 -- it has yielded to a pre-emption request (R42)
  pc : DWord
  after : DWord                  -- the address after the instruction at pc
  last : DWord                   -- address of the instruction executed last (TRAPINFO1 of code 0x09)
  clause : Option Clause         -- none: the thread is at a clause header
  regs : List Word
  preds : BitVec 16
  flags : List Nat
  buf : DWord                    -- the operand buffer (R204)
  stack : List DWord             -- the call stack, newest first (R240)
  gen : Word                     -- the stochastic-rounding generator (R189)
  sr : Specials
  frame : DWord                  -- g0:g1 at thread start (R326)
  prio : Option Nat              -- the priority of a record thread's entry (R39)
  entry : Option (Nat × Nat)     -- its queue (0 ray, 1 hit, 2 message, 3 record) and entry key
  treelet : Option Nat           -- treelet of a ray arrival (R103)
  sendixAt : Word                -- SENDIX when the region's header last started (R377)
  atomIx : Nat                   -- issue sequence of atomics (R278, R443)
  atomIxAt : Nat
  skip : Option DWord            -- skip address (R381)
  sstep : Option (Nat × Nat)     -- physical address of the bound superstep descriptor and the step last seen (R290)
  sstepVa : DWord                -- the address that bound it (R411)
  ops : NMap Op
  fence : Option (Nat × Nat)     -- a fence whose action is not complete: order, scope (R282)
  arrival : Nat                  -- cycle of arrival at its address (R19)
  lastIssue : Nat
  overdue : Option Nat           -- the cycle in which the fairness timer marked it (R22, R23)
  lateTrap : List (Nat × DWord × Nat)   -- late refusals to report: code, SEQ in TRAPINFO3 (R391)
  job : Option (DWord × DWord × Nat)    -- an engine thread's mailbox, value and scope (R292)
  places : List Nat              -- endpoints to which a retire notice goes (R442); a ninth stands for every place
  named : BitVec 12              -- flags that the header it waits at names (R211)
  joined : Option Nat            -- the release with whose other lanes it issues as one group (R25, R26)
  alone : Bool                   -- struck out of a mask at a group-wide instruction, which it executes alone (R242)
  touch : Bool                   -- its next arrival renews its entry: the instruction that holds it has YH set (R208)
  stopping : Bool                -- it enters Stopped at the end of its current instruction (R28)
  ranOn : Bool                   -- it came to its address by running past the end of a clause, not by a transfer (R380)
  atTrap : Option (DWord × Word × Nat)  -- REGION, and SENDIX and the atomic index at its start, when it took its trap (R377)
  badRegs : List Nat             -- registers, and 512 for the operand buffer, that hold an uncorrectable error (R415)
  shadowBad : Bool               -- its saved state holds one (R415)
  atHeader : Option (DWord × Word × Word × Nat)  -- REGION, RCOUNT, SENDIX and the atomic index before the header whose first instruction has not issued (R211)
  deriving DecidableEq, Repr, Inhabited

/-- A rejoin mask (R24): enrolled and arrived lanes. -/
structure Mask where
  enrolled : Word
  arrived : Word
  deriving DecidableEq, Repr, Inhabited

/-- A group of up to 32 threads (R14). -/
structure Group where
  team : Nat
  gid : Nat
  context : Nat
  masks : List Mask
  fair : Nat                     -- fairness counter (R22)
  slots : Bool                   -- it takes a slot and registers in every lane; otherwise in one lane
  lane : Nat                     -- that lane, for a record thread
  deriving DecidableEq, Repr, Inhabited

/-- A named barrier (R288). -/
structure Barrier where
  phase : Word
  count : Nat
  arrived : Nat
  deriving DecidableEq, Repr, Inhabited

/-- The states of a pre-emption request (R40). -/
inductive Preempt where
  | running | requested | yielded | forced | saving | saved
  deriving DecidableEq, Repr, Inhabited

/-- A team (R14, R169) or a record team (R36). -/
structure Team where
  core : Nat
  slot : Nat                     -- core-local slot 0 to 63
  context : Nat
  grid : Option Nat              -- none: a record team, or the engine group of a gateway core
  teamid : Nat
  gx : Nat
  gy : Nat
  gz : Nat
  cluster : Option (Nat × Nat)   -- cluster index and member index (R16)
  groups : Nat
  regs : Nat                     -- registers per thread (R15)
  asid : Nat
  root : Nat                     -- root table address (R74)
  prio : Nat
  age : Nat                      -- order of start
  scratch : Nat                  -- core-absolute offset of its allocation
  scratchSize : Nat
  column : Nat                   -- offset of its window in each slice
  columnSize : Nat
  tiles : List Nat               -- physical tiles; a team may borrow none
  coef : List Word
  books : List (BitVec 256)
  bars : List Barrier
  reports : List (Option (Nat × DWord × Nat))  -- one slot per tile: code, TRAPINFO0, class (R393)
  pre : Preempt
  preq : Bool
  cause : Nat
  pdead : Nat
  saveBase : DWord
  resume : Option Nat            -- order of resumption of a Saved team (R41)
  remote : Nat                   -- remote requests not acknowledged (R30, R287)
  halted : Bool                  -- HALTTEAM or an unhandled trap stopped it (R28, R386)
  aborted : Bool                 -- TABORT (R387)
  engine : Bool                  -- the engine group of a gateway core or a copy hart (R291)
  deriving DecidableEq, Repr, Inhabited

/-- A grid (R29, R169): what its LAUNCH named and how far it has come. -/
structure Grid where
  ring : Nat                     -- command ring and sequence of its LAUNCH
  seq : Nat
  code : DWord
  arg : DWord
  root : Nat
  asid : Nat
  prio : Nat
  dies : Nat                     -- die-affinity mask
  groups : Nat
  regs : Nat
  scratch : Nat
  columns : Nat
  tiles : Nat
  dimx : Nat
  dimy : Nat
  dimz : Nat
  cw : Nat                       -- cluster shape, 0 when none
  ch : Nat
  save : DWord
  tag : Nat                      -- tag of its LAUNCH
  nextTeam : Nat
  again : List Nat               -- teams or clusters to run again after the loss of their die (R445)
  skip : List Nat                -- teams of those clusters that had retired before, and do not run again
  left : Nat                     -- teams not yet retired
  deriving DecidableEq, Repr, Inhabited

/-! ## Cores (R5) -/

/-- State of a line in an L1 (R63); I is not listed. -/
inductive LineState where
  | s | e | m
  /-- update-only: operation, kind and size of the reductions it holds (R72) -/
  | u (op kind size : Nat)
  deriving DecidableEq, Repr, Inhabited

/-- A line in an L1 data cache. -/
structure Line where
  state : LineState
  bytes : List Byte
  valid : List Bool              -- for state U: which elements hold a contribution; for state M: which bytes have been written
  fillTime : Nat                 -- when it was read from its home: device time and order (State.stamp)
  old : Bool                     -- allocated as least recently used: it leaves first (R207)
  deriving DecidableEq, Repr, Inhabited

/-- A translation as a TLB holds it (R76). -/
structure Tlb where
  asid : Nat
  va : Nat                       -- first address of the page
  size : Nat
  pa : Nat
  entry : DWord                  -- the leaf's bits
  deriving DecidableEq, Repr, Inhabited

/-- An accumulator tile of a core and its state word (R5, R136). -/
structure Tile where
  owner : Option Nat             -- key of the team that holds it
  elems : List Word              -- 1,024 words, row by row
  w16 : Bool
  version : Nat
  iter : Nat
  phase : Nat
  status : Nat
  resid : Word
  deriving DecidableEq, Repr, Inhabited

/-- A tile task in the queue (R128, R131): the record, what acceptance captured, and how far it has come (R134). -/
structure Task where
  team : Nat                     -- key of the team that owns the tiles
  entry : Option Nat             -- the record-queue entry it comes from (R38)
  space : Nat                    -- team whose scratch and address space its addresses name
  record : List Byte             -- the 64-byte record
  prio : Nat
  order : Nat                    -- order of acceptance
  bookA : BitVec 256
  bookB : BitVec 256
  coef : List Word
  priv : Bool
  source : DWord                 -- what TRAPINFO0 of code 0x41 names: the first word, or the record's address
  started : Bool
  step : Nat                     -- steps completed
  second : Bool                  -- between the two steps of a Horner stage, or of ISQRT's Gram product
  staging : List Word            -- the staging tile as this task uses it (R135)
  work : List Word               -- H of ITER, y of POLY, between steps
  done : Bool                    -- its last step is made
  due : Option Nat               -- complete at this version; its completion target is still to be written
  index : Nat                    -- atomic index of its completion target's write (R133, R443)
  hint : Nat                     -- allocation hint of its reads and writes of memory (R207, R294)
  excs : BitVec 4                -- exception bits FLT, NANT, OFT, IVT (R398)
  fault : Option (Nat × DWord)   -- found fault (R392)
  deriving DecidableEq, Repr, Inhabited

/-- A read that the part's own agents at a core make by packet: of another package's memory, or of a register window (R60, R64). -/
structure AgentRead where
  pa : Nat
  size : Nat
  asked : Nat                    -- when it was asked for, as a fill time
  got : Option (List Byte)       -- its answer
  code : Option Nat              -- the code with which it was refused
  deriving DecidableEq, Repr, Inhabited

/-- A TWMMA released and waiting for the array (R308). -/
structure WaveTask where
  team : Nat                     -- key of the team whose column window holds B
  boff : Nat
  lanes : List (Nat × Nat × Nat) -- participants: lane, thread, operation
  o : Long
  rows : List (List Word)        -- A runs of the participants
  accs : List (List Word)        -- their result runs, with ACC
  book : BitVec 256
  deriving DecidableEq, Repr, Inhabited

/-- An entry of an arrival queue (R33): its payload, its order and where it came from. -/
structure Entry where
  typ : Nat                      -- TYPE of the packet that delivered it: 0x30, 0x40 to 0x43
  bytes : List Byte
  prio : Nat
  order : Nat                    -- order of acceptance
  src : Nat
  origin : Nat                   -- of a ray: its original sender (R108)
  deriv : DWord
  attempt : Nat
  addr : DWord                   -- ADDR of a collective block
  key : Option Nat               -- coherence key of a keyed record
  bin : Option Nat               -- the bin it was fixed into (R35)
  slot : Option Nat              -- place on chip
  ring : Bool                    -- it was accepted into the backing ring only
  ringSlot : Nat                 -- its slot in both rings (R439)
  record : List Byte             -- of a hit: its continuation record of KIND 1 (R39)
  live : Bool                    -- taken and its thread has not exited, so that the slot stays (R36)
  arrived : Nat                  -- cycle of arrival (R37)
  wide : Nat                     -- the widest scope at which a RECJ of it was sent, 0 for none (R325)
  deriving DecidableEq, Repr, Inhabited

/-- A held record (R34). -/
structure Held where
  bytes : List Byte
  prio : Nat
  src : Nat
  applied : List DWord           -- derivation ids of the RECJs applied (R325)
  wide : Nat                     -- the widest scope between a sender of one and the queue
  deriving DecidableEq, Repr, Inhabited

/-- One arrival queue of a core (R33). -/
structure Queue where
  bound : Bool
  team : Option Nat              -- its record team
  code : DWord                   -- bound code address (ray, hit and message queues)
  ring : DWord                   -- backing ring address and size, two mirrors
  mirror : DWord
  ringLog : Nat
  entries : NMap Entry           -- by acceptance order
  next : Nat                     -- next acceptance order
  held : NMap Held               -- by ticket
  ticket : Nat                   -- records received since the binding
  seen : List (DWord × DWord)    -- the doubt set: derived id and DERIV of the record it came from (R442)
  image : List Byte              -- the QUEUE_SETUP image that bound it
  tickets : List (DWord × Nat)   -- tickets of the held records in the doubt set, by derived id (R324, R442)
  deriving DecidableEq, Repr, Inhabited

/-- A treelet in a core's pool (R111, R112): reserved, or resident with its last arrival. -/
structure Treelet where
  unit : Nat                     -- first pool unit
  size : Nat
  resident : Bool
  lastArrival : Nat
  direct : Nat                   -- arrivals counted toward the next report (R110)
  lost : Bool                    -- lost to an error, its eviction not yet reported (R422)
  deriving DecidableEq, Repr, Inhabited

/-- A route-cache entry (R107). -/
structure Route where
  treelet : Nat
  owners : List Nat
  used : Nat
  deriving DecidableEq, Repr, Inhabited

/-- An allowance-table entry (R156). -/
structure Allow where
  flits : Nat
  used : Nat
  deriving DecidableEq, Repr, Inhabited

/-- A waiting full/empty access in a retry list (R71). -/
structure Retry where
  order : Nat
  src : Nat                      -- issuing core
  thread : Nat
  op : Nat
  loc : Nat                      -- location of the access
  access : Access
  since : Nat
  deriving DecidableEq, Repr, Inhabited

/-- What a log of atomics keeps for exactly-once work (R443). -/
structure LogEntry where
  deriv : DWord
  index : Nat
  place : Nat                    -- the L2 slice's channel, or 0
  old : List Byte
  deriving DecidableEq, Repr, Inhabited

/-- A core, gateway core or copy hart (R5).  A core that is enabled and not listed is as after reset. -/
structure Core where
  xctl : Word
  pdline : Word
  spool : Word
  qdepth : Word
  allowcfg : Word
  tvec : DWord
  attach : Bool                  -- DBGCTL.ATTACH
  perfsel : Word
  perf : List DWord
  mxexc : DWord
  fewait : Word
  cycles : Nat
  issued : Bool                  -- it has issued in this cycle (R19)
  active : Nat                   -- active context
  swaps : Nat
  swapAgain : Nat                -- swaps still to perform (R341)
  swapping : Bool
  lastSwap : Nat
  lines : NMap Line
  floor : Nat                    -- peer-supply floor (R66), as a fill time
  tlb : List Tlb
  icache : List (Nat × Word)     -- instruction words fetched since the last invalidation, by physical address
  tiles : List Tile
  tasks : NMap Task              -- queue, by acceptance order
  waves : List WaveTask
  rays : Queue
  hits : Queue
  msgs : Queue
  recs : Queue
  pool : NMap Treelet
  routes : List Route
  allow : NMap Allow
  senders : List (Nat × Nat)     -- senders that wait for allowance, oldest first: destination and thread (R157)
  sunk : NMap (Nat × Nat)        -- flits sunk and not yet returned, by source, and the time of the last
  sendCount : Nat                -- 44-bit send counter (R322)
  rpend : Nat
  retry : List Retry
  alog : List LogEntry
  logFull : Bool                 -- an atomic waits for room in the log (R443)
  kicks : List (Nat × Nat × Nat × DWord)  -- queued kicks: address space and its root table, scope, descriptor (R291, R93)
  busy : Bool
  engine : Option Nat            -- key of the engine thread
  seq : Nat                      -- next request sequence number
  reads : NMap AgentRead         -- reads of its agents that are on their way or not yet used, by SEQ
  deriving DecidableEq, Repr, Inhabited

/-! ## Dies (R2) -/

/-- The states of a die in loss handling (R435). -/
inductive Loss where
  | serving | fence | drain | drained | resetting | rejoining | absent
  deriving DecidableEq, Repr, Inhabited

/-- Where a table walk stands (R74, R402). -/
inductive WalkStatus where
  /-- Not begun: 16 others are in flight, or one of the same page is, with which it ends (R76). -/
  | queued
  /-- The entry at the current level is being read. -/
  | reading
  | found (entry : DWord)
  /-- V is 0 at the current level. -/
  | missing
  /-- Malformed (R399, code 0x25). -/
  | bad
  /-- A wait for service of the task scheduler or a queue that has timed out (R404, code 0x20). -/
  | expired
  deriving DecidableEq, Repr, Inhabited

/-- A translation at an L2 TLB (R76, R402). -/
structure Walk where
  core : Nat
  thread : Nat
  asid : Nat
  root : Nat
  va : Nat
  cls : Nat                      -- permission class 0 to 3 (R405)
  fe : Bool
  priv : Bool
  soft : Bool                    -- a PREF or a one-line FLUSH: it waits for nothing (R280, R281)
  table : Nat                    -- address of the table at the current level
  level : Nat
  status : WalkStatus
  since : Nat
  waits : Bool                   -- it waits for service (R402)
  faulted : Bool                 -- it has waited for service
  deriving DecidableEq, Repr, Inhabited

/-- A fault-buffer entry (R405). -/
structure FaultEntry where
  va : Nat
  asid : Nat
  kind : Nat
  level : Nat
  count : Nat
  first : Nat
  time : Nat
  deriving DecidableEq, Repr, Inhabited

/-- A die: its controller, fault unit and L2 TLB. -/
structure Die where
  inc : Nat                      -- DINC.INC (R152)
  present : Bool
  enabled : List Nat             -- enabled core positions (R4)
  loss : Loss
  known : NMap Nat               -- incarnations of the dies of the domain, by package × 32 + die
  throttled : Bool
  missed : Nat                   -- heartbeats not answered in a row (R434)
  tryReset : Bool                -- firmware is to make one attempt to reset it (R435)
  attach : Nat                   -- die-local position of the router that its agents attach to (R462)
  dark : Bool                    -- a gateway's memory is refused until a package reset (R437)
  tlb : List Tlb
  walks : NMap Walk
  faults : List (Option FaultEntry)   -- eight entries
  dropped : Bool
  drops : Nat
  wrote21 : Bool
  ftmo : Word
  fewait : Word
  stale : NMap Nat               -- packets dropped for their incarnation, by package and die of the sender (R433)
  reports : NMap (Nat × Nat)     -- SEV 0 records by class: time of the last, errors counted since (R364)
  retry : List Retry             -- retry lists of the die's L2 slices or home agent
  alog : List LogEntry           -- logs of its L2 slices (R443)
  l2 : NMap (List Nat)           -- lines in its L2 slices, by channel and set, most recently used first (R67)
  farWrites : List (Nat × Nat × Nat)  -- write-backs and partials under way to other packages: endpoint, SEQ and line (R66)
  logFull : List Nat             -- places of the atomic logs at which an atomic waits for room (R443)
  waiters : List (Nat × Nat × Nat × Nat)  -- superstep waiters: descriptor, core, thread, operation
  views : NMap Nat               -- installed view of each domain (R159)
  deriving DecidableEq, Repr, Inhabited

/-! ## Packets (R143 to R145) -/

/-- A packet's operation and operands, by TYPE (R144, R145). -/
inductive Body where
  | creditReturn (flits : Nat)
  | routeFill (treelet : Nat) (owners : List Nat)
  | routeUpdate (treelet : Nat) (owners : List Nat)
  | grantRequest (treelet size : Nat)
  | reservationRelease (treelet : Nat)
  | grantReply (treelet : Nat) (unit : Option Nat) (free : Nat)
  | install (treelet : Nat)
  | counterIncrement (treelet amount free : Nat)
  | evictionReport (treelet free : Nat)
  | incarnationUpdate (die inc : Nat)
  | viewProtocol (message domain view : Nat) (set : List Bool) (member : Nat)
  | broadcast (treelet : Nat) (owners : List Nat)
  | systemControl (code : Nat) (record : List Byte)
  /-- free: the asking core's free pool units (R111); none for a core of another package -/
  | residency (treelet : Nat) (request : Bool) (free : Option Nat) (thread op : Nat)
  | residencyReply (treelet : Nat) (word : Word) (thread op : Nat)
  /-- free: what a core reports to a slice (R111) -/
  | retireNotice (free : Option Nat)
  /-- REQ 0x10 to 0x13, 0x19: one piece of an access to a home -/
  | request (typ : Nat) (piece : Piece) (thread op : Nat) (index : Nat)
  | get (addr size : Nat) (column : Bool) (thread op : Nat)
  | put (typ : Nat) (addr : Nat) (column : Bool) (data : List Byte) (pend : Option (Nat × Nat)) (thread op : Nat)
  | signal (addr : Nat) (add : Bool) (value : Word) (pend : Option (Nat × Nat)) (last : Nat) (thread op : Nat)
  | ratom (addr : Nat) (access : Access) (thread op : Nat) (index : Nat)
  /-- a member LDS or STS -/
  | member (addr : Nat) (access : Access) (thread op : Nat)
  /-- bytes and queue of a spilled entry -/
  | spill (pa : Nat) (data : List Byte) (queue : Nat)
  | walkRead (pa walk : Nat)
  | data (bytes : List Byte) (thread op : Nat)
  | acknowledgment (thread op : Nat)
  | refusal (code : Nat) (info : DWord) (thread op : Nat)
  | ray (bytes : List Byte) (prio : Nat) (thread op : Nat)
  | hit (typ : Nat) (bytes : List Byte) (prio : Nat) (thread op : Nat)
  /-- HIT 0x42 with ADDR bit 63 set: a RECJ (R325) -/
  | join (ticket decrement : Nat) (thread op : Nat)
  | block (bytes : List Byte) (thread op : Nat)
  | page (treelet : Nat) (offset : Nat) (data : List Byte) (last : Bool)
  /-- a packet of any TYPE on its way through this package to another one -/
  | transit (payload : List Byte)
  deriving DecidableEq, Repr, Inhabited

/-- A packet in flight (R143). -/
structure Packet where
  cls : Nat                      -- class 0 to 5
  typ : Nat
  ord : Bool
  src : Nat
  dst : Nat
  inc : Nat
  seq : Nat
  flits : Nat
  addr : DWord
  deriv : DWord
  parent : Option DWord          -- DERIV of the record thread it comes from; none for a launched thread's
  attempt : Nat
  team : Nat                     -- key of the issuing team, for the grid rule of R269
  priv : Bool
  dvc : Nat
  esc : Bool                     -- ESC: it is on an escape channel
  dn : Bool                      -- DN: its escape path has taken a down link
  age : Nat                      -- AGE: bits 19:8 of device time at injection
  origin : Nat                   -- of a ray: its original sender (R108)
  via : Option (Nat × Nat)       -- the port it came into the package by, and its DVC there (R155)
  far : Bool                     -- came over Drinyx
  sent : Nat                     -- cycle in which it entered the mesh
  body : Body
  deriving DecidableEq, Repr, Inhabited

/-! ## Serpent slices (R106 to R123) -/

/-- State of a treelet in its directory (R109). -/
inductive Residency where
  | cold | paging | resident | replicated
  deriving DecidableEq, Repr, Inhabited

/-- A ray parked at a slice (R114). -/
structure Parked where
  bytes : List Byte
  sender : Nat                   -- its original sender (R108)
  slot : Option Nat              -- its place in the spill area; none: on chip
  deriv : DWord
  attempt : Nat
  from_ : Option Nat             -- returned by this owner with FWD, until its eviction report (R113)
  prio : Nat
  deriving DecidableEq, Repr, Inhabited

/-- An attempt to page an image to a new owner (R111, R112). -/
structure Attempt where
  core : Option Nat              -- the core asked; none: every listed core has refused
  since : Nat                    -- when the last one refused
  granted : Option Nat           -- first pool unit
  tag : Nat                      -- number of this attempt's reads of the image
  left : Nat                     -- flits not yet acknowledged
  refusedBy : List Nat
  replica : Bool
  deriving DecidableEq, Repr, Inhabited

/-- A directory entry (R109). -/
structure DirEntry where
  image : Nat
  size : Nat
  state : Residency
  evp : Option Nat               -- EVP: the sole owner whose eviction report is awaited
  norep : Bool
  owners : List Nat
  counter : Nat
  parked : List Parked
  attempt : Option Attempt
  held : Bool                    -- paging failed (R421)
  deriving DecidableEq, Repr, Inhabited

/-- A Serpent slice. -/
structure Slice where
  dctl : Word
  dsize : Word
  ttbase : DWord
  plbase : DWord
  fqbase : DWord
  pkbase : DWord
  fqhead : Word
  fqtail : Word
  fqdrop : Word
  entries : NMap DirEntry        -- by treelet id
  placement : List Nat
  free : NMap Nat                -- free pool units last reported, by core
  seen : List (DWord × DWord)    -- the doubt set (R442)
  asked : List Packet            -- RESID packets sunk while EN is 0, oldest first (R118; log 145)
  decayed : Nat                  -- when the counters were last due to be halved (R110)
  deriving DecidableEq, Repr, Inhabited

/-! ## Link gateways, views, the host port (R140 to R176) -/

/-- A unit that a port has sent and keeps until it is acknowledged (R153, R430): its slots, and the packets whose last flits it carries. -/
structure SentUnit where
  seq : Nat
  slots : List DrinyxSlot
  packets : List Packet
  deriving DecidableEq, Repr, Inhabited

/-- A Drinyx port (R153 to R155, R430, R431). -/
structure Port where
  cfg : Word                     -- PORTCFG without UP and FARPORT
  up : Bool
  farPackage : Nat
  farPort : Nat
  locked : Bool                  -- re-attestation under way
  sendSeq : Nat
  acceptSeq : Nat
  unacked : List SentUnit
  waiting : List Packet          -- packets for this port
  replayFrom : Option Nat        -- the unit whose replay has been asked of the far end
  failures : NMap Nat            -- failures by unit sequence number (R431)
  fails : List Nat               -- times of the units that failed in the last millisecond
  lockedAt : Nat
  keys : Nat                     -- session keys agreed (R153)
  keyUnits : Nat                 -- units sent under the last
  credits : List Nat             -- free flit slots of the far end's 12 input buffers (R155)
  freed : List Nat               -- flit slots of this end's freed and not yet returned
  answer : Bool                  -- an acknowledgment or a replay request is to go out (R430)
  fragments : List (List Byte)   -- received of the far end's re-attestation message (R431)
  reported : Bool                -- its own re-attestation message has been sent for this lock (R431)
  deriving DecidableEq, Repr, Inhabited

/-- The states of R159. -/
inductive ViewPhase where
  | stable | proposing | prepared | installing
  deriving DecidableEq, Repr, Inhabited

/-- A contribution held by a block queue (R333). -/
structure Block where
  gateway : Nat
  seq : Nat
  index : Nat
  addr : DWord
  bytes : List Byte
  deriv : DWord
  deriving DecidableEq, Repr, Inhabited

/-- A view domain as one Chalumeau keeps it (R158, R159). -/
structure Domain where
  members : List (Nat × Nat)     -- package and die of each member
  set : List Bool
  view : Nat
  phase : ViewPhase
  propView : Nat
  propSet : List Bool
  propFrom : Nat                 -- member index of the proposal's coordinator
  wanted : List (Nat × Bool)     -- changes wanted: member, join
  accepts : List Nat             -- packages whose ACCEPT is awaited
  installs : List Nat            -- dies whose acknowledgment is awaited
  blocks : List Block            -- the block queues' contributions, in arrival order
  latest : List (Nat × Nat)      -- the sequences a block queue holds: gateway and sequence, newest first
  assigned : List (Nat × Nat × Nat × Nat)  -- gateway, sequence, index, gateway core
  deriving DecidableEq, Repr, Inhabited

/-- A command ring of the host port agent (R165). -/
structure Ring where
  base : DWord
  tail : Word
  head : Word
  deriving DecidableEq, Repr, Inhabited

/-- The Plaod command in progress (R166). -/
structure Command where
  ring : Nat
  seq : Nat
  bytes : List Byte
  waits : List Nat               -- operations that an UNMAP waits for
  undo : Option (Nat × Nat)      -- the entry that an UNMAP has cleared: its address and old value
  deriving DecidableEq, Repr, Inhabited

/-- An event record on its way to the host port's fault unit: the CTL packet of TYPE 0x0C, code 3, whose payload it is, with the record's source
die and incarnation in its header (R145, R365). -/
structure Event where
  bytes : List Byte
  deriving DecidableEq, Repr, Inhabited

/-- What goes out to the host (R162, R369). -/
inductive HostMessage where
  /-- an MSI-X message -/
  | vector (n : Nat)
  | completion (pa : Nat) (data : List Byte)
  /-- an Unsupported Request completion -/
  | unsupported (pa : Nat)
  /-- poisoned data of a CXL.mem read -/
  | poison (pa : Nat)
  deriving DecidableEq, Repr, Inhabited

/-- A request of the host that waits for an earlier posted write (R96). -/
inductive HostRequest where
  | write (pa : Nat) (data : List Byte) (poisoned : Bool)
  | read (pa len : Nat)
  deriving DecidableEq, Repr, Inhabited

/-- The host port agent, firmware and lifetime store. -/
structure HostPort where
  gateway : Nat                  -- link gateway whose port is the host's: 22 or 23
  links : List Nat               -- link gateways whose PCIe link is trained
  downAt : Nat                   -- when the host's link went down
  rings : List Ring
  evbase : DWord
  evtail : Word
  evhead : Word
  evdrop : Word
  holding : List (List Byte)     -- the holding buffer (R366)
  lost : List Nat                -- sources whose next record carries LOST
  bootstat : Word
  boot : Option BootOutcome      -- the boot under way, and what it finds (R172)
  serving : Nat                  -- link gateway whose service cores serve: 22 or 23
  command : Option Command       -- the command in progress
  nextRing : Nat                 -- the ring whose turn is next (R166)
  toHost : List HostMessage      -- sent to the host, newest first
  held : List HostMessage        -- held while its link is down, oldest first (R369)
  posted : List HostRequest      -- posted writes not yet performed, and the reads behind them, oldest first (R96)
  keyOk : Bool                   -- the fused identity key can be read (R374)
  cxl : Bool                     -- personality strap
  deriving DecidableEq, Repr, Inhabited

/-- The tables of the whole package. -/
structure Package where
  gwsel : List Bool
  proute : List (Nat × Nat × Nat)       -- gateway, package, ports
  ports : List Port                      -- 16
  domains : List (Nat × Domain)          -- domains that are set up
  beats : NMap Nat                       -- device time of the last Chalumeau heartbeat, by package (R446)
  beatAt : Nat                           -- when this package's Chalumeau last sent heartbeats
  dieBeatAt : Nat                        -- when the serving fault unit last sent heartbeats (R434)
  crc : NMap (Nat × Nat)                 -- links whose flits fail their CRC: failures in a row, and the time of the last (R429)
  adopted : List (Nat × Nat × Nat)       -- home, queue and adopter of adopted queues (R440)
  orphans : List (Nat × Nat × Queue)     -- queues that wait for their die to rejoin: home, queue (R440)
  unreachable : List Nat
  chalumeau : Nat                        -- link gateway whose Chalumeau leads
  schedule : List (Nat × Nat × Nat × Nat)  -- eviction schedule, loaded last first: index, base, 64 KiB units, next-use step (R69)
  step : Nat                             -- current step S
  committed : List DWord                 -- derivation ids of record tasks that have committed to MXEXC and not retired (R398, R444)
  blockSeen : List (Nat × DWord × DWord) -- doubt sets of the block queues: gateway, derived id, DERIV (R442)
  lifetime : NMap Nat                    -- lifetime-store counters, by the keys of lifeKey (R176)
  counts : NMap Nat                      -- what has been counted since the last fold
  foldAt : Nat                           -- device time of the last fold
  deriving DecidableEq, Repr, Inhabited

/-! ## The whole -/

/-- Which agent moves next, where the agenda says so. -/
inductive Turn where
  /-- These threads, which stand at one address, issue as one group (R21). -/
  | issue (threads : List Nat)
  /-- This event happens, on the object with this key. -/
  | event (i : Instr) (key : Nat)
  deriving DecidableEq, Repr

/-- Why the machine stops: for no reason.  Every step answers a next state or, for a row without a meaning, a refusal. -/
inductive Fault
  deriving DecidableEq, Repr

/-- Why the machine refuses. -/
inductive Refusal where
  /-- Raised by an arm of exec whose instruction has no meaning yet.  Safe. -/
  | notModelled (mnemonic : String)
  deriving DecidableEq, Repr

/-- The state of one package. -/
structure State where
  threads : NMap Thread
  groups : NMap Group
  teams : NMap Team
  grids : NMap Grid
  cores : NMap Core
  dies : NMap Die
  slices : NMap Slice
  packets : NMap Packet
  mem : List Host.Cell
  empty : List Nat               -- 8-byte words whose full/empty bit is 0, rising (R70)
  bad : List Nat                 -- 8-byte words with an uncorrectable error, rising (R412)
  host : HostPort
  pkg : Package
  events : List Event            -- event records in flight on CTL, in the order they were sent
  time : Nat                     -- device time in nanoseconds (R8)
  ticks : Nat                    -- cycles of the 2.7 GHz clock since reset (R6)
  powered : Bool
  agenda : List Turn
  cur : List Nat                 -- the issue group: keys of its threads, in lane order
  obj : Nat                      -- key of the object an event row acts on
  fresh : Nat                    -- next unused key
  free : Nat                     -- free values taken so far
  deriving DecidableEq, Repr

/-! ## After package reset -/

/-- An unbound arrival queue (R33). -/
def Queue.reset : Queue where
  bound := false
  team := none
  code := 0#64
  ring := 0#64
  mirror := 0#64
  ringLog := 0
  entries := []
  next := 0
  held := []
  ticket := 0
  seen := []
  image := []
  tickets := []

/-- A tile after reset: zero, at version 0 (R30, R136). -/
def Tile.reset : Tile where
  owner := none
  elems := List.replicate 1024 0#32
  w16 := false
  version := 0
  iter := 0
  phase := 0
  status := 0
  resid := 0#32

/-- A core after package reset: the reset columns of R47 to R50, R56, R119, R139, R156, R291, R337, R340, R346, R397, R410. -/
def Core.reset : Core where
  xctl := 0x10C00003#32
  pdline := 0x00040000#32
  spool := 0#32
  qdepth := 0xFFFFFFFF#32
  allowcfg := 0x00400003#32
  tvec := 0#64
  attach := false
  perfsel := 0#32
  perf := List.replicate 8 0#64
  mxexc := 0#64
  fewait := 0#32
  cycles := 0
  issued := false
  active := 0
  swaps := 0
  swapAgain := 0
  swapping := false
  lastSwap := 0
  lines := []
  floor := 0
  tlb := []
  icache := []
  tiles := List.replicate 8 Tile.reset
  tasks := []
  waves := []
  rays := Queue.reset
  hits := Queue.reset
  msgs := Queue.reset
  recs := Queue.reset
  pool := []
  routes := []
  allow := []
  senders := []
  sunk := []
  sendCount := 0
  rpend := 0
  retry := []
  alog := []
  logFull := false
  kicks := []
  busy := false
  engine := none
  seq := 0
  reads := []

/-- Every die of the package knows every die at incarnation 1 (R152). -/
def knownAtReset : NMap Nat := (List.range 24).map (fun d => (Config.package * 32 + d, 1))

/-- A die after package reset (R152, R404, R410).  The enabled positions of a core die are a DESIGN CHOICE, log 10. -/
def Die.reset (die : Nat) : Die where
  inc := 1
  present := true
  enabled := if die < 16 then List.range 72 else List.range 16
  loss := .serving
  known := knownAtReset
  throttled := false
  missed := 0
  tryReset := false
  attach := 34
  dark := false
  tlb := []
  walks := []
  faults := List.replicate 8 none
  dropped := false
  drops := 0
  wrote21 := false
  ftmo := 0#32
  fewait := 0#32
  stale := []
  reports := []
  retry := []
  alog := []
  l2 := []
  farWrites := []
  logFull := []
  waiters := []
  views := []

/-- A Serpent slice after package reset (R120 to R123). -/
def Slice.reset : Slice where
  dctl := 0x0000000A#32
  dsize := 0#32
  ttbase := 0#64
  plbase := 0#64
  fqbase := 0#64
  pkbase := 0#64
  fqhead := 0#32
  fqtail := 0#32
  fqdrop := 0#32
  entries := []
  placement := []
  free := []
  seen := []
  asked := []
  decayed := 0

/-- A Drinyx port after package reset: not enabled and not trained (R155).  Its sequence numbers: log 11. -/
def Port.reset : Port where
  cfg := 0#32
  up := false
  farPackage := 0
  farPort := 0
  locked := false
  sendSeq := 0
  acceptSeq := 0
  unacked := []
  waiting := []
  replayFrom := none
  failures := []
  fails := []
  lockedAt := 0
  keys := 0
  keyUnits := 0
  credits := List.replicate 12 16
  freed := List.replicate 12 0
  answer := false
  fragments := []
  reported := false

/-- The host port agent after package reset, before boot (R172) has begun: rings of 2^6 commands, an event ring of 2^10 records (R165, R365),
BOOTSTAT 0 (R372), no link trained (log 12). -/
def HostPort.reset : HostPort where
  gateway := 22
  links := []
  downAt := 0
  rings := List.replicate 16 { base := 0x6#64, tail := 0#32, head := 0#32 }
  evbase := 0xA#64
  evtail := 0#32
  evhead := 0#32
  evdrop := 0#32
  holding := []
  lost := []
  bootstat := 0#32
  boot := none
  serving := 22
  command := none
  nextRing := 0
  toHost := []
  held := []
  posted := []
  keyOk := true
  cxl := false

/-- The package-wide tables after reset. -/
def Package.reset : Package where
  gwsel := List.replicate 256 false
  proute := []
  ports := List.replicate 16 Port.reset
  domains := []
  beats := []
  beatAt := 0
  dieBeatAt := 0
  crc := []
  adopted := []
  orphans := []
  unreachable := []
  chalumeau := 22
  schedule := []
  step := 0
  committed := []
  blockSeen := []
  lifetime := []
  counts := []
  foldAt := 0

/-- The machine right after package reset: no team resident, no packet in flight, memory as the unlisted byte reads, every
full/empty bit full (R70), device time 0 (log 14). -/
def State.reset : State where
  threads := []
  groups := []
  teams := []
  grids := []
  cores := []
  dies := (List.range 24).map (fun d => (d, Die.reset d))
  slices := (List.range 6).map (fun i => (i, Slice.reset))
  packets := []
  mem := []
  empty := []
  bad := []
  host := HostPort.reset
  pkg := Package.reset
  events := []
  time := 0
  ticks := 0
  powered := true
  agenda := []
  cur := []
  obj := 0
  fresh := 1
  free := 0

end Sys2Proof.Machine
end

