-- ==== Sys2Proof/Machine/Ops.lean ====
section
/-! DEFINITION. The named operations over memory, registers and the tables of State, event records, and taking a trap. -/

namespace Sys2Proof.Machine

/-- Bit b as a number. -/
def bit (v : Bool) (b : Nat) : Nat := if v then 2 ^ b else 0

/-! ## Bytes (R11) -/

/-- The n low bytes of a number, lowest first. -/
def leBytes : Nat → Nat → List Byte
  | 0, _ => []
  | n + 1, v => BitVec.ofNat 8 v :: leBytes n (v / 256)

/-- The number that bytes hold, lowest first. -/
def leNat : List Byte → Nat
  | [] => 0
  | b :: bs => b.toNat + 256 * leNat bs

/-- The bytes of register words in order (R270). -/
def wordsToBytes (ws : List Word) : List Byte := ws.flatMap bytesOfWord

/-- n words from bytes; missing bytes read as zero. -/
def bytesToWords : Nat → List Byte → List Word
  | 0, _ => []
  | n + 1, bs => BitVec.ofNat 32 (leNat (bs.take 4)) :: bytesToWords n (bs.drop 4)

/-- A field of the number that bytes hold: n bytes from an offset (R11). -/
def field (bs : List Byte) (off n : Nat) : Nat := leNat ((bs.drop off).take n)

/-- Replaces bytes from an offset. -/
def patch (bs : List Byte) (off : Nat) (new : List Byte) : List Byte :=
  bs.take off ++ new ++ bs.drop (off + new.length)

/-- Bits h to l of a number. -/
def bits (v h l : Nat) : Nat := v / 2 ^ l % 2 ^ (h + 1 - l)

/-- The first list comes before the second at the first place where they differ. -/
def keyBefore : List Nat → List Nat → Bool
  | a :: as, b :: bs => if a = b then keyBefore as bs else decide (a < b)
  | _, _ => false

/-! ## Memory: one list of cells in one canonical form -/

/-- What a byte that nothing has written reads as: 0 (DESIGN CHOICE, log 8). -/
def unlisted : Byte := 0#8

/-- The byte at an address. -/
def memRead : List Host.Cell → Nat → Byte
  | [], _ => unlisted
  | (k, v) :: rest, a => if k = a then v else memRead rest a

/-- Writes one byte; the list stays sorted and lists no byte that reads as the unlisted one. -/
def memWrite : List Host.Cell → Nat → Byte → List Host.Cell
  | [], a, b => if b = unlisted then [] else [(a, b)]
  | (k, v) :: rest, a, b =>
    if a < k then (if b = unlisted then (k, v) :: rest else (a, b) :: (k, v) :: rest)
    else if a = k then (if b = unlisted then rest else (a, b) :: rest)
    else (k, v) :: memWrite rest a b

/-- The canonical form: addresses strictly rising, no byte equal to the unlisted one. -/
def Memory.wf : List Host.Cell → Bool
  | [] => true
  | [(_, v)] => v != unlisted
  | (k, v) :: (k', v') :: rest => v != unlisted && decide (k < k') && Memory.wf ((k', v') :: rest)

/-- n bytes from an address. -/
def memReads (m : List Host.Cell) (a : Nat) : Nat → List Byte
  | 0 => []
  | n + 1 => memRead m a :: memReads m (a + 1) n

/-- Writes bytes from an address. -/
def memWrites (m : List Host.Cell) (a : Nat) : List Byte → List Host.Cell
  | [] => m
  | b :: bs => memWrites (memWrite m a b) (a + 1) bs

/-- Location of a scratch byte: core-absolute offset of an endpoint's scratch (R52). -/
def scratchLoc (ep off : Nat) : Nat := 2 ^ 60 + ep * 2 ^ 32 + off
/-- Location of a column-store byte: core-absolute column offset, slice in bits 21:17 (R57). -/
def columnLoc (ep off : Nat) : Nat := 2 ^ 61 + ep * 2 ^ 32 + off

/-- A sorted list of words gains one. -/
def insertWord : List Nat → Nat → List Nat
  | [], a => [a]
  | k :: rest, a => if a < k then a :: k :: rest else if a = k then k :: rest else k :: insertWord rest a

namespace State

/-- n bytes of a location. -/
def read (s : State) (a n : Nat) : List Byte := memReads s.mem a n
/-- Writes bytes to a location. -/
def write (s : State) (a : Nat) (bs : List Byte) : State := { s with mem := memWrites s.mem a bs }
/-- The full/empty bit of the aligned word at a location is 1 (R70). -/
def full (s : State) (a : Nat) : Bool := !s.empty.contains (a - a % 8)
/-- Sets the full/empty bit of a word. -/
def setFull (s : State) (a : Nat) (f : Bool) : State :=
  let w := a - a % 8
  { s with empty := if f then s.empty.filter (fun k => k != w) else insertWord s.empty w }
/-- Some word of the n bytes at a location holds an uncorrectable error (R412). -/
def damaged (s : State) (a n : Nat) : Bool :=
  s.bad.any (fun w => decide (w < a + n) && decide (a < w + 8))

/-! ## Tables of records -/

/-- The core at an endpoint; one that is not listed is as after reset, but for its cycle count and its counters
of cycles. -/
def core (s : State) (ep : Nat) : Core := (s.cores.find ep).getD
  { Core.reset with cycles := s.ticks, perf := List.replicate 8 (BitVec.ofNat 64 s.ticks) }
/-- Changes a core. -/
def updCore (s : State) (ep : Nat) (f : Core → Core) : State := { s with cores := s.cores.put ep (f (s.core ep)) }
/-- The thread under a key. -/
def thread (s : State) (k : Nat) : Option Thread := s.threads.find k
/-- Changes a thread. -/
def updThread (s : State) (k : Nat) (f : Thread → Thread) : State := { s with threads := s.threads.adjust k f }
/-- The team under a key. -/
def team (s : State) (k : Nat) : Team := (s.teams.find k).getD default
/-- Changes a team. -/
def updTeam (s : State) (k : Nat) (f : Team → Team) : State := { s with teams := s.teams.adjust k f }
/-- The group under a key. -/
def group (s : State) (k : Nat) : Group := (s.groups.find k).getD default
/-- Changes a group. -/
def updGroup (s : State) (k : Nat) (f : Group → Group) : State := { s with groups := s.groups.adjust k f }
/-- The die under a number. -/
def die (s : State) (d : Nat) : Die := (s.dies.find d).getD (Die.reset d)
/-- Changes a die. -/
def updDie (s : State) (d : Nat) (f : Die → Die) : State := { s with dies := s.dies.put d (f (s.die d)) }
/-- The Serpent slice under a number. -/
def slice (s : State) (i : Nat) : Slice := (s.slices.find i).getD Slice.reset
/-- Changes a slice. -/
def updSlice (s : State) (i : Nat) (f : Slice → Slice) : State := { s with slices := s.slices.put i (f (s.slice i)) }
/-- Changes the package tables. -/
def updPkg (s : State) (f : Package → Package) : State := { s with pkg := f s.pkg }
/-- Changes the host port agent. -/
def updHost (s : State) (f : HostPort → HostPort) : State := { s with host := f s.host }
/-- Takes an unused key. -/
def newKey (s : State) : Nat × State := (s.fresh, { s with fresh := s.fresh + 1 })

/-- The keys of a team's threads. -/
def teamThreads (s : State) (team : Nat) : List Nat :=
  (s.threads.filter (fun p => p.2.team == team)).map (·.1)
/-- The keys of a group's threads. -/
def groupThreads (s : State) (g : Nat) : List Nat :=
  (s.threads.filter (fun p => p.2.group == g)).map (·.1)

end State

/-! ## Endpoints (R3, R140) -/

/-- Die of an endpoint. -/
def epDie (ep : Nat) : Nat := ep / 128 % 32
/-- Local endpoint. -/
def epLocal (ep : Nat) : Nat := ep % 128
/-- Package of an endpoint. -/
def epPackage (ep : Nat) : Nat := ep / 4096
/-- The endpoint of a die-local number in this package. -/
def endpoint (die l : Nat) : Nat := Config.package * 4096 + die * 128 + l

/-- The endpoint is an enabled core of a core die, or a gateway core, of this package (R4, R140). -/
def State.isCore (s : State) (ep : Nat) : Bool :=
  epPackage ep == Config.package && decide (epDie ep < 24) && decide (epLocal ep < 80) &&
    (s.die (epDie ep)).present && (s.die (epDie ep)).enabled.contains (epLocal ep)
/-- The endpoint lies on a gateway die. -/
def onGateway (ep : Nat) : Bool := decide (16 ≤ epDie ep)
/-- The endpoint is a copy hart (R140). -/
def isHart (ep : Nat) : Bool := decide (epDie ep < 16) && (epLocal ep == 122 || epLocal ep == 123)

/-- The routers of the package mesh at which an endpoint's packets may enter or leave it, as a range of columns and one of rows: of a
core its own, of a core die's agents the one they attach to (R462), of a gateway's endpoints the routers it is attached to (R142). -/
def routersOf (s : State) (ep : Nat) : (Nat × Nat) × (Nat × Nat) :=
  let d := epDie ep
  match d with
  | 16 => ((0, 12), (0, 0))
  | 17 => ((13, 26), (0, 0))
  | 18 => ((27, 39), (0, 0))
  | 19 => ((0, 12), (31, 31))
  | 20 => ((13, 26), (31, 31))
  | 21 => ((27, 39), (31, 31))
  | 22 => ((0, 0), (0, 31))
  | 23 => ((39, 39), (0, 31))
  | _ =>
    let l := if epLocal ep < 80 then epLocal ep else (s.die d).attach
    let x := 10 * (d % 4) + l % 10
    let y := 8 * (d / 4) + l / 10
    ((x, x), (y, y))

/-- Distance of two ranges of numbers. -/
def gap (a b : Nat × Nat) : Nat := (b.1 - a.2) + (a.1 - b.2)

/-- Mesh hops between two endpoints: between the nearest of their routers (R107, R142, R462); none between endpoints of one gateway. -/
def hops (s : State) (a b : Nat) : Nat :=
  let p := routersOf s a
  let q := routersOf s b
  gap p.1 q.1 + gap p.2 q.2

/-! ## Registers and operands (R200 to R204) -/

/-- A general register. -/
def Thread.reg (t : Thread) (i : Nat) : Word := t.regs.getD i 0#32

/-- Writes consecutive general registers. -/
def setWords (regs : List Word) (i : Nat) : List Word → List Word
  | [] => regs
  | w :: ws => setWords (regs.set i w) (i + 1) ws

/-- Writes consecutive general registers of a thread. -/
def Thread.setRegs (t : Thread) (i : Nat) (ws : List Word) : Thread :=
  { t with regs := setWords t.regs i ws, badRegs := t.badRegs.filter (fun r => decide (r < i) || decide (i + ws.length ≤ r)) }

/-- A predicate; p0 reads true (R200). -/
def Thread.pred (t : Thread) (i : Nat) : Bool := i == 0 || t.preds.getLsbD i

/-- Writes a predicate; writing p0 has no effect (R200). -/
def Thread.setPred (t : Thread) (i : Nat) (v : Bool) : Thread :=
  if i = 0 then t
  else { t with preds := if v then t.preds ||| (1#16 <<< i) else t.preds &&& ~~~(1#16 <<< i) }

/-- The source operands A, B and C. -/
inductive Src where
  | a | b | c
  deriving DecidableEq, Repr

/-- Kind of a source (R202). -/
def kindOf (o : Long) : Src → BitVec 2
  | .a => o.ka
  | .b => o.kb
  | .c => o.kc

/-- Register field of a source (R202). -/
def srcField (o : Long) : Src → Nat
  | .a => o.a.toNat
  | .b => o.b.toNat
  | .c => o.c.toNat

/-- A 64-bit operand: a register pair, zero, the operand buffer or the literal (R203). -/
def src64 (t : Thread) (o : Long) (w : Src) : DWord :=
  match (kindOf o w).toNat with
  | 0 => t.reg (srcField o w + 1) ++ t.reg (srcField o w)
  | 1 => 0#64
  | 2 => t.buf
  | _ => o.lit.getD 0#64

/-- A 32-bit operand (R203). -/
def src32 (t : Thread) (o : Long) (w : Src) : Word :=
  match (kindOf o w).toNat with
  | 0 => t.reg (srcField o w)
  | 1 => 0#32
  | 2 => t.buf.setWidth 32
  | _ => (o.lit.getD 0#64).setWidth 32

/-- Consecutive registers from a field. -/
def regRun (t : Thread) (i n : Nat) : List Word := (List.range n).map (fun k => t.reg (i + k))

/-- An operand of n registers; a literal, and kind 10 too, supplies its 64 bits repeated (R270; of kind 10 for such data: DESIGN CHOICE,
log 157). -/
def srcRun (t : Thread) (o : Long) (w : Src) (n : Nat) : List Word :=
  if kindOf o w = 0#2 then regRun t (srcField o w) n
  else
    let v := src64 t o w
    (List.range n).map (fun k => if k % 2 = 0 then v.setWidth 32 else v.extractLsb' 32 32)

/-- An operand of an integer type: 32 or 64 bits, zero-extended to 64 (R225). -/
def srcInt (t : Thread) (o : Long) (w : Src) : Nat :=
  if isWide o.ty then (src64 t o w).toNat else (src32 t o w).toNat

/-- The operand buffer after the instruction: RET keeps the value read for the named source (R204); a source that the opcode does
not use, or one of no general class, leaves the buffer as it is (DESIGN CHOICE, log 158). -/
def retained (op : LongOp) (t : Thread) (o : Long) : DWord :=
  let keep (p : Opd) (w : Src) : DWord :=
    match p with
    | .src 1 _ => (src32 t o w).setWidth 64
    | .src _ _ => src64 t o w
    | _ => t.buf
  let s := shape op o
  match o.ret.toNat with
  | 1 => keep s.a .a
  | 2 => keep s.b .b
  | 3 => keep s.c .c
  | _ => t.buf

/-- The guard of a long instruction (R205). -/
def guardHolds (t : Thread) (o : Long) : Bool :=
  let t1 := t.pred o.g1.toNat != (o.n1 == 1#1)
  let t2 := t.pred o.g2.toNat != (o.n2 == 1#1)
  if o.gc = 0#1 then t1 && t2 else t1 || t2

/-! ## Event records (R363 to R365) -/

/-- A 32-byte event record (R363). -/
def eventBytes (s : State) (src cls code sev : Nat) (thread : Bool) (d0 d1 : Nat) : List Byte :=
  leBytes 8 s.time ++ leBytes 4 (src % 2 ^ 20 + (s.die (epDie src)).inc * 2 ^ 20) ++ leBytes 2 (cls * 256 + code) ++
    leBytes 1 sev ++ leBytes 1 (if thread then 2 else 0) ++ leBytes 8 d0 ++ leBytes 8 d1

/-- Key of a lifetime counter (R176): 0 boots, 1 powered hours, 2 temperature bins by die, 3 droops by die, 4 errors and events by die
and class, 5 link replays and 6 tag failures by port, 7 latency bins by die, 8 forced pre-emptions by die, 9 view changes by domain,
10 full/empty retries by die and class, 11 halts of boot. -/
def lifeKey (kind a b : Nat) : Nat := kind * 2 ^ 32 + a * 2 ^ 16 + b

/-- Counts n toward the next fold into the lifetime store. -/
def State.count (s : State) (key n : Nat) : State :=
  s.updPkg (fun p => { p with counts := p.counts.put key ((p.counts.find key).getD 0 + n) })

/-- A record sets out on CTL for the fault unit of the gateway that holds the host port (R365). -/
def State.record (s : State) (src cls code sev : Nat) (thread : Bool) (d0 d1 : Nat) : State :=
  { s with events := s.events ++ [{ bytes := eventBytes s src cls code sev thread d0 d1 }] }

/-- Detects an event: its record joins those on their way, and it is counted under its die and class (R366). -/
def State.event (s : State) (src cls code sev : Nat) (thread : Bool) (d0 d1 : Nat) : State :=
  (s.record src cls code sev thread d0 d1).count (lifeKey 4 (epDie src) cls) 1

/-- A corrected error: at most one SEV 0 record per class and millisecond, carrying the count of those between (R364). -/
def State.corrected (s : State) (src cls code d0 n : Nat) : State :=
  let d := epDie src
  let s := s.count (lifeKey 4 d cls) n
  match (s.die d).reports.find cls with
  | some (last, more) =>
    if s.time < last + 1000000 then s.updDie d (fun x => { x with reports := x.reports.put cls (last, more + n) })
    else (s.updDie d (fun x => { x with reports := x.reports.put cls (s.time, 0) })).record src cls code 0 false d0 (more + n)
  | none => (s.updDie d (fun x => { x with reports := x.reports.put cls (s.time, 0) })).record src cls code 0 false d0 n

/-! ## Traps (R337, R376 to R379, R386) -/

/-- What a trap reports (R376). -/
structure Trap where
  code : Nat
  info0 : DWord
  info1 : DWord
  late : Bool
  /-- TRAPINFO3 bits 47:32 -/
  seq : Nat
  /-- TRAPINFO3 bits 31:0, where the code does not give RCOUNT (code 0x6A) -/
  low3 : Option Word
  /-- structure class of the event -/
  cls : Nat
  deriving DecidableEq, Repr

/-- A trap found at issue of the instruction at an address. -/
def trapAt (code : Nat) (info0 : DWord) (pc : DWord) : Trap :=
  { code := code, info0 := info0, info1 := pc, late := false, seq := 0, low3 := none, cls := 0 }

/-- A trap found after the thread has gone past its instruction (R376 LATE); a column-store error is of class 4 (R399). -/
def trapLate (code : Nat) (info0 : DWord) (seq : Nat) : Trap :=
  { code := code, info0 := info0, info1 := 0#64, late := true, seq := seq, low3 := none, cls := if code = 0x2E then 4 else 0 }

/-- TRAPCAUSE (R376). -/
def causeWord (noregion late : Bool) (code : Nat) : Word :=
  BitVec.ofNat 32 (code + (if late then 256 else 0) + (if noregion then 512 else 0))

/-- The trap registers as a trap writes them (R376, R377): EPC is REGION, but for a software trap the header after it. -/
def trapRegs (t : Thread) (x : Trap) : Thread :=
  let noregion := x.code != 1 && t.sr.region == 0#64
  let low := x.low3.getD t.sr.rcount
  { t with
    skip := if x.code = 2 then some x.info1 else none
    atTrap := some (t.sr.region, t.sendixAt, t.atomIxAt)
    sr := { t.sr with
      epc := if x.code = 1 then t.after else t.sr.region
      trapCause := causeWord noregion x.late x.code
      info0 := x.info0
      info1 := x.info1
      info2 := t.sr.region
      info3 := BitVec.ofNat 64 (low.toNat + x.seq % 65536 * 2 ^ 32) } }

/-- The event that a trap writes: DETAIL as R378 for the execution codes, as R399 for the memory codes and as R416 for 0x50.  The
event of 0x56 is the slice's; the fabric codes write none (R428). -/
def trapEvent (s : State) (core : Nat) (x : Trap) : State :=
  if x.code = 0x56 ∨ (0x60 ≤ x.code ∧ x.code < 0x70) then s
  else if (decide (0x20 ≤ x.code) && decide (x.code < 0x40)) || x.code == 0x50 then
    s.event core x.cls x.code 2 true x.info0.toNat x.info1.toNat
  else s.event core x.cls x.code 2 true x.info1.toNat x.info0.toNat

/-- Stops a thread at the end of its current instruction (R28, R386): one that is inside an instruction, parked at an access or waiting
on a mask, stays there and enters Stopped when that wait ends. -/
def Thread.stop (t : Thread) : Thread :=
  match t.state with
  | .exited => t
  | .parked false | .maskWait _ _ | .barWait => { t with stopping := true }
  | _ => { t with state := .stopped }

/-- A wait ends: the thread is Runnable, or Stopped where it was to stop (R17, R28). -/
def Thread.wake (t : Thread) : Thread := { t with state := if t.stopping then .stopped else .runnable, stopping := false }

/-- The handler address of a core: TVEC (R337). -/
def handler (c : Core) : DWord := c.tvec &&& 0x00FFFFFFFFFFFFFC#64

/-- Entry of a delivered trap (R337): the saved registers, PRIV and INTRAP set, PRIV copied to PPRIV, on at TVEC. -/
def enterTrap (tvec : DWord) (t : Thread) (x : Trap) : Thread :=
  let t' := trapRegs t x
  { t' with
    sr := { t'.sr with ppriv := t.sr.priv, priv := true, intrap := true }
    pc := tvec
    clause := none
    state := if t.stopping then .stopped else .runnable
    joined := none
    alone := false
    touch := false
    stopping := false
    ranOn := false
    atHeader := none
    yielded := false }

/-- Takes a trap in a thread: delivers it (R337), or, while INTRAP is 1 or TVEC is 0, stops the thread and its team with
cause 0x0E (R386). -/
def takeTrap (s : State) (k : Nat) (x : Trap) : State :=
  match s.thread k with
  | none => s
  | some t =>
    let tvec := handler (s.core t.core)
    if t.sr.intrap || tvec == 0#64 then
      let s1 := s.updThread k (fun t =>
        let t' := trapRegs t x
        { t' with
          sr := { t'.sr with trapCause := 0x0E#32, info0 := BitVec.ofNat 64 x.code, epc := t.sr.epc }
          atTrap := t.atTrap
          state := .stopped })
      let s2 := (s1.teamThreads t.team).foldl (fun s j => s.updThread j Thread.stop) s1
      (s2.updTeam t.team (fun m => { m with halted := true })).event t.core 0 0x0E 2 true x.info1.toNat x.code
    else trapEvent (s.updThread k (fun t => enterTrap tvec t x)) t.core x

/-- An error met in the saved state of a thread, on swap-in or restore: it stops, and its team, with cause 0x2E (R415). -/
def stopShadow (s : State) (k : Nat) : State :=
  match s.thread k with
  | none => s
  | some t =>
    let x : Trap := { trapAt 0x2E 0#64 t.pc with cls := 4 }
    let s1 := s.updThread k (fun t =>
      let t' := trapRegs t x
      { t' with sr := { t'.sr with epc := t.sr.epc }, atTrap := t.atTrap, state := .stopped, shadowBad := false })
    trapEvent (((s1.teamThreads t.team).foldl (fun s j => s.updThread j Thread.stop) s1).updTeam t.team (fun m => { m with halted := true })) t.core x

/-- The threads of a context that comes into the register file whose saved state holds an error (R415). -/
def checkShadow (s : State) (here : Thread → Bool) : State :=
  (s.threads.filter (fun p => p.2.shadowBad && here p.2)).foldl (fun s p => stopShadow s p.1) s

/-- SENDIX and the atomic index with which a thread returns to EPC (R377): at the region that its trap left, or at its own region, those of
that region's last start; elsewhere they stay. -/
def returnIndices (t : Thread) : Word × Nat :=
  let here : Word × Nat := if t.sr.epc == t.sr.region && t.sr.region != 0#64 then (t.sendixAt, t.atomIxAt) else (t.sr.sendix, t.atomIx)
  match t.atTrap with
  | some (r, sx, ax) => if t.sr.epc == r && r != 0#64 then (sx, ax) else here
  | none => here

/-- Return from a trap (R339, R377): PRIV from PPRIV, INTRAP cleared; at a region entry SENDIX and the atomic index return to their
values at that entry.  RTE then goes on at EPC. -/
def leaveTrap (t : Thread) : Thread :=
  { t with
    sr := { t.sr with priv := t.sr.ppriv, intrap := false, sendix := (returnIndices t).1 }
    atomIx := (returnIndices t).2
    atTrap := none }

/-! ## Time -/

/-- A performance counter of a core counts n events of a code (R346). -/
def perfCount (s : State) (ep code n : Nat) : State :=
  let c := s.core ep
  if c.perfsel == 0#32 && code != 0 then s
  else s.updCore ep (fun c => { c with perf := (List.range 8).map (fun i =>
    if bits c.perfsel.toNat (4 * i + 3) (4 * i) = code then (c.perf.getD i 0#64) + BitVec.ofNat 64 n else c.perf.getD i 0#64) })

/-- The group's Runnable threads stand at two or more addresses (R22). -/
def State.spread (s : State) (g : Nat) : Bool :=
  let pcs := (s.threads.filter (fun p => p.2.group == g && p.2.state == .runnable)).map (·.2.pc)
  pcs.any (fun a => a != pcs.headD 0#64)

/-- One cycle of a core's clock passes: its cycle count, the pre-emption deadlines of its Requested teams (R40) and the
fairness counters of its groups (R22). -/
def coreCycle (s : State) (ep : Nat) : State :=
  let s1 := perfCount (s.updCore ep (fun c => { c with cycles := c.cycles + 1, issued := false })) ep 0 1
  { s1 with
    teams := s1.teams.map (fun p =>
      if p.2.core == ep && p.2.pre == .requested then (p.1, { p.2 with pdead := p.2.pdead - 1 }) else p)
    groups := s1.groups.map (fun p =>
      if (s1.team p.2.team).core == ep && s1.spread p.1 then (p.1, { p.2 with fair := p.2.fair + 1 }) else p) }

/-- One cycle of the 2.7 GHz clock passes (R6 to R8): device time counts ten nanoseconds to 27 of them, and a core of a throttled
die has every second one. -/
def tick (s : State) : State :=
  let t := s.ticks + 1
  let s1 := { s with ticks := t, time := if 10 * t / 27 = 10 * s.ticks / 27 then s.time else s.time + 1 }
  (NMap.keys s.cores).foldl (fun s ep => if (s.die (epDie ep)).throttled && t % 2 == 1 then s else coreCycle s ep) s1

/-- The device time, and within one nanosecond the order of what happens: the fill time of a copy and the peer-supply floor (R65, R66). -/
def State.stamp (s : State) : Nat := s.time * 2 ^ 80 + s.fresh

/-- The next value of the free-value counter. -/
def State.takeFree (s : State) : Nat × State := (s.free, { s with free := s.free + 1 })

end Sys2Proof.Machine
end

