-- ==== Sys2Proof/Machine/Flags.lean ====
section
/-! DEFINITION. Number formats, rounding and the exception flags: R177 to R197.  Values are exact; a result is rounded once. -/

namespace Sys2Proof.Machine

/-! ## Formats (R179) -/

/-- A floating-point format: fraction bits, exponent bits, bias, the greatest finite magnitude as mant × 2^exp, whether it has
infinities, whether it has NaNs, and its canonical NaN. -/
structure Fmt where
  m : Nat
  e : Nat
  bias : Nat
  maxMant : Nat
  maxExp : Int
  inf : Bool
  hasNan : Bool
  nan : Nat
  /-- the quiet bit distinguishes signalling NaNs (R180) -/
  signals : Bool
  deriving DecidableEq, Repr

/-- Binary32. -/
def f32 : Fmt := ⟨23, 8, 127, 2 ^ 24 - 1, 104, true, true, 0x7FC00000, true⟩
/-- Binary16. -/
def f16 : Fmt := ⟨10, 5, 15, 2 ^ 11 - 1, 5, true, true, 0x7E00, true⟩
/-- Bfloat16. -/
def bf16 : Fmt := ⟨7, 8, 127, 2 ^ 8 - 1, 120, true, true, 0x7FC0, true⟩
/-- OCP E4M3. -/
def e4m3 : Fmt := ⟨3, 4, 7, 14, 5, false, true, 0x7F, false⟩
/-- OCP E5M2. -/
def e5m2 : Fmt := ⟨2, 5, 15, 7, 13, true, true, 0x7F, false⟩
/-- OCP MX E2M1. -/
def e2m1 : Fmt := ⟨1, 2, 1, 3, 1, false, false, 0, false⟩

/-- The format of a type code; BF16 stands for a codebook entry (R184). -/
def fmtOf (t : Nat) : Fmt :=
  match t with
  | 8 => f32
  | 9 => f16
  | 10 => bf16
  | 11 => e4m3
  | 12 => e5m2
  | 13 => e2m1
  | _ => bf16

/-- An exact value: NaN, an infinity, a zero, or ± (m + δ) × 2^e with m > 0, where 0 < δ < 1 when more is set and δ = 0
otherwise. -/
inductive XVal where
  | nan
  | inf (neg : Bool)
  | zero (neg : Bool)
  | num (neg : Bool) (m : Nat) (e : Int) (more : Bool)
  deriving DecidableEq, Repr

/-- Flag bits of FPSR (R191). -/
def flagIV : Nat := 1
/-- Division by zero. -/
def flagDZ : Nat := 2
/-- Overflow. -/
def flagOF : Nat := 4
/-- Underflow. -/
def flagUF : Nat := 8
/-- Inexact. -/
def flagNX : Nat := 16

/-- Negates. -/
def XVal.neg : XVal → XVal
  | .nan => .nan
  | .inf n => .inf (!n)
  | .zero n => .zero (!n)
  | .num n m e x => .num (!n) m e x

/-- Sign of a value. -/
def XVal.isNeg : XVal → Bool
  | .nan => false
  | .inf n | .zero n | .num n _ _ _ => n

/-- The value is a NaN. -/
def XVal.isNan : XVal → Bool
  | .nan => true
  | _ => false

/-- Fields of a code: sign, exponent field, fraction. -/
def splitCode (f : Fmt) (c : Nat) : Bool × Nat × Nat :=
  (c / 2 ^ (f.m + f.e) % 2 = 1, c / 2 ^ f.m % 2 ^ f.e, c % 2 ^ f.m)

/-- The value of a code (R179); under flush, a subnormal reads as a zero of its sign (R188). -/
def decodeF (f : Fmt) (flush : Bool) (c : Nat) : XVal :=
  let (s, e, m) := splitCode f c
  if e = 2 ^ f.e - 1 ∧ f.inf then (if m = 0 then .inf s else .nan)
  else if f.hasNan ∧ ¬ f.inf ∧ e = 2 ^ f.e - 1 ∧ m = 2 ^ f.m - 1 then .nan
  else if e = 0 then
    if m = 0 ∨ flush then .zero s else .num s m (1 - f.bias - f.m) false
  else .num s (2 ^ f.m + m) (e - f.bias - f.m) false

/-- The code is a signalling NaN (R180). -/
def isSignalling (f : Fmt) (c : Nat) : Bool :=
  let (_, e, m) := splitCode f c
  f.signals && e == 2 ^ f.e - 1 && m != 0 && decide (m < 2 ^ (f.m - 1))

/-- The value of an E8M0 scale (R183). -/
def decodeScale (c : Nat) : XVal := if c % 256 = 255 then .nan else .num false 1 ((c % 256 : Nat) - 127) false

/-- Places a sign bit above a magnitude code. -/
def withSign (f : Fmt) (neg : Bool) (c : Nat) : Nat := c + (if neg then 2 ^ (f.m + f.e) else 0)
/-- The code of max finite (R179). -/
def maxCode (f : Fmt) (neg : Bool) : Nat :=
  withSign f neg (if f.inf then (2 ^ f.e - 1) * 2 ^ f.m - 1 else if f.hasNan then 2 ^ (f.e + f.m) - 2 else 2 ^ (f.e + f.m) - 1)
/-- The code of an infinity. -/
def infCode (f : Fmt) (neg : Bool) : Nat := withSign f neg ((2 ^ f.e - 1) * 2 ^ f.m)

/-! ## Rounding (R185 to R189) -/

/-- One step of the generator (R189). -/
def xorshift (x : Word) : Word :=
  let a := x ^^^ (x <<< 13)
  let b := a ^^^ (a >>> 17)
  b ^^^ (b <<< 5)

/-- The generator's state at thread start and after a write to FPCR (R189). -/
def seedGen (fpcr : Word) (tid : Nat) : Word := (fpcr &&& 0xFFFF0000#32) ||| BitVec.ofNat 32 (tid + 1)

/-- How a result is rounded: mode code (R186), SAT, FTZ acting. -/
structure Mode where
  rm : Nat
  sat : Bool
  ftz : Bool
  deriving DecidableEq, Repr

/-- Round to nearest even, no saturation, no flushing. -/
def rne : Mode := ⟨0, false, false⟩

/-- floor(log2) of m × 2^e. -/
def magLog (m : Nat) (e : Int) : Int := (Nat.log2 m : Int) + e

/-- Integer rounding of (m + δ) ÷ 2^sh to a whole number of grid steps under a mode: the steps and whether they are exact.
u is the 24-bit draw of STO. -/
def roundSteps (rm : Nat) (neg : Bool) (m sh : Nat) (more : Bool) (u : Nat) : Nat × Bool :=
  let lo := m / 2 ^ sh
  let r := m % 2 ^ sh
  let exact := r == 0 && !more
  let twice := 2 * r
  let unit := 2 ^ sh
  let above := decide (unit < twice) || (twice == unit && more)
  let tie := twice == unit && !more
  let up :=
    if exact then false
    else match rm with
      | 0 => above || (tie && lo % 2 == 1)
      | 1 => false
      | 2 => neg
      | 3 => !neg
      | 4 => above || tie
      | 5 => decide (u < r * 2 ^ 24 / unit)
      | _ => lo % 2 == 0
  (if up then lo + 1 else lo, exact)

/-- The result of an overflow (R187). -/
def overflowCode (f : Fmt) (md : Mode) (neg : Bool) : Nat :=
  if md.sat || !f.hasNan then maxCode f neg
  else
    let toMax := match md.rm with
      | 1 | 6 => true
      | 2 => !neg
      | 3 => neg
      | _ => false
    if toMax then maxCode f neg else if f.inf then infCode f neg else f.nan

/-- Rounds an exact value into a format (R185, R187, R188): code, flags, generator. -/
def roundTo (f : Fmt) (md : Mode) (gen : Word) (v : XVal) : Nat × Nat × Word :=
  match v with
  | .nan => if f.hasNan then (f.nan, 0, gen) else (0, flagIV, gen)
  | .inf n =>
    if f.inf && !md.sat then (infCode f n, 0, gen)
    else if f.hasNan && !f.inf && !md.sat then (f.nan, flagIV, gen)
    else (maxCode f n, flagOF + flagNX, gen)
  | .zero n => (withSign f n 0, 0, gen)
  | .num n m e more =>
    let gen' := if md.rm = 5 then xorshift gen else gen
    let u := gen'.toNat / 256
    let lg := magLog m e
    let low : Int := 1 - f.bias
    let qe := max lg low - f.m
    let sh := (qe - e).toNat
    let (st, exact) := roundSteps md.rm n (m * 2 ^ (e - qe).toNat) sh more u
    let tooBig : Bool := if f.maxExp ≤ qe then decide (f.maxMant < st * 2 ^ (qe - f.maxExp).toNat)
      else decide (f.maxMant * 2 ^ (f.maxExp - qe).toNat < st)
    let nx := if exact then 0 else flagNX
    let uf := if lg < low && !exact then flagUF else 0
    if tooBig then (overflowCode f md n, flagOF + flagNX, gen')
    else if st < 2 ^ f.m then
      (if md.ftz && st != 0 && f.signals then (withSign f n 0, flagUF + flagNX, gen') else (withSign f n st, nx + uf, gen'))
    else (withSign f n ((qe + f.m + f.bias).toNat * 2 ^ f.m + (st - 2 ^ f.m)), nx + uf, gen')

/-- Rounds to nearest even without a generator (matrix sums, atomics). -/
def roundRne (f : Fmt) (v : XVal) : Nat × Nat :=
  let r := roundTo f rne 0#32 v
  (r.1, r.2.1)

/-- Converts a value to an E8M0 scale (R183). -/
def roundScale (rm : Nat) (v : XVal) : Nat × Nat :=
  match v with
  | .num false m e more =>
    let pow := !more && m == 2 ^ Nat.log2 m
    let k := magLog m e + (if rm = 3 && !pow then 1 else 0)
    let nx := if pow then 0 else flagNX
    if 127 < k then (0xFE, flagOF + nx)
    else if k < -127 then (0, flagUF + nx)
    else ((k + 127).toNat, nx)
  | _ => (0xFF, flagIV)

/-- Rounds a value to an integer under a mode, and clamps it (R192, R261): result, flags, generator. -/
def roundInt (w : Nat) (signed : Bool) (md : Mode) (gen : Word) (v : XVal) : Int × Nat × Word :=
  let lo : Int := if signed then -(2 ^ (w - 1) : Int) else 0
  let hi : Int := if signed then 2 ^ (w - 1) - 1 else 2 ^ w - 1
  match v with
  | .nan => (0, flagIV, gen)
  | .inf n => (if n then lo else hi, flagIV, gen)
  | .zero _ => (0, 0, gen)
  | .num n m e more =>
    let gen' := if md.rm = 5 then xorshift gen else gen
    if 200 < magLog m e then (if n then lo else hi, flagIV, gen')
    else
      let (st, exact) := roundSteps md.rm n (m * 2 ^ e.toNat) (-e).toNat more (gen'.toNat / 256)
      let x : Int := if n then -(st : Int) else st
      if x < lo then (lo, flagIV, gen') else if hi < x then (hi, flagIV, gen')
      else (x, if exact then 0 else flagNX, gen')

/-- The exact value of an integer. -/
def ofInt (x : Int) : XVal := if x = 0 then .zero false else .num (decide (x < 0)) x.natAbs 0 false

/-! ## Exact arithmetic (R193) -/

/-- The signed number of an exact value without a tail, in units of 2^e. -/
def inUnits (n : Bool) (m : Nat) (e u : Int) : Int :=
  let k : Int := (m * 2 ^ (e - u).toNat : Nat)
  if n then -k else k

/-- Exact sum; a cancelled zero is +0, or −0 under RDN (R185).  IV for opposite infinities. -/
def addX (rm : Nat) (x y : XVal) : XVal × Nat :=
  match x, y with
  | .nan, _ | _, .nan => (.nan, 0)
  | .inf a, .inf b => if a = b then (.inf a, 0) else (.nan, flagIV)
  | .inf a, _ => (.inf a, 0)
  | _, .inf b => (.inf b, 0)
  | .zero a, .zero b => (.zero (if a = b then a else rm == 2), 0)
  | .zero _, v => (v, 0)
  | v, .zero _ => (v, 0)
  | .num a m e _, .num b m' e' _ =>
    let u := min e e'
    let t := inUnits a m e u + inUnits b m' e' u
    (if t = 0 then .zero (rm == 2) else .num (decide (t < 0)) t.natAbs u false, 0)

/-- Infinities of both signs stand among some terms. -/
def clash (vs : List XVal) : Bool := vs.contains (.inf false) && vs.contains (.inf true)

/-- Exact product.  IV for 0 × ∞. -/
def mulX (x y : XVal) : XVal × Nat :=
  let n := x.isNeg != y.isNeg
  match x, y with
  | .nan, _ | _, .nan => (.nan, 0)
  | .inf _, .zero _ | .zero _, .inf _ => (.nan, flagIV)
  | .inf _, _ | _, .inf _ => (.inf n, 0)
  | .zero _, _ | _, .zero _ => (.zero n, 0)
  | .num _ m e _, .num _ m' e' _ => (.num n (m * m') (e + e') false, 0)

/-- Quotient, exact to its tail.  DZ for x ÷ 0, IV for 0 ÷ 0 and ∞ ÷ ∞. -/
def divX (x y : XVal) : XVal × Nat :=
  let n := x.isNeg != y.isNeg
  match x, y with
  | .nan, _ | _, .nan => (.nan, 0)
  | .inf _, .inf _ | .zero _, .zero _ => (.nan, flagIV)
  | .inf _, _ => (.inf n, 0)
  | _, .inf _ => (.zero n, 0)
  | .zero _, _ => (.zero n, 0)
  | _, .zero _ => (.inf n, flagDZ)
  | .num _ m e _, .num _ m' e' _ =>
    let k := 100 + Nat.log2 m'
    let q := m * 2 ^ k
    (.num n (q / m') (e - e' - k) (q % m' != 0), 0)

/-- Integer square root, bit by bit from bit i − 1. -/
def sqrtFrom : Nat → Nat → Nat → Nat
  | 0, _, r => r
  | i + 1, n, r => sqrtFrom i n (if (r + 2 ^ i) * (r + 2 ^ i) ≤ n then r + 2 ^ i else r)

/-- Integer square root. -/
def isqrt (n : Nat) : Nat := sqrtFrom (Nat.log2 n / 2 + 1) n 0

/-- Square root, exact to its tail; IV below zero. -/
def sqrtX (x : XVal) : XVal × Nat :=
  match x with
  | .nan => (.nan, 0)
  | .zero n => (.zero n, 0)
  | .inf false => (.inf false, 0)
  | .num false m e _ =>
    let par := (e % 2).toNat
    let m' := m * 2 ^ (par + 160)
    let r := isqrt m'
    (.num false r ((e - par - 160) / 2) (r * r != m'), 0)
  | _ => (.nan, flagIV)

/-- Order of two values that are not NaN; −0 and +0 are equal. -/
def cmpX (x y : XVal) : Ordering :=
  let rank : XVal → Int
    | .nan => 0
    | .inf n => if n then -2 else 2
    | .zero _ => 0
    | .num n _ _ _ => if n then -1 else 1
  if rank x != rank y then compare (rank x) (rank y)
  else match x, y with
    | .num a m e _, .num b m' e' _ =>
      let u := min e e'
      compare (inUnits a m e u) (inUnits b m' e' u)
    | _, _ => .eq

/-- x < y for minimum and maximum, which order −0 below +0 (R255). -/
def belowX (x y : XVal) : Bool :=
  match cmpX x y with
  | .lt => true
  | .gt => false
  | .eq => x.isNeg && !y.isNeg

/-! ## Operations on codes -/

/-- A signalling operand raises IV (R180). -/
def signalFlag (f : Fmt) (cs : List Nat) : Nat := if cs.any (isSignalling f) then flagIV else 0

/-- Rounds an operation's exact result and joins its flags; an infinity that SAT replaces keeps the operation's flags. -/
def finishF (f : Fmt) (md : Mode) (gen : Word) (flags : Nat) (v : XVal × Nat) : Nat × Nat × Word :=
  let r := roundTo f md gen v.1
  (r.1, flags ||| v.2 ||| r.2.1, r.2.2)

/-- a + b, or a − b (R254). -/
def faddOp (f : Fmt) (md : Mode) (gen : Word) (sub : Bool) (a b : Nat) : Nat × Nat × Word :=
  let y := decodeF f md.ftz b
  finishF f md gen (signalFlag f [a, b]) (addX md.rm (decodeF f md.ftz a) (if sub then y.neg else y))

/-- a × b (R254). -/
def fmulOp (f : Fmt) (md : Mode) (gen : Word) (a b : Nat) : Nat × Nat × Word :=
  finishF f md gen (signalFlag f [a, b]) (mulX (decodeF f md.ftz a) (decodeF f md.ftz b))

/-- ±(a × b) ± c, rounded once (R254). -/
def ffmaOp (f : Fmt) (md : Mode) (gen : Word) (negp negc : Bool) (a b c : Nat) : Nat × Nat × Word :=
  let (p, iv) := mulX (decodeF f md.ftz a) (decodeF f md.ftz b)
  let z := decodeF f md.ftz c
  let (v, iv') := addX md.rm (if negp then p.neg else p) (if negc then z.neg else z)
  finishF f md gen (signalFlag f [a, b, c]) (v, iv ||| iv')

/-- a ÷ b (R257). -/
def fdivOp (f : Fmt) (md : Mode) (gen : Word) (a b : Nat) : Nat × Nat × Word :=
  finishF f md gen (signalFlag f [a, b]) (divX (decodeF f md.ftz a) (decodeF f md.ftz b))

/-- √a (R257). -/
def fsqrtOp (f : Fmt) (md : Mode) (gen : Word) (a : Nat) : Nat × Nat × Word :=
  finishF f md gen (signalFlag f [a]) (sqrtX (decodeF f md.ftz a))

/-- a × 2^b (R254). -/
def fscaleOp (f : Fmt) (md : Mode) (gen : Word) (a : Nat) (b : Int) : Nat × Nat × Word :=
  -- beyond the range of every format the exponent is cut, which changes no rounding
  let v : XVal := match decodeF f md.ftz a with
    | .num n m e x => .num n m (max (min (e + b) 2000) (-2000)) x
    | v => v
  finishF f md gen (signalFlag f [a]) (v, 0)

/-- The lesser or the greater of two codes (R255). -/
def fminmaxOp (f : Fmt) (ftz greater prop : Bool) (a b : Nat) : Nat × Nat :=
  let x := decodeF f ftz a
  let y := decodeF f ftz b
  let iv := signalFlag f [a, b]
  let code (c : Nat) (v : XVal) : Nat := match v with
    | .zero n => withSign f n 0
    | _ => c % 2 ^ (f.m + f.e + 1)
  if x.isNan && y.isNan then (f.nan, iv)
  else if x.isNan || y.isNan then
    if prop then (f.nan, iv) else if x.isNan then (code b y, iv) else (code a x, iv)
  else if belowX x y then (if greater then code b y else code a x, iv)
  else (if greater then code a x else code b y, iv)

/-- A conversion between float types (R192, R260): a signalling NaN sets IV. -/
def cvtOp (src dst : Nat) (md : Mode) (gen : Word) (c : Nat) : Nat × Nat × Word :=
  let f := fmtOf src
  let v := if src = 15 then decodeScale c else decodeF f (md.ftz && f.signals) c
  let iv := if src = 15 then 0 else signalFlag f [c]
  if dst = 15 then
    let gen' := match v with
      | .num false _ _ _ => if md.rm = 5 then xorshift gen else gen
      | _ => gen
    let r := roundScale md.rm v
    (r.1, iv ||| r.2, gen')
  else finishF (fmtOf dst) md gen iv (v, 0)

/-! ## Approximate functions (R197) -/

/-- Fixed-point scale of the evaluations below: 2^120. -/
def fixOne : Nat := 2 ^ 120

/-- Product of two fixed-point numbers. -/
def fixMul (a b : Int) : Int := Int.fdiv (a * b) fixOne

/-- Sum of a series with n terms: each term is the one before times x ÷ d(k). -/
def series (x : Int) (d : Nat → Nat) : Nat → Nat → Int → Int
  | 0, _, _ => 0
  | n + 1, k, t => t + series x d n (k + 1) (Int.fdiv (fixMul t x) (d k))

/-- ln 2 in fixed point, from the series of Σ 1 ÷ (k 2^k). -/
def fixLn2 : Int := (List.range 130).foldl (fun acc k => acc + (fixOne / ((k + 1) * 2 ^ (k + 1)) : Nat)) 0

/-- e^x in fixed point for |x| ≤ 1. -/
def fixExp (x : Int) : Int := series x (fun k => k) 40 1 fixOne

/-- arctan of 1 ÷ n in fixed point. -/
def fixArctanInv (n : Nat) : Int :=
  (List.range 60).foldl (fun acc k =>
    let t : Int := (fixOne / ((2 * k + 1) * n ^ (2 * k + 1)) : Nat)
    if k % 2 = 0 then acc + t else acc - t) 0

/-- 2π in fixed point (Machin's formula). -/
def fixTwoPi : Int := 8 * (4 * fixArctanInv 5 - fixArctanInv 239)

/-- sin x in fixed point for |x| ≤ 2. -/
def fixSin (x : Int) : Int := series (-(fixMul x x)) (fun k => 2 * k * (2 * k + 1)) 30 1 x
/-- cos x in fixed point for |x| ≤ 2. -/
def fixCos (x : Int) : Int := series (-(fixMul x x)) (fun k => (2 * k - 1) * (2 * k)) 30 1 fixOne

/-- log2 of a fixed-point number in [1, 2), bit by bit: n bits. -/
def fixLog2 : Nat → Nat → Nat → Nat
  | 0, _, acc => acc
  | n + 1, x, acc =>
    let y := x * x / fixOne
    if 2 * fixOne ≤ y then fixLog2 n (y / 2) (2 * acc + 1) else fixLog2 n y (2 * acc)

/-- A signed value in units of 2^u, floored. -/
def toFix (v : XVal) (u : Int) : Int :=
  match v with
  | .num n m e _ =>
    let k : Int := if u ≤ e then (m * 2 ^ (e - u).toNat : Nat) else (m / 2 ^ (u - e).toNat : Nat)
    if n then -k else k
  | _ => 0

/-- A fixed-point number as an exact value, with a tail. -/
def ofFix (x : Int) (u : Int) : XVal := if x = 0 then .zero false else .num (decide (x < 0)) x.natAbs u true

/-- Magnitude code of y × 2^u rounded up or down, at most max finite. -/
def edgeCode (up : Bool) (y : Nat) (u : Int) : Nat :=
  if y = 0 then 0 else min 0x7F7FFFFF (roundTo f32 ⟨if up then 3 else 1, false, false⟩ 0#32 (.num false y u false)).1

/-- The exponent of the F32 rounding of y × 2^u: the next one from half a unit below a power of two on. -/
def roundedLog (y : Nat) (u : Int) : Int :=
  let lg := magLog y u
  if 2 ^ (lg + 1 - u).toNat ≤ y + 2 ^ (lg - 24 - u).toNat then lg + 1 else lg

/-- One unit in the last place of an F32 of exponent lg, in units of 2^u. -/
def unitOf (lg u : Int) : Nat := 2 ^ (max lg (-126) - 23 - u).toNat

/-- One unit in the last place of the F32 rounding of y, in units of 2^u (R197). -/
def roundedUlp (y : Nat) (u : Int) : Nat := unitOf (roundedLog y u) u

/-- One unit in the last place of y's own binade, in units of 2^u.  Where y rounds up to a power of two the bound is one unit of the next
binade; for the functions with a bound of 1 ulp that admits no further code: above lies the exact result at the power itself, and below the
results of the operands before, which may not fall. -/
def ulpOf (y : Nat) (u : Int) : Nat := unitOf (magLog y u) u

/-- How far a result may lie from y: tol, and a slack of one part in 2^80 for the evaluation's error. -/
def reach (y tol : Nat) : Nat := tol + y / 2 ^ 80 + 2
/-- The least and the greatest magnitude code within tol of y × 2^u. -/
def lowCode (y : Nat) (u : Int) (tol : Nat) : Nat := edgeCode true (y - reach y tol) u
def highCode (y : Nat) (u : Int) (tol : Nat) : Nat := edgeCode false (y + reach y tol) u

/-- The greatest code that a test, true up to some code, admits: n bits from c on. -/
def bisect (right : Nat → Bool) : Nat → Nat → Nat
  | 0, c => c
  | n + 1, c => bisect right n (if right (c + 2 ^ n) then c + 2 ^ n else c)

/-- A stretch of operands on which the magnitude of a function's result does not fall (R197): the function's opcode, the number of the
stretch, the operand's place in it, and codes between which the result lies because the results at the stretch's ends are exact, or those
before it may not be less. -/
structure Stretch where
  fn : Nat
  seg : Nat
  key : Int
  low : Nat
  high : Nat

/-- The magnitude code that the part returns: one between lo and hi.  Where several are admitted the choice is free, and the choices rise with
the operand: a code m and those above it are returned from a free threshold of the operand on (log 18).  Every choice of codes that rises with
the operand is one of these. -/
def pickCode (p : Stretch) (ftz : Bool) (lo hi : Nat) : Nat :=
  bisect (fun m => decide (m ≤ lo) || (decide (m ≤ hi) && decide (Config.approxThreshold p.fn p.seg ftz m ≤ p.key))) 31 0

/-- An inexact result of an approximate function: ±y in units of 2^u, within tol of the exact result; code and flags.  A zero
returned for it has its sign (DESIGN CHOICE, log 162). -/
def approxResult (p : Stretch) (md : Mode) (neg : Bool) (y : Nat) (u : Int) (tol : Nat) : Nat × Nat :=
  let r := roundTo f32 ⟨0, md.sat, false⟩ 0#32 (.num neg y u true)
  if r.2.1 &&& flagOF != 0 then (r.1, flagOF + flagNX)
  else
    let mag := pickCode p md.ftz (max p.low (lowCode y u tol)) (min p.high (highCode y u tol))
    let uf := if magLog y u < -126 then flagUF else 0
    if md.ftz && decide (mag < 0x00800000) && mag != 0 then (withSign f32 neg 0, flagUF + flagNX)
    else (withSign f32 neg mag, flagNX + uf)

/-- Magnitude code of 2^k, at most max finite; 0 below the least subnormal. -/
def powCode (k : Int) : Nat := edgeCode false 1 k
/-- Magnitude code of an operand, or of a whole number. -/
def magCode (x : Word) : Int := (x.toNat % 2 ^ 31 : Nat)
def wholeCode (k : Int) : Nat := edgeCode false k.natAbs 0

/-- An exact or special result. -/
def exactResult (md : Mode) (v : XVal) (flags : Nat) : Nat × Nat :=
  let r := roundTo f32 ⟨0, md.sat, md.ftz⟩ 0#32 v
  (r.1, flags ||| r.2.1)

/-- The magnitude is a power of two. -/
def isPow2 (m : Nat) : Bool := m == 2 ^ Nat.log2 m

/-- FRCP (R197). -/
def frcpOp (md : Mode) (x : Word) : Nat × Nat :=
  let v := decodeF f32 md.ftz x.toNat
  let iv := signalFlag f32 [x.toNat]
  match v with
  | .num n m e _ =>
    if isPow2 m then exactResult md (.num n 1 (-(magLog m e)) false) iv
    else
      let u : Int := -(magLog m e) - 120
      let y := 2 ^ (-(u + e)).toNat / m
      let lg := magLog m e
      let r := approxResult ⟨0x37, bit n 0, -magCode x, powCode (-lg - 1), powCode (-lg)⟩ md n y u (ulpOf y u)
      (r.1, iv ||| r.2)
  | .zero n => exactResult md (.inf n) (iv ||| flagDZ)
  | .inf n => exactResult md (.zero n) iv
  | .nan => (f32.nan, iv)

/-- FRSQ (R197). -/
def frsqOp (md : Mode) (x : Word) : Nat × Nat :=
  let v := decodeF f32 md.ftz x.toNat
  let iv := signalFlag f32 [x.toNat]
  match v with
  | .num false m e _ =>
    let lg := magLog m e
    if isPow2 m && lg % 2 == 0 then exactResult md (.num false 1 (-(lg / 2)) false) iv
    else
      -- y = 2^(−e/2) ÷ √m with e made even
      let par := (e % 2).toNat
      let m' := m * 2 ^ par
      let e' := e - par
      let y := isqrt (2 ^ 320 / m')
      let u : Int := -160 - e' / 2
      let r := approxResult ⟨0x3A, 0, -magCode x, powCode (-(lg / 2) - 1), powCode (-(lg / 2))⟩ md false y u (ulpOf y u)
      (r.1, iv ||| r.2)
  | .zero n => exactResult md (.inf n) (iv ||| flagDZ)
  | .inf false => exactResult md (.zero false) iv
  | .nan => (f32.nan, iv)
  | _ => (f32.nan, iv ||| flagIV)

/-- 2^(k + r) with r in [0, 1) in fixed point: mantissa and unit. -/
def exp2Fix (x : Int) : Nat × Int :=
  let k := Int.fdiv x fixOne
  ((fixExp (fixMul (x - k * fixOne) fixLn2)).toNat, k - 120)

/-- FEX2 (R197). -/
def fex2Op (md : Mode) (x : Word) : Nat × Nat :=
  let v := decodeF f32 md.ftz x.toNat
  let iv := signalFlag f32 [x.toNat]
  match v with
  | .nan => (f32.nan, iv)
  | .inf true => exactResult md (.zero false) iv
  | .inf false => exactResult md (.inf false) iv
  | .zero _ => exactResult md (.num false 1 0 false) iv
  | .num _ _ _ _ =>
    if cmpX v (ofInt 128) != .lt then
      let r := exactResult md (.inf false) (iv ||| flagOF ||| flagNX)
      (r.1, r.2)
    else if cmpX v (ofInt (-150)) == .lt then (0, iv ||| flagUF ||| flagNX)
    else
      let fx := toFix v (-149)
      if fx % 2 ^ 149 = 0 && decide (-149 ≤ fx / 2 ^ 149) then exactResult md (.num false 1 (fx / 2 ^ 149) false) iv
      else
        let (y, u) := exp2Fix (Int.fdiv fx (2 ^ 29))
        let k := Int.fdiv fx (2 ^ 149)
        let r := approxResult ⟨0x3B, 0, fx, powCode k, powCode (k + 1)⟩ md false y u (ulpOf y u)
        (r.1, iv ||| r.2)

/-- FLG2 (R197): the bound is 1 ulp outside [0.5, 2) and 2^−22 inside. -/
def flg2Op (md : Mode) (x : Word) : Nat × Nat :=
  let v := decodeF f32 md.ftz x.toNat
  let iv := signalFlag f32 [x.toNat]
  match v with
  | .num false m e _ =>
    let lg := magLog m e
    if isPow2 m then exactResult md (ofInt lg) iv
    else
      let frac := fixLog2 110 (m * 2 ^ 120 / 2 ^ Nat.log2 m) 0
      let y : Int := lg * 2 ^ 110 + frac
      let tol := if lg = 0 ∨ lg = -1 then 2 ^ 88 else ulpOf y.natAbs (-110)
      let neg : Bool := decide (y < 0)
      let ends : Nat × Nat := if neg then (wholeCode (lg + 1), wholeCode lg) else (wholeCode lg, wholeCode (lg + 1))
      let r := approxResult ⟨0x3C, bit neg 0, if neg then -magCode x else magCode x, ends.1, ends.2⟩ md neg y.natAbs (-110) tol
      (r.1, iv ||| r.2)
  | .zero _ => exactResult md (.inf true) (iv ||| flagDZ)
  | .inf false => exactResult md (.inf false) iv
  | .nan => (f32.nan, iv)
  | _ => (f32.nan, iv ||| flagIV)

/-- The operand reduced to r = x − n, in units of 2^−149, and the quadrant when it is a multiple of 0.25. -/
def turn (v : XVal) : Int × Option Nat :=
  let x := toFix v (-149)
  let one : Int := 2 ^ 149
  let r0 := x % one
  let r := if 2 ^ 148 < r0 then r0 - one else r0
  (r, if r0 % 2 ^ 147 = 0 then some (r0 / 2 ^ 147).toNat else none)

/-- Magnitude of sin(2πa), or of cos(2πa), for a up to a half turn in units of 2^−149: mantissa and unit.  A sine of an operand far below
the fixed-point unit is scaled up, where it and 2πa agree within the bound. -/
def sineMag (cosine : Bool) (a : Nat) : Nat × Int :=
  if !cosine && decide (a < 2 ^ 109) then ((a : Int) * fixTwoPi |>.toNat, -269)
  else
    let quarter := Int.fdiv fixTwoPi 4
    let t := fixMul (a / 2 ^ 29 : Nat) fixTwoPi
    let b := if cosine then quarter - t else t
    ((fixSin (if quarter < b then 2 * quarter - b else b)).natAbs, -120)

/-- The bound of FSIN and FCOS: 2 ulp or 2^−30, the larger. -/
def sineTol (p : Nat × Int) : Nat := max (2 * roundedUlp p.1 p.2) (2 ^ (-30 - p.2).toNat)

/-- The least code at the last operand before the result's binade, on a stretch of codes from c0 to below c1 on which a magnitude rises, or
falls: the bound is wider from the binade's start on, and the results may not fall there (R197). -/
def binadeLow (mag : Nat → Nat × Int) (tol : Nat × Int → Nat) (rising : Bool) (c0 c1 : Nat) (y : Nat × Int) : Nat :=
  let below (c : Nat) : Bool := (mag c).1 == 0 || decide (roundedLog (mag c).1 (mag c).2 < roundedLog y.1 y.2)
  let c := if rising then bisect (fun m => decide (m ≤ c0) || (decide (m < c1) && below m)) 30 0
    else bisect (fun m => decide (m ≤ c0) || (decide (m < c1) && !below m)) 30 0 + 1
  if c1 ≤ c ∨ !below c then 0 else lowCode (mag c).1 (mag c).2 (tol (mag c))

/-- FSIN, and FCOS with cosine (R197).  The exact results at multiples of a quarter part the turn into four stretches. -/
def fsinOp (cosine : Bool) (md : Mode) (x : Word) : Nat × Nat :=
  let v := decodeF f32 md.ftz x.toNat
  let iv := signalFlag f32 [x.toNat]
  match v with
  | .nan => (f32.nan, iv)
  | .inf _ => (f32.nan, iv ||| flagIV)
  | .zero n => if cosine then exactResult md (.num false 1 0 false) iv else exactResult md (.zero n) iv
  | .num _ _ _ _ =>
    let (r, quad) := turn v
    match quad with
    | some q =>
      let s : Int := match (if cosine then (q + 1) % 4 else q) with
        | 1 => 1
        | 3 => -1
        | _ => 0
      exactResult md (ofInt s) iv
    | none =>
      let a := r.natAbs
      let far : Bool := decide (2 ^ 147 < a)
      let rising : Bool := far == cosine
      let code := edgeCode false a (-149)
      let mag (c : Nat) : Nat × Int := sineMag cosine (toFix (decodeF f32 false c) (-149)).toNat
      let y := sineMag cosine a
      let low := binadeLow mag sineTol rising (if far then 0x3E800000 else 0) (if far then 0x3F000000 else 0x3E800000) y
      let p : Stretch :=
        { fn := if cosine then 0x3E else 0x3D, seg := bit (decide (r < 0)) 1 + bit far 0, key := if rising then code else -(code : Int)
          low := low, high := 0x3F800000 }
      let res := approxResult p md (if cosine then far else decide (r < 0)) y.1 y.2 (sineTol y)
      (res.1, iv ||| res.2)

/-- tanh of a positive number below 9.1: mantissa and unit. -/
def tanhMag (m : Nat) (e : Int) : Nat × Int :=
  if magLog m e < -20 then
    -- tanh x = x − x³/3 + … lies below x, by less than 2^−40 of it: as far below as the slack of the bound reaches, so that x + 2 ulp is out
    (m * 2 ^ 60 - 32, e - 60)
  else
    -- tanh x = (t − 1) ÷ (t + 1) with t = e^2x = 2^(2x ÷ ln 2)
    let z := Int.fdiv (2 * toFix (.num false m e false) (-120) * fixOne) fixLn2
    let (p, u) := exp2Fix z
    let t : Int := if 0 ≤ u + 120 then (p * 2 ^ (u + 120).toNat : Nat) else (p / 2 ^ (-(u + 120)).toNat : Nat)
    ((Int.fdiv ((t - fixOne) * fixOne) (t + fixOne)).toNat, -120)

/-- FTANH (R197); odd to the bit, so the choice looks at the magnitude. -/
def ftanhOp (md : Mode) (x : Word) : Nat × Nat :=
  let v := decodeF f32 md.ftz x.toNat
  let iv := signalFlag f32 [x.toNat]
  let tol (y : Nat × Int) : Nat := 2 * roundedUlp y.1 y.2
  let mag (c : Nat) : Nat × Int := match decodeF f32 false c with
    | .num _ m e _ => tanhMag m e
    | _ => (0, 0)
  match v with
  | .nan => (f32.nan, iv)
  | .inf n => exactResult md (.num n 1 0 false) iv
  | .zero n => exactResult md (.zero n) iv
  | .num n m e _ =>
    if cmpX (.num false m e false) (.num false 0x91999A (-20) false) != .lt then exactResult md (.num n 1 0 false) iv
    else
      let y := tanhMag m e
      let code : Nat := x.toNat % 2 ^ 31
      let r := approxResult ⟨0x3F, 0, (code : Int), binadeLow mag tol true 0 code y, 0x3F800000⟩ md false y.1 y.2 (tol y)
      (withSign f32 n (r.1 % 2 ^ 31), iv ||| r.2)

end Sys2Proof.Machine
end

