-- ==== Sys2Proof/Machine/Lane.lean ====
section
/-! DEFINITION. How an instruction runs in the lanes of an issue group (R21, R203 to R208, R212): checks, guard, interlock, moving on;
waiting and yielding (R17, R42); rejoin masks (R24 to R27, R384). -/

namespace Sys2Proof.Machine

/-! ## Moving on and waiting -/

/-- The thread stands at an address; past its clause's last word, or after a transfer, it is at a header. -/
def Thread.goto (t : Thread) (pc : DWord) (now : Nat) (transfer : Bool) : Thread :=
  { t with
    last := t.pc
    pc := pc
    state := if t.stopping then .stopped else .runnable
    stopping := false
    ranOn := !transfer
    atHeader := none
    arrival := now
    joined := none
    alone := false
    clause :=
      if transfer then none
      else t.clause.bind (fun c => if (pc - c.base).toNat < 4 * (c.words.length + 1) then some c else none) }

/-- Goes on at the instruction after this one. -/
def Thread.advance (t : Thread) (now : Nat) : Thread := t.goto t.after now false

/-- The priority that stands for a thread: its entry's, for a record thread, else its team's (R39). -/
def taskPrio (s : State) (t : Thread) : Nat := t.prio.getD (s.team t.team).prio

/-- The cycle count of a thread's core. -/
def State.now (s : State) (t : Thread) : Nat := (s.core t.core).cycles

/-- A team under a request whose threads have all yielded or exited is Yielded (R40). -/
def checkYielded (s : State) (team : Nat) : State :=
  let m := s.team team
  if m.pre == .requested &&
      (s.threads.filter (fun p => p.2.team == team)).all (fun p => p.2.yielded || p.2.state == .exited) then
    s.updTeam team (fun m => { m with pre := .yielded })
  else s

/-- A thread waits.  Under a pre-emption request, entering Mask-wait, Parked or Descheduled yields (R42). -/
def waitIn (s : State) (k : Nat) (st : ThreadState) : State :=
  match s.thread k with
  | none => s
  | some t =>
    let yields := (s.team t.team).preq && (match st with
      | .maskWait _ _ | .barWait | .parked _ | .descheduled => true
      | _ => false)
    let s1 := s.updThread k (fun t => { t with state := st, yielded := t.yielded || yields })
    if yields then checkYielded s1 t.team else s1

/-- A thread yields at its program counter (R42). -/
def yieldAt (s : State) (k : Nat) : State :=
  match s.thread k with
  | none => s
  | some t => checkYielded (s.updThread k (fun t => { t with yielded := true })) t.team

/-- YH: the threads of the entry at which the thread now stands count as arriving now (R208). -/
def touchEntry (s : State) (k : Nat) : State :=
  match s.thread k with
  | none => s
  | some t =>
    { s with threads := s.threads.map (fun p =>
        if p.2.core == t.core && p.2.pc == t.pc && (s.team p.2.team).asid == (s.team t.team).asid then
          (p.1, { p.2 with arrival := s.now t, touch := false })
        else p) }

/-- A thread that was held has arrived at its next address: it renews the entry there where its instruction had YH set (R208). -/
def arriveHeld (s : State) (k : Nat) : State :=
  match s.thread k with
  | none => s
  | some t => if t.touch then touchEntry s k else s

/-! ## What an instruction does in one lane -/

/-- The outcome of an instruction in one lane. -/
inductive Out where
  /-- It is done; the thread goes on at the next instruction. -/
  | go (s : State)
  /-- It is done; control passes to an address. -/
  | jump (s : State) (target : DWord)
  /-- It cannot go on yet; the thread stays at it. -/
  | wait (s : State) (st : ThreadState)
  /-- It takes a trap. -/
  | trap (s : State) (x : Trap)
  /-- It is done and has set the thread's own course. -/
  | done (s : State)
  deriving Repr

/-- The registers that a long instruction reads or writes: first and count (R212). -/
def usedRegs (op : LongOp) (o : Long) : List (Nat × Nat) :=
  let s := shape op o
  let one (p : Opd) (v : BitVec 9) (k : BitVec 2) : List (Nat × Nat) :=
    match p with
    | .src n _ => if k = 0#2 then [(v.toNat, n)] else []
    | .dst n _ => [(v.toNat, n)]
    | _ => []
  one s.d o.d 0#2 ++ one s.a o.a o.ka ++ one s.b o.b o.kb ++ one s.c o.c o.kc ++ one s.e o.e 0#2

/-- The outstanding operations that will write one of these registers (R212). -/
def owed (t : Thread) (used : List (Nat × Nat)) : List Op :=
  (NMap.vals t.ops).filter (fun p =>
    match p.dst with
    | none => false
    | some (r, n) => p.ext != .predicate && used.any (fun u => decide (r < u.1 + u.2) && decide (u.1 < r + n)))

/-- The predicates that a long instruction reads or writes. -/
def usedPreds (op : LongOp) (o : Long) : List Nat :=
  let s := shape op o
  let one (p : Opd) (v : BitVec 9) : List Nat :=
    match p with
    | .named 15 => [v.toNat]
    | _ => []
  [o.g1.toNat, o.g2.toNat] ++ (if op = .sel then [o.m4.toNat] else []) ++ one s.d o.d ++ one s.a o.a ++ one s.b o.b ++ one s.c o.c

/-- A predicate that a long instruction reads or writes is owed by an outstanding SETFE. -/
def owedPred (t : Thread) (op : LongOp) (o : Long) : Bool :=
  (NMap.vals t.ops).any (fun p => p.ext == .predicate && (match p.dst with
    | some (r, _) => r != 0 && (usedPreds op o).contains r
    | none => false))

/-- The wait of an instruction whose register is owed: Parked for an access that has left the core, else Waiting (R272). -/
def owedState (ops : List Op) : ThreadState :=
  if ops.any (·.left) then .parked true else .waiting

/-- A member form of LDS or STS in a team outside a cluster, or with an index outside the cluster's shape (R31, R379). -/
def memberFault (s : State) (t : Thread) (op : LongOp) (o : Long) : Bool :=
  (op == .lds || op == .sts) && o.mode.getLsbD 1 && (match (s.team t.team).cluster, (s.team t.team).grid.bind s.grids.find with
    | some _, some g => decide (g.cw * g.ch ≤ o.m4.toNat)
    | _, _ => true)

/-- A source of a long instruction that holds an uncorrectable error: a register, or the operand buffer, numbered 512 (R415, log 151). -/
def badRead (t : Thread) (op : LongOp) (o : Long) : Option Nat :=
  let s := shape op o
  let one (p : Opd) (v : BitVec 9) (k : BitVec 2) : List (Nat × Nat) :=
    match p with
    | .src n _ => if k = 0#2 then [(v.toNat, n)] else if k = 2#2 then [(512, 1)] else []
    | _ => []
  let used := one s.d o.d 0#2 ++ one s.a o.a o.ka ++ one s.b o.b o.kb ++ one s.c o.c o.kc ++ one s.e o.e 0#2
  t.badRegs.find? (fun r => used.any (fun u => decide (u.1 ≤ r) && decide (r < u.1 + u.2)))

/-- The trap of such a read. -/
def badReadTrap (t : Thread) (r : Nat) : Trap := { trapAt 0x2D (BitVec.ofNat 64 r) t.pc with cls := 1 }

/-- The completion flag an operation counts on: SETA, or SETB when FS is 1; 15 is none (R212). -/
def flagOf (t : Thread) (fs : BitVec 1) : Option Nat :=
  match t.clause with
  | none => none
  | some c =>
    let v := if fs = 0#1 then c.header.extractLsb' 14 4 else c.header.extractLsb' 18 4
    if v.toNat < 12 then some v.toNat else none

/-- The flag stands at 63, so that an operation on it waits (R212). -/
def flagFull (t : Thread) (f : Option Nat) : Bool :=
  match f with
  | none => false
  | some i => decide (63 ≤ t.flags.getD i 0)

/-- Adds 1 to a flag. -/
def Thread.raise (t : Thread) (f : Option Nat) : Thread :=
  match f with
  | none => t
  | some i => { t with flags := t.flags.set i (t.flags.getD i 0 + 1) }

/-- Subtracts 1 from a flag. -/
def Thread.lower (t : Thread) (f : Option Nat) : Thread :=
  match f with
  | none => t
  | some i => { t with flags := t.flags.set i (t.flags.getD i 0 - 1) }

/-- YH after an instruction that has set its thread's own course: at once where the thread has gone on, else when it goes on (R208). -/
def keepTouch (yh : BitVec 1) (t : Thread) (k : Nat) (s : State) : State :=
  if yh = 0#1 then s
  else match s.thread k with
    | none => s
    | some u => if u.pc = t.pc then s.updThread k (fun u => { u with touch := true }) else touchEntry s k

/-- RET of an instruction found in t: the operand buffer that it writes in u, which then holds no error (R204, R415). -/
def Thread.kept (u : Thread) (op : LongOp) (o : Long) (t : Thread) : Thread :=
  if o.ret = 0#2 then u else { u with buf := retained op t o, badRegs := u.badRegs.filter (· != 512) }

/-- Settles the outcome of one lane: the thread's course, and the operand buffer when the instruction executed (R204). -/
def settle (op : LongOp) (o : Long) (t : Thread) (k : Nat) (r : Out) : State :=
  let keep (u : Thread) : Thread := u.kept op o t
  let yh (s : State) : State := if o.yh = 1#1 then touchEntry s k else s
  match r with
  | .go s => yh (s.updThread k (fun u => (keep u).advance (s.now t)))
  | .jump s target => yh (s.updThread k (fun u => (keep u).goto target (s.now t) true))
  | .wait s st => waitIn s k st
  | .trap s x => takeTrap s k x
  | .done s => keepTouch o.yh t k (s.updThread k keep)

/-- A thread as an instruction of len bytes finds it: the address after it is known. -/
def Thread.begun (t : Thread) (len : Nat) : Thread := { t with after := t.pc + BitVec.ofNat 64 len, state := .runnable, stopping := false }

/-- An instruction in a lane that has begun it: the skip address (R381), the field checks (R379), the guard (R205), the interlock (R212), then
its effect. -/
def laneChecked (op : LongOp) (o : Long) (w0 : Word) (body : State → Nat → Thread → Out) (s : State) (k : Nat) (t : Thread) : State :=
  if t.skip = some t.pc then s.updThread k (fun u => { u.advance (s.now t) with skip := none })
  else
    match fieldTrap op o w0 (t.sr.priv || !guardHolds t o) (s.team t.team).regs with
    | some (code, info) => takeTrap s k (trapAt code info t.pc)
    | none =>
      if memberFault s t op o then takeTrap s k (trapAt 0x05 (BitVec.ofNat 64 o.m4.toNat) t.pc)
      else if owedPred t op o then waitIn s k .waiting
      else if !guardHolds t o then settle op { o with ret := 0#2 } t k (.go s)
      else if !(owed t (usedRegs op o)).isEmpty then waitIn s k (owedState (owed t (usedRegs op o)))
      else match badRead t op o with
        | some r => takeTrap s k (badReadTrap t r)
        | none => settle op o t k (body s k t)

/-- Runs a long instruction of len bytes in one lane. -/
def laneStep (op : LongOp) (o : Long) (len : Nat) (w0 : Word) (body : State → Nat → Thread → Out) (s : State) (k : Nat) : State :=
  match s.thread k with
  | none => s
  | some t => laneChecked op o w0 body (s.updThread k (fun _ => t.begun len)) k (t.begun len)

/-- The instruction executes in a lane: no skip, no misuse, guard true, nothing owed. -/
def laneRuns (op : LongOp) (o : Long) (s : State) (k : Nat) : Bool :=
  match s.thread k with
  | none => false
  | some t => t.skip != some t.pc && (fieldTrap op o 0#32 t.sr.priv (s.team t.team).regs).isNone && !memberFault s t op o && !owedPred t op o &&
      guardHolds t o && (owed t (usedRegs op o)).isEmpty && (badRead t op o).isNone

/-- Threads of the issue group whose team has been halted meanwhile stop at the end of the instruction (R28, R386). -/
def restop (s : State) : State :=
  s.cur.foldl (fun s k =>
    match s.thread k with
    | none => s
    | some t => if (s.team t.team).halted then s.updThread k Thread.stop else s) s

/-- Runs a long instruction over the issue group, in increasing lane order (R21, R271). -/
def runLong (op : LongOp) (o : Long) (body : State → Nat → Thread → Out) (s : State) :
    Host.Outcome State Fault Refusal :=
  .next (restop (s.cur.foldl (laneStep op o o.bytes ((encodeLong op o).headD 0#32) body) s))

/-- Runs a short form as its long form, in four bytes (R214). -/
def runShort (op : LongOp) (o : Long) (w : Word) (body : State → Nat → Thread → Out) (s : State) :
    Host.Outcome State Fault Refusal :=
  .next (restop (s.cur.foldl (laneStep op o 4 w body) s))

/-- The long form with every field zero, from which the aliases of R214 are built. -/
def longZero : Long where
  m4 := 0#4
  a := 0#9
  d := 0#9
  kc := 0#2
  kb := 0#2
  fs := 0#1
  e := 0#9
  c := 0#9
  b := 0#9
  sub := 0#13
  yh := 0#1
  hint := 0#3
  ret := 0#2
  gc := 0#1
  n2 := 0#1
  g2 := 0#4
  n1 := 0#1
  g1 := 0#4
  ka := 0#2
  lit := none

/-- An instruction that computes on its own thread's registers only. -/
def pureLane (f : Thread → Thread) : State → Nat → Thread → Out :=
  fun s k _ => .go (s.updThread k f)

/-! ## Rejoin masks -/

/-- Mask k of a group. -/
def Group.mask (g : Group) (k : Nat) : Mask := g.masks.getD k default
/-- Writes mask k of a group. -/
def Group.setMask (g : Group) (k : Nat) (m : Mask) : Group := { g with masks := g.masks.set k m }
/-- The bit of a lane. -/
def laneBit (l : Nat) : Word := 1#32 <<< l

/-- The threads of a group that stand in a set of lanes, in lane order. -/
def lanesOf (s : State) (g : Nat) (set : Word) : List (Nat × Thread) :=
  (List.range 32).flatMap (fun l =>
    if set.getLsbD l then (s.threads.filter (fun p => p.2.group == g && p.2.lane == l && p.2.state != .exited)).take 1 else [])

/-- Threads that leave a mask together issue as one group at their next address (R25, R26). -/
def joinLanes (s : State) (ks : List Nat) : State :=
  ks.foldl (fun t k => t.updThread k (fun u => { u with joined := some s.fresh })) { s with fresh := s.fresh + 1 }

/-- A mask conflict (R384): every lane arrived on mask k takes trap 0x0C, and none is arrived any more. -/
def maskConflict (s : State) (g k : Nat) : State :=
  let m := (s.group g).mask k
  (lanesOf s g m.arrived).foldl (fun s p => takeTrap s p.1 (trapAt 0x0C (BitVec.ofNat 64 (m.enrolled.toNat + k * 2 ^ 32)) p.2.pc))
    (s.updGroup g (fun g => g.setMask k { m with arrived := 0#32 }))

/-- Every enrolled lane of mask k waits at the group-wide instruction at pc, and for some of them it names another mask (R384). -/
def namesOther (s : State) (g k : Nat) (pc : DWord) : Bool :=
  let m := (s.group g).mask k
  let ls := lanesOf s g m.enrolled
  let at_ (f : Nat → Bool) (t : Thread) : Bool := t.pc == pc && (match t.state with
    | .maskWait j true => f j
    | _ => false)
  m.arrived != 0#32 && ls.all (fun p => at_ (fun _ => true) p.2) && ls.any (fun p => at_ (fun j => j != k) p.2)

/-- After an arrival at the group-wide instruction at pc: the masks on which its lanes differ are in conflict (R384). -/
def otherMasks (s : State) (g : Nat) (pc : DWord) : State :=
  ((List.range 12).filter (fun k => namesOther s g k pc)).foldl (fun s k => maskConflict s g k) s

/-- Acts on a mask whose enrolled lanes have all arrived: a release when all wait at WAITKs (R25), the conflict trap when
they are mixed (R384); lanes at one group-wide instruction stay until they issue together (R20, R26). -/
def maskCheck (s : State) (g k : Nat) : State :=
  let m := (s.group g).mask k
  if m.arrived == 0#32 || m.arrived != m.enrolled then s
  else
    let ls := lanesOf s g m.arrived
    let atWaitk := ls.all (fun p => p.2.state == .maskWait k false)
    let pcs := ls.map (fun p => p.2.pc)
    let atWide := ls.all (fun p => p.2.state == .maskWait k true) && pcs.all (fun a => a == pcs.headD 0#64)
    if atWaitk then
      let s1 := s.updGroup g (fun g => g.setMask k { m with arrived := 0#32 })
      joinLanes (ls.foldl (fun s p => arriveHeld (s.updThread p.1 (fun t => t.advance (s.now t))) p.1) s1) (ls.map (·.1))
    else if atWide then s
    else maskConflict s g k

/-- LEAVE k in a lane (R25). -/
def leaveMask (s : State) (g k lane : Nat) : State :=
  let m := (s.group g).mask k
  let m' : Mask := { enrolled := m.enrolled &&& ~~~(laneBit lane), arrived := m.arrived &&& ~~~(laneBit lane) }
  maskCheck (s.updGroup g (fun g => g.setMask k m')) g k

/-- JOIN k in a lane (R25). -/
def joinMask (s : State) (g k lane : Nat) : State :=
  s.updGroup g (fun g => g.setMask k { (g.mask k) with enrolled := (g.mask k).enrolled ||| laneBit lane })

/-- WAITK k in a lane (R25): an enrolled lane arrives and waits; another goes on. -/
def waitMask (s : State) (k : Nat) (t : Thread) (m : Nat) : Out :=
  let q := (s.group t.group).mask m
  if !q.enrolled.getLsbD t.lane then .go s
  else
    let s1 := s.updGroup t.group (fun g => g.setMask m { q with arrived := q.arrived ||| laneBit t.lane })
    .done (maskCheck (waitIn s1 k (.maskWait m false)) t.group m)

/-- A lane leaves every mask in which it is enrolled (R18). -/
def leaveAll (s : State) (t : Thread) : State :=
  (List.range 12).foldl (fun s k =>
    if ((s.group t.group).mask k).enrolled.getLsbD t.lane then leaveMask s t.group k t.lane else s) s

/-- Writes a mask's enrolled set (R242): a struck lane that waits on it goes on past its WAITK, or executes its group-wide instruction
alone; a complete mask acts. -/
def writeMask (s : State) (g k : Nat) (set : Word) : State :=
  let live := (s.threads.filter (fun p => p.2.group == g && p.2.state != .exited)).foldl (fun w p => w ||| laneBit p.2.lane) 0#32
  let m := (s.group g).mask k
  let enrolled := set &&& live
  let struck := lanesOf s g (m.enrolled &&& ~~~enrolled)
  let s1 := s.updGroup g (fun g => g.setMask k { enrolled := enrolled, arrived := m.arrived &&& enrolled })
  let s2 := struck.foldl (fun s p =>
    match p.2.state with
    | .maskWait j wide =>
      if j = k then
        (if wide then s.updThread p.1 (fun t => { t.wake with alone := true })
        else arriveHeld (s.updThread p.1 (fun t => t.advance (s.now t))) p.1)
      else s
    | _ => s) s1
  maskCheck s2 g k

/-- Runs a group-wide instruction (R26, R27, R205, R243).  Each lane of the issue group passes the checks and arrives on mask
o.c; a lane that is not enrolled executes alone.  When the enrolled lanes have all arrived at this instruction it
executes once: apply is given the keys of the enrolled lanes and those of the participants, both in lane order. -/
def runWide (op : LongOp) (o : Long) (len : Nat) (w0 : Word)
    (apply : State → List Nat → State) (s : State) : State :=
  let k := o.c.toNat
  let start := s
  let finish (before s : State) (lanes : List Nat) : State :=
    lanes.foldl (fun s j =>
      match before.thread j, s.thread j with
      | some t, some u => if u.state == .runnable && u.sr.intrap == t.sr.intrap && u.pc + BitVec.ofNat 64 len == u.after then
          settle op (if guardHolds t o then o else { o with ret := 0#2 }) t j (.go s) else s
      | _, _ => s) s
  s.cur.foldl (fun s j =>
    match s.thread j with
    | none => s
    | some t0 =>
      let t := t0.begun len
      let s1 := s.updThread j (fun _ => t)
      if t0.state == .exited || (start.thread j).map (·.pc) != some t.pc then s
      else if t.skip = some t.pc then s1.updThread j (fun u => { u.advance (s1.now t) with skip := none })
      else
        match fieldTrap op o w0 true (s.team t.team).regs with
        | some (code, info) => takeTrap s1 j (trapAt code info t.pc)
        | none =>
          if owedPred t op o then waitIn s1 j .waiting
          else if guardHolds t o && !(owed t (usedRegs op o)).isEmpty then waitIn s1 j (owedState (owed t (usedRegs op o)))
          else if guardHolds t o && (badRead t op o).isSome then takeTrap s1 j (badReadTrap t ((badRead t op o).getD 0))
          else
            let m := (s1.group t.group).mask k
            if t.alone || !m.enrolled.getLsbD t.lane then
              finish s1 (if guardHolds t o then apply s1 [j] else s1) [j]
            else
              let m' := { m with arrived := m.arrived ||| laneBit t.lane }
              let s2 := waitIn (s1.updGroup t.group (fun g => g.setMask k m')) j (.maskWait k true)
              let ls := lanesOf s2 t.group m'.arrived
              if m'.arrived == m'.enrolled &&
                  ls.all (fun p => p.2.state == .maskWait k true && p.2.pc == t.pc || p.2.state == .runnable && p.2.pc == t.pc) then
                let s3 := (ls.map (·.1)).foldl (fun s i => s.updThread i (fun u => { u with state := .runnable })) s2
                let s4 := s3.updGroup t.group (fun g => g.setMask k { m' with arrived := 0#32 })
                let parts := (ls.filter (fun p => guardHolds p.2 o)).map (·.1)
                joinLanes (finish s4 (apply s4 parts) (ls.map (·.1))) (ls.map (·.1))
              else otherMasks (maskCheck s2 t.group k) t.group t.pc) s
    |> restop

/-! ## Instructions that another event ends -/

/-- The long instruction a thread stands at, from its clause (R199). -/
def standingAt (t : Thread) : Option (LongOp × Long) :=
  match t.clause with
  | none => none
  | some c =>
    match decode (c.words.drop ((t.pc - c.base).toNat / 4 - 1)) with
    | .ok (i, _) => i.long?
    | .error _ => none

/-- The wait of a thread at its instruction is over, and with it the instruction: the thread goes on past it, with what RET and YH say
(R204, R208). -/
def goPast (s : State) (k : Nat) : State :=
  match s.thread k with
  | none => s
  | some t =>
    match standingAt t with
    | some (op, o) => settle op o t k (.go s)
    | none => s.updThread k (fun t => t.advance (s.now t))

end Sys2Proof.Machine
end

