-- ==== Sys2Proof/Machine/Integer.lean ====
section
/-! DEFINITION. Moves, integer arithmetic, predicates and address arithmetic: opcodes 0x00 to 0x1F (R224 to R237) and their
short forms (R214). -/

namespace Sys2Proof.Machine

/-! ## Integer values (R178, R225) -/

/-- Width of the type field: 32 or 64. -/
def intWidth (t : BitVec 4) : Nat := if isWide t then 64 else 32
/-- The type is signed: I32 or I64. -/
def intSigned (t : BitVec 4) : Bool := t == 0#4 || t == 2#4
/-- A w-bit code as a number, two's complement when signed. -/
def codeInt (w : Nat) (signed : Bool) (v : Nat) : Int :=
  let u := v % 2 ^ w
  if signed && decide (2 ^ (w - 1) ≤ u) then (u : Int) - 2 ^ w else u
/-- The w-bit code of a number: its low w bits. -/
def intCode (w : Nat) (x : Int) : Nat := (x % (2 ^ w : Int)).toNat
/-- The ends of a type's range (R177). -/
def intMin (w : Nat) (signed : Bool) : Int := if signed then -(2 ^ (w - 1) : Int) else 0
/-- The greatest value of a type. -/
def intMax (w : Nat) (signed : Bool) : Int := if signed then 2 ^ (w - 1) - 1 else 2 ^ w - 1
/-- The nearest value of a type's range (R178). -/
def clampInt (w : Nat) (signed : Bool) (x : Int) : Int :=
  if x < intMin w signed then intMin w signed else if intMax w signed < x then intMax w signed else x

/-- An operand of the instruction's integer type. -/
def opInt (o : Long) (w : Src) (t : Thread) : Int := codeInt (intWidth o.ty) (intSigned o.ty) (srcInt t o w)

/-- The code stored for an exact result (R227): clamped with SAT, else its low w bits. -/
def intResult (o : Long) (x : Int) : Nat :=
  intCode (intWidth o.ty) (if o.sat then clampInt (intWidth o.ty) (intSigned o.ty) x else x)

/-- Writes a result of w bits to register d, or to the pair at d. -/
def Thread.setCode (t : Thread) (wide : Bool) (d : Nat) (v : Nat) : Thread :=
  if wide then t.setRegs d [BitVec.ofNat 32 v, BitVec.ofNat 32 (v / 2 ^ 32)] else t.setRegs d [BitVec.ofNat 32 v]

/-- Writes an exact integer result to d (R227). -/
def setInt (o : Long) (x : Int) (t : Thread) : Thread := t.setCode (isWide o.ty) o.d.toNat (intResult o x)

/-- Writes bits to d: the opcodes that ignore signedness. -/
def setBits (o : Long) (v : Nat) (t : Thread) : Thread := t.setCode (isWide o.ty) o.d.toNat (v % 2 ^ intWidth o.ty)

/-- Quotient and remainder of R228. -/
def divInt (o : Long) (a b : Int) : Int :=
  let w := intWidth o.ty
  let sg := intSigned o.ty
  if b = 0 then (if !sg then 2 ^ w - 1 else if 0 ≤ a then intMax w true else intMin w true)
  else if sg && a == intMin w true && b == -1 then (if o.sat then intMax w true else intMin w true)
  else Int.tdiv a b

/-- The remainder of R228. -/
def remInt (o : Long) (a b : Int) : Int :=
  if b = 0 then a
  else if intSigned o.ty && a == intMin (intWidth o.ty) true && b == -1 then 0
  else Int.tmod a b

/-- Shift amount: the narrow b modulo 256 (R229). -/
def shiftBy (o : Long) (t : Thread) : Nat := (src32 t o .b).toNat % 256

/-- SHL (R229). -/
def shlInt (o : Long) (t : Thread) : Int :=
  let n := shiftBy o t
  if o.sat then opInt o .a t * 2 ^ n else ((srcInt t o .a * 2 ^ n % 2 ^ intWidth o.ty : Nat) : Int)

/-- SAR (R229). -/
def sarInt (o : Long) (t : Thread) : Int :=
  Int.fdiv (codeInt (intWidth o.ty) true (srcInt t o .a)) (2 ^ shiftBy o t)

/-- ROT: left by s mod w (R229). -/
def rotBits (o : Long) (t : Thread) : Nat :=
  let w := intWidth o.ty
  let n := shiftBy o t % w
  let a := srcInt t o .a
  (a * 2 ^ n + a / 2 ^ (w - n)) % 2 ^ w

/-- Position and length of the field descriptor c (R230). -/
def bitField (o : Long) (t : Thread) : Nat × Nat :=
  let w := intWidth o.ty
  let c := (src32 t o .c).toNat
  let q := min (c % 256) w
  (q, min (c / 256 % 256) (w - q))

/-- BFX (R230). -/
def bfxBits (o : Long) (t : Thread) : Int :=
  let (q, n) := bitField o t
  let f := srcInt t o .a / 2 ^ q % 2 ^ n
  if n = 0 then 0 else codeInt n (intSigned o.ty) f

/-- BFI (R230). -/
def bfiBits (o : Long) (t : Thread) : Nat :=
  let (q, n) := bitField o t
  let a := srcInt t o .a
  let mask := (2 ^ n - 1) * 2 ^ q
  (a - (a &&& mask)) ||| (srcInt t o .b * 2 ^ q &&& mask)

/-- Number of 1 bits among the low w bits. -/
def popCount : Nat → Nat → Nat
  | 0, _ => 0
  | w + 1, v => v % 2 + popCount w (v / 2)

/-- Leading zeros of a w-bit number. -/
def leadingZeros : Nat → Nat → Nat
  | 0, _ => 0
  | w + 1, v => if v / 2 ^ w % 2 = 1 then 0 else 1 + leadingZeros w v

/-- The low w bits in reverse order. -/
def reverseBits : Nat → Nat → Nat
  | 0, _ => 0
  | w + 1, v => v % 2 * 2 ^ w + reverseBits w (v / 2)

/-! ## Meanings -/

/-- The effect of an integer opcode: an exact result from the operands. -/
def intLane (o : Long) (f : Thread → Int) : State → Nat → Thread → Out := pureLane (fun t => setInt o (f t) t)
/-- The effect of a bitwise opcode. -/
def bitLane (o : Long) (f : Thread → Nat) : State → Nat → Thread → Out := pureLane (fun t => setBits o (f t) t)
/-- The effect of an opcode that writes one 32-bit register. -/
def wordLane (o : Long) (f : Thread → Nat) : State → Nat → Thread → Out :=
  pureLane (fun t => t.setRegs o.d.toNat [BitVec.ofNat 32 (f t)])

/-- NOP (R227). -/
def effNop (_ : Long) : State → Nat → Thread → Out := fun s _ _ => .go s
/-- MOV: copied bit for bit (R227). -/
def effMov (o : Long) : State → Nat → Thread → Out := bitLane o (fun t => srcInt t o .a)
/-- LIT (R227). -/
def effLit (o : Long) : State → Nat → Thread → Out := bitLane o (fun t => (src64 t o .a).toNat)
/-- ADD (R227). -/
def effAdd (o : Long) : State → Nat → Thread → Out := intLane o (fun t => opInt o .a t + opInt o .b t)
/-- SUB (R227). -/
def effSub (o : Long) : State → Nat → Thread → Out := intLane o (fun t => opInt o .a t - opInt o .b t)
/-- MUL (R227). -/
def effMul (o : Long) : State → Nat → Thread → Out := intLane o (fun t => opInt o .a t * opInt o .b t)
/-- MULH: bits 2w − 1 to w of the exact product (R227). -/
def effMulh (o : Long) : State → Nat → Thread → Out :=
  intLane o (fun t => Int.fdiv (opInt o .a t * opInt o .b t) (2 ^ intWidth o.ty))
/-- MAD (R227). -/
def effMad (o : Long) : State → Nat → Thread → Out := intLane o (fun t => opInt o .a t * opInt o .b t + opInt o .c t)
/-- DIV (R228). -/
def effDiv (o : Long) : State → Nat → Thread → Out := pureLane (fun t => setInt { o with sub := o.sub &&& 0x1F7F#13 } (divInt o (opInt o .a t) (opInt o .b t)) t)
/-- REM (R228). -/
def effRem (o : Long) : State → Nat → Thread → Out := pureLane (fun t => setInt { o with sub := o.sub &&& 0x1F7F#13 } (remInt o (opInt o .a t) (opInt o .b t)) t)
/-- MIN (R227). -/
def effMin (o : Long) : State → Nat → Thread → Out := intLane o (fun t => min (opInt o .a t) (opInt o .b t))
/-- MAX (R227). -/
def effMax (o : Long) : State → Nat → Thread → Out := intLane o (fun t => max (opInt o .a t) (opInt o .b t))
/-- ABS (R227). -/
def effAbs (o : Long) : State → Nat → Thread → Out := intLane o (fun t => ((opInt o .a t).natAbs : Int))
/-- NEG (R227). -/
def effNeg (o : Long) : State → Nat → Thread → Out := intLane o (fun t => -(opInt o .a t))
/-- AND (R227). -/
def effAnd (o : Long) : State → Nat → Thread → Out := bitLane o (fun t => srcInt t o .a &&& srcInt t o .b)
/-- OR (R227). -/
def effOr (o : Long) : State → Nat → Thread → Out := bitLane o (fun t => srcInt t o .a ||| srcInt t o .b)
/-- XOR (R227). -/
def effXor (o : Long) : State → Nat → Thread → Out := bitLane o (fun t => srcInt t o .a ^^^ srcInt t o .b)
/-- NOT (R227). -/
def effNot (o : Long) : State → Nat → Thread → Out := bitLane o (fun t => 2 ^ intWidth o.ty - 1 - srcInt t o .a)
/-- SHL (R229). -/
def effShl (o : Long) : State → Nat → Thread → Out := intLane o (shlInt o)
/-- SHR (R229). -/
def effShr (o : Long) : State → Nat → Thread → Out := bitLane o (fun t => srcInt t o .a / 2 ^ shiftBy o t)
/-- SAR (R229). -/
def effSar (o : Long) : State → Nat → Thread → Out := intLane o (sarInt o)
/-- ROT (R229). -/
def effRot (o : Long) : State → Nat → Thread → Out := bitLane o (rotBits o)
/-- BFX (R230). -/
def effBfx (o : Long) : State → Nat → Thread → Out := intLane o (bfxBits o)
/-- BFI (R230). -/
def effBfi (o : Long) : State → Nat → Thread → Out := bitLane o (bfiBits o)
/-- POPC (R231). -/
def effPopc (o : Long) : State → Nat → Thread → Out := wordLane o (fun t => popCount (intWidth o.ty) (srcInt t o .a))
/-- CLZ (R231). -/
def effClz (o : Long) : State → Nat → Thread → Out := wordLane o (fun t => leadingZeros (intWidth o.ty) (srcInt t o .a))
/-- BREV (R231). -/
def effBrev (o : Long) : State → Nat → Thread → Out := bitLane o (fun t => reverseBits (intWidth o.ty) (srcInt t o .a))
/-- SEL (R232). -/
def effSel (o : Long) : State → Nat → Thread → Out :=
  bitLane o (fun t => if t.pred o.m4.toNat then srcInt t o .a else srcInt t o .b)

/-- A comparison of R233. -/
def setpCond (o : Long) (t : Thread) : Bool :=
  let a := opInt o .a t
  let b := opInt o .b t
  match o.m4.toNat with
  | 0 => a == b
  | 1 => a != b
  | 2 => decide (a < b)
  | 3 => decide (a ≤ b)
  | 4 => decide (b < a)
  | 5 => decide (b ≤ a)
  | 6 => srcInt t o .a &&& srcInt t o .b != 0
  | _ => srcInt t o .a &&& srcInt t o .b == 0

/-- A comparison's result combined with predicate c (R233). -/
def combine (o : Long) (t : Thread) (res : Bool) : Bool :=
  match o.p5.toNat % 4 with
  | 1 => res && t.pred o.c.toNat
  | 2 => res || t.pred o.c.toNat
  | 3 => res != t.pred o.c.toNat
  | _ => res

/-- SETP (R233). -/
def effSetp (o : Long) : State → Nat → Thread → Out :=
  pureLane (fun t => t.setPred o.d.toNat (combine o t (setpCond o t)))

/-- PLOP (R234). -/
def effPlop (o : Long) : State → Nat → Thread → Out := pureLane (fun t =>
  let lut := o.m4.toNat * 16 + o.p5.toNat % 16
  let one (r : BitVec 9) : Nat := if t.pred r.toNat then 1 else 0
  t.setPred o.d.toNat (lut.testBit (one o.a * 4 + one o.b * 2 + one o.c)))

/-- LEA (R235). -/
def effLea (o : Long) : State → Nat → Thread → Out := pureLane (fun t =>
  let e := if o.ty = 0#4 then (src32 t o .b).signExtend 64 else (src32 t o .b).setWidth 64
  t.setCode true o.d.toNat (src64 t o .a + (e <<< (o.p5.toNat % 8)) + src64 t o .c).toNat)

/-- Owner and local offset of a tensor element (R236, R237).  An ESZ of 5 to 15 shifts as the others do (DESIGN CHOICE, log 159). -/
def distribute (dt : DWord) (i j : Nat) : Nat × Nat :=
  let f (h l : Nat) : Nat := bits dt.toNat h l
  let br := 2 ^ f 63 60
  let bc := 2 ^ f 59 56
  let gr := f 55 52 + 1
  let gc := f 51 48 + 1
  let bi := i / br
  let bj := j / bc
  let li := bi / gr * br + i % br
  let lj := bj / gc * bc + j % bc
  (bi % gr * gc + bj % gc, (f 19 0 * 16 + (li * f 39 20 + lj) * 2 ^ f 47 44) % 2 ^ 32)

/-- GADDR (R237). -/
def effGaddr (o : Long) : State → Nat → Thread → Out := pureLane (fun t =>
  let r := distribute (t.sr.dt.getD (o.m4.toNat % 8) 0#64) (src32 t o .a).toNat (src32 t o .b).toNat
  (t.setRegs o.e.toNat [BitVec.ofNat 32 r.1]).setRegs o.d.toNat [BitVec.ofNat 32 r.2])

/-- NOP. -/
def execNop (o : Long) (s : State) : Host.Outcome State Fault Refusal := runLong .nop o (effNop o) s
/-- MOV. -/
def execMov (o : Long) (s : State) : Host.Outcome State Fault Refusal := runLong .mov o (effMov o) s
/-- LIT. -/
def execLit (o : Long) (s : State) : Host.Outcome State Fault Refusal := runLong .lit o (effLit o) s
/-- ADD. -/
def execAdd (o : Long) (s : State) : Host.Outcome State Fault Refusal := runLong .add o (effAdd o) s
/-- SUB. -/
def execSub (o : Long) (s : State) : Host.Outcome State Fault Refusal := runLong .sub o (effSub o) s
/-- MUL. -/
def execMul (o : Long) (s : State) : Host.Outcome State Fault Refusal := runLong .mul o (effMul o) s
/-- MULH. -/
def execMulh (o : Long) (s : State) : Host.Outcome State Fault Refusal := runLong .mulh o (effMulh o) s
/-- MAD. -/
def execMad (o : Long) (s : State) : Host.Outcome State Fault Refusal := runLong .mad o (effMad o) s
/-- DIV. -/
def execDiv (o : Long) (s : State) : Host.Outcome State Fault Refusal := runLong .div o (effDiv o) s
/-- REM. -/
def execRem (o : Long) (s : State) : Host.Outcome State Fault Refusal := runLong .rem o (effRem o) s
/-- MIN. -/
def execMin (o : Long) (s : State) : Host.Outcome State Fault Refusal := runLong .min o (effMin o) s
/-- MAX. -/
def execMax (o : Long) (s : State) : Host.Outcome State Fault Refusal := runLong .max o (effMax o) s
/-- ABS. -/
def execAbs (o : Long) (s : State) : Host.Outcome State Fault Refusal := runLong .abs o (effAbs o) s
/-- NEG. -/
def execNeg (o : Long) (s : State) : Host.Outcome State Fault Refusal := runLong .neg o (effNeg o) s
/-- AND. -/
def execAnd (o : Long) (s : State) : Host.Outcome State Fault Refusal := runLong .and o (effAnd o) s
/-- OR. -/
def execOr (o : Long) (s : State) : Host.Outcome State Fault Refusal := runLong .or o (effOr o) s
/-- XOR. -/
def execXor (o : Long) (s : State) : Host.Outcome State Fault Refusal := runLong .xor o (effXor o) s
/-- NOT. -/
def execNot (o : Long) (s : State) : Host.Outcome State Fault Refusal := runLong .not o (effNot o) s
/-- SHL. -/
def execShl (o : Long) (s : State) : Host.Outcome State Fault Refusal := runLong .shl o (effShl o) s
/-- SHR. -/
def execShr (o : Long) (s : State) : Host.Outcome State Fault Refusal := runLong .shr o (effShr o) s
/-- SAR. -/
def execSar (o : Long) (s : State) : Host.Outcome State Fault Refusal := runLong .sar o (effSar o) s
/-- ROT. -/
def execRot (o : Long) (s : State) : Host.Outcome State Fault Refusal := runLong .rot o (effRot o) s
/-- BFX. -/
def execBfx (o : Long) (s : State) : Host.Outcome State Fault Refusal := runLong .bfx o (effBfx o) s
/-- BFI. -/
def execBfi (o : Long) (s : State) : Host.Outcome State Fault Refusal := runLong .bfi o (effBfi o) s
/-- POPC. -/
def execPopc (o : Long) (s : State) : Host.Outcome State Fault Refusal := runLong .popc o (effPopc o) s
/-- CLZ. -/
def execClz (o : Long) (s : State) : Host.Outcome State Fault Refusal := runLong .clz o (effClz o) s
/-- BREV. -/
def execBrev (o : Long) (s : State) : Host.Outcome State Fault Refusal := runLong .brev o (effBrev o) s
/-- SEL. -/
def execSel (o : Long) (s : State) : Host.Outcome State Fault Refusal := runLong .sel o (effSel o) s
/-- SETP. -/
def execSetp (o : Long) (s : State) : Host.Outcome State Fault Refusal := runLong .setp o (effSetp o) s
/-- PLOP. -/
def execPlop (o : Long) (s : State) : Host.Outcome State Fault Refusal := runLong .plop o (effPlop o) s
/-- LEA. -/
def execLea (o : Long) (s : State) : Host.Outcome State Fault Refusal := runLong .lea o (effLea o) s
/-- GADDR. -/
def execGaddr (o : Long) (s : State) : Host.Outcome State Fault Refusal := runLong .gaddr o (effGaddr o) s

/-! ## Short forms (R214) -/

/-- The long form of a two-operand alias d, d, a. -/
def aliasDda (a d : BitVec 9) : Long := { longZero with d := d, a := d, b := a }
/-- The long form of an alias d, a with a literal b. -/
def aliasImm (a d : BitVec 9) (v : DWord) : Long := { longZero with d := d, a := a, kb := 3#2, lit := some v }

/-- The word of a form S instruction (R201). -/
def wordS (op6 x : BitVec 6) (a d : BitVec 9) : Word := x ++ a ++ d ++ op6 ++ 0#2

/-- MOV d, a (R214). -/
def execMovShort (a d : BitVec 9) (s : State) : Host.Outcome State Fault Refusal :=
  let o := { longZero with d := d, a := a }
  runShort .mov o (wordS 0x00#6 0#6 a d) (effMov o) s
/-- ADD d, a (R214). -/
def execAddShort (a d : BitVec 9) (s : State) : Host.Outcome State Fault Refusal :=
  runShort .add (aliasDda a d) (wordS 0x01#6 0#6 a d) (effAdd (aliasDda a d)) s
/-- SUB d, a (R214). -/
def execSubShort (a d : BitVec 9) (s : State) : Host.Outcome State Fault Refusal :=
  runShort .sub (aliasDda a d) (wordS 0x02#6 0#6 a d) (effSub (aliasDda a d)) s
/-- ADDI: a signed immediate (R214). -/
def execAddi (i : BitVec 6) (a d : BitVec 9) (s : State) : Host.Outcome State Fault Refusal :=
  let o := aliasImm a d (i.signExtend 64)
  runShort .add o (wordS 0x03#6 i a d) (effAdd o) s
/-- SHLI (R214). -/
def execShli (i : BitVec 6) (a d : BitVec 9) (s : State) : Host.Outcome State Fault Refusal :=
  let o := aliasImm a d (i.setWidth 64)
  runShort .shl o (wordS 0x04#6 i a d) (effShl o) s
/-- SHRI (R214). -/
def execShri (i : BitVec 6) (a d : BitVec 9) (s : State) : Host.Outcome State Fault Refusal :=
  let o := aliasImm a d (i.setWidth 64)
  runShort .shr o (wordS 0x05#6 i a d) (effShr o) s
/-- SARI (R214). -/
def execSari (i : BitVec 6) (a d : BitVec 9) (s : State) : Host.Outcome State Fault Refusal :=
  let o := aliasImm a d (i.setWidth 64)
  runShort .sar o (wordS 0x06#6 i a d) (effSar o) s
/-- ANDI (R214). -/
def execAndi (i : BitVec 6) (a d : BitVec 9) (s : State) : Host.Outcome State Fault Refusal :=
  let o := aliasImm a d (i.setWidth 64)
  runShort .and o (wordS 0x07#6 i a d) (effAnd o) s
/-- LIS: a 15-bit signed immediate (R214). -/
def execLis (lo : BitVec 6) (hi d : BitVec 9) (s : State) : Host.Outcome State Fault Refusal :=
  let o := { longZero with d := d, ka := 3#2, lit := some ((hi ++ lo).signExtend 64) }
  runShort .lit o (wordS 0x08#6 lo hi d) (effLit o) s

end Sys2Proof.Machine
end

