-- ==== Sys2Proof/Machine/FloatInstr.lean ====
section
/-! DEFINITION. Floating-point, conversion and function instructions: opcodes 0x30 to 0x49 (R249 to R267) and their short
forms (R214). -/

namespace Sys2Proof.Machine

/-- FPCR.FTZ (R190). -/
def Thread.ftz (t : Thread) : Bool := t.sr.fpcr.getLsbD 0

/-- ORs flags into FPSR (R191). -/
def Thread.raiseFlags (t : Thread) (f : Nat) : Thread :=
  { t with sr := { t.sr with fpsr := t.sr.fpsr ||| BitVec.ofNat 32 (f % 32) } }

/-- The rounding mode of an instruction (R185, R190). -/
def modeOf (o : Long) (t : Thread) : Mode := ⟨o.rm.toNat, o.sat, t.ftz⟩

/-- The low bits of a source that an element of a type occupies (R250). -/
def elem (t : Thread) (o : Long) (w : Src) (ty : BitVec 4) : Nat := (src32 t o w).toNat % 2 ^ typeBits ty

/-- Writes a 32-bit result, the flags and the generator (R252). -/
def finishLane (o : Long) (t : Thread) (r : Nat × Nat × Word) : Thread :=
  { (t.setRegs o.d.toNat [BitVec.ofNat 32 r.1]).raiseFlags r.2.1 with gen := r.2.2 }

/-- An instruction whose result is one code with flags and generator. -/
def floatLane (o : Long) (f : Thread → Nat × Nat × Word) : State → Nat → Thread → Out :=
  pureLane (fun t => finishLane o t (f t))

/-- The format an instruction computes in. -/
def fmt (o : Long) : Fmt := fmtOf o.ty.toNat

/-- FADD (R254). -/
def effFadd (o : Long) : State → Nat → Thread → Out :=
  floatLane o (fun t => faddOp (fmt o) (modeOf o t) t.gen false (elem t o .a o.ty) (elem t o .b o.ty))
/-- FSUB (R254). -/
def effFsub (o : Long) : State → Nat → Thread → Out :=
  floatLane o (fun t => faddOp (fmt o) (modeOf o t) t.gen true (elem t o .a o.ty) (elem t o .b o.ty))
/-- FMUL (R254). -/
def effFmul (o : Long) : State → Nat → Thread → Out :=
  floatLane o (fun t => fmulOp (fmt o) (modeOf o t) t.gen (elem t o .a o.ty) (elem t o .b o.ty))
/-- FFMA: M4 bit 0 negates the product, bit 1 negates c (R254). -/
def effFfma (o : Long) : State → Nat → Thread → Out :=
  floatLane o (fun t => ffmaOp (fmt o) (modeOf o t) t.gen (o.m4.getLsbD 0) (o.m4.getLsbD 1)
    (elem t o .a o.ty) (elem t o .b o.ty) (elem t o .c o.ty))
/-- FMIN and FMAX (R255). -/
def effFminmax (o : Long) (greater : Bool) : State → Nat → Thread → Out :=
  floatLane o (fun t =>
    let r := fminmaxOp (fmt o) t.ftz greater (o.m4.getLsbD 0) (elem t o .a o.ty) (elem t o .b o.ty)
    (r.1, r.2, t.gen))

/-- A comparison of R256: result and flags. -/
def fsetpCond (o : Long) (t : Thread) : Bool × Nat :=
  let ca := elem t o .a o.ty
  let cb := elem t o .b o.ty
  let a := decodeF (fmt o) t.ftz ca
  let b := decodeF (fmt o) t.ftz cb
  let c := o.m4.toNat
  let sig := signalFlag (fmt o) [ca, cb]
  if a.isNan || b.isNan then
    (oneOf [1, 7, 8, 9, 10, 11, 12] c, if oneOf [2, 3, 4, 5] c then flagIV else sig)
  else
    let r := cmpX a b
    (match c with
      | 0 | 8 => r == .eq
      | 1 => r != .eq
      | 2 | 9 => r == .lt
      | 3 | 10 => r != .gt
      | 4 | 11 => r == .gt
      | 5 | 12 => r != .lt
      | 6 => true
      | _ => false, 0)

/-- FSETP (R256). -/
def effFsetp (o : Long) : State → Nat → Thread → Out := pureLane (fun t =>
  let r := fsetpCond o t
  (t.setPred o.d.toNat (combine o t r.1)).raiseFlags r.2)

/-- FDIV (R257). -/
def effFdiv (o : Long) : State → Nat → Thread → Out :=
  floatLane o (fun t => fdivOp (fmt o) (modeOf o t) t.gen (elem t o .a o.ty) (elem t o .b o.ty))
/-- FSQRT (R257). -/
def effFsqrt (o : Long) : State → Nat → Thread → Out :=
  floatLane o (fun t => fsqrtOp (fmt o) (modeOf o t) t.gen (elem t o .a o.ty))

/-- A function of R258: RM is ignored, and no generator step is taken. -/
def approxLane (o : Long) (f : Mode → Word → Nat × Nat) : State → Nat → Thread → Out :=
  floatLane o (fun t =>
    let r := f ⟨0, o.sat, t.ftz⟩ (src32 t o .a)
    (r.1, r.2, t.gen))

/-- FRND (R259). -/
def frndOp (f : Fmt) (md : Mode) (exactBit : Bool) (gen : Word) (c : Nat) : Nat × Nat × Word :=
  let iv := signalFlag f [c]
  match decodeF f md.ftz c with
  | .nan => (f.nan, iv, gen)
  | .inf n => (infCode f n, 0, gen)
  | .zero n => (withSign f n 0, 0, gen)
  | .num n m e more =>
    let gen' := if md.rm = 5 then xorshift gen else gen
    let (st, exact) := roundSteps md.rm n (m * 2 ^ e.toNat) (-e).toNat more (gen'.toNat / 256)
    let v := if st = 0 then XVal.zero n else .num n st 0 false
    ((roundTo f rne 0#32 v).1, if exactBit && !exact then flagNX else 0, gen')

/-- FRND (R259). -/
def effFrnd (o : Long) : State → Nat → Thread → Out :=
  floatLane o (fun t => frndOp (fmt o) (modeOf o t) (o.m4.getLsbD 0) t.gen (elem t o .a o.ty))

/-- Entry of a codebook register (R184). -/
def bookEntry (book : BitVec 256) (i : Nat) : Nat := (book >>> (16 * (i % 16))).toNat % 65536

/-- A codebook register of a thread's team (R184). -/
def teamBook (s : State) (t : Thread) (i : Nat) : BitVec 256 := (s.team t.team).books.getD i 0#256

/-- CVT (R260): a CB4 source is its codebook entry, read whole. -/
def effCvt (o : Long) : State → Nat → Thread → Out := fun s k t =>
  let src := o.p5.toNat % 16
  let c := elem t o .a (o.p5.setWidth 4)
  let code := if src = 14 then bookEntry (teamBook s t (o.m4.toNat % 8)) c else c
  .go (s.updThread k (fun t => finishLane o t (cvtOp (if src = 14 then 10 else src) o.ty.toNat (modeOf o t) t.gen code)))

/-- Width and signedness of the integer types 0 to 7 (R177). -/
def intKind (t : Nat) : Nat × Bool :=
  (match t / 2 with
    | 0 => 32
    | 1 => 64
    | 2 => 16
    | _ => 8, t % 2 = 0)

/-- F2I (R261). -/
def effF2i (o : Long) : State → Nat → Thread → Out := pureLane (fun t =>
  let src := o.p5.toNat % 16
  let f := fmtOf src
  let c := elem t o .a (o.p5.setWidth 4)
  let (w, sg) := intKind o.ty.toNat
  let r := roundInt w sg (modeOf o t) t.gen (decodeF f (t.ftz && f.signals) c)
  let u := (t.setCode (isWide o.ty) o.d.toNat (intCode 64 r.1)).raiseFlags (r.2.1 ||| signalFlag f [c])
  { u with gen := r.2.2 })

/-- I2F (R262). -/
def effI2f (o : Long) : State → Nat → Thread → Out :=
  floatLane o (fun t =>
    let (w, sg) := intKind (o.p5.toNat % 16)
    let v := if w = 64 then (src64 t o .a).toNat else (src32 t o .a).toNat
    roundTo (fmt o) (modeOf o t) t.gen (ofInt (codeInt w sg v)))

/-- Replaces the w-bit elements at positions i and i + 1 of a word. -/
def packPair (w i : Nat) (base x y : Nat) : Nat :=
  let keep := base - (base / 2 ^ (w * i) % 2 ^ (2 * w)) * 2 ^ (w * i)
  keep + (x % 2 ^ w + y % 2 ^ w * 2 ^ w) * 2 ^ (w * i)

/-- PACK (R263). -/
def effPack (o : Long) : State → Nat → Thread → Out :=
  floatLane o (fun t =>
    let w := typeBits o.ty
    let base := if w = 16 then 0 else (src32 t o .c).toNat
    let a := (src32 t o .a).toNat
    let b := (src32 t o .b).toNat
    if o.p5.getLsbD 0 then (packPair w (2 * o.m4.toNat) base a b, 0, t.gen)
    else
      let x := cvtOp 8 o.ty.toNat (modeOf o t) t.gen a
      let y := cvtOp 8 o.ty.toNat (modeOf o t) x.2.2 b
      (packPair w (2 * o.m4.toNat) base x.1 y.1, x.2.1 ||| y.2.1, y.2.2))

/-- UNPK (R264). -/
def effUnpk (o : Long) : State → Nat → Thread → Out := fun s k t =>
  let w := typeBits o.ty
  let c := (src32 t o .a).toNat / 2 ^ (w * o.m4.toNat) % 2 ^ w
  let book := teamBook s t (o.p5.toNat / 2 % 8)
  .go (s.updThread k (fun t =>
    if o.p5.getLsbD 0 then finishLane o t (c, 0, t.gen)
    else if o.ty = 14#4 then finishLane o t (cvtOp 10 8 ⟨0, false, t.ftz⟩ t.gen (bookEntry book c))
    else finishLane o t (cvtOp o.ty.toNat 8 ⟨0, false, t.ftz⟩ t.gen c)))

/-- HFMA2 (R265). -/
def effHfma2 (o : Long) : State → Nat → Thread → Out :=
  floatLane o (fun t =>
    let half (w : Src) (i : Nat) : Nat := (src32 t o w).toNat / 2 ^ (16 * i) % 65536
    let r0 := ffmaOp (fmt o) (modeOf o t) t.gen false false (half .a 0) (half .b 0) (half .c 0)
    let r1 := ffmaOp (fmt o) (modeOf o t) r0.2.2 false false (half .a 1) (half .b 1) (half .c 1)
    (r0.1 + r1.1 * 65536, r0.2.1 ||| r1.2.1, r1.2.2))

/-- Sum of exact values under the chunk rules (R196): a NaN, or infinities of both signs, give NaN, and the latter set IV
(log 87). -/
def chunkSum (rm : Nat) (vs : List XVal) : XVal × Nat :=
  (vs.tail.foldl (fun acc v => (addX rm acc v).1) (vs.headD (.zero false)), if clash vs then flagIV else 0)

/-- DOT4 (R266). -/
def dot4Op (o : Long) (t : Thread) : Nat × Nat × Word :=
  let byte (w : Src) (i : Nat) : Nat := (src32 t o w).toNat / 2 ^ (8 * i) % 256
  let bt := o.p5.toNat % 16
  if o.ty = 11#4 ∨ o.ty = 12#4 then
    let prods := (List.range 4).map (fun i => mulX (decodeF (fmt o) false (byte .a i)) (decodeF (fmtOf bt) false (byte .b i)))
    let c := (src32 t o .c).toNat
    let s := chunkSum o.rm.toNat (prods.map (·.1) ++ [decodeF f32 t.ftz c])
    let iv := prods.foldl (fun f p => f ||| p.2) (s.2 ||| signalFlag f32 [c])
    finishF f32 (modeOf o t) t.gen iv (s.1, 0)
  else
    let (_, sa) := intKind o.ty.toNat
    let (_, sb) := intKind bt
    let s : Int := (List.range 4).foldl (fun acc i => acc + codeInt 8 sa (byte .a i) * codeInt 8 sb (byte .b i))
      (codeInt 32 true (src32 t o .c).toNat)
    (intCode 32 (if o.sat then clampInt 32 true s else s), 0, t.gen)

/-- DOT4 (R266). -/
def effDot4 (o : Long) : State → Nat → Thread → Out := floatLane o (dot4Op o)

/-- The class set of a code: one bit of ten (R267). -/
def classBits (ty c : Nat) : Nat :=
  if ty = 15 then (if c % 256 = 255 then 2 else 256)
  else
    let f := fmtOf ty
    let (neg, e, _) := splitCode f c
    match decodeF f false c with
    | .nan => if isSignalling f c then 1 else 2
    | .inf n => if n then 4 else 512
    | .zero n => if n then 32 else 64
    | .num _ _ _ _ => if e = 0 then (if neg then 16 else 128) else (if neg then 8 else 256)

/-- FCLS (R267). -/
def effFcls (o : Long) : State → Nat → Thread → Out :=
  wordLane o (fun t => classBits o.ty.toNat (elem t o .a o.ty))
/-- FCLS.TEST (R267). -/
def effFclsTest (o : Long) : State → Nat → Thread → Out := pureLane (fun t =>
  t.setPred o.d.toNat (classBits o.ty.toNat (elem t o .a o.ty) &&& (src32 t o .b).toNat != 0))
/-- FSCALE (R254). -/
def effFscale (o : Long) : State → Nat → Thread → Out :=
  floatLane o (fun t => fscaleOp (fmt o) (modeOf o t) t.gen (elem t o .a o.ty) (src32 t o .b).toInt)

/-! ## Meanings -/

/-- FADD. -/
def execFadd (o : Long) (s : State) : Host.Outcome State Fault Refusal := runLong .fadd o (effFadd o) s
/-- FSUB. -/
def execFsub (o : Long) (s : State) : Host.Outcome State Fault Refusal := runLong .fsub o (effFsub o) s
/-- FMUL. -/
def execFmul (o : Long) (s : State) : Host.Outcome State Fault Refusal := runLong .fmul o (effFmul o) s
/-- FFMA. -/
def execFfma (o : Long) (s : State) : Host.Outcome State Fault Refusal := runLong .ffma o (effFfma o) s
/-- FMIN. -/
def execFmin (o : Long) (s : State) : Host.Outcome State Fault Refusal := runLong .fmin o (effFminmax o false) s
/-- FMAX. -/
def execFmax (o : Long) (s : State) : Host.Outcome State Fault Refusal := runLong .fmax o (effFminmax o true) s
/-- FSETP. -/
def execFsetp (o : Long) (s : State) : Host.Outcome State Fault Refusal := runLong .fsetp o (effFsetp o) s
/-- FRCP. -/
def execFrcp (o : Long) (s : State) : Host.Outcome State Fault Refusal := runLong .frcp o (approxLane o frcpOp) s
/-- FDIV. -/
def execFdiv (o : Long) (s : State) : Host.Outcome State Fault Refusal := runLong .fdiv o (effFdiv o) s
/-- FSQRT. -/
def execFsqrt (o : Long) (s : State) : Host.Outcome State Fault Refusal := runLong .fsqrt o (effFsqrt o) s
/-- FRSQ. -/
def execFrsq (o : Long) (s : State) : Host.Outcome State Fault Refusal := runLong .frsq o (approxLane o frsqOp) s
/-- FEX2. -/
def execFex2 (o : Long) (s : State) : Host.Outcome State Fault Refusal := runLong .fex2 o (approxLane o fex2Op) s
/-- FLG2. -/
def execFlg2 (o : Long) (s : State) : Host.Outcome State Fault Refusal := runLong .flg2 o (approxLane o flg2Op) s
/-- FSIN. -/
def execFsin (o : Long) (s : State) : Host.Outcome State Fault Refusal := runLong .fsin o (approxLane o (fsinOp false)) s
/-- FCOS. -/
def execFcos (o : Long) (s : State) : Host.Outcome State Fault Refusal := runLong .fcos o (approxLane o (fsinOp true)) s
/-- FTANH. -/
def execFtanh (o : Long) (s : State) : Host.Outcome State Fault Refusal := runLong .ftanh o (approxLane o ftanhOp) s
/-- FRND. -/
def execFrnd (o : Long) (s : State) : Host.Outcome State Fault Refusal := runLong .frnd o (effFrnd o) s
/-- CVT. -/
def execCvt (o : Long) (s : State) : Host.Outcome State Fault Refusal := runLong .cvt o (effCvt o) s
/-- F2I. -/
def execF2i (o : Long) (s : State) : Host.Outcome State Fault Refusal := runLong .f2i o (effF2i o) s
/-- I2F. -/
def execI2f (o : Long) (s : State) : Host.Outcome State Fault Refusal := runLong .i2f o (effI2f o) s
/-- PACK. -/
def execPack (o : Long) (s : State) : Host.Outcome State Fault Refusal := runLong .pack o (effPack o) s
/-- UNPK. -/
def execUnpk (o : Long) (s : State) : Host.Outcome State Fault Refusal := runLong .unpk o (effUnpk o) s
/-- HFMA2. -/
def execHfma2 (o : Long) (s : State) : Host.Outcome State Fault Refusal := runLong .hfma2 o (effHfma2 o) s
/-- DOT4. -/
def execDot4 (o : Long) (s : State) : Host.Outcome State Fault Refusal := runLong .dot4 o (effDot4 o) s
/-- FCLS. -/
def execFcls (o : Long) (s : State) : Host.Outcome State Fault Refusal := runLong .fcls o (effFcls o) s
/-- FCLS.TEST. -/
def execFclsTest (o : Long) (s : State) : Host.Outcome State Fault Refusal := runLong .fclsTest o (effFclsTest o) s
/-- FSCALE. -/
def execFscale (o : Long) (s : State) : Host.Outcome State Fault Refusal := runLong .fscale o (effFscale o) s

/-- The F32 RNE long form d, d, a of a short alias (R214). -/
def aliasF32 (a d : BitVec 9) : Long := { aliasDda a d with sub := 8#13 }
/-- FADD d, a (R214). -/
def execFaddShort (a d : BitVec 9) (s : State) : Host.Outcome State Fault Refusal :=
  runShort .fadd (aliasF32 a d) (wordS 0x09#6 0#6 a d) (effFadd (aliasF32 a d)) s
/-- FMUL d, a (R214). -/
def execFmulShort (a d : BitVec 9) (s : State) : Host.Outcome State Fault Refusal :=
  runShort .fmul (aliasF32 a d) (wordS 0x0A#6 0#6 a d) (effFmul (aliasF32 a d)) s

end Sys2Proof.Machine
end

