-- ==== Sys2Proof/Machine/Fabric.lean ====
section
/-! DEFINITION. The physical map (R59 to R61). Packets: building and sending them (R143, R144), carrying them to another package (R155), accepting them at
their destination (R149, R152, R433), replies, and send allowances (R156, R157). -/

namespace Sys2Proof.Machine

/-! ## The physical map (R59 to R62) -/

/-- What a physical address names. -/
inductive Region where
  | hbm | lpddr | agent | unassigned
  deriving DecidableEq, Repr

/-- Region of a physical address (R59). -/
def regionOf (pa : Nat) : Region :=
  let l := pa % 2 ^ 44
  if l < 0x0C000000000 then .hbm
  else if 0x10000000000 ≤ l ∧ l < 0x20000000000 then .lpddr
  else if 0xF0000000000 ≤ l then .agent
  else .unassigned

/-- Home channel of an HBM address (R61). -/
def channelOf (pa : Nat) : Nat := pa % 2 ^ 44 / 256 % 384
/-- The die and the endpoint of the window that an address of agent space lies in (R60).  An address in no window has no endpoint behind
it: it answers as an unassigned offset does, at link gateway 22 (the part's choice, log 137). -/
def windowAt (pa : Nat) : Option (Nat × Nat) :=
  let x := pa % 2 ^ 44 - 0xF0000000000
  if x < 0x20000000 ∧ x / 0x10000 % 256 < 128 then some (x / 0x1000000, x / 0x10000 % 128) else none

/-- Die of an address's home: the memory gateway of its channel's stack, the link gateway of its LPDDR, the die of its window. -/
def homeDie (pa : Nat) : Nat :=
  match regionOf pa with
  | .hbm => 16 + channelOf pa / 64
  | .lpddr => 22 + (pa % 2 ^ 44 - 0x10000000000) / 0x8000000000
  | _ => ((windowAt pa).map (·.1)).getD 22
/-- Endpoint that serves an address: the home die's controller for memory (log 25), the LPDDR home agent, the endpoint of a
window (R60). -/
def homeEndpoint (pa : Nat) : Nat :=
  let l := match regionOf pa with
    | .hbm => 127
    | .lpddr => 123
    | _ => ((windowAt pa).map (·.2)).getD 123
  pa / 2 ^ 44 * 4096 + homeDie pa * 128 + l
/-- The memory that holds an address serves: its die is present, and has not been lost since package reset (R437). -/
def memoryOn (s : State) (pa : Nat) : Bool :=
  let d := s.die (homeDie pa)
  d.present && !(d.dark && (regionOf pa == .hbm || regionOf pa == .lpddr))

/-- An address of a page table's memory or of a leaf lies in an assigned range of a present die (R399, code 0x25). -/
def assignedPa (s : State) (pa : Nat) : Bool :=
  regionOf pa != .unassigned && (pa / 2 ^ 44 != Config.package || memoryOn s pa)

/-! ## Building packets -/

/-- Names a requester in another package, whose replies are told apart by SEQ alone; and, in a reply from another package, what no
operation of a thread waits for. -/
def farThread : Nat := 2 ^ 64

/-- Names the agents of a core as the requesters of their own reads, told apart by SEQ. -/
def agentReader : Nat := 2 ^ 65

/-- A packet with its body; the fields left out are zero. -/
def mkPacket (cls typ src dst flits : Nat) (body : Body) : Packet where
  cls := cls
  typ := typ
  ord := cls == 0 || (cls == 1 && typ != 0x15)
  src := src
  dst := dst
  inc := 0
  seq := 0
  flits := flits
  addr := 0#64
  deriv := 0#64
  parent := none
  attempt := 0
  team := 0
  priv := false
  dvc := 0
  esc := false
  dn := false
  age := 0
  origin := src
  via := none
  far := false
  sent := 0
  body := body

/-- Flits of a packet with a payload of n bytes (R143). -/
def flitsOf (n : Nat) : Nat := if n ≤ 32 then 1 else 1 + (n + 63) / 64

/-! ## Packages (R155) -/

/-- The gateway toward a package (GWSEL). -/
def gatewayOf (s : State) (pkg : Nat) : Nat := if s.pkg.gwsel.getD pkg false then 23 else 22

/-- The ports that a gateway's PROUTE entry lists for a package. -/
def prouteOf (s : State) (gw pkg : Nat) : Nat :=
  match s.pkg.proute.find? (fun r => r.1 == gw && r.2.1 == pkg) with
  | some r => r.2.2
  | none => 0

/-- The enabled ports of a gateway toward a package. -/
def portsOf (s : State) (gw pkg : Nat) : List Nat :=
  (List.range 16).filter (fun p =>
    p / 8 + 22 == gw && (prouteOf s gw pkg).testBit p && (s.pkg.ports.getD p Port.reset).cfg.getLsbD 31)

/-- A gateway's PROUTE entry lists a port of the other link gateway. -/
def listsOther (s : State) (gw pkg : Nat) : Bool :=
  (List.range 16).any (fun p => p / 8 + 22 == 45 - gw && (prouteOf s gw pkg).testBit p)

/-- The port a packet takes from a gateway: by the hash of (SRC, DEST) over the gateway's own ports that its entry lists; where the entry
lists only ports of the other gateway, over the transit bridge, by that gateway's entry among its own ports (R155). -/
def portFrom (s : State) (gw src dst : Nat) : Option Nat :=
  let pkg := epPackage dst
  let own := portsOf s gw pkg
  let l := if own.isEmpty && listsOther s gw pkg then portsOf s (45 - gw) pkg else own
  l[Config.portHash src dst % l.length]?

/-- The port a packet of this package takes: from the gateway that GWSEL names. -/
def portFor (s : State) (src dst : Nat) : Option Nat := portFrom s (gatewayOf s (epPackage dst)) src dst

/-- The port a packet takes: one in transit leaves from the gateway it came in by. -/
def portOnward (s : State) (p : Packet) : Option Nat :=
  match p.via with
  | some (port, _) => portFrom s (22 + port / 8) p.src p.dst
  | none => portFor s p.src p.dst

/-- The dateline channel after leaving by a port, having arrived on another (R155). -/
def leaveDvc (s : State) (arrived : Option Nat) (out dvc : Nat) : Nat :=
  let dim (p : Nat) : Bool := (s.pkg.ports.getD p Port.reset).cfg.getLsbD 8
  let d := match arrived with
    | some p => if dim p != dim out then 0 else dvc
    | none => dvc
  if (s.pkg.ports.getD out Port.reset).cfg.getLsbD 16 then 1 else d

/-- Queues a packet at a port, on the dateline channel by which it leaves. -/
def queueAtPort (s : State) (port : Nat) (p : Packet) : State :=
  let p' := { p with dvc := leaveDvc s (p.via.map (·.1)) port ((p.via.map (·.2)).getD 0) }
  let q := s.pkg.ports.getD port Port.reset
  s.updPkg (fun k => { k with ports := k.ports.set port { q with waiting := q.waiting ++ [p'] } })

/-- An endpoint can be reached: its die has an incarnation in the tables (R152) and, in another package, a port leads there. -/
def reachable (s : State) (src dst : Nat) : Bool :=
  if epPackage dst == Config.package then
    ((s.die (epDie src)).known.find (Config.package * 32 + epDie dst)).getD 0 != 0 && decide (epDie dst < 24)
  else
    ((s.die (gatewayOf s (epPackage dst))).known.find (epPackage dst * 32 + epDie dst)).getD 0 != 0 &&
      (portFor s src dst).isSome

/-- What ADDR of a packet says (R143, R145), where the sender has not given it: the address of a remote access, the message and operands of CTL,
in the places of log 53 where R145 names none. -/
def bodyAddr (b : Body) : Nat :=
  match b with
  | .creditReturn n => n
  | .routeFill id _ | .routeUpdate id _ | .grantRequest id _ | .residencyReply id _ _ _ => id
  | .reservationRelease id => id + 2 ^ 63
  | .incarnationUpdate die inc => die + inc * 256
  | .viewProtocol m dom view _ _ => m + dom * 16 + view * 256
  | .systemControl code _ => code
  | .residency id request _ _ _ => id + (if request then 2 ^ 32 else 0)
  | .get a _ column _ _ | .put _ a column _ _ _ _ => a + (if column then 2 ^ 32 else 0)
  | .signal a add _ _ _ _ _ => a + (if add then 2 ^ 32 else 0)
  | .ratom a _ _ _ _ => a
  | .ray _ prio _ _ | .hit _ _ prio _ _ => prio
  | _ => 0

/-- Puts a packet on the mesh with the sender's incarnation and the stamp of its injection, an ordered one on the escape channels (R149); one for another package goes to its port, or is held at the
gateway when no port leads there.  CTL for a lost die is dropped (R424). -/
def State.inject (s : State) (p : Packet) : State :=
  let p' := { p with inc := (s.die (epDie p.src)).inc, sent := s.ticks, age := s.time / 256 % 4096, esc := p.ord,
                       addr := if p.addr = 0#64 then BitVec.ofNat 64 (bodyAddr p.body) else p.addr }
  if p.cls == 0 && epPackage p.dst == Config.package && !(s.die (epDie p.dst)).present then s
  else if epPackage p.dst == Config.package then
    { s with packets := s.packets.put s.fresh p', fresh := s.fresh + 1 }
  else
    match portFor s p.src p.dst with
    | some port => queueAtPort s port p'
    | none => { s with packets := s.packets.put s.fresh p', fresh := s.fresh + 1 }

/-- Sends a packet with the source's next request sequence number (R143). -/
def State.send (s : State) (p : Packet) : State :=
  let q := (s.core p.src).seq
  if epLocal p.src < 80 || isHart p.src then
    (s.updCore p.src (fun c => { c with seq := (c.seq + 1) % 65536 })).inject { p with seq := q }
  else s.inject p

/-- Answers a request on RSP. -/
def State.reply (s : State) (p : Packet) (typ : Nat) (body : Body) : State :=
  let n := match body with
    | .data bs _ _ => bs.length
    | _ => 0
  s.inject { mkPacket 2 typ p.dst p.src (flitsOf n) body with seq := p.seq, deriv := p.deriv }

/-- Sends a CTL packet from an agent. -/
def State.ctl (s : State) (src dst typ : Nat) (body : Body) : State := s.inject (mkPacket 0 typ src dst 1 body)

/-- The endpoint of an agent of this package. -/
def agent (die l : Nat) : Nat := endpoint die l
/-- Fault unit of a die. -/
def faultUnit (die : Nat) : Nat := endpoint die 121
/-- The home slice of a treelet (R106). -/
def homeSlice (treelet : Nat) : Nat := endpoint (16 + treelet % 6) 125
/-- Mirror gateway of a memory gateway (R437, R439). -/
def mirrorGateway (g : Nat) : Nat := 16 + (g - 16 + 3) % 6

/-- The slice's memory gateway that serves a treelet: its home, or that gateway's partner while it is lost (R427). -/
def servingSlice (s : State) (id : Nat) : Nat :=
  let g := 16 + id % 6
  if (s.die g).present then endpoint g 125 else endpoint (mirrorGateway g) 125

/-- The pool space a core reports as free (R111): units of its treelet pool in no treelet. -/
def freeUnits (c : Core) : Nat :=
  bits c.spool.toNat 25 16 - ((NMap.vals c.pool).map (·.size)).sum

/-- A thread started for a treelet is live on a core (R115). -/
def treeletLive (s : State) (ep id : Nat) : Bool :=
  s.threads.any (fun p => p.2.core == ep && p.2.treelet == some id && p.2.state != .exited)

/-- A core removes a treelet from its pool and reports its eviction to the treelet's slice (R111, R115). -/
def evictTreelet (s : State) (ep id : Nat) : State :=
  let s1 := s.updCore ep (fun c => { c with pool := c.pool.drop id })
  s1.ctl ep (servingSlice s id) 0x08 (.evictionReport id (freeUnits (s1.core ep)))

/-- The eviction of a treelet lost to an error is reported once no thread started for it is live (R422). -/
def reportLost (s : State) (ep id : Nat) : State :=
  match (s.core ep).pool.find id with
  | some x => if x.lost && !treeletLive s ep id then evictTreelet s ep id else s
  | none => s

/-! ## Arrival -/

/-- An earlier ordered packet of the same class, source and destination is still on its way (R149). -/
def overtakes (s : State) (k : Nat) (p : Packet) : Bool :=
  p.ord && s.packets.any (fun q => decide (q.1 < k) && q.2.ord && q.2.cls == p.cls && q.2.src == p.src && q.2.dst == p.dst)

/-- A die's fault unit counts a packet dropped for its incarnation, by the sender's die, and reports it (R433). -/
def dropCounted (s : State) (die src : Nat) : State :=
  let key := epPackage src * 32 + epDie src
  (s.updDie die (fun d => { d with stale := d.stale.put key ((d.stale.find key).getD 0 + 1) })).corrected (faultUnit die) 8 0x65 (epDie src) 1

/-- The packet named by State.obj arrives: nothing happens unless it is of a kind that accept admits, is bound for a present die of this package, and
overtakes nothing.  One with a stale incarnation is dropped and counted (R152, R433), but for an incarnation update, which may carry the new number.  Otherwise act receives the state without
the packet; where it answers none the packet stays. -/
def arrive (s : State) (accept : Packet → Bool) (act : State → Nat → Packet → Option State) : State :=
  match s.packets.find s.obj with
  | none => s
  | some p =>
    if !accept p || overtakes s s.obj p || epPackage p.dst != Config.package || !(s.die (epDie p.dst)).present then s
    else
      let gone := { s with packets := s.packets.drop s.obj }
      if !p.far && p.typ != 0x09 && ((s.die (epDie p.dst)).known.find (epPackage p.src * 32 + epDie p.src)).getD 0 != p.inc then
        dropCounted gone (epDie p.dst) p.src
      else (act gone s.obj p).getD s

/-! ## Allowances (R156, R157, R329) -/

/-- Packets to this endpoint are metered: it is a core or gateway core. -/
def meteredEp (ep : Nat) : Bool := decide (epLocal ep < 80)

/-- Some thread of a core binds a destination. -/
def boundBy (s : State) (ep dst : Nat) : Bool :=
  s.threads.any (fun p => p.2.core == ep && p.2.sr.slots.any (fun b => b == some dst))

/-- ALLOWCFG.INIT. -/
def allowInit (c : Core) : Nat := (c.allowcfg.extractLsb' 16 10).toNat

/-- Finds or creates the allowance entry of a destination; none when the table is full and no entry can be replaced. -/
def allowEntry (s : State) (ep dst : Nat) : Option State :=
  let c := s.core ep
  let fresh : Allow := { flits := allowInit c, used := c.cycles }
  match c.allow.find dst with
  | some _ => some s
  | none =>
    if c.allow.length < 64 then some (s.updCore ep (fun c => { c with allow := c.allow.put dst fresh }))
    else
      let free := c.allow.filter (fun a => a.2.flits == allowInit c && !boundBy s ep a.1)
      match free with
      | [] => none
      | a :: rest =>
        let lru := rest.foldl (fun b x => if x.2.used < b.2.used then x else b) a
        some (s.updCore ep (fun c => { c with allow := (c.allow.drop lru.1).put dst fresh }))

/-- The flits a destination admits: 1,023 where it is not metered. -/
def allowanceOf (s : State) (ep dst : Nat) : Nat :=
  if !meteredEp dst then 1023 else
  match (s.core ep).allow.find dst with
  | some a => a.flits
  | none => allowInit (s.core ep)

/-- How a send stands with its allowance. -/
inductive Pass where
  | ok (s : State)
  | hold (s : State) (st : ThreadState)

/-- A sender that waits ahead of this thread for the same destination. -/
def ahead (s : State) (ep dst k : Nat) : Bool :=
  ((s.core ep).senders.takeWhile (fun p => !(p.1 == dst && p.2 == k))).any (fun p =>
    p.1 == dst && (match s.thread p.2 with
      | some t => t.state == .descheduled || t.state == .waiting
      | none => false))

/-- Takes f flits of allowance for a send of a thread; a thread that cannot have them waits its turn, Descheduled when one of
its slots binds the destination, or a thread of its group is Descheduled for it (R157). -/
def takeAllowance (s : State) (k : Nat) (t : Thread) (dst f : Nat) : Pass :=
  if !meteredEp dst then .ok s
  else
    let queued (s : State) : State := s.updCore t.core (fun c =>
      { c with senders := if c.senders.contains (dst, k) then c.senders else c.senders ++ [(dst, k)] })
    let beside : Bool := (s.core t.core).senders.any (fun p => p.1 == dst && (match s.thread p.2 with
      | some u => u.group == t.group && u.state == .descheduled
      | none => false))
    let st : ThreadState := if t.sr.slots.contains (some dst) || beside then .descheduled else .waiting
    match allowEntry s t.core dst with
    | none => .hold s .waiting
    | some s1 =>
      if allowanceOf s1 t.core dst < f || ahead s1 t.core dst k then .hold (queued s1) st
      else .ok (s1.updCore t.core (fun c =>
        { c with
          allow := c.allow.adjust dst (fun a => { a with flits := a.flits - f, used := c.cycles })
          senders := c.senders.filter (fun p => p != (dst, k)) }))

/-- The allowance of a remote access: one whose target cannot be reached is refused (R435) and sends nothing, so that it takes none. -/
def passTo (s : State) (k : Nat) (t : Thread) (dst f : Nat) : Pass :=
  if reachable s t.core dst then takeAllowance s k t dst f else .ok s

/-- A core sinks f flits from a source, a core or a copy hart; past 2^RETLOG of them it returns credits (R156). -/
def sink (s : State) (ep src f : Nat) : State :=
  if !meteredEp src && !isHart src then s
  else
    let c := s.core ep
    let n := ((c.sunk.find src).getD (0, 0)).1 + f
    if 2 ^ (c.allowcfg.extractLsb' 0 4).toNat ≤ n then
      (s.updCore ep (fun c => { c with sunk := c.sunk.drop src })).ctl ep src 0x01 (.creditReturn n)
    else s.updCore ep (fun c => { c with sunk := c.sunk.put src (n, s.time) })

/-! ## Memory-side L2 (R67, R69) -/

/-- First byte of a 128-byte line. -/
def lineOf (pa : Nat) : Nat := pa - pa % 128

/-- The set of the L2 slices that a line belongs to: its channel, and one of 1,024 sets of 12 ways (the index is the part's choice, log 133). -/
def l2Set (l : Nat) : Nat := channelOf l * 1024 + (l % 2 ^ 44 / 256 / 384 * 2 + l / 128 % 2) % 1024

/-- The next-use step of the schedule entry that governs a line: of the entries that cover it, the one loaded last. -/
def nextUse (s : State) (l : Nat) : Option Nat :=
  (s.pkg.schedule.find? (fun e => decide (e.2.1 ≤ l) && decide (l < e.2.1 + e.2.2.1 * 0x10000))).map (·.2.2.2)

/-- The line that leaves a full set, its lines given most recently used first (R69).  Pseudo-LRU is exact LRU here (the part's choice, log
133). -/
def l2Victim (s : State) (ls : List Nat) : Nat :=
  let lru := ls.reverse
  let past (l : Nat) : Bool := match nextUse s l with
    | some n => decide (n < s.pkg.step)
    | none => false
  match lru.find? past with
  | some l => l
  | none =>
    match lru.find? (fun l => (nextUse s l).isNone) with
    | some l => l
    | none => lru.foldl (fun b l => if (nextUse s b).getD 0 < (nextUse s l).getD 0 then l else b) (lru.headD 0)

/-- A line is in its L2 slice. -/
def inL2 (s : State) (pa : Nat) : Bool :=
  regionOf pa == .hbm && pa / 2 ^ 44 == Config.package && (((s.die (homeDie pa)).l2.find (l2Set (lineOf pa))).getD []).contains (lineOf pa)

/-- An access at its home finds its line in the slice or allocates it there, where hints 3 and 5 ask as the least recently used (R207). -/
def touchL2 (s : State) (pa hint : Nat) : State :=
  if regionOf pa != .hbm || pa / 2 ^ 44 != Config.package then s
  else
    let l := lineOf pa
    let low := hint == 3 || hint == 5
    let ls := ((s.die (homeDie pa)).l2.find (l2Set l)).getD []
    if ls.contains l && low then s
    else
      let others := ls.filter (· != l)
      let kept := if others.length < 12 then others else others.erase (l2Victim s others)
      s.updDie (homeDie pa) (fun d => { d with l2 := d.l2.put (l2Set l) (if low then kept ++ [l] else l :: kept) })

end Sys2Proof.Machine
end

