-- ==== Sys2Proof/Machine/Queue.lean ====
section
/-! DEFINITION. The arrival queues of a core: accepting, holding, joining and dequeuing entries (R32 to R35, R39, R325), the doubt
sets (R442) and what retiring a record sends. -/

namespace Sys2Proof.Machine

/-! ## The four queues (R33, R52, R119): 0 ray, 1 hit, 2 message, 3 record -/

/-- A queue of a core. -/
def Core.queue (c : Core) : Nat → Queue
  | 0 => c.rays
  | 1 => c.hits
  | 2 => c.msgs
  | _ => c.recs

/-- Writes a queue of a core. -/
def Core.setQueue (c : Core) (q : Nat) (v : Queue) : Core :=
  match q with
  | 0 => { c with rays := v }
  | 1 => { c with hits := v }
  | 2 => { c with msgs := v }
  | _ => { c with recs := v }

/-- Changes a queue of a core. -/
def State.updQueue (s : State) (ep q : Nat) (f : Queue → Queue) : State :=
  s.updCore ep (fun c => c.setQueue q (f (c.queue q)))

/-- Core-absolute offset of a queue's on-chip area (R52). -/
def queueBase : Nat → Nat
  | 0 => 0x1F0000
  | 1 => 0x1F4000
  | 2 => 0x1F8000
  | _ => 0x1FC000

/-- Bytes of an entry (R52). -/
def entrySize (q : Nat) : Nat := if q = 3 then 32 else 64

/-- On-chip depth of a queue (R119). -/
def chipDepth (c : Core) (q : Nat) : Nat :=
  let f (h l : Nat) : Nat := bits c.qdepth.toNat h l + 1
  match q with
  | 0 => f 7 0
  | 1 => f 15 8
  | 2 => f 31 24
  | _ => f 23 16

/-- A free on-chip place: the lowest (DESIGN CHOICE, log 22). -/
def freePlace (c : Core) (q : Nat) : Option Nat :=
  let used := (NMap.vals (c.queue q).entries).filterMap (·.slot)
  (List.range (chipDepth c q)).find? (fun i => !used.contains i)

/-- Core-absolute offset of a place. -/
def placeOffset (q i : Nat) : Nat := queueBase q + i * entrySize q

/-- Puts an entry's bytes on chip. -/
def writePlace (s : State) (ep q i : Nat) (bs : List Byte) : State :=
  s.write (scratchLoc ep (placeOffset q i)) (bs.take (entrySize q))

/-- An entry of a queue with the fields that its acceptance sets left zero. -/
def mkEntry (typ : Nat) (bytes : List Byte) (prio src : Nat) (deriv : DWord) : Entry where
  typ := typ
  bytes := bytes
  prio := prio
  order := 0
  src := src
  origin := src
  deriv := deriv
  attempt := 0
  addr := 0#64
  key := none
  bin := none
  slot := none
  ring := false
  ringSlot := 0
  record := []
  live := false
  arrived := 0
  wide := 0

/-- Scratch address of an entry on chip, in the absolute aperture (R39, R53). -/
def chipAddress (q slot : Nat) : DWord := BitVec.ofNat 64 (0x40000000 + placeOffset q slot)

/-! ## Rings (R33, R439): the layout of a slot and the mirror's place on its gateway are the part's (log 51) -/

/-- Bytes of a slot of a ring: an entry and its state. -/
def ringStride : Nat := 128

/-- Address of a slot in the primary ring. -/
def ringAddress (u : Queue) (i : Nat) : Nat := u.ring.toNat + i * ringStride
/-- Location of a slot in the mirror ring, on the memory gateway that holds it. -/
def mirrorAddress (u : Queue) (i : Nat) : Nat := 2 ^ 62 + u.mirror.toNat * 2 ^ 52 + ringAddress u i

/-- A slot that no entry holds: the first from the entry's number on (log 51). -/
def freeRingSlot (u : Queue) : Nat :=
  let used := (NMap.vals u.entries).map (·.ringSlot)
  let n := 2 ^ u.ringLog
  (((List.range (used.length + 1)).map (fun i => (u.next + i) % n)).find? (fun i => !used.contains i)).getD (u.next % n)

/-- Address of an entry: on chip, or in the backing ring. -/
def queuePlace (u : Queue) (q : Nat) (e : Entry) : DWord :=
  match e.slot with
  | some i => chipAddress q i
  | none => BitVec.ofNat 64 (ringAddress u e.ringSlot)

/-- The continuation record that the part keeps with a hit (R39): KIND 1, the bound code, the hit's address, QUEUE 1. -/
def hitRecord (ep : Nat) (u : Queue) (e : Entry) : List Byte :=
  leBytes 8 (u.code.toNat % 2 ^ 56 + e.prio % 4 * 2 ^ 56 + 2 ^ 58) ++ leBytes 8 (queuePlace u 1 e).toNat ++
    leBytes 8 e.deriv.toNat ++ leBytes 2 0 ++ leBytes 1 e.attempt ++ leBytes 1 1 ++ leBytes 4 (ep % 2 ^ 20)

/-- An entry with the record that goes with it. -/
def withRecord (ep q : Nat) (u : Queue) (e : Entry) : Entry := if q = 1 then { e with record := hitRecord ep u e } else e

/-- A slot's bytes: the entry, a hit's record after it, and at offset 96 its state: 1 accepted, 2 taken, 3 retired. -/
def slotBytes (q : Nat) (e : Entry) (state : Nat) : List Byte :=
  let body := e.bytes.take (entrySize q) ++ e.record
  body ++ List.replicate (96 - body.length) 0#8 ++ leBytes 1 state

/-- Both rings hold an entry in a state; the slice of the backing ring's channel serves its write (R67). -/
def writeRings (s : State) (ep q : Nat) (e : Entry) (state : Nat) : State :=
  let u := (s.core ep).queue q
  let bs := slotBytes q e state
  ((touchL2 s (ringAddress u e.ringSlot) 0).write (ringAddress u e.ringSlot) bs).write (mirrorAddress u e.ringSlot) bs

/-- The spill writes of an entry that goes to the rings only (R118), to each ring whose gateway serves (R437): the home of each writes its slot
and acknowledges it. -/
def sendSpill (s : State) (ep q : Nat) (e : Entry) : State :=
  let u := (s.core ep).queue q
  let bs := slotBytes q e 1
  let one (s : State) (home pa : Nat) : State :=
    if epPackage home == Config.package && !(s.die (epDie home)).present then s else s.inject { mkPacket 1 0x1A ep home (flitsOf bs.length) (.spill pa bs q) with addr := BitVec.ofNat 64 pa }
  let pa := ringAddress u e.ringSlot
  one (one s (homeEndpoint pa) pa) (endpoint u.mirror.toNat 127) (mirrorAddress u e.ringSlot)

/-- A spill write of a queue is not yet acknowledged. -/
def spilling (s : State) (ep q : Nat) : Bool :=
  s.packets.any (fun p => match p.2.body with
    | .spill _ _ n => p.2.src == ep && n == q
    | .acknowledgment 0 n => p.2.dst == ep && n == q
    | _ => false)

/-- A queue accepts an entry: on chip while a place is free and none waits in the backing ring, otherwise by spill writes; both rings
hold it before it is acknowledged (R33, R439). -/
def acceptEntry (s : State) (ep q : Nat) (e : Entry) : State :=
  let c := s.core ep
  let u := c.queue q
  let spilled := (NMap.vals u.entries).any (fun x => x.slot.isNone && !x.live)
  let place := if spilled then none else freePlace c q
  let e' := withRecord ep q u
    { e with order := u.next, slot := place, ring := place.isNone, ringSlot := freeRingSlot u, arrived := c.cycles }
  let s0 := if q = 1 then perfCount s ep 15 1 else s
  let s1 := s0.updQueue ep q (fun u => { u with entries := u.entries.put u.next e', next := u.next + 1 })
  match place with
  | some i => writeRings (writePlace s1 ep q i e.bytes) ep q e' 1
  | none => sendSpill (writeRings s1 ep q e' 1) ep q e'

/-- What becomes of an enqueue at its destination. -/
inductive Delivery where
  | accepted (s : State)
  /-- the queue is not bound (R33, R408) -/
  | refused
  /-- the doubt set (R442) or the backing ring is full, or a spill write is under way (R118) -/
  | full

/-- Checks an enqueue's derived id against a queue's doubt set (R442): a duplicate is acknowledged and discarded. -/
def doubtful (u : Queue) (deriv : DWord) : Bool := u.seen.any (fun p => p.1 == deriv)

/-- The backing ring has no slot left: every entry holds one until it retires (R439). -/
def ringFull (u : Queue) : Bool := decide (2 ^ u.ringLog ≤ u.entries.length)

/-- Delivers an entry to a queue of a core. -/
def deliver (s : State) (ep q : Nat) (e : Entry) (parent : Option DWord) : Delivery :=
  let u := (s.core ep).queue q
  if !u.bound then .refused
  else if ringFull u || spilling s ep q then .full
  else match parent with
    | none => .accepted (acceptEntry s ep q e)
    | some d =>
      if doubtful u e.deriv then .accepted (s.corrected ep 0 0x6C ep 1)
      else if 4096 ≤ u.seen.length then .full
      else .accepted (acceptEntry (s.updQueue ep q (fun u => { u with seen := (e.deriv, d) :: u.seen })) ep q e)

/-! ## Records (R32, R34, R35) -/

/-- Fields of a continuation record. -/
def recKind (r : List Byte) : Nat := bits (field r 0 8) 59 58
def recPrio (r : List Byte) : Nat := bits (field r 0 8) 57 56
def recCode (r : List Byte) : DWord := BitVec.ofNat 64 (field r 0 8 % 2 ^ 56)
def recFrame (r : List Byte) : DWord := BitVec.ofNat 64 (field r 8 8)
def recDeriv (r : List Byte) : DWord := BitVec.ofNat 64 (field r 16 8)
def recJoin (r : List Byte) : Nat := field r 24 2
def recAttempt (r : List Byte) : Nat := field r 26 1
def recKeyed (r : List Byte) : Bool := (field r 27 1).testBit 3
def recHeld (r : List Byte) : Bool := (field r 27 1).testBit 2
def recQueue (r : List Byte) : Nat := field r 27 1 % 4
def recKey (r : List Byte) : Nat := bits (field r 28 4) 31 20
def recHome (r : List Byte) : Nat := field r 28 4 % 2 ^ 20

/-- The queue entry of a record. -/
def recEntry (r : List Byte) (src : Nat) : Entry :=
  { mkEntry 0x42 r (recPrio r) src (recDeriv r) with
    attempt := recAttempt r
    key := if recKeyed r then some (recKey r) else none }

/-- Clears HELD in a record's bytes. -/
def clearHeld (r : List Byte) : List Byte := patch r 27 [BitVec.ofNat 8 (field r 27 1 &&& 0xFB)]

/-- Delivers a record to the record queue of its home: the receipt is counted as its ticket (R324); a held record is stored, not
accepted (R34).  The ticket comes with the result, of a duplicate the one that its first delivery got. -/
def deliverRecord (s : State) (ep : Nat) (r : List Byte) (src : Nat) (parent : Option DWord) : Delivery × Nat :=
  let u := (s.core ep).recs
  let n := (u.ticket + 1) % 2 ^ 32
  let counted := s.updQueue ep 3 (fun u => { u with ticket := n })
  if !recHeld r then
    (match deliver counted ep 3 (recEntry r src) parent with
      | .accepted s' => .accepted s'
      | x => x, n)
  else if !u.bound then (.refused, 0)
  else
    let store (s : State) : State :=
      s.updQueue ep 3 (fun u => { u with held := u.held.put n { bytes := r, prio := recPrio r, src := src, applied := [], wide := 0 } })
    match parent with
    | none => (.accepted (store counted), n)
    | some d =>
      if doubtful u (recDeriv r) then
        (.accepted (s.corrected ep 0 0x6C ep 1), ((u.tickets.find? (fun x => x.1 == recDeriv r)).map (·.2)).getD u.ticket)
      else if 4096 ≤ u.seen.length then (.full, 0)
      else (.accepted (store (counted.updQueue ep 3 (fun u => { u with
          seen := (recDeriv r, d) :: u.seen, tickets := (recDeriv r, n) :: u.tickets }))), n)

/-- The narrowest scope that contains both endpoints, of an enqueue and its dequeue: a die, a package, or the fabric (R85). -/
def betweenScope (a b : Nat) : Nat := if epPackage a ≠ epPackage b then 6 else if epDie a ≠ epDie b then 5 else 4

/-- Applies a RECJ of a sender to a held record (R34, R325): at most once per derived id.  The field is 16 bits and wraps (log 23).  The record's
dequeue will be an acquire for every such sender. -/
def joinHeld (s : State) (ep src ticket dec : Nat) (deriv : DWord) (parent : Option DWord) : Delivery :=
  let u := (s.core ep).recs
  if !u.bound then .refused
  else
    let dup := match parent with
      | some _ => doubtful u deriv
      | none => false
    if dup then .accepted (s.corrected ep 0 0x6C ep 1)
    else if parent.isSome && decide (4096 ≤ u.seen.length) then .full
    else
      let s1 := match parent with
        | some d => s.updQueue ep 3 (fun u => { u with seen := (deriv, d) :: u.seen })
        | none => s
      match u.held.find ticket with
      | none => .accepted s1
      | some h =>
        if h.applied.contains deriv then .accepted s1
        else
          let j := (recJoin h.bytes + 65536 - dec % 65536) % 65536
          let bytes := patch h.bytes 24 (leBytes 2 j)
          let wide := max h.wide (betweenScope src ep)
          if j = 0 then
            let s2 := s1.updQueue ep 3 (fun u => { u with held := u.held.drop ticket })
            .accepted (acceptEntry s2 ep 3 { recEntry (clearHeld bytes) h.src with wide := wide })
          else .accepted (s1.updQueue ep 3 (fun u =>
            { u with held := u.held.put ticket { h with bytes := bytes, applied := deriv :: h.applied, wide := wide } }))

/-! ## Dequeuing (R33, R35) -/

/-- The scope at which the dequeue of an entry acquires: what contains its sender and every RECJ's, for a collective block the fabric
(R85, R325, R332). -/
def entryScope (ep : Nat) (e : Entry) : Nat := if e.typ = 0x43 then 6 else max e.wide (betweenScope e.src ep)

/-- The entry that would be dequeued next: of the highest priority; of a bin being taken, else the oldest. -/
def nextEntry (u : Queue) : Option (Nat × Entry) :=
  let es := u.entries.filter (fun p => !p.2.live)
  let best := es.foldl (fun b p => min b p.2.prio) 4
  let same := es.filter (fun p => p.2.prio == best)
  match same.find? (fun p => p.2.bin.isSome) with
  | some p => some p
  | none => same.head?

/-- Fixes the bin of a keyed entry: the entries of its key and priority accepted up to now (R35). -/
def fixBin (u : Queue) (k : Nat) (e : Entry) : Queue :=
  if e.key.isSome && e.bin.isNone then
    { u with entries := u.entries.map (fun p =>
        if !p.2.live && p.2.key == e.key && p.2.prio == e.prio then (p.1, { p.2 with bin := some k }) else p) }
  else u

/-- A place for an entry that is taken: its own; a free one, into which an entry of the ring is refilled; or none, where it stays in the
ring. -/
def takePlace (s : State) (ep q : Nat) (e : Entry) : Option Nat :=
  match e.slot with
  | some i => some i
  | none => freePlace (s.core ep) q

/-- Dequeues an entry for a thread that will keep it until it exits; both rings have it as taken. -/
def takeLive (s : State) (ep q k : Nat) (e : Entry) : State × Entry :=
  let place := takePlace s ep q e
  let e' := withRecord ep q ((s.core ep).queue q) { e with slot := place, live := true }
  let s1 := s.updQueue ep q (fun u =>
    let v := fixBin u k e
    { v with entries := v.entries.put k e' })
  let s2 := match e.slot, place with
    | none, some i => writePlace s1 ep q i e.bytes
    | _, _ => s1
  (writeRings s2 ep q e' 2, e')

/-- An entry is retired: both rings say so, and its places are free. -/
def dropEntry (s : State) (ep q k : Nat) : State :=
  let s1 := match ((s.core ep).queue q).entries.find k with
    | some e => writeRings s ep q e 3
    | none => s
  s1.updQueue ep q (fun u => { u with entries := u.entries.drop k })

/-- Dequeues an entry that is used up at once. -/
def takeGone (s : State) (ep q k : Nat) (e : Entry) : State :=
  dropEntry (s.updQueue ep q (fun u => fixBin u k e)) ep q k

/-! ## Retiring (R439, R442) -/

/-- Removes a record's ids and log entries at a core. -/
def purgeCore (s : State) (ep : Nat) (d : DWord) : State :=
  let one (u : Queue) : Queue :=
    let left := u.seen.filter (fun p => p.2 != d)
    { u with seen := left, tickets := u.tickets.filter (fun x => left.any (fun p => p.1 == x.1)) }
  s.updCore ep (fun c => { c with
    rays := one c.rays
    hits := one c.hits
    msgs := one c.msgs
    recs := one c.recs
    alog := c.alog.filter (fun e => e.deriv != d) })

/-- Removes a record's ids and log entries at an endpoint that a retire notice reaches: a core, a slice, a block queue, or the
L2 slices and home agents of a die; a die controller passes the notice to its cores. -/
def purge (s : State) (ep : Nat) (d : DWord) : State :=
  let die := epDie ep
  match epLocal ep with
  | 125 => if die < 22 then s.updSlice (die - 16) (fun x => { x with seen := x.seen.filter (fun p => p.2 != d) }) else s
  | 126 => s.updPkg (fun x => { x with blockSeen := x.blockSeen.filter (fun p => !(p.1 == die && p.2.2 == d)) })
  | 123 => s.updDie die (fun x => { x with alog := x.alog.filter (fun e => e.deriv != d) })
  | 127 =>
    let s1 := s.updDie die (fun x => { x with alog := x.alog.filter (fun e => e.deriv != d) })
    (s.die die).enabled.foldl (fun s l => purgeCore s (endpoint die l) d) s1
  | _ => purgeCore s ep d

/-- Every place of the package that may hold ids of a record, and the block queues of its domains in other packages (R442, Overflow). -/
def everyPlace (s : State) : List Nat :=
  ((List.range 24).filter (fun d => (s.die d).present)).map (fun d => endpoint d 127) ++
    [endpoint 22 123, endpoint 23 123, endpoint 22 126, endpoint 23 126] ++ (List.range 6).map (fun i => endpoint (16 + i) 125) ++
    (((s.pkg.domains.flatMap (fun d => d.2.members.map (·.1))).eraseDups.filter (· != Config.package)).flatMap (fun p =>
      [p * 4096 + 22 * 128 + 126, p * 4096 + 23 * 128 + 126]))

/-- Sends the retire notices of a record: its own core's places are cleared at once.  A notice to a slice carries the core's free pool units
(R111). -/
def sendNotices (s : State) (core : Nat) (deriv : DWord) (places : List Nat) : State :=
  let l := if 8 < places.length then everyPlace s else places
  l.foldl (fun s ep =>
    if ep == core then purge s ep deriv
    else s.inject { mkPacket 0 0x0F core ep 1 (.retireNotice (if epLocal ep = 125 then some (freeUnits (s.core core)) else none)) with
      deriv := deriv }) s

/-- A place to which a record thread's retire notice must go; from the ninth on it goes everywhere. -/
def Thread.visit (t : Thread) (ep : Nat) : Thread :=
  if t.prio.isNone || t.places.contains ep || 8 < t.places.length then t else { t with places := t.places ++ [ep] }

/-- A record thread's entry retires: its place is free again, and its notices go out. -/
def retireEntry (s : State) (t : Thread) : State :=
  match t.entry with
  | none => s
  | some (q, k) =>
    sendNotices (dropEntry s t.core q k) t.core t.sr.deriv t.places

end Sys2Proof.Machine
end

