-- ==== Sys2Proof/Machine/Threads.lean ====
section
/-! DEFINITION. Room on a core, creating threads, groups and teams, and what EXIT frees (R14 to R18, R24, R29 to R31, R36). -/

namespace Sys2Proof.Machine

/-! ## Room (R15, R57, R291) -/

/-- The groups of a core that stand in a context. -/
def ctxGroups (s : State) (ep ctx : Nat) : List (Nat × Group) :=
  s.groups.filter (fun p => p.2.context == ctx && (s.team p.2.team).core == ep && !(s.team p.2.team).engine)

/-- A group takes a slot in a lane. -/
def Group.takes (g : Group) (lane : Nat) : Bool := g.slots || g.lane == lane

/-- Free slots of a lane in a context; the engine group of a gateway core keeps one in every lane. -/
def freeSlots (s : State) (ep ctx lane : Nat) : Nat :=
  64 - (if onGateway ep then 1 else 0) - ((ctxGroups s ep ctx).filter (fun p => p.2.takes lane)).length

/-- Free registers of a lane in a context. -/
def freeRegs (s : State) (ep ctx lane : Nat) : Nat :=
  4096 - (if onGateway ep then 64 else 0) -
    (((ctxGroups s ep ctx).filter (fun p => p.2.takes lane)).map (fun p => (s.team p.2.team).regs)).sum

/-- Free slots over all lanes of the active context. -/
def freeSlotSum (s : State) (ep : Nat) : Nat :=
  ((List.range 32).map (freeSlots s ep (s.core ep).active)).sum

/-- Every lane of a context has g free slots and the registers of g groups of n registers a thread. -/
def lanesHave (s : State) (ep ctx g n : Nat) : Bool :=
  (List.range 32).all (fun l => decide (g ≤ freeSlots s ep ctx l) && decide (g * n ≤ freeRegs s ep ctx l))

/-- The lowest place of a given size outside used intervals, below a limit (placement is the part's: log 24). -/
def lowestFit (used : List (Nat × Nat)) (size limit : Nat) : Option Nat :=
  let free (a : Nat) : Bool :=
    decide (a + size ≤ limit) && used.all (fun u => u.2 == 0 || decide (a + size ≤ u.1) || decide (u.1 + u.2 ≤ a))
  ((0 :: used.map (fun u => u.1 + u.2)).filter free).foldl (fun b a =>
    match b with
    | none => some a
    | some x => some (min x a)) none

/-- The teams resident on a core. -/
def coreTeams (s : State) (ep : Nat) : List (Nat × Team) := s.teams.filter (fun p => p.2.core == ep && !p.2.engine)

/-- A place for a scratch allocation of a core (R52). -/
def scratchFit (s : State) (ep size : Nat) : Option Nat :=
  let pool := (s.core ep).spool.toNat
  let used := ((coreTeams s ep).map (fun p => (p.2.scratch, p.2.scratchSize))).filter (fun u => u.2 != 0)
  if size = 0 then some 0
  else lowestFit ((bits pool 8 0 * 4096, bits pool 25 16 * 4096) :: (0x1F0000, 0x10000) :: used) size 0x200000

/-- A place for a column window in each slice of a core (R57). -/
def columnFit (s : State) (ep size : Nat) : Option Nat :=
  let used := ((coreTeams s ep).map (fun p => (p.2.column, p.2.columnSize))).filter (fun u => u.2 != 0)
  if size = 0 then some 0 else if onGateway ep then none else lowestFit used size 0x20000

/-- The lowest free tiles of a core. -/
def tilesFit (s : State) (ep n : Nat) : Option (List Nat) :=
  let free := (List.range 8).filter (fun i => ((s.core ep).tiles.getD i Tile.reset).owner.isNone)
  if n = 0 then some [] else if onGateway ep || decide (free.length < n) then none else some (free.take n)

/-- The lowest free core-local team slot. -/
def slotFit (s : State) (ep : Nat) : Option Nat :=
  (List.range 64).find? (fun i => !(coreTeams s ep).any (fun p => p.2.slot == i))

/-- Where a team would stand on a core: slot, scratch, column window, tiles. -/
structure Place where
  slot : Nat
  scratch : Nat
  column : Nat
  tiles : List Nat

/-- Room for a team of g groups on a core (R15, R57): none when something is short. -/
def roomFor (s : State) (ep g n scratch column tiles : Nat) : Option Place :=
  if !lanesHave s ep (s.core ep).active g n then none
  else do
    let slot ← slotFit s ep
    let sc ← scratchFit s ep scratch
    let co ← columnFit s ep column
    let ti ← tilesFit s ep tiles
    some { slot := slot, scratch := sc, column := co, tiles := ti }

/-! ## Creating -/

/-- A thread's special registers at its start (R190, R191, R217, R315, R322, R347).  EPC and the trap registers are zero: log 4. -/
def startSpecials (priv : Bool) (record deriv : DWord) (attempt : Nat) : Specials where
  fpcr := 0#32
  fpsr := 0#32
  region := 0#64
  rcount := 0#32
  record := record
  deriv := deriv
  attempt := BitVec.ofNat 32 (attempt % 256)
  dt := List.replicate 8 0#64
  trapCause := 0#32
  info0 := 0#64
  info1 := 0#64
  info2 := 0#64
  info3 := 0#64
  epc := 0#64
  priv := priv
  intrap := false
  ppriv := false
  tsave0 := 0#64
  tsave1 := 0#64
  carm := 0#64
  sendix := 0#32
  slots := [none, none, none, none]
  viewDomain := none

/-- A thread at its start: g0:g1 hold its frame, every other register and predicate is zero (logs 1 to 3), its stack is
empty. -/
def mkThread (core lane group team regs gid : Nat) (code frame : DWord) (sr : Specials) (now : Nat) : Thread where
  core := core
  lane := lane
  group := group
  team := team
  state := .runnable
  yielded := false
  pc := code
  after := code
  last := 0#64
  clause := none
  regs := (List.replicate regs 0#32).set 0 (frame.setWidth 32) |>.set 1 (frame.extractLsb' 32 32)
  preds := 0#16
  flags := List.replicate 12 0
  buf := 0#64
  stack := []
  gen := seedGen 0#32 (gid * 32 + lane)
  sr := sr
  frame := frame
  prio := none
  entry := none
  treelet := none
  sendixAt := 0#32
  atomIx := 0
  atomIxAt := 0
  skip := none
  sstep := none
  sstepVa := 0#64
  ops := []
  fence := none
  arrival := now
  lastIssue := now
  overdue := none
  lateTrap := []
  job := none
  places := []
  named := 0#12
  joined := none
  alone := false
  touch := false
  stopping := false
  ranOn := false
  atTrap := none
  badRegs := []
  shadowBad := false
  atHeader := none

/-- A team at its start. -/
def mkTeam (core slot : Nat) (asid root prio groups regs age : Nat) : Team where
  core := core
  slot := slot
  context := 0
  grid := none
  teamid := slot
  gx := 0
  gy := 0
  gz := 0
  cluster := none
  groups := groups
  regs := regs
  asid := asid
  root := root
  prio := prio
  age := age
  scratch := 0
  scratchSize := 0
  column := 0
  columnSize := 0
  tiles := []
  coef := List.replicate 8 0#32
  books := List.replicate 8 0#256
  bars := List.replicate 32 default
  reports := []
  pre := .running
  preq := false
  cause := 0
  pdead := 0
  saveBase := 0#64
  resume := none
  remote := 0
  halted := false
  aborted := false
  engine := false

/-- A group whose lanes below n hold threads (R24). -/
def mkGroup (team gid context n : Nat) : Group where
  team := team
  gid := gid
  context := context
  masks := { enrolled := BitVec.ofNat 32 (2 ^ n - 1), arrived := 0#32 } :: List.replicate 11 default
  fair := 0
  slots := true
  lane := 0

/-- Starts one group of a launched team: 32 threads at the code address. -/
def startGroup (team : Nat) (m : Team) (code frame : DWord) (s : State) (gid : Nat) : State :=
  let g := s.fresh
  let now := (s.core m.core).cycles
  let s1 := { s with groups := s.groups.put g (mkGroup team gid m.context 32), fresh := g + 1 }
  (List.range 32).foldl (fun s l =>
    let t := mkThread m.core l g team m.regs gid code frame (startSpecials (m.asid == 0) 0#64 0#64 0) now
    { s with threads := s.threads.put s.fresh t, fresh := s.fresh + 1 }) s1

/-- Sets every full/empty bit of a core's scratch range (R54). -/
def fillScratch (s : State) (ep off size : Nat) : State :=
  { s with empty := s.empty.filter (fun a => !(decide (scratchLoc ep off ≤ a) && decide (a < scratchLoc ep off + size))) }

/-- A scratch allocation's contents at team start are unspecified (R54): free bytes (log 5). -/
def startScratch (s : State) (ep off size : Nat) : State :=
  { s.write (scratchLoc ep off) ((List.range size).map (fun i => Config.freeByte 2 (s.free + i))) with free := s.free + size }

/-- Starts a team of a grid at a place of a core (R29, R54, R169, R170). -/
def startTeam (s : State) (grid : Nat) (g : Grid) (ep : Nat) (p : Place) (teamid gx gy gz : Nat)
    (cluster : Option (Nat × Nat)) : State :=
  let k := s.fresh
  let save := if g.save == 0#64 then 0#64 else
    g.save + BitVec.ofNat 64 (teamid * ((4096 + g.groups * (128 + 32 * (512 + 4 * g.regs)) + 4095) / 4096 * 4096))
  let m := { mkTeam ep p.slot g.asid g.root g.prio g.groups g.regs k with
    context := (s.core ep).active
    grid := some grid
    teamid := teamid
    gx := gx
    gy := gy
    gz := gz
    cluster := cluster
    scratch := p.scratch
    scratchSize := g.scratch
    column := p.column
    columnSize := g.columns
    tiles := p.tiles
    reports := List.replicate p.tiles.length none
    saveBase := save }
  let s0 := startScratch { s with teams := s.teams.put k m, fresh := k + 1 } ep p.scratch g.scratch
  let s1 := fillScratch s0 ep p.scratch g.scratch
  let s2 := s1.updCore ep (fun c => { c with
    tiles := p.tiles.foldl (fun l i => l.set i { Tile.reset with owner := some k }) c.tiles })
  (List.range g.groups).foldl (startGroup k m g.code g.arg) s2

/-! ## Exits (R18, R30, R247) -/

/-- Frees a group when no thread of it is left: its slots and registers at once; its exited threads stay listed while
operations of theirs are outstanding. -/
def freeGroup (s : State) (g : Nat) : State :=
  if s.threads.any (fun p => p.2.group == g && p.2.state != .exited) then s
  else
    { s with
      groups := s.groups.drop g
      threads := s.threads.filter (fun p => !(p.2.group == g && p.2.ops.isEmpty)) }

/-- A thread's operation that will write a register of it is outstanding. -/
def owesRegister (t : Thread) : Bool := (NMap.vals t.ops).any (fun p => p.dst.isSome)

/-- A thread enters Exited (R18): it leaves its masks, its queue entry retires, and its group is freed with its last
thread. -/
def exitThread (s : State) (k : Nat) : State :=
  match s.thread k with
  | none => s
  | some t =>
    let s1 := leaveAll s t
    let s2 := s1.updThread k (fun t => { t with state := .exited, clause := none })
    let s3 := s2.updCore t.core (fun c => { c with senders := c.senders.filter (fun p => p.2 != k) })
    let s4 := match t.treelet with
      | some id => reportLost s3 t.core id
      | none => s3
    checkYielded (freeGroup (retireEntry s4 t) t.group) t.team

/-- A team is done (R30): no thread of it lives or has an operation outstanding, none of its tile tasks is left, no remote request
of it is outstanding. -/
def teamDone (s : State) (k : Nat) : Bool :=
  let m := s.team k
  !s.threads.any (fun p => p.2.team == k && (p.2.state != .exited || !p.2.ops.isEmpty)) &&
    !(NMap.vals (s.core m.core).tasks).any (fun x => x.team == k) && m.remote == 0

/-- A team retires (R30): its scratch, tiles, slots and registers are freed; a freed tile is zero at version 0. -/
def retireTeam (s : State) (k : Nat) : State :=
  let m := s.team k
  let s1 := s.updCore m.core (fun c => { c with tiles := m.tiles.foldl (fun l i => l.set i Tile.reset) c.tiles })
  let s2 := { s1 with
    teams := s1.teams.drop k
    groups := s1.groups.filter (fun p => p.2.team != k)
    threads := s1.threads.filter (fun p => p.2.team != k) }
  match m.grid with
  | some g => { s2 with grids := s2.grids.adjust g (fun x => { x with left := x.left - 1 }) }
  | none => s2

end Sys2Proof.Machine
end

