-- ==== Sys2Proof/Machine/Control.lean ====
section
/-! DEFINITION. Branches, calls, rejoin masks, group-wide operations, YIELD and special registers: opcodes 0x20 to 0x2F but EXIT
(R238 to R248) and their short forms (R214). -/

namespace Sys2Proof.Machine

/-! ## Control transfer (R238 to R240) -/

/-- Target of a relative branch: the address of its first word plus 4 × OFF (R238). -/
def relTarget (t : Thread) (off : Int) : DWord := t.pc + BitVec.ofInt 64 (4 * off)

/-- BRA (R238). -/
def effBra (off : Int) : State → Nat → Thread → Out := fun s _ t => .jump s (relTarget t off)
/-- BRX (R239). -/
def effBrx (o : Long) : State → Nat → Thread → Out := fun s _ t => .jump s (src64 t o .a)

/-- Pushes the return address and branches; onto 32 entries the push traps (R240, R378). -/
def callTo (s : State) (k : Nat) (t : Thread) (target : DWord) : Out :=
  if 32 ≤ t.stack.length then .trap s (trapAt 0x0A 32#64 t.pc)
  else .jump (s.updThread k (fun u => { u with stack := (t.after &&& 0x00FFFFFFFFFFFFFF#64) :: u.stack })) target

/-- CALL (R240). -/
def effCall (o : Long) : State → Nat → Thread → Out := fun s k t =>
  let target := if o.m4.getLsbD 0 then src64 t o .a else relTarget t o.off27.toInt
  if o.m4.getLsbD 1 then
    .jump (s.updThread k (fun u => u.setRegs o.d.toNat [t.after.setWidth 32, t.after.extractLsb' 32 32])) target
  else callTo s k t target

/-- RET (R240). -/
def effRet : State → Nat → Thread → Out := fun s k t =>
  match t.stack with
  | [] => .trap s (trapAt 0x0B 0#64 t.pc)
  | a :: rest => .jump (s.updThread k (fun u => { u with stack := rest })) a

/-! ## Rejoin masks (R25, R241, R242) -/

/-- JOIN k. -/
def effJoin (m : Nat) : State → Nat → Thread → Out := fun s _ t => .go (joinMask s t.group m t.lane)
/-- LEAVE k. -/
def effLeave (m : Nat) : State → Nat → Thread → Out := fun s _ t => .go (leaveMask s t.group m t.lane)
/-- WAITK k. -/
def effWaitk (m : Nat) : State → Nat → Thread → Out := fun s k t => waitMask s k t m

/-- Only the highest lane of a group that executes a mask write performs it (R242). -/
def lastWriter (o : Long) (s : State) (t : Thread) : Bool :=
  !s.cur.any (fun j =>
    match s.thread j with
    | none => false
    | some u => u.group == t.group && decide (t.lane < u.lane) && laneRuns .kmov o s j)

/-- KMOV (R242). -/
def effKmov (o : Long) : State → Nat → Thread → Out := fun s k t =>
  let g := s.group t.group
  let m := o.c.toNat
  match o.m4.toNat with
  | 0 => .go (s.updThread k (fun u => u.setRegs o.d.toNat [(g.mask m).enrolled]))
  | 2 => .go (s.updThread k (fun u => u.setRegs o.d.toNat [(g.mask m).arrived]))
  | 1 => .go (if lastWriter o s t then writeMask s t.group m (src32 t o .a) else s)
  | _ => .go (if lastWriter o s t then writeMask s t.group m (g.mask o.a.toNat).enrolled else s)

/-! ## Group-wide operations (R243 to R246) -/

/-- The participants with their threads. -/
def participants (s : State) (ks : List Nat) : List (Nat × Thread) :=
  ks.flatMap (fun k => match s.thread k with
    | none => []
    | some t => [(k, t)])

/-- VOTE (R244). -/
def applyVote (o : Long) (s : State) (ks : List Nat) : State :=
  let ps := participants s ks
  let p (t : Thread) : Bool := t.pred o.a.toNat
  let ballot := ps.foldl (fun w x => if p x.2 then w ||| laneBit x.2.lane else w) 0#32
  let res : Bool := match o.m4.toNat with
    | 0 => ps.all (fun x => p x.2)
    | 1 => ps.any (fun x => p x.2)
    | _ => ps.all (fun x => p x.2) || ps.all (fun x => !p x.2)
  ks.foldl (fun s k => s.updThread k (fun t =>
    if o.m4 = 3#4 then t.setRegs o.d.toNat [ballot] else t.setPred o.d.toNat res)) s

/-- SHFL (R245): every value is read before any destination is written. -/
def applyShfl (o : Long) (s : State) (ks : List Nat) : State :=
  let ps := participants s ks
  let value (lane : Int) (own : Thread) : Nat :=
    match ps.find? (fun x => (x.2.lane : Int) == lane) with
    | some x => srcInt x.2 o .a
    | none => srcInt own o .a
  let results := ps.map (fun x =>
    let b := (src32 x.2 o .b).toNat
    let l := match o.m4.toNat with
      | 0 => ((b % 32 : Nat) : Int)
      | 1 => (x.2.lane : Int) - b
      | 2 => (x.2.lane : Int) + b
      | _ => ((x.2.lane ^^^ (b % 32) : Nat) : Int)
    (x.1, value l x.2))
  results.foldl (fun s r => s.updThread r.1 (fun t => t.setCode (isWide o.ty) o.d.toNat r.2)) s

/-- One fold of R246 over an integer type. -/
def foldInt (o : Long) (x y : Nat) : Nat :=
  let w := intWidth o.ty
  let v (c : Nat) : Int := codeInt w (intSigned o.ty) c
  match o.m4.toNat with
  | 0 => intResult o (v x + v y)
  | 1 => if v x ≤ v y then x else y
  | 2 => if v x ≤ v y then y else x
  | 3 => x &&& y
  | 4 => x ||| y
  | _ => x ^^^ y

/-- The value that a participant brings into a fold: a subnormal F32 under its FTZ reads as a zero of its sign (R188, R246). -/
def foldOperand (o : Long) (t : Thread) : Nat :=
  let v := srcInt t o .a
  if o.ty = 8#4 ∧ t.sr.fpcr.getLsbD 0 ∧ v / 2 ^ 23 % 256 = 0 then v / 2 ^ 31 * 2 ^ 31 else v

/-- One fold of R246 in F32: the code, the flags, and the generator of the participant whose value is added. -/
def foldF32 (o : Long) (t : Thread) (x y : Nat) : Nat × Nat × Word :=
  match o.m4.toNat with
  | 0 => faddOp f32 (modeOf o t) t.gen false x y
  | 1 => let r := fminmaxOp f32 t.ftz false false x y; (r.1, r.2, t.gen)
  | _ => let r := fminmaxOp f32 t.ftz true false x y; (r.1, r.2, t.gen)

/-- The identity of a fold (R246). -/
def foldIdentity (o : Long) : Nat :=
  let w := intWidth o.ty
  if o.ty = 8#4 then
    match o.m4.toNat with
    | 0 => 0
    | 1 => infCode f32 false
    | _ => infCode f32 true
  else match o.m4.toNat with
    | 1 => intCode w (intMax w (intSigned o.ty))
    | 2 => intCode w (intMin w (intSigned o.ty))
    | 3 => 2 ^ w - 1
    | _ => 0

/-- The chain of R246 over the participants: for each, the value before it, the value with it, the flags raised before and with
it, and its generator afterwards. -/
def foldChain (o : Long) : List (Nat × Thread) → Option (Nat × Nat) → List (Nat × Nat × Nat × Nat × Nat × Word)
  | [], _ => []
  | (k, t) :: rest, none =>
    let v := foldOperand o t
    (k, foldIdentity o, v, 0, 0, t.gen) :: foldChain o rest (some (v, 0))
  | (k, t) :: rest, some (acc, fl) =>
    let v := foldOperand o t
    if o.ty = 8#4 then
      let r := foldF32 o t acc v
      (k, acc, r.1, fl, fl ||| r.2.1, r.2.2) :: foldChain o rest (some (r.1, fl ||| r.2.1))
    else
      let r := foldInt o acc v
      (k, acc, r, 0, 0, t.gen) :: foldChain o rest (some (r, 0))

/-- Writes a group-wide result with its flags and generator. -/
def giveResult (o : Long) (s : State) (k v fl : Nat) (gen : Word) : State :=
  s.updThread k (fun t => { (t.setCode (isWide o.ty) o.d.toNat v).raiseFlags fl with gen := gen })

/-- SCAN (R246). -/
def applyScan (o : Long) (s : State) (ks : List Nat) : State :=
  (foldChain o (participants s ks) none).foldl (fun s r =>
    if o.p5.getLsbD 0 then giveResult o s r.1 r.2.1 r.2.2.2.1 r.2.2.2.2.2
    else giveResult o s r.1 r.2.2.1 r.2.2.2.2.1 r.2.2.2.2.2) s

/-- REDG (R246). -/
def applyRedg (o : Long) (s : State) (ks : List Nat) : State :=
  let chain := foldChain o (participants s ks) none
  match chain.getLast? with
  | none => s
  | some last => chain.foldl (fun s r => giveResult o s r.1 last.2.2.1 last.2.2.2.2.1 r.2.2.2.2.2) s

/-- Runs a long group-wide instruction. -/
def runWideLong (op : LongOp) (o : Long) (apply : State → List Nat → State) (s : State) :
    Host.Outcome State Fault Refusal :=
  .next (runWide op o (if o.lit.isSome then 20 else 12) ((encodeLong op o).headD 0#32) apply s)

/-! ## YIELD and special registers (R247, R248) -/

/-- YIELD (R247). -/
def effYield : State → Nat → Thread → Out := fun s k t =>
  if (s.team t.team).preq then .done (yieldAt (s.updThread k (fun u => u.advance (s.now t))) k) else .go s

/-- The view of a domain at a die of this package (R160). -/
def viewAt (s : State) (die dom : Nat) : Nat := ((s.die die).views.find dom).getD 0

/-- The value of a special register (R16, R44, R157, R160, R217, R315, R347). -/
def readSpecial (s : State) (t : Thread) (i : Nat) : Nat :=
  let m := s.team t.team
  let g := s.group t.group
  if i < 0x10 then
    match i with
    | 0 => t.lane
    | 1 => g.gid * 32 + t.lane
    | 2 => g.gid
    | 3 => m.teamid
    | 4 => match m.cluster with
      | none => 0xF0
      | some (c, n) => c % 2 ^ 24 * 256 + n * 16
    | 5 => m.gx
    | 6 => m.gy
    | 7 => m.gz
    | 8 => t.core
    | _ => match t.sr.viewDomain with
      | none => 0
      | some d => 2 ^ 31 + d * 2 ^ 24 + viewAt s (epDie t.core) d
  else if i < 0x50 then
    match i with
    | 0x10 => s.time % 2 ^ 64
    | 0x11 => s.time / 2 ^ 32 % 2 ^ 32
    | 0x20 => t.sr.fpcr.toNat
    | 0x21 => t.sr.fpsr.toNat
    | 0x30 => if m.preq then m.cause * 2 + 1 else m.cause * 2
    | 0x31 => if m.preq then m.pdead else 0
    | _ => match t.sr.slots.getD (i % 4) none with
      | none => 0
      | some d => allowanceOf s t.core d * 2 ^ 22 + 2 ^ 21 + d
  else match i with
    | 0x50 => t.sr.region.toNat
    | 0x51 => t.sr.rcount.toNat
    | 0x52 => (s.core t.core).rpend
    | 0x60 => t.sr.record.toNat
    | 0x61 => t.sr.deriv.toNat
    | 0x62 => t.sr.attempt.toNat
    | 0x80 => t.sr.trapCause.toNat
    | 0x81 => t.sr.info0.toNat
    | 0x82 => t.sr.info1.toNat
    | 0x83 => t.sr.info2.toNat
    | 0x84 => t.sr.info3.toNat
    | 0x100 => t.sr.epc.toNat
    | 0x101 => (if t.sr.priv then 1 else 0) + (if t.sr.intrap then 2 else 0) + (if t.sr.ppriv then 4 else 0)
    | 0x102 => t.sr.tsave0.toNat
    | 0x103 => t.sr.tsave1.toNat
    | 0x104 => t.sr.carm.toNat
    | 0x105 => t.sr.sendix.toNat
    | _ => (t.sr.dt.getD (i % 8) 0#64).toNat

/-- GETSR (R248): a 64-bit register read narrowly gives its low half; a 32-bit one read as .I64 a high half of zero (DESIGN CHOICE, log 160). -/
def effGetsr (o : Long) : State → Nat → Thread → Out := fun s k t =>
  let v := readSpecial s t o.srIndex
  .go (s.updThread k (fun u => u.setCode (isWide o.ty) o.d.toNat v))

/-- A 64-bit register after a write of 64 or 32 bits (R248, Narrow writes). -/
def writeWide (old v : DWord) (wide : Bool) : DWord :=
  if wide then v else (old &&& 0xFFFFFFFF00000000#64) ||| (v &&& 0xFFFFFFFF#64)

/-- Writes a special register (R189, R190, R217, R248); a read-only one keeps its value. -/
def writeSpecial (t : Thread) (i tid : Nat) (v : DWord) (wide : Bool) : Thread :=
  match i with
  | 0x20 =>
    let f := v.setWidth 32 &&& 0xFFFF0001#32
    { t with gen := seedGen f tid, sr := { t.sr with fpcr := f } }
  | 0x21 => { t with sr := { t.sr with fpsr := t.sr.fpsr &&& ~~~(v.setWidth 32) } }
  | 0x100 => { t with sr := { t.sr with epc := writeWide t.sr.epc v wide } }
  | 0x102 => { t with sr := { t.sr with tsave0 := writeWide t.sr.tsave0 v wide } }
  | 0x103 => { t with sr := { t.sr with tsave1 := writeWide t.sr.tsave1 v wide } }
  | _ =>
    if 0x70 ≤ i ∧ i ≤ 0x77 then
      { t with sr := { t.sr with dt := t.sr.dt.set (i % 8) (writeWide (t.sr.dt.getD (i % 8) 0#64) v wide &&& 0xFFFFF0FFFFFFFFFF#64) } }
    else t

/-- SETSR (R248); of .I64 to a 32-bit register the high half is dropped (DESIGN CHOICE, log 160). -/
def effSetsr (o : Long) : State → Nat → Thread → Out := fun s k t =>
  let tid := (s.group t.group).gid * 32 + t.lane
  let v := if isWide o.ty then src64 t o .a else (src32 t o .a).setWidth 64
  .go (s.updThread k (fun u => writeSpecial u o.srIndex tid v (isWide o.ty)))

/-! ## Meanings -/

/-- BRA. -/
def execBra (o : Long) (s : State) : Host.Outcome State Fault Refusal := runLong .bra o (effBra o.off27.toInt) s
/-- BRX. -/
def execBrx (o : Long) (s : State) : Host.Outcome State Fault Refusal := runLong .brx o (effBrx o) s
/-- CALL. -/
def execCall (o : Long) (s : State) : Host.Outcome State Fault Refusal := runLong .call o (effCall o) s
/-- RET. -/
def execRet (o : Long) (s : State) : Host.Outcome State Fault Refusal := runLong .ret o effRet s
/-- JOIN. -/
def execJoin (o : Long) (s : State) : Host.Outcome State Fault Refusal := runLong .join o (effJoin o.c.toNat) s
/-- LEAVE. -/
def execLeave (o : Long) (s : State) : Host.Outcome State Fault Refusal := runLong .leave o (effLeave o.c.toNat) s
/-- WAITK. -/
def execWaitk (o : Long) (s : State) : Host.Outcome State Fault Refusal := runLong .waitk o (effWaitk o.c.toNat) s
/-- KMOV. -/
def execKmov (o : Long) (s : State) : Host.Outcome State Fault Refusal := runLong .kmov o (effKmov o) s
/-- VOTE. -/
def execVote (o : Long) (s : State) : Host.Outcome State Fault Refusal := runWideLong .vote o (applyVote o) s
/-- SHFL. -/
def execShfl (o : Long) (s : State) : Host.Outcome State Fault Refusal := runWideLong .shfl o (applyShfl o) s
/-- SCAN. -/
def execScan (o : Long) (s : State) : Host.Outcome State Fault Refusal := runWideLong .scan o (applyScan o) s
/-- REDG. -/
def execRedg (o : Long) (s : State) : Host.Outcome State Fault Refusal := runWideLong .redg o (applyRedg o) s
/-- YIELD. -/
def execYield (o : Long) (s : State) : Host.Outcome State Fault Refusal := runLong .yield o effYield s
/-- GETSR. -/
def execGetsr (o : Long) (s : State) : Host.Outcome State Fault Refusal := runLong .getsr o (effGetsr o) s
/-- SETSR. -/
def execSetsr (o : Long) (s : State) : Host.Outcome State Fault Refusal := runLong .setsr o (effSetsr o) s

/-! ## Short forms (R201, R214) -/

/-- The single guard of a short branch as the long form's (R201). -/
def aliasGuard (neg : BitVec 1) (gp : BitVec 4) : Long := { longZero with g1 := gp, n1 := neg }
/-- The word of a form SB instruction (R201). -/
def wordSB (op6 : BitVec 6) (off : BitVec 19) (neg : BitVec 1) (gp : BitVec 4) : Word := off ++ neg ++ gp ++ op6 ++ 0#2
/-- The long form on mask k. -/
def aliasMask (k : BitVec 4) : Long := { longZero with c := k.setWidth 9 }

/-- BRA, short (R201). -/
def execBraShort (off : BitVec 19) (neg : BitVec 1) (gp : BitVec 4) (s : State) : Host.Outcome State Fault Refusal :=
  runShort .bra (aliasGuard neg gp) (wordSB 0x10#6 off neg gp) (effBra off.toInt) s
/-- CALL, short (R201). -/
def execCallShort (off : BitVec 19) (neg : BitVec 1) (gp : BitVec 4) (s : State) : Host.Outcome State Fault Refusal :=
  runShort .call (aliasGuard neg gp) (wordSB 0x11#6 off neg gp) (fun s k t => callTo s k t (relTarget t off.toInt)) s
/-- JOIN, short. -/
def execJoinShort (k : BitVec 4) (s : State) : Host.Outcome State Fault Refusal :=
  runShort .join (aliasMask k) (wordS 0x0F#6 (0#2 ++ k) 0#9 0#9) (effJoin k.toNat) s
/-- LEAVE, short. -/
def execLeaveShort (k : BitVec 4) (s : State) : Host.Outcome State Fault Refusal :=
  runShort .leave (aliasMask k) (wordS 0x0F#6 (1#2 ++ k) 0#9 0#9) (effLeave k.toNat) s
/-- WAITK, short. -/
def execWaitkShort (k : BitVec 4) (s : State) : Host.Outcome State Fault Refusal :=
  runShort .waitk (aliasMask k) (wordS 0x0F#6 (2#2 ++ k) 0#9 0#9) (effWaitk k.toNat) s
/-- NOP, short. -/
def execNopShort (s : State) : Host.Outcome State Fault Refusal :=
  runShort .nop longZero (wordS 0x12#6 0#6 0#9 0#9) (effNop longZero) s
/-- RET, short. -/
def execRetShort (s : State) : Host.Outcome State Fault Refusal :=
  runShort .ret longZero (wordS 0x12#6 1#6 0#9 0#9) effRet s
/-- YIELD, short. -/
def execYieldShort (s : State) : Host.Outcome State Fault Refusal :=
  runShort .yield longZero (wordS 0x12#6 3#6 0#9 0#9) effYield s

end Sys2Proof.Machine
end

