-- ==== Sys2Proof/Machine/Access.lean ====
section
/-! DEFINITION. What one access does to bytes: loads, stores, atomics and reductions (R270, R277, R279); scratch and column
addresses (R53, R57). -/

namespace Sys2Proof.Machine

/-! ## Atomics (R277) -/

/-- One combining step of R277 on a w-bit integer, signed or not. -/
def atomInt (op w : Nat) (signed : Bool) (old c swap : Nat) : Nat :=
  let v (x : Nat) : Int := codeInt w signed x
  match op with
  | 0 => (old + c) % 2 ^ w
  | 1 => if v old ≤ v c then old else c
  | 2 => if v old ≤ v c then c else old
  | 3 => old &&& c
  | 4 => old ||| c
  | 5 => old ^^^ c
  | 6 => c
  | 7 => if old = c then swap else old
  | 8 => if c ≤ old then 0 else old + 1
  | _ => if old = 0 ∨ c < old then c else old - 1

/-- One combining step of R277 on one element of a floating-point format: ADD rounds once, RNE; no flag is raised. -/
def atomFloat (f : Fmt) (op old c swap : Nat) : Nat :=
  match op with
  | 0 => (faddOp f rne 0#32 false old c).1
  | 1 => (fminmaxOp f false false false old c).1
  | 2 => (fminmaxOp f false true false old c).1
  | 6 => c
  | 7 => if old = c then swap else old
  | _ => old

/-- The new value of an atomic: operation, kind and size in bytes; two BF16 elements combine separately. -/
def atomNew (op kind size old c swap : Nat) : Nat :=
  let o := if op < 10 then op else op - 10
  let w := 8 * size
  match kind with
  | 0 => atomInt o w true old (c % 2 ^ w) (swap % 2 ^ w)
  | 1 => atomInt o w false old (c % 2 ^ w) (swap % 2 ^ w)
  | 2 => atomFloat f32 o old (c % 2 ^ 32) (swap % 2 ^ 32)
  | _ =>
    atomFloat bf16 o (old % 65536) (c % 65536) (swap % 65536) +
      65536 * atomFloat bf16 o (old / 65536 % 65536) (c / 65536 % 65536) (swap / 65536 % 65536)

/-- Bytes that an access touches. -/
def Access.size : Access → Nat
  | .load n => n
  | .store d => d.length
  | .atomic _ _ n _ _ => n
  | .reduce _ _ n _ => n
  | .take n _ => n
  | .fill _ d => d.length
  | .setFe _ => 8
  | .arrive => 32
  | .pending _ _ _ => 8

/-- What a plain access, an atomic or a reduction makes of the bytes it touches: the new bytes and the bytes returned. -/
def Access.apply (a : Access) (cur : List Byte) : List Byte × List Byte :=
  match a with
  | .load _ => (cur, cur)
  | .store d => (d, [])
  | .atomic op kind n c swap => (leBytes n (atomNew op kind n (leNat cur) c.toNat swap.toNat), if op < 10 then cur else [])
  | .reduce op kind n c => (leBytes n (atomNew op kind n (leNat cur) c.toNat 0), [])
  | _ => (cur, [])

/-- The access changes memory. -/
def Access.writes : Access → Bool
  | .load _ => false
  | _ => true

/-- The access is one whose effect an atomic log guards (R443). -/
def Access.logged : Access → Bool
  | .atomic _ _ _ _ _ => true
  | .reduce _ _ _ _ => true
  | _ => false

/-- The access is performed at its home beside copies of its line: an atomic, a reduction or a full/empty access (R68, R71). -/
def Access.atHome : Access → Bool
  | .atomic _ _ _ _ _ | .reduce _ _ _ _ | .take _ _ | .fill _ _ | .setFe _ => true
  | _ => false

/-- A register datum from bytes (R270). -/
def extendDatum (ext : Extend) (size : Nat) (bs : List Byte) : List Word :=
  let v := leNat bs
  if size < 4 then
    match ext with
    | .sign => [BitVec.ofNat 32 (intCode 32 (codeInt (8 * size) true v))]
    | _ => [BitVec.ofNat 32 v]
  else bytesToWords (size / 4) bs

/-- Bytes of a size code (R268). -/
def sizeBytes (z : BitVec 3) : Nat := 2 ^ z.toNat

/-! ## Scratch and column store (R53, R57, R399) -/

/-- The lending team of a record team: the launched team resident on its core in its address space, with the lowest slot (R350);
a launched team serves itself. -/
def lendingTeam (s : State) (team : Nat) : Option Nat :=
  let m := s.team team
  if m.grid.isSome then some team
  else
    let l := (coreTeams s m.core).filter (fun p => p.2.grid.isSome && p.2.asid == m.asid && p.2.context != 2)
    l.foldl (fun b p =>
      match b with
      | none => some p.1
      | some x => if p.2.slot < (s.team x).slot then some p.1 else b) none

/-- The whole range lies in the treelet pool and the arrival-queue area. -/
def openRange (c : Core) (o n : Nat) : Bool :=
  let pool := c.spool.toNat
  let base := bits pool 8 0 * 4096
  let last := base + bits pool 25 16 * 4096
  (decide (base ≤ o) && decide (o + n ≤ last)) || decide (0x1F0000 ≤ o) ||
    (decide (base ≤ o) && decide (0x1F0000 ≤ last))

/-- Core-absolute offset of n bytes at a scratch address, in the view of a team (R53); none outside scratch or where PRIV is wanting. -/
def scratchOffset (s : State) (ep : Nat) (m : Team) (priv write : Bool) (addr n : Nat) : Option Nat :=
  if addr + n ≤ m.scratchSize then some (m.scratch + addr)
  else if 0x40000000 ≤ addr ∧ addr + n ≤ 0x40200000 then
    let o := addr - 0x40000000
    if priv || (!write && openRange (s.core ep) o n) then some o else none
  else none

/-- A byte of the part's own bookkeeping area: reads zero, writes are ignored (R52). -/
def bookkeeping (o : Nat) : Bool := decide (0x1FE000 ≤ o)

/-- Reads scratch bytes of a core. -/
def readScratch (s : State) (ep o n : Nat) : List Byte :=
  (List.range n).map (fun i => if bookkeeping (o + i) then 0#8 else memRead s.mem (scratchLoc ep (o + i)))

/-- Core-absolute offset of the treelet pool. -/
def poolBase (c : Core) : Nat := bits c.spool.toNat 8 0 * 4096

/-- The resident treelet whose image holds an offset. -/
def treeletAt (c : Core) (off : Nat) : Option (Nat × Treelet) :=
  c.pool.find? (fun p => p.2.resident && decide (poolBase c + p.2.unit * 4096 ≤ off) &&
    decide (off < poolBase c + (p.2.unit + p.2.size) * 4096))

/-- Ray id of the ray that a thread was started for, 0 for another thread (R416). -/
def threadRay (s : State) (t : Thread) : Nat :=
  match t.entry with
  | some (0, k) => (((s.core t.core).rays.entries.find k).map (fun e => field e.bytes 32 8)).getD 0
  | _ => 0

/-- A read inside a resident treelet met an uncorrectable error: the treelet is resident no more, with event 0x54.  Its pool units stay
taken until its eviction is reported, when no thread started for it is live. -/
def loseTreelet (s : State) (ep off ray : Nat) : State :=
  match treeletAt (s.core ep) off with
  | none => s
  | some (id, _) =>
    reportLost ((s.updCore ep (fun c => { c with pool := c.pool.adjust id (fun x => { x with resident := false, lost := true }) })).event
      ep 3 0x54 1 false ray id) ep id

/-- Writes scratch bytes of a core; the writes end errors in words they cover whole (R412). -/
def writeScratch (s : State) (ep o : Nat) (bs : List Byte) : State :=
  let n := min bs.length (0x1FE000 - o)
  s.write (scratchLoc ep o) (bs.take n)

/-- Core-absolute column offset of n bytes at a column address, in the window of a team (R57, R269). -/
def columnOffset (m : Team) (addr n : Nat) : Option Nat :=
  if 0x400000 ≤ addr then none
  else if addr % 0x20000 + n ≤ m.columnSize then some (addr / 0x20000 * 0x20000 + m.column + addr % 0x20000)
  else none

end Sys2Proof.Machine
end

