-- ==== Sys2Proof/Machine/Cache.lean ====
section
/-! DEFINITION. The L1 data caches, the die directories and the homes of memory: states and fills (R63 to R65), write-backs and
invalidations (R66, R68, R281), update-only lines (R72), and an access performed at its home (R61, R62, R67, R411, R412). -/

namespace Sys2Proof.Machine

/-- A location of scratch or column store. -/
def isLocal (loc : Nat) : Bool := decide (2 ^ 60 ≤ loc)


/-- The cores of a die's coherence island that are listed, in endpoint order (R63). -/
def island (s : State) (ep : Nat) : List Nat := (NMap.keys s.cores).filter (fun e => e / 128 == ep / 128)

/-- The line a core holds. -/
def State.line (s : State) (ep l : Nat) : Option Line := (s.core ep).lines.find l

/-- Puts a line into a core's L1. -/
def State.setLine (s : State) (ep l : Nat) (x : Line) : State := s.updCore ep (fun c => { c with lines := c.lines.put l x })

/-- Removes a line from a core's L1. -/
def State.dropLine (s : State) (ep l : Nat) : State :=
  if (s.line ep l).isSome then s.updCore ep (fun c => { c with lines := c.lines.drop l }) else s

/-- Words of 8 bytes that n bytes at an address cover whole. -/
def coversWord (a n w : Nat) : Bool := decide (a ≤ w) && decide (w + 8 ≤ a + n)

/-- Writes bytes of memory or scratch; a word written whole holds no error any more (R412). -/
def homeWrite (s : State) (a : Nat) (bs : List Byte) : State :=
  { s.write a bs with bad := s.bad.filter (fun w => !coversWord a bs.length w) }

/-- The uncorrectable error in a word of n bytes that the access would read or partly write (R412). -/
def hitsError (s : State) (a n : Nat) (whole : Bool) : Bool :=
  s.bad.any (fun w => decide (w < a + n) && decide (a < w + 8) && !(whole && coversWord a n w))

/-! ## Memory at its home -/

/-- Structure class of the memory that holds an address (R399): the L2, HBM or LPDDR. -/
def memoryClass (s : State) (pa : Nat) : Nat := if regionOf pa = .lpddr then 7 else if inL2 s pa then 5 else 6

/-! ## Supersteps' descriptors at their home (R290, R411) -/

/-- Descriptors to which some thread is bound (R290). -/
def boundDescriptors (s : State) : List Nat := (NMap.vals s.threads).filterMap (fun t => t.sstep.map (·.1))

/-- The bytes a store leaves at its place: of a bound descriptor only PARTS takes the store (R411). -/
def storedBytes (s : State) (pa : Nat) (old new : List Byte) : List Byte :=
  let ds := boundDescriptors s
  if ds.isEmpty then new
  else (List.range new.length).map (fun i =>
    let a := pa + i
    if ds.any (fun d => decide (d ≤ a) && decide (a < d + 32) && !(decide (d + 8 ≤ a) && decide (a < d + 12)))
    then old.getD i 0#8 else new.getD i 0#8)

/-- Closes the step of a descriptor when ARRIVED is at least PARTS and PENDING is zero (R290): ARRIVED is 0 again, STEP is one
more, and every waiter has its answer. -/
def testStep (s : State) (d : Nat) : State :=
  let b := s.read d 32
  if field b 12 4 < field b 8 4 || field b 0 7 != 0 then s
  else
    let step := (field b 16 4 + 1) % 2 ^ 32
    let s1 := (s.write (d + 12) (leBytes 4 0)).write (d + 16) (leBytes 4 step)
    let die := homeDie d
    let mine := (s1.die die).waiters.filter (fun w => w.1 == d)
    let s2 := s1.updDie die (fun x => { x with waiters := x.waiters.filter (fun w => w.1 != d) })
    mine.foldl (fun s w => s.inject { mkPacket 2 0x20 (homeEndpoint d) w.2.1 1 (.data (leBytes 4 step) w.2.2.1 w.2.2.2) with
      seq := if w.2.2.1 = farThread then w.2.2.2 else 0 }) s2

/-- The tests of the bound descriptors that a store of n bytes touches. -/
def testTouched (s : State) (pa n : Nat) : State :=
  ((boundDescriptors s).eraseDups.filter (fun d => decide (d < pa + n) && decide (pa < d + 32))).foldl testStep s

/-! ## Write-backs (R65, R66), update-only lines (R72) -/

/-- REQ TYPE of an access (R144). -/
def reqType : Access → Nat
  | .load _ => 0x10
  | .store _ => 0x11
  | .atomic _ _ _ _ _ => 0x12
  | .reduce _ _ _ _ => 0x13
  | .take _ _ => 0x19
  | .fill _ _ => 0x19
  | .setFe _ => 0x19
  | .arrive => 0x12
  | .pending _ _ _ => 0x12

/-- Payload bytes of a request. -/
def Access.payload : Access → Nat
  | .store d => d.length
  | .fill _ d => d.length
  | .atomic _ _ n _ _ => 2 * n
  | .reduce _ _ n _ => n
  | _ => 0

/-- An address of another package's memory. -/
def isFar (pa : Nat) : Bool := pa / 2 ^ 44 != Config.package

/-- Part of a line of another package goes from an L1 to its home, or a write of a core's agents to a register window or to another package, with
the derivation id that it bears; without a way there it is lost (log 134). -/
def sendFar (s : State) (ep pa : Nat) (a : Access) (deriv : DWord := 0#64) (index : Nat := 0) : State :=
  if !reachable s ep (homeEndpoint pa) then s
  else
    (s.updDie (epDie ep) (fun d => { d with farWrites := d.farWrites ++ [(ep, (s.core ep).seq, lineOf pa)] })).send
      { mkPacket 1 (reqType a) ep (homeEndpoint pa) (flitsOf a.payload)
          (.request (reqType a) { pa := pa, home := true, access := a } farThread (s.core ep).seq index) with
        addr := BitVec.ofNat 64 pa, deriv := deriv, parent := if deriv = 0#64 then none else some deriv }

/-- Some write-back or partial of a die's island is on its way to another package. -/
def farPending (s : State) (ep : Nat) : Bool := !(s.die (epDie ep)).farWrites.isEmpty

/-- Such a one of this line. -/
def linePending (s : State) (ep l : Nat) : Bool := (s.die (epDie ep)).farWrites.any (fun w => w.2.2 == l)

/-- The runs of marked positions of a list: first position and length. -/
def markedRuns : Nat → List Bool → List (Nat × Nat)
  | _, [] => []
  | i, false :: rest => markedRuns (i + 1) rest
  | i, true :: rest =>
    match markedRuns (i + 1) rest with
    | (j, n) :: l => if j = i + 1 then (i, n + 1) :: l else (i, 1) :: (j, n) :: l
    | [] => [(i, 1)]

/-- An M line reaches its home: the bytes written since it was last clean go to memory, and no others (log 135).  A bound descriptor takes
only PARTS of them. -/
def storeBack (s : State) (ep l : Nat) (x : Line) : State :=
  if isFar l then
    (markedRuns 0 x.valid).foldl (fun s r => sendFar s ep (l + r.1) (.store ((x.bytes.drop r.1).take r.2))) s
  else
    let cur := s.read l 128
    let new := (List.range 128).map (fun i => if x.valid.getD i false then x.bytes.getD i 0#8 else cur.getD i 0#8)
    let s1 := { touchL2 s l 0 with
      mem := memWrites s.mem l (storedBytes s l cur new)
      bad := s.bad.filter (fun w => !(decide (l ≤ w) && decide (w < l + 128) && (List.range 8).all (fun i => x.valid.getD (w - l + i) false))) }
    testTouched s1 l 128

/-- Folds the contributions of an update-only line into memory.  One to a word with an uncorrectable error is refused, an event alone (R412). -/
def foldLine (s : State) (ep l op kind n : Nat) (x : Line) : State :=
  (List.range (128 / n)).foldl (fun s i =>
    if x.valid.getD i false then
      let a := l + i * n
      let c := field x.bytes (i * n) n
      if isFar l then sendFar s ep a (.reduce op kind n (BitVec.ofNat 64 c))
      else if hitsError s a n false then s.event (homeDie l * 128 + 121) (memoryClass s l) 0x2A 2 false a 1
      else homeWrite (touchL2 s l 0) a (leBytes n (atomNew op kind n (leNat (s.read a n)) c 0))
    else s) s

/-- Recalls every update-only copy of a line, in endpoint order, each folded in once (R72). -/
def recallLine (s : State) (l : Nat) : State :=
  (NMap.keys s.cores).foldl (fun s e =>
    match s.line e l with
    | some x => (match x.state with
      | .u op kind n => (foldLine s e l op kind n x).dropLine e l
      | _ => s)
    | none => s) s

/-- An M line is written back; as any access that reaches the home, its write-back recalls the update-only copies of the line first (R72). -/
def writeBack (s : State) (ep l : Nat) (x : Line) : State := storeBack (recallLine s l) ep l x

/-- A core's line leaves its L1: an M line is written back, an update-only line is combined. -/
def evictLine (s : State) (ep l : Nat) : State :=
  match s.line ep l with
  | none => s
  | some x =>
    match x.state with
    | .m => (writeBack s ep l x).dropLine ep l
    | .u op kind n => (foldLine s ep l op kind n x).dropLine ep l
    | _ => s.dropLine ep l

/-- An M line is written back and kept as E (R66, R281). -/
def cleanLine (s : State) (ep l : Nat) : State :=
  match s.line ep l with
  | none => s
  | some x => if x.state = .m then (writeBack s ep l x).setLine ep l { x with state := .e, valid := [] } else s

/-- Recalls the update-only copies whose operation, kind and size are not those of a reduction. -/
def recallOther (s : State) (l op kind n : Nat) : State :=
  (NMap.keys s.cores).foldl (fun s e =>
    match s.line e l with
    | some x => (match x.state with
      | .u o k m => if o = op ∧ k = kind ∧ m = n then s else evictLine s e l
      | _ => s)
    | none => s) s

/-- The directory removes a line from every L1 of a die (R68). -/
def clearIsland (s : State) (ep l : Nat) : State := (island s ep).foldl (fun s e => evictLine s e l) s

/-- Removes a line from every L1 of the package (R71, Caching). -/
def clearEverywhere (s : State) (l : Nat) : State := (NMap.keys s.cores).foldl (fun s e => evictLine s e l) s

/-! ## Fills (R65) -/

/-- Lines an L1 holds (R5, R63). -/
def cacheLines (ep : Nat) : Nat := if isHart ep then 256 else if onGateway ep then 512 else 1024

/-- One line leaves an L1 before another: first those allocated as least recently used, then by fill time. -/
def leavesBefore (x y : Line) : Bool := if x.old = y.old then decide (x.fillTime < y.fillTime) else x.old

/-- Makes room for a line: the line filled longest ago leaves (the part's choice, log 26), one allocated as least recently used first. -/
def makeRoom (s : State) (ep : Nat) : State :=
  let ls := (s.core ep).lines
  if ls.length < cacheLines ep then s
  else match ls with
    | [] => s
    | a :: rest => evictLine s ep (rest.foldl (fun b x => if leavesBefore x.2 b.2 then x else b) a).1

/-- Another L1 of the island holds a clean copy that the peer-supply floor admits; of several, the one at the lowest endpoint supplies
the line (the part's choice, log 136). -/
def peerCopy (s : State) (ep l : Nat) : Option Line :=
  (island s ep).foldl (fun b e =>
    match b, s.line e l with
    | none, some x =>
      if e != ep && (x.state = .s || x.state = .e) && decide ((s.core ep).floor < x.fillTime) then some x else none
    | b, _ => b) none

/-- The M copies of a line in the other L1s of an island are written back and kept clean. -/
def cleanOthers (s : State) (ep l : Nat) : State :=
  (island s ep).foldl (fun s e => if e = ep then s else cleanLine s e l) s

/-- A line read from its home, with a hint: an M copy elsewhere in the island is written back first.  Each read has a stamp of its own, after
that of every acquire before it.  The bytes of a line of another package
have come in a packet, with the fill time that they count from (log 150). -/
def readHomeLine (s : State) (ep l hint : Nat) (got : Option (List Byte × Nat)) : State × Line :=
  let s0 := touchL2 (cleanOthers (recallLine s l) ep l) l hint
  let s1 := { s0 with fresh := s0.fresh + 1 }
  (s1, { state := .e, bytes := (got.map (·.1)).getD (s1.read l 128), valid := [], fillTime := (got.map (·.2)).getD s1.stamp, old := hint == 2 })

/-- Brings a readable copy of a line into a core's L1 (R65). -/
def fillLine (s : State) (ep l hint : Nat) (got : Option (List Byte × Nat)) : State :=
  let s0 := (recallLine s l).dropLine ep l
  let (s1, x) := match peerCopy s0 ep l with
    | some x => (perfCount s0 ep 4 1, { x with old := hint == 2 })
    | none => readHomeLine s0 ep l hint got
  let others := (island s1 ep).filter (fun e => e != ep && (s1.line e l).isSome)
  let s2 := others.foldl (fun s e =>
    match s.line e l with
    | some y => s.setLine e l { y with state := .s }
    | none => s) s1
  (makeRoom s2 ep).setLine ep l { x with state := if others.isEmpty then .e else .s }

/-- Gives a core the only copy of a line it holds, for writing: the other copies of the island are invalidated (R65). -/
def ownLine (s : State) (ep l : Nat) : State :=
  let s1 := (island s ep).foldl (fun s e => if e = ep then s else s.dropLine e l) s
  match s1.line ep l with
  | some x => s1.setLine ep l { x with state := .m, valid := if x.state = .m then x.valid else List.replicate 128 false }
  | none => s1

/-- The line is present in an L1 and can serve a read or a write without its home. -/
def lineReady (s : State) (ep pa : Nat) (write : Bool) : Bool :=
  match s.line ep (lineOf pa) with
  | none => false
  | some x =>
    match x.state with
    | .m | .e => true
    | .s => !write
    | .u _ _ _ => false

/-- The bytes of line l that n written bytes mark; an atomic is written back as its whole line (R84), but for words that hold an uncorrectable
error, which no access has replaced (R412). -/
def markBytes (s : State) (l : Nat) (old : List Bool) (off n : Nat) (a : Access) : List Bool :=
  (List.range 128).map (fun i => old.getD i false || (decide (off ≤ i) && decide (i < off + n)) ||
    (a.logged && !hitsError s (l + i) 1 false))

/-- Performs an access on a line that an L1 holds ready. -/
def performL1 (s : State) (ep pa : Nat) (a : Access) : State × List Byte :=
  let l := lineOf pa
  match s.line ep l with
  | none => (s, [])
  | some x =>
    let off := pa - l
    let r := a.apply ((x.bytes.drop off).take a.size)
    if a.writes then
      (s.setLine ep l { x with
        state := .m, bytes := patch x.bytes off r.1, valid := markBytes s l (if x.state = .m then x.valid else []) off r.1.length a }, r.2)
    else (s, r.2)

/-- The miss of a line in an L1 is served (R65), with a hint and, for a line of another package, the bytes that its home has sent. -/
def serveMiss (s : State) (ep pa hint : Nat) (got : Option (List Byte × Nat)) (write : Bool) : State :=
  let l := lineOf pa
  let s1 := if lineReady s ep pa false then s else fillLine (if got.isSome then s else perfCount s ep 3 1) ep l hint got
  if write then ownLine s1 ep l else s1

/-- A line of this package's memory can be fetched into an L1 beside another (R207, hint 6): the next one of the same 64 KiB. -/
def nextLine (s : State) (ep pa : Nat) : Option Nat :=
  let l := lineOf pa + 128
  if l / 0x10000 != pa / 0x10000 || isFar l || !memoryOn s l || lineReady s ep l false then none else some l

/-- Hints 6 and 7 (R207): the next line is fetched into the L1, or into the L2. -/
def nextHint (s : State) (ep pa hint : Nat) : State :=
  match hint with
  | 6 => (match nextLine s ep pa with
    | some l => fillLine s ep l 0 none
    | none => s)
  | 7 => (match nextLine s ep pa with
    | some l => touchL2 s l 0
    | none => s)
  | _ => s

/-- Hints 1 and 5 (R207): the L1 keeps no copy of a line that the access has brought in; with hint 5 its write-back leaves the line's place
in the L2 as it was. -/
def dropHint (s : State) (ep pa hint : Nat) : State :=
  if hint == 1 then evictLine s ep (lineOf pa)
  else if hint == 5 then
    let s1 := evictLine s ep (lineOf pa)
    if inL2 s pa then s1.updDie (homeDie pa) (fun d => { d with l2 := d.l2.put (l2Set (lineOf pa)) (((s.die (homeDie pa)).l2.find (l2Set (lineOf pa))).getD []) })
    else s1
  else s

/-! ## Acquire and release (R66), update-only folds (R72) -/

/-- The scope is package, fabric or system. -/
def wideScope (scope : Nat) : Bool := decide (5 ≤ scope)

/-- The cache action of an acquire: the clean lines leave the L1, and the peer-supply floor is now. -/
def acquireAction (s : State) (ep scope : Nat) : State :=
  if wideScope scope then
    s.updCore ep (fun c => { c with
      lines := c.lines.filter (fun p => match p.2.state with
        | .s | .e => false
        | _ => true)
      floor := s.stamp })
  else s

/-- The cache action of a release: every M line is written back and kept as E.  The write-backs are performed in one step (log 17). -/
def releaseAction (s : State) (ep scope : Nat) : State :=
  if wideScope scope then (NMap.keys (s.core ep).lines).foldl (fun s l => cleanLine s ep l) s else s

/-- A reduction folds into a line held in U in the issuing L1 (R72). -/
def reduceL1 (s : State) (ep pa hint op kind n : Nat) (c : DWord) : State :=
  let l := lineOf pa
  let blank : Line := { state := .u op kind n, bytes := List.replicate 128 0#8, valid := List.replicate (128 / n) false,
                        fillTime := s.stamp, old := hint == 2 }
  let have_ : Bool := match s.line ep l with
    | some x => x.state == .u op kind n
    | none => false
  let s1 := if have_ then s else
    let s0 := recallOther s l op kind n
    let s0' := (island s0 ep).foldl (fun s e =>
      match s.line e l with
      | some x => (match x.state with
        | .u _ _ _ => s
        | _ => evictLine s e l)
      | none => s) s0
    (makeRoom s0' ep).setLine ep l blank
  match s1.line ep l with
  | none => s1
  | some x =>
    let i := (pa - l) / n
    let old := field x.bytes (i * n) n
    let new := if x.valid.getD i false then atomNew op kind n old c.toNat 0 else c.toNat % 2 ^ (8 * n)
    s1.setLine ep l { x with bytes := patch x.bytes (i * n) (leBytes n new), valid := x.valid.set i true }

/-! ## Accesses at a home -/

/-- Performs a plain access, an atomic or a reduction at its home: update-only copies are recalled first, and hint 7 brings the next line into
the L2 (R207); none when it meets an uncorrectable error. -/
def performHome (s : State) (pa : Nat) (a : Access) (hint : Nat := 0) : Option (State × List Byte) :=
  let l := lineOf pa
  let s1 := touchL2 (match a with
    | .reduce op kind n _ => recallOther s l op kind n
    | _ => recallLine s l) pa hint
  let s1 := if hint == 7 && !isFar (l + 128) && memoryOn s1 (l + 128) then touchL2 s1 (l + 128) 0 else s1
  let n := a.size
  let whole := match a with
    | .store _ => true
    | _ => false
  if hitsError s1 pa n whole then none
  else
    let cur := s1.read pa n
    let r := a.apply cur
    if a.writes then
      some (testTouched (homeWrite s1 pa (storedBytes s1 pa cur r.1)) pa n, r.2)
    else some (s1, r.2)

/-- The die's own agents read and write memory as every access at its home does (R67, R72): line by line, each recalled and brought into the
L2. -/
def visitLines (s : State) (pa n : Nat) : State :=
  ((List.range ((pa + n - 1) / 128 - pa / 128 + 1)).map (fun i => (pa / 128 + i) * 128)).foldl (fun s l => touchL2 (recallLine s l) l 0) s

/-- An agent's write at a home. -/
def agentPut (s : State) (pa : Nat) (bs : List Byte) : State := homeWrite (visitLines s pa bs.length) pa bs

end Sys2Proof.Machine
end

