-- ==== Sys2Proof/Machine/Translate.lean ====
section
/-! DEFINITION. Translation (R74 to R77, R461): TLBs, walks by packets, protection and page-kind checks (R399, R406), waiting for
service, the fault buffer and its time-out (R402 to R405). -/

namespace Sys2Proof.Machine

/-! ## Entries (R75) -/

/-- Page-table entry bits. -/
def pteValid (e : DWord) : Bool := e.getLsbD 0
def pteLeaf (e : DWord) : Bool := e.getLsbD 1
def pteRead (e : DWord) : Bool := e.getLsbD 3
def pteWrite (e : DWord) : Bool := e.getLsbD 4
def pteExec (e : DWord) : Bool := e.getLsbD 5
def pteKind (e : DWord) : Nat := (e.extractLsb' 6 2).toNat
def pteFe (e : DWord) : Bool := e.getLsbD 8
def ptePriv (e : DWord) : Bool := e.getLsbD 9
def pteGlobal (e : DWord) : Bool := e.getLsbD 10
def ptePa (e : DWord) : Nat := (e.extractLsb' 16 36).toNat * 0x10000
def pteNext (e : DWord) : Nat := (e.extractLsb' 8 44).toNat * 0x100

/-- Lowest virtual-address bit that a level indexes; a leaf there maps 2 to that power bytes (R74). -/
def levelShift (level : Nat) : Nat :=
  match level with
  | 0 => 46
  | 1 => 36
  | 2 => 30
  | 3 => 21
  | _ => 16
/-- Bytes of a level's table. -/
def tableBytes (level : Nat) : Nat :=
  match level with
  | 0 | 1 => 8192
  | 2 => 512
  | 3 => 4096
  | _ => 256
/-- Address of the entry of a virtual address in a level's table. -/
def entryAddress (table level va : Nat) : Nat := table + va / 2 ^ levelShift level % (tableBytes level / 8) * 8

/-- A table may lie here (R74, R399): aligned, in HBM or LPDDR of this package, on a present die. -/
def tableOk (s : State) (table level : Nat) : Bool :=
  table % tableBytes level == 0 && table / 2 ^ 44 == Config.package &&
    (regionOf table == .hbm || regionOf table == .lpddr) && memoryOn s table

/-- What an entry read at a level says. -/
inductive WalkRead where
  | next (table : Nat)
  | leaf
  | missing
  | bad
  deriving DecidableEq, Repr

/-- Reads an entry of a level (R75, R399). -/
def readEntry (s : State) (level : Nat) (e : DWord) : WalkRead :=
  if !pteValid e then .missing
  else if pteLeaf e then
    if level = 0 || pteKind e == 3 || ptePa e % 2 ^ levelShift level != 0 || !assignedPa s (ptePa e) then .bad else .leaf
  else if level = 4 || !tableOk s (pteNext e) (level + 1) then .bad
  else .next (pteNext e)

/-! ## TLBs (R76) -/

/-- A TLB entry translates a virtual address in an address space. -/
def Tlb.hits (x : Tlb) (asid va : Nat) : Bool :=
  (x.asid == asid || pteGlobal x.entry) && decide (x.va ≤ va) && decide (va < x.va + x.size)

/-- The die that an entry's affinity hint names (R75). -/
def pteAff (e : DWord) : Nat := (e.extractLsb' 11 5).toNat

/-- Puts an entry into a TLB of n entries, newest first.  From a full one the entry filled longest ago leaves (the part's choice, log 140),
but from an L2 TLB those whose AFF names its own die leave last. -/
def keepTlb (n : Nat) (die : Option Nat) (x : Tlb) (l : List Tlb) : List Tlb :=
  let others := l.filter (fun y => !(y.asid == x.asid && y.va == x.va && y.size == x.size))
  if others.length < n then x :: others
  else
    let oldest := others.reverse
    match oldest.findIdx? (fun y => some (pteAff y.entry) != die) with
    | some i => x :: (oldest.eraseIdx i).reverse
    | none => x :: others.dropLast

/-- The entry that translates an address for a core: of its L1 TLB, or of the die's L2 TLB, from where it is filled. -/
def lookupTlb (s : State) (ep asid va : Nat) : Option (Tlb × State) :=
  match (s.core ep).tlb.find? (fun x => x.hits asid va) with
  | some x => some (x, s)
  | none =>
    match (s.die (epDie ep)).tlb.find? (fun x => x.hits asid va) with
    | some x => some (x, s.updCore ep (fun c => { c with tlb := keepTlb 64 none x c.tlb }))
    | none => none

/-- A found leaf enters the die's L2 TLB and the core's L1 TLB. -/
def fillTlb (s : State) (ep : Nat) (x : Tlb) : State :=
  let s1 := s.updDie (epDie ep) (fun d =>
    let large (y : Tlb) : Bool := decide (0x40000000 ≤ y.size)
    let kept := keepTlb (if large x then 64 else 4096) (some (epDie ep)) x (d.tlb.filter (fun y => large y == large x))
    { d with tlb := kept ++ d.tlb.filter (fun y => large y != large x) })
  s1.updCore ep (fun c => { c with tlb := keepTlb 64 none x c.tlb })

/-! ## Checks (R461, R406) -/

/-- Permission classes (R405, R461): 0 read, 1 write, 2 fetch, 3 read-modify-write, 4 none. -/
def classAllows (e : DWord) (cls : Nat) : Bool :=
  match cls with
  | 0 => pteRead e
  | 1 => pteWrite e
  | 2 => pteExec e
  | 3 => pteRead e && pteWrite e
  | _ => true

/-- The outcome of a translation. -/
inductive Trans where
  | ok (s : State) (pa : Nat) (entry : DWord)
  | refuse (s : State) (code : Nat)
  | miss

/-- Translates an address for an access of a class (R461): a clear bit, or a PRIV page without privilege, refuses with 0x22; agent space
through a page that is not of kind S with 0x23 (R406). -/
def translate (s : State) (ep asid : Nat) (priv : Bool) (cls va : Nat) : Trans :=
  match lookupTlb s ep asid va with
  | none => .miss
  | some (x, s1) =>
    let pa := ptePa x.entry + (va - x.va)
    if (ptePriv x.entry && !priv) || !classAllows x.entry cls then .refuse s1 0x22
    else if regionOf pa == .agent && pteKind x.entry != 0 then .refuse s1 0x23
    else .ok s1 pa x.entry

/-! ## Walks (R74, R402) -/

/-- Sends the read of a walk's current entry (R144, TYPE 0x1B). -/
def sendWalkRead (s : State) (die key : Nat) (w : Walk) : State :=
  let a := entryAddress w.table w.level w.va
  s.inject { mkPacket 1 0x1B (endpoint die 124) (homeEndpoint a) 1 (.walkRead a key) with addr := BitVec.ofNat 64 a }

/-- Begins a walk at the root; a root that may not be one is malformed at once. -/
def beginWalk (s : State) (die key : Nat) (w : Walk) : State :=
  let ok := tableOk s w.root 0
  let w' := { w with table := w.root, level := 0, status := if ok then .reading else .bad }
  let s1 := s.updDie die (fun d => { d with walks := d.walks.put key w' })
  if ok then sendWalkRead s1 die key w' else s1

/-- Two walks fetch the same page. -/
def Walk.samePage (a b : Walk) : Bool := a.asid == b.asid && a.root == b.root && a.va / 0x10000 == b.va / 0x10000

/-- A queued walk may begin: fewer than 16 are in flight, none of them for its page (R76). -/
def walkFree (s : State) (die : Nat) (w : Walk) : Bool :=
  let going := (NMap.vals (s.die die).walks).filter (fun x => x.status == .reading)
  decide (going.length < 16) && !going.any w.samePage

/-- Begins the queued walks that may begin, in the order of the requests. -/
def admitWalks (s : State) (die : Nat) : State :=
  (s.die die).walks.foldl (fun s p => if p.2.status == .queued && walkFree s die p.2 then beginWalk s die p.1 p.2 else s) s

/-- Puts a walk into the queue of its L2 TLB. -/
def queueWalk (s : State) (die key : Nat) (w : Walk) : State :=
  admitWalks (s.updDie die (fun d => { d with walks := d.walks.put key { w with status := .queued } })) die

/-- Starts the translation of an address for a thread (key 0: for the core's task scheduler or queues). -/
def startWalk (s : State) (ep thread asid root va cls : Nat) (fe priv soft : Bool) : State :=
  queueWalk (perfCount { s with fresh := s.fresh + 1 } ep 5 1) (epDie ep) s.fresh
    { core := ep, thread := thread, asid := asid, root := root, va := va, cls := cls, fe := fe, priv := priv, soft := soft,
      table := root, level := 0, status := .queued, since := s.time, waits := false, faulted := false }

/-- The walk that an agent of a core waits for. -/
def agentWalk (s : State) (ep asid va : Nat) : Option (Nat × Walk) :=
  (s.die (epDie ep)).walks.find? (fun p =>
    p.2.core == ep && p.2.thread == 0 && p.2.asid == asid && p.2.va / 0x10000 == va / 0x10000)

/-- The place of an address for an agent: its physical address and page entry, or what comes of it. -/
inductive Placing where
  | ok (s : State) (pa : Nat) (entry : DWord)
  | wait (s : State)
  | refused (s : State) (code : Nat)

/-- Translates an address for an agent of a core.  A miss starts one walk; a malformed one refuses with 0x25, one that has waited too
long with 0x20 (R402, R404). -/
def agentPlace (s : State) (ep asid root : Nat) (priv : Bool) (cls va : Nat) : Placing :=
  if 2 ^ 56 ≤ va then .refused s 0x24
  else match translate s ep asid priv cls va with
  | .ok s1 pa e => .ok s1 pa e
  | .refuse s1 code => .refused s1 code
  | .miss =>
    match agentWalk s ep asid va with
    | none => .wait (startWalk s ep 0 asid root va cls false priv false)
    | some (key, w) =>
      let gone := s.updDie (epDie ep) (fun d => { d with walks := d.walks.drop key })
      match w.status with
      | .bad => .refused gone 0x25
      | .expired => .refused gone 0x20
      | _ => .wait s

/-- An entry comes back to a walk.  Translations of the same page end with it. -/
def stepWalk (s : State) (die key : Nat) (e : DWord) : State :=
  match (s.die die).walks.find key with
  | none => s
  | some w =>
    let finish (r : WalkStatus) : State := s.updDie die (fun d => { d with walks := d.walks.map (fun p =>
      if p.1 = key || (p.2.status == .queued && p.2.samePage w) then (p.1, { p.2 with status := r, level := w.level, table := w.table })
      else p) })
    match readEntry s w.level e with
    | .next t =>
      let w' := { w with table := t, level := w.level + 1 }
      sendWalkRead (s.updDie die (fun d => { d with walks := d.walks.put key w' })) die key w'
    | .leaf => finish (.found e)
    | .missing => finish .missing
    | .bad => finish .bad

/-- A thread's wait for its translation ends: it tries its access again. -/
def wakeThread (s : State) (k : Nat) : State :=
  s.updThread k (fun t => if t.state = .parked false then t.wake else t)

/-- The first sixteen bytes of a fault-buffer entry, as two numbers (R405). -/
def faultWords (f : FaultEntry) : Nat × Nat :=
  (f.va, f.asid + f.kind * 2 ^ 16 + (f.level + 128) * 2 ^ 24 + min f.count 0xFFFF * 2 ^ 32)

/-- A translation that found V = 0 enters the fault buffer (R402): it joins its duplicate's entry, takes a free one, or is counted
as dropped, where no duplicate of it has been. -/
def enterFault (s : State) (die key : Nat) (w : Walk) : State :=
  let d := s.die die
  let same (f : Option FaultEntry) : Bool := match f with
    | some f => f.asid == w.asid && f.va / 0x10000 == w.va / 0x10000
    | none => false
  match (List.range 8).find? (fun i => same (d.faults.getD i none)) with
  | some i =>
    let more (f : Option FaultEntry) : Option FaultEntry := f.map (fun f => { f with count := min (f.count + 1) 0xFFFF })
    s.updDie die (fun d => { d with faults := d.faults.modify i more })
  | none =>
    match (List.range 8).find? (fun i => (d.faults.getD i none).isNone) with
    | some i =>
      let f : FaultEntry :=
        { va := w.va, asid := w.asid,
          kind := min w.cls 3 + (if w.fe then 4 else 0) + (if w.priv then 8 else 0),
          level := w.level, count := 1, first := w.core, time := s.time }
      (s.updDie die (fun d => { d with faults := d.faults.set i (some f) })).event (faultUnit die) 2 0x20 1 false
        (faultWords f).1 (faultWords f).2
    | none =>
      if d.walks.any (fun p => p.1 != key && p.2.waits && p.2.asid == w.asid && p.2.va / 0x10000 == w.va / 0x10000) then s else
      let s1 := s.updDie die (fun d => { d with dropped := true, drops := min (d.drops + 1) 255, wrote21 := true })
      if d.wrote21 then s1 else s1.event (faultUnit die) 2 0x21 1 false w.va (s1.die die).drops

/-- A requester leaves a fault-buffer entry (R387, R404); the last one frees it where asked. -/
def leaveFault (s : State) (die : Nat) (w : Walk) (free : Bool) : State :=
  let less (f : Option FaultEntry) : Option FaultEntry :=
    match f with
    | some f =>
      if f.asid = w.asid ∧ f.va / 0x10000 = w.va / 0x10000 then
        (if free ∧ f.count ≤ 1 then none else some { f with count := f.count - 1 })
      else some f
    | none => none
  s.updDie die (fun d => { d with faults := d.faults.map less })

/-- Bin of a fault-service latency in nanoseconds: 16 powers of two from 1 microsecond (R176). -/
def latencyBin (ns : Nat) : Nat := min 15 (Nat.log2 (ns / 1000))

/-- The end of one pass of a walk (R402, TABLE_WALK_END): a leaf fills the TLBs and the access is tried again; a malformed walk refuses
it with 0x25; V = 0 makes it wait for service, in the order of the requests (R452); a PREF or one-line FLUSH does nothing then. -/
def endWalk (s : State) (die key : Nat) : State :=
  match (s.die die).walks.find key with
  | none => s
  | some w =>
    let gone := s.updDie die (fun d => { d with walks := d.walks.drop key })
    let skip (s : State) : State := if (s.thread w.thread).any (fun t => t.state == .parked false) then goPast s w.thread else s
    match w.status with
    | .reading | .expired => s
    | .queued => admitWalks s die
    | .found e =>
      let size := 2 ^ levelShift w.level
      let counted := if w.faulted then gone.count (lifeKey 7 die (latencyBin (s.time - w.since))) 1 else gone
      wakeThread (fillTlb counted w.core { asid := w.asid, va := w.va - w.va % size, size := size, pa := ptePa e, entry := e })
        w.thread
    | .bad =>
      if w.soft then skip gone
      else if w.thread = 0 then s
      else match s.thread w.thread with
        | none => gone
        | some t => takeTrap gone w.thread { trapAt 0x25 (BitVec.ofNat 64 w.va) t.pc with cls := 2 }
    | .missing =>
      if w.waits || (s.die die).walks.any (fun p => decide (p.1 < key) && (p.2.status == .reading || p.2.status == .queued)) then s
      else if w.soft then skip gone
      else
        let w' := { w with waits := true, faulted := true, since := if w.faulted then w.since else s.time }
        enterFault (s.updDie die (fun d => { d with walks := d.walks.put key w' })) die key w'

/-- TABLE_WALK_END. -/
def execTableWalkEnd (die walk : Nat) (s : State) : Host.Outcome State Fault Refusal := .next (endWalk s die walk)

/-- TRANSLATION_TIMEOUT (R404): a translation that has waited long enough is refused with 0x20 and leaves the buffer. -/
def timeoutWalk (s : State) (die key : Nat) : State :=
  let d := s.die die
  let limit := (d.ftmo.extractLsb' 0 24).toNat * 1024
  match d.walks.find key with
  | none => s
  | some w =>
    if !w.waits || limit = 0 || s.time < w.since + limit then s
    else
      let left := if w.thread = 0 then d.walks.put key { w with status := .expired, waits := false } else d.walks.drop key
      let s1 := leaveFault (s.updDie die (fun d => { d with walks := left })) die w true
      match s.thread w.thread with
      | none => s1
      | some t => takeTrap s1 w.thread { trapAt 0x20 (BitVec.ofNat 64 w.va) t.pc with cls := 2 }

/-- TRANSLATION_TIMEOUT. -/
def execTranslationTimeout (die walk : Nat) (s : State) : Host.Outcome State Fault Refusal := .next (timeoutWalk s die walk)

/-- REPLAY_ALL reaches a die (R403): the buffer is emptied and every waiting translation is walked again, in order. -/
def replayDie (s : State) (die : Nat) : State :=
  let s1 := s.updDie die (fun d => { d with faults := List.replicate 8 none, dropped := false, drops := 0, wrote21 := false })
  (s.die die).walks.foldl (fun s p =>
    if p.2.waits then queueWalk s die p.1 { p.2 with waits := false } else s) s1

/-- REQ_TABLE_WALK_READ (R74): the home reads the entry with the ordering of an S access and answers the L2 TLB. -/
def execReqTableWalkRead (s : State) : Host.Outcome State Fault Refusal :=
  .next (arrive s (fun p => match p.body with
    | .walkRead _ _ => true
    | _ => false) (fun s _ p =>
    match p.body with
    | .walkRead a key =>
      (match performHome s a (.load 8) with
      | some (s1, bs) => some (s1.reply p 0x20 (.data bs key 0))
      | none => some ((s.event (faultUnit (epDie p.dst)) (memoryClass s a) 0x2A 2 false a 1).reply p 0x22
          (.refusal 0x25 0#64 key 0)))
    | _ => none))

end Sys2Proof.Machine
end

