-- ==== Sys2Proof/Machine/MemOps.lean ====
section
/-! DEFINITION. Outstanding operations (R212, R401): issuing one, performing its pieces in the L1 or at their homes (R64, R78, R95),
finishing or refusing it, and what holds a memory instruction back (R81, R282). -/

namespace Sys2Proof.Machine

/-! ## Holding back (R64, R81, R282; the program-order rule is log 17) -/

/-- The operation has not been performed. -/
def Op.sent (p : Op) : Bool :=
  match p.status with
  | .sent | .again _ => true
  | _ => false

/-- Some operation of a thread is not yet performed and satisfies a condition. -/
def Thread.awaits (t : Thread) (f : Op → Bool) : Bool := (NMap.vals t.ops).any (fun p => p.sent && f p)

/-- The thread's ENGW or CWAIT has not read its target value yet. -/
def Thread.polls (t : Thread) : Bool := (NMap.vals t.ops).any (fun p => p.token == 6)

/-- Whether a memory instruction may go on. -/
inductive Gate where
  | pass (s : State)
  | hold (s : State) (st : ThreadState)

/-- Holds a memory instruction back: until a fence's action is complete; while an acquire, or for a release any access, is not
performed; a global access while an earlier global access of the thread is not performed.  An enqueue is no access: a later one need not
wait for it (R81, R323). -/
def memGate (s : State) (k : Nat) (t : Thread) (global release : Bool) : Gate :=
  let fenced : State × Bool :=
    match t.fence with
    | none => (s, true)
    | some (ord, scope) =>
      if t.polls || t.awaits (fun p => ord != 1 || p.reads) then (s, false)
      else
        let s1 := if ord = 1 then s else releaseAction s t.core scope
        if ord ≠ 1 ∧ wideScope scope ∧ farPending s1 t.core then (s1, false)
        else
          let s2 := if ord = 2 then s1 else acquireAction s1 t.core scope
          (s2.updThread k (fun u => { u with fence := none }), true)
  if !fenced.2 then .hold fenced.1 .waiting
  else if t.polls || t.awaits (fun p => p.acquire.isSome) || (release && t.awaits (fun p => p.token != 15)) || (global && t.awaits (·.global)) then
    .hold fenced.1 .waiting
  else .pass fenced.1

/-! ## Issuing -/

/-- An operation of a long instruction with every optional field left out. -/
def mkOp (t : Thread) (o : Long) : Op where
  flag := flagOf t o.fs
  dst := none
  ext := .zero
  size := 0
  status := .sent
  seq := 0
  remote := false
  global := false
  reads := false
  held := false
  acquire := none
  release := none
  line := none
  left := false
  asked := none
  pieces := []
  data := []
  failed := none
  pend := none
  info := 0#64
  at_ := t.pc
  next := t.after
  token := 0
  extra := []
  issued := 0
  cls := 3

/-- Adds an operation to its thread and raises its flag; its key. -/
def addOp (s : State) (k : Nat) (p : Op) : State × Nat :=
  let key := s.fresh
  ({ s with fresh := key + 1 }.updThread k (fun t => { t with ops := t.ops.put key { p with issued := s.ticks } }.raise p.flag), key)

/-- Changes an operation. -/
def updOp (s : State) (k key : Nat) (f : Op → Op) : State :=
  s.updThread k (fun t => { t with ops := t.ops.adjust key f })

/-- A piece of an operation is refused: the others are still performed (R400). -/
def failPiece (s : State) (k key code cls : Nat) : State :=
  updOp s k key (fun p => { p with failed := some (p.failed.getD code), cls := if p.failed.isSome then p.cls else cls })

/-- An operation is performed with these bytes; the write of a release reaches its home, and an acquire then takes its cache action
(R66), and waits there while a write-back to another package is on its way.  One with a refused piece is refused. -/
def opReady (s : State) (k key : Nat) (data : List Byte) : State :=
  match s.thread k with
  | none => s
  | some t =>
    match (t.ops.find key).bind (·.failed) with
    | some code => updOp s k key (fun p => { p with status := .refused code p.info, pieces := [], line := none })
    | none =>
      let s0 := updOp s k key (fun p => { p with status := .ready data, pieces := [], line := none, data := data })
      let s1 := match (t.ops.find key).bind (·.release) with
        | some scope => releaseAction s0 t.core scope
        | none => s0
      if ((t.ops.find key).bind (·.release)).any wideScope && farPending s1 t.core then
        updOp s1 k key (fun p => { p with status := .sent, token := 13 })
      else match (t.ops.find key).bind (·.acquire) with
        | some scope => acquireAction s1 t.core scope
        | none => s1

/-- An operation is refused. -/
def opRefused (s : State) (k key code : Nat) (info : DWord) : State :=
  updOp s k key (fun p => { p with status := .refused code info, pieces := [], line := none })

/-- An enqueue or access that needs nothing more completes at its OPERATION_COMPLETE. -/
def addReady (s : State) (k : Nat) (p : Op) (data : List Byte) : State :=
  (addOp s k { p with status := .ready data }).1

/-! ## Pieces -/

/-- Sends a piece of an operation to its home.  An atomic, reduction or full/empty access first leaves no copy in the issuing die (R68, R71), and
to another package it goes only when nothing of its line is on the way there any more. -/
def sendPiece (s : State) (k key : Nat) (t : Thread) (p : Piece) : State :=
  let home := homeEndpoint p.pa
  let s1 := if p.access.atHome then clearIsland s t.core (lineOf p.pa) else s
  let q := (s1.core t.core).seq
  let pk := { mkPacket 1 (reqType p.access) t.core home (flitsOf p.access.payload)
                (.request (reqType p.access) p k key t.atomIx) with
              addr := BitVec.ofNat 64 p.pa
              deriv := if t.prio.isSome then t.sr.deriv else 0#64
              parent := if t.prio.isSome then some t.sr.deriv else none
              team := t.team
              priv := t.sr.priv }
  let s2 := (updOp s1 k key (fun o => { o with status := .sent, seq := q })).send pk
  if p.access.atHome && linePending s1 t.core (lineOf p.pa) then updOp s1 k key (fun o => { o with line := some (lineOf p.pa) })
  else if p.access.logged then s2.updThread k (fun u => { u.visit home with atomIx := u.atomIx + 1 }) else s2

/-- An earlier lane of the same issue has still to come to some of n bytes at an address, behind a piece that it waits for (R271). -/
def laneBefore (s : State) (k key : Nat) (t : Thread) (pa n : Nat) : Bool :=
  match t.ops.find key with
  | none => false
  | some o => s.threads.any (fun q => q.1 != k && q.2.core == t.core && decide (q.2.lane < t.lane) &&
      q.2.ops.any (fun x => decide (x.1 < key) && x.2.issued == o.issued && x.2.at_ == o.at_ && x.2.sent &&
        x.2.pieces.tail.any (fun y => decide (y.pa < pa + n) && decide (pa < y.pa + y.access.size))))

/-- Performs the pieces of an operation in order, as far as the L1 can: the first that is performed at its home is sent there, the
first that misses waits for its line. -/
def runPieces (s : State) (k key : Nat) (t : Thread) : List Piece → List Byte → State
  | [], data => opReady s k key data
  | p :: rest, data =>
    let left (s : State) (line : Option Nat) : State :=
      updOp s k key (fun o => { o with pieces := p :: rest, data := data, line := line, status := .sent, left := true })
    if laneBefore s k key t p.pa p.access.size then left s (some (lineOf p.pa))
    else if p.home then
      if reachable s t.core (homeEndpoint p.pa) && (p.pa / 2 ^ 44 != Config.package || memoryOn s p.pa) then sendPiece (left s none) k key t p
      else runPieces (failPiece s k key 0x67 (memoryClass s p.pa)) k key t rest data
    else
      let whole := match p.access with
        | .store _ => true
        | _ => false
      if !lineReady s t.core p.pa p.access.writes then left s (some (lineOf p.pa))
      else if hitsError s p.pa p.access.size whole then runPieces (failPiece s k key 0x2A (memoryClass s p.pa)) k key t rest data
      else
        let r := performL1 s t.core p.pa p.access
        let s1 := if whole then { r.1 with bad := r.1.bad.filter (fun w => !coversWord p.pa p.access.size w) } else r.1
        runPieces (nextHint s1 t.core p.pa p.hint) k key t rest (data ++ r.2)

/-- The line that an operation's first piece needs comes into its L1, from a peer, its home or, with these bytes, another package; the pieces
go on, and a line that the hint keeps out of the L1 leaves again. -/
def servePiece (s : State) (k key : Nat) (t : Thread) (p : Op) (pc : Piece) (got : Option (List Byte × Nat)) : State :=
  let s1 := runPieces (serveMiss s t.core pc.pa pc.hint got pc.access.writes) k key t p.pieces p.data
  dropHint s1 t.core pc.pa pc.hint

/-- Before a line of another package is asked of its home its update-only copies go there, and an M copy elsewhere in the island. -/
def sendLineHome (s : State) (ep l : Nat) : State :=
  (island s ep).foldl (fun s e => if e ≠ ep ∧ ((s.line e l).any (fun x => x.state = .m)) then evictLine s e l else s) (recallLine s l)

/-- Another L1 of the island holds a line in M. -/
def dirtyElsewhere (s : State) (ep l : Nat) : Bool := (island s ep).any (fun e => e != ep && (s.line e l).any (fun x => x.state = .m))

/-- A line of another package is asked of its home, once nothing of it is on its way there any more. -/
def askLine (s : State) (k key : Nat) (t : Thread) (p : Op) (l : Nat) : State :=
  let s1 := sendLineHome s t.core l
  if linePending s1 t.core l then s1
  else if !reachable s1 t.core (homeEndpoint l) then
    runPieces (failPiece s1 k key 0x67 (memoryClass s1 l)) k key t p.pieces.tail p.data
  else
    let q := (s1.core t.core).seq
    (updOp (perfCount s1 t.core 3 1) k key (fun o => { o with asked := some s1.stamp, seq := q })).send
      { mkPacket 1 0x10 t.core (homeEndpoint l) 1 (.request 0x10 { pa := l, home := true, access := .load 128, hint := (p.pieces.head?.map (·.hint)).getD 0 } k key 0)
        with addr := BitVec.ofNat 64 l, team := t.team, priv := t.sr.priv }

/-- A line has come from another package for an operation.  While another L1 of the island holds it in M, it is of no use: it is asked
for again. -/
def lineArrives (s : State) (k key : Nat) (t : Thread) (p : Op) (bs : List Byte) : State :=
  let s1 := updOp s k key (fun o => { o with asked := none })
  match p.pieces with
  | [] => s1
  | pc :: _ =>
    if dirtyElsewhere s t.core (lineOf pc.pa) then s1
    else servePiece s1 k key t p pc (some (bs, p.asked.getD s1.stamp))

/-- Goes on with an operation whose first piece, or the line that this piece needs, has been answered with these bytes.  A copy of an atomic's line
that the island took while the atomic was on its way home is older than it, and goes (R82). -/
def answerPiece (s : State) (k key : Nat) (bs : List Byte) : State :=
  match s.thread k with
  | none => s
  | some t =>
    match t.ops.find key with
    | none => s
    | some p =>
      if p.asked.isSome then lineArrives s k key t p bs
      else
        let s1 := match p.pieces.head? with
          | some pc => if pc.home && pc.access.logged && !isLocal pc.pa then clearIsland s t.core (lineOf pc.pa) else s
          | none => s
        runPieces s1 k key t p.pieces.tail (p.data ++ bs)

/-- L1_MISS_FILL (R65) for one operation that waits for a line. -/
def fillFor (s : State) (k key l : Nat) : State :=
  match s.thread k with
  | none => s
  | some t =>
    match t.ops.find key with
    | none => s
    | some p =>
      match p.pieces with
      | [] => s
      | pc :: _ =>
        if p.asked.isSome then s
        else if pc.home || laneBefore s k key t pc.pa pc.access.size then runPieces s k key t p.pieces p.data
        else if isFar l then
          if lineReady s t.core pc.pa false || (peerCopy s t.core l).isSome then servePiece s k key t p pc none
          else askLine s k key t p l
        else if !memoryOn s l then runPieces (failPiece s k key 0x67 (memoryClass s l)) k key t p.pieces.tail p.data
        else servePiece s k key t p pc none

/-- L1_MISS_FILL (R65): the line comes into a core's L1, and the operations that wait for it go on, oldest first. -/
def missFill (s : State) (ep l : Nat) : State :=
  let waiting := s.threads.flatMap (fun p =>
    if p.2.core = ep then (p.2.ops.filter (fun x => x.2.line == some l)).map (fun x => (x.1, p.1)) else [])
  (waiting.mergeSort (fun a b => decide (a.1 ≤ b.1))).foldl (fun s x => fillFor s x.2 x.1 l) s

/-- A write-back or partial has been acknowledged by another package, or refused: the releases and flushes of its die that waited for the
last one are performed. -/
def farDone (s : State) (ep seq : Nat) : State :=
  let s1 := s.updDie (epDie ep) (fun d => { d with farWrites := d.farWrites.filter (fun w => !(w.1 == ep && w.2.1 == seq)) })
  if farPending s1 ep then s1
  else (s1.threads.flatMap (fun p =>
      if epDie p.2.core = epDie ep then (p.2.ops.filter (fun x => x.2.token == 13)).map (fun x => (x.1, p.1)) else [])).foldl
    (fun s x => opReady (updOp s x.2 x.1 (fun o => { o with token := 0 })) x.2 x.1
      (((s.thread x.2).bind (fun t => t.ops.find x.1)).map (·.data) |>.getD [])) s1

/-- L1_MISS_FILL. -/
def execL1MissFill (core line : Nat) (s : State) : Host.Outcome State Fault Refusal := .next (missFill s core line)

/-! ## Global addresses (R269, R399, R400, R78) -/

/-- A global address: a plus b, which a register gives sign-extended (R269). -/
def globalAddress (t : Thread) (o : Long) : DWord :=
  let e := match o.kb.toNat with
    | 0 => (t.reg o.b.toNat).signExtend 64
    | 1 => 0#64
    | 2 => t.buf
    | _ => o.lit.getD 0#64
  src64 t o .a + e

/-- A scratch, column or remote address: the sum of two narrow operands (R269). -/
def narrowAddress (t : Thread) (o : Long) (x y : Src) : Nat := (src32 t o x + src32 t o y).toNat

/-- The pieces of n bytes at an address: cut at each 128-byte line (R78). -/
def cutLines (va n : Nat) : List (Nat × Nat) :=
  let first := min n (128 - va % 128)
  if first = n then [(va, n)] else [(va, first), (va + first, n - first)]

/-- The outcome of placing an access: physical pieces with their page entries, or what the instruction does instead. -/
inductive Placed where
  | ok (s : State) (l : List (Nat × Nat × DWord))
  | out (r : Out)

/-- A trap of the memory area found at issue (R401). -/
def memTrap (s : State) (code cls : Nat) (info : DWord) (t : Thread) : Out := .trap s { trapAt code info t.pc with cls := cls }

/-- Translates the pieces of an access in turn: a miss starts a walk and parks the thread, a refusal traps at the instruction. -/
def placePieces (s : State) (k : Nat) (t : Thread) (cls : Nat) (fe soft : Bool) : List (Nat × Nat) → Placed
  | [] => .ok s []
  | (va, n) :: rest =>
    let m := s.team t.team
    match translate s t.core m.asid t.sr.priv cls va with
    | .miss => .out (.wait (startWalk s t.core k m.asid m.root va cls fe t.sr.priv soft) (.parked false))
    | .refuse s1 code => .out (memTrap s1 code 2 (BitVec.ofNat 64 va) t)
    | .ok s1 pa e =>
      match placePieces s1 k t cls fe soft rest with
      | .ok s2 l => .ok s2 ((pa, n, e) :: l)
      | .out r => .out r

/-- Places n bytes at a global address (R400): the address form, then alignment, then translation. -/
def placeGlobal (s : State) (k : Nat) (t : Thread) (cls : Nat) (fe soft : Bool) (va : DWord) (n align : Nat) : Placed :=
  if va.toNat + n > 2 ^ 56 ∨ va.toNat % align ≠ 0 then .out (memTrap s 0x24 0 va t)
  else placePieces s k t cls fe soft (cutLines va.toNat n)

/-- A piece of an access goes to its home: an S page, or an access that is always performed there (R64, R67). -/
def goesHome (e : DWord) (always : Bool) : Bool := always || pteKind e == 0

/-- Cuts a list of bytes at the lengths of the pieces. -/
def cutData : List (Nat × Nat × DWord) → List Byte → List (List Byte)
  | [], _ => []
  | (_, n, _) :: rest, bs => bs.take n :: cutData rest (bs.drop n)

/-- The pieces of a load. -/
def loadPieces (hint : Nat) (l : List (Nat × Nat × DWord)) : List Piece :=
  l.map (fun p => { pa := p.1, home := goesHome p.2.2 false, access := .load p.2.1, hint := hint })
/-- The pieces of a store. -/
def storePieces (hint : Nat) (l : List (Nat × Nat × DWord)) (bs : List Byte) : List Piece :=
  (l.zip (cutData l bs)).map (fun p => { pa := p.1.1, home := goesHome p.1.2.2 false, access := .store p.2, hint := hint })

/-! ## The end of an operation (OPERATION_COMPLETE) -/

/-- The registers that a short instruction reads or writes (R214). -/
def shortRegs : Instr → List (Nat × Nat)
  | .movShort a d | .addShort a d | .subShort a d | .faddShort a d | .fmulShort a d => [(d.toNat, 1), (a.toNat, 1)]
  | .addi _ a d | .shli _ a d | .shri _ a d | .sari _ a d | .andi _ a d => [(d.toNat, 1), (a.toNat, 1)]
  | .lis _ _ d => [(d.toNat, 1)]
  | .ldw _ a d | .stw _ a d => [(d.toNat, 1), (a.toNat, 2)]
  | .ldsw _ a d | .stsw _ a d => [(d.toNat, 1), (a.toNat, 1)]
  | _ => []

/-- The instruction waits for the destination of an operation (R212); EXIT and RQUE wait for every register that is owed. -/
def needs (i : Instr) (p : Op) : Bool :=
  match p.dst with
  | none => false
  | some (r, n) =>
    let meets (u : Nat × Nat) : Bool := decide (r < u.1 + u.2) && decide (u.1 < r + n)
    match i with
    | .exit _ | .exitShort | .rque _ => true
    | .braShort _ _ gp | .callShort _ _ gp => p.ext == .predicate && gp.toNat == r
    | _ =>
      match i.long? with
      | some (op, o) => if p.ext = .predicate then r != 0 && (usedPreds op o).contains r else (usedRegs op o).any meets
      | none => p.ext != .predicate && (shortRegs i).any meets

/-- The thread stands at an instruction that needs the operation's destination, whether or not it has tried it (R401, log 121). -/
def waitsFor (t : Thread) (p : Op) : Bool :=
  let stands : Bool := match t.state with
    | .parked true | .waiting | .runnable => true
    | _ => false
  stands && (match t.clause with
    | none => false
    | some c =>
      match decode (c.words.drop ((t.pc - c.base).toNat / 4 - 1)) with
      | .ok (i, _) => needs i p
      | .error _ => false)

/-- An exited thread whose last operation has ended, and whose group has been freed, is forgotten. -/
def forgetThread (s : State) (k : Nat) : State :=
  match s.thread k with
  | none => s
  | some t =>
    if t.state == .exited && t.ops.isEmpty && (s.groups.find t.group).isNone then { s with threads := s.threads.drop k } else s

/-- The structure class of a refusal (R399, R416, R428): by its code, else that of what was accessed. -/
def refusalClass (cls code : Nat) : Nat :=
  match code with
  | 0x20 | 0x21 | 0x22 | 0x23 | 0x25 => 2
  | 0x24 | 0x56 => 0
  | 0x28 => if cls = 3 then 3 else 5
  | 0x29 => 5
  | 0x2E => 4
  | 0x50 => 3
  | _ => cls

/-- A refused operation reaches its thread (R391, R401): at the access or at an instruction that waits for its result the thread
takes the area code; gone past, it takes 0x10 at its next instruction boundary; exited, only the event is written.  A malformed box node that is
reported late has its own event too, with the node's address and no BOXT (R416). -/
def deliverRefusal (s : State) (k : Nat) (t : Thread) (p : Op) (code : Nat) (info : DWord) : State :=
  let late := if code = 0x50 then s.event t.core 3 0x50 2 false info.toNat 0 else s
  if t.state == .exited then late.event t.core 0 0x10 2 false code p.seq
  else if p.held || waitsFor t p then
    takeTrap s k { code := code, info0 := info, info1 := p.at_, late := false, seq := 0, low3 := none, cls := refusalClass p.cls code }
  else late.updThread k (fun u => { u with lateTrap := u.lateTrap ++ [(0x10, BitVec.ofNat 64 code, p.seq)] })

/-- A thread that waited for an operation waits no more after its end (R17, R46): no flag that its header names is up, or no operation
is left that owes a register of its instruction. -/
def waitOver (t : Thread) (p : Op) : Bool :=
  (t.state == .waiting || t.state == .parked true) && (match t.clause with
    | none => (List.range 12).all (fun i => !t.named.getLsbD i || t.flags.getD i 0 == 0)
    | some _ => waitsFor t p && !(NMap.vals t.ops).any (waitsFor t))

/-- After the end of an operation: a thread that stood in Waiting or Parked for it becomes Runnable, in a saved context as well. -/
def endWait (s : State) (k : Nat) (p : Op) : State :=
  s.updThread k (fun t => if waitOver t p then { t with state := .runnable, arrival := s.now t } else t)

/-- The end of an operation (R212): its data goes to its destination, its flag falls, and a held thread goes on.  A job descriptor's
read and a poll's try end through events of their own. -/
def completeOp (s : State) (k key : Nat) : State :=
  match s.thread k with
  | none => s
  | some t =>
    match t.ops.find key with
    | none => s
    | some p =>
      let closed := s.updThread k (fun u => ({ u with ops := u.ops.drop key }).lower p.flag)
      match p.status with
      | .sent | .again _ => s
      | .ready data =>
        if p.token = 4 ∨ p.token = 6 then s else
        let s1 := match p.dst with
          | none => closed
          | some (r, n) => closed.updThread k (fun u =>
              if p.ext = Extend.predicate then u.setPred r (leNat data != 0)
              else u.setRegs r ((extendDatum p.ext p.size data).take n))
        let seen (u : Thread) : Thread :=
          if p.token = 1 then { u with sstep := u.sstep.map (fun d => (d.1, leNat data)) } else u
        let s1a := s1.updThread k seen
        let s2 := if p.held && (t.state == .parked false || t.state == .barWait) then
          arriveHeld (s1a.updThread k (fun u => u.goto p.next (s.now t) false)) k else s1a
        forgetThread (endWait s2 k p) k
      | .refused code info => forgetThread (endWait (deliverRefusal closed k t p code info) k p) k

/-- LATE_REFUSAL_TRAP (R391): at its next instruction boundary the thread takes its oldest late trap. -/
def takeLate (s : State) (k : Nat) : State :=
  match s.thread k with
  | none => s
  | some t =>
    match t.lateTrap with
    | [] => s
    | (code, info, seq) :: rest =>
      let free : Bool := match t.state with
        | .runnable | .waiting | .parked true | .descheduled => true
        | _ => false
      if !free || t.yielded then s
      else takeTrap (s.updThread k (fun u => { u with lateTrap := rest })) k (trapLate code info seq)

/-- LATE_REFUSAL_TRAP. -/
def execLateRefusalTrap (s : State) : Host.Outcome State Fault Refusal := .next (takeLate s s.obj)

end Sys2Proof.Machine
end

