-- ==== Sys2Proof/Machine/FullEmpty.lean ====
section
/-! DEFINITION. Full/empty words (R70, R71, R275, R276, R409, R410), and the atomic logs (R443). -/

namespace Sys2Proof.Machine

/-! ## Full/empty accesses at their place -/

/-- The access's required state holds (R275). -/
def feHolds (a : Access) (full : Bool) : Bool :=
  match a with
  | .take _ _ => full
  | .fill 0 _ => !full
  | .fill 1 _ => full
  | _ => true

/-- A location of scratch that is the part's bookkeeping: reads zero, writes are ignored (R52). -/
def locBookkeeping (loc : Nat) : Bool := decide (2 ^ 60 ≤ loc) && decide (loc < 2 ^ 61) && bookkeeping ((loc - 2 ^ 60) % 2 ^ 32)

/-- Performs a full/empty access at a location whose state it finds as required: the state left and the bytes returned. -/
def feApply (s : State) (loc : Nat) (a : Access) : State × List Byte :=
  if locBookkeeping loc then (s, match a with
    | .take n _ => List.replicate n 0#8
    | .setFe _ => [1#8]
    | _ => [])
  else match a with
  | .take n copy => ((if copy then s else s.setFull loc false), s.read loc n)
  | .fill _ d => ((homeWrite s loc d).setFull loc true, [])
  | .setFe f => (s.setFull loc f, [if s.full loc then 1#8 else 0#8])
  | _ => (s, [])

/-- Endpoint of a scratch location. -/
def locEndpoint (loc : Nat) : Nat := (loc - 2 ^ 60) / 2 ^ 32

/-- The retry list that holds the waiting accesses to a location: its scratch controller's, or its home die's L2 slices'. -/
def retryList (s : State) (loc : Nat) : List Retry :=
  if isLocal loc then (s.core (locEndpoint loc)).retry else (s.die (homeDie loc)).retry

/-- Writes that retry list. -/
def setRetry (s : State) (loc : Nat) (l : List Retry) : State :=
  if isLocal loc then s.updCore (locEndpoint loc) (fun c => { c with retry := l })
  else s.updDie (homeDie loc) (fun d => { d with retry := l })

/-- The waiting access is answered: in its own core, or by RSP. -/
def feAnswer (s : State) (r : Retry) (data : List Byte) : State :=
  if isLocal r.loc then answerPiece s r.thread r.op data
  else s.inject { mkPacket 2 0x20 (homeEndpoint r.loc) r.src 1 (.data data r.thread r.op) with seq := if r.thread = farThread then r.op else 0 }

/-- The home walks a word's waiting accesses in arrival order, performing each whose state holds until one does not (R71). -/
def feWalk (s : State) (loc : Nat) : List Retry → State
  | [] => s
  | r :: rest =>
    if r.loc / 8 != loc / 8 then feWalk s loc rest
    else if !feHolds r.access (s.full loc) then s
    else
      let x := feApply s r.loc r.access
      feWalk (feAnswer (setRetry x.1 r.loc ((retryList x.1 r.loc).filter (fun y => y.order != r.order))) r x.2) loc rest

/-- What a full/empty access does at its place. -/
inductive FeResult where
  | done (s : State) (data : List Byte)
  | parked (s : State)
  | again
  | error

/-- Entries a retry list may hold (R71): 64 at a scratch controller; 32 at an L2 slice, counted per channel. -/
def retryRoom (s : State) (loc : Nat) : Bool :=
  if isLocal loc then decide ((retryList s loc).length < 64)
  else decide (((retryList s loc).filter (fun r => channelOf r.loc == channelOf loc)).length < 32)

/-- A full/empty access reaches its place: performed, parked in the retry list, or turned away when that is full (R71, R409). -/
def feArrive (s : State) (src thread op loc : Nat) (a : Access) : FeResult :=
  let s0 := if isLocal loc then s else touchL2 (clearEverywhere s (lineOf loc)) loc 0
  if hitsError s0 (loc - loc % 8) 8 false then .error
  else if feHolds a (s0.full loc) then
    let x := feApply s0 loc a
    .done (feWalk x.1 loc (retryList x.1 loc)) x.2
  else if !retryRoom s0 loc then .again
  else
    let r : Retry := { order := s0.fresh, src := src, thread := thread, op := op, loc := loc, access := a, since := s0.time }
    .parked (setRetry { s0 with fresh := s0.fresh + 1 } loc (retryList s0 loc ++ [r]))

/-- A waiting access is withdrawn from every retry list (R387, R410). -/
def withdrawRetry (s : State) (thread op : Nat) : State :=
  let keep (l : List Retry) : List Retry := l.filter (fun r => !(r.thread == thread && r.op == op))
  { s with
    cores := s.cores.map (fun p => (p.1, { p.2 with retry := keep p.2.retry }))
    dies := s.dies.map (fun p => (p.1, { p.2 with retry := keep p.2.retry })) }

/-! ## Atomic logs (R443) -/

/-- What the log of a place says of an atomic of a record thread. -/
inductive Logged where
  | fresh
  | seen (old : List Byte)
  | full

/-- Looks an atomic up in a log of a capacity. -/
def lookLog (l : List LogEntry) (deriv : DWord) (index place capacity : Nat) : Logged :=
  match l.find? (fun e => e.deriv == deriv && e.index == index) with
  | some e => .seen e.old
  | none => if capacity ≤ (l.filter (fun e => e.place == place)).length then .full else .fresh

/-- The outcome of an atomic or reduction at its place. -/
inductive AtomResult where
  | done (s : State) (data : List Byte)
  | held (s : State)
  | error

/-- Performs an atomic at a core's scratch controller, at most once for a record thread (R278, R443). -/
def atomScratch (s : State) (ep off : Nat) (a : Access) (deriv : Option DWord) (index : Nat) : AtomResult :=
  let loc := scratchLoc ep off
  if hitsError s loc a.size false then .error
  else
    let cur := readScratch s ep off a.size
    let r := a.apply cur
    let perform (s : State) : State := writeScratch s ep off r.1
    match deriv with
    | none => .done (perform s) r.2
    | some d =>
      match lookLog (s.core ep).alog d index 0 256 with
      | .seen old => .done s old
      | .full =>
        .held (if (s.core ep).logFull then s
          else (s.updCore ep (fun c => { c with logFull := true })).event ep 3 0x6F 1 false off 256)
      | .fresh => .done ((perform s).updCore ep (fun c =>
          { c with logFull := false, alog := c.alog ++ [{ deriv := d, index := index, place := 0, old := r.2 }] })) r.2

/-- The place in a die's logs of an address: its channel, or 0 for LPDDR; and the log's capacity. -/
def logPlace (pa : Nat) : Nat × Nat := if regionOf pa == .lpddr then (0, 16384) else (channelOf pa, 65536)

/-- What the log at the home of an address says of a write of a record thread. -/
def onceAtHome (s : State) (pa : Nat) (deriv : Option DWord) (index : Nat) : Logged :=
  match deriv with
  | none => .fresh
  | some d => lookLog (s.die (homeDie pa)).alog d index (logPlace pa).1 (logPlace pa).2

/-- The write of a record thread enters the log at its home. -/
def logAtHome (s : State) (pa : Nat) (deriv : Option DWord) (index : Nat) (old : List Byte) : State :=
  match deriv with
  | none => s
  | some d => s.updDie (homeDie pa) (fun x => { x with
      logFull := x.logFull.filter (· != (logPlace pa).1), alog := x.alog ++ [{ deriv := d, index := index, place := (logPlace pa).1, old := old }] })

/-- Performs an atomic or reduction at its home, at most once for a record thread. -/
def atomHome (s : State) (pa : Nat) (a : Access) (deriv : Option DWord) (index : Nat) (hint : Nat := 0) : AtomResult :=
  let die := homeDie pa
  match onceAtHome s pa deriv index with
  | .seen old => .done s old
  | .full =>
    .held (if (s.die die).logFull.contains (logPlace pa).1 then s
      else (s.updDie die (fun x => { x with logFull := (logPlace pa).1 :: x.logFull })).event (faultUnit die) (if regionOf pa == .lpddr then 7 else 5) 0x6F 1 false pa
        (logPlace pa).2)
  | .fresh =>
    match performHome s pa a hint with
    | none => .error
    | some (s1, bs) => .done (logAtHome s1 pa deriv index bs) bs

/-! ## Waits of a full/empty access (R409, R410) -/

/-- FE_RETRY_RESEND: 256 ns after its home turned it away, a full/empty access is sent again. -/
def feResend (s : State) (k : Nat) : State :=
  match s.thread k with
  | none => s
  | some t =>
    match t.ops.find? (fun p => match p.2.status with
      | .again since => decide (since + 256 ≤ s.time)
      | _ => false) with
    | none => s
    | some (key, p) =>
      match p.pieces with
      | [] => s
      | pc :: _ =>
        if isLocal pc.pa then
          match feArrive s t.core k key pc.pa pc.access with
          | .done s1 data => answerPiece s1 k key data
          | .parked s1 => updOp s1 k key (fun o => { o with status := .sent })
          | .again => updOp (s.count (lifeKey 10 (epDie t.core) 3) 1) k key (fun o => { o with status := .again s.time })
          | .error => loseTreelet (opRefused s k key 0x2A p.info) t.core (pc.pa - scratchLoc t.core 0) (threadRay s t)
        else sendPiece s k key t pc

/-- FE_RETRY_RESEND. -/
def execFeRetryResend (s : State) : Host.Outcome State Fault Refusal := .next (feResend s s.obj)

/-- The limit of a place's full/empty waits (R410). -/
def feLimit (s : State) (loc : Nat) : Nat :=
  let w := if isLocal loc then (s.core (locEndpoint loc)).fewait else (s.die (homeDie loc)).fewait
  (w.extractLsb' 0 24).toNat * 1024

/-- FE_WAIT_TIMEOUT: a waiting access of a thread that has waited its limit leaves the retry list and is refused with 0x28. -/
def feTimeout (s : State) (k : Nat) : State :=
  let all := s.cores.flatMap (fun p => p.2.retry) ++ s.dies.flatMap (fun p => p.2.retry)
  match all.find? (fun r => r.thread == k && feLimit s r.loc != 0 && decide (r.since + feLimit s r.loc ≤ s.time)) with
  | none => s
  | some r =>
    let s1 := setRetry s r.loc ((retryList s r.loc).filter (fun x => x.order != r.order))
    let info := match (s.thread k).bind (fun t => t.ops.find r.op) with
      | some p => p.info
      | none => 0#64
    if isLocal r.loc then opRefused s1 k r.op 0x28 info
    else s1.inject { mkPacket 2 0x22 (homeEndpoint r.loc) r.src 1 (.refusal 0x28 info k r.op) with seq := if k = farThread then r.op else 0 }

/-- FE_WAIT_TIMEOUT. -/
def execFeWaitTimeout (s : State) : Host.Outcome State Fault Refusal := .next (feTimeout s s.obj)

end Sys2Proof.Machine
end

