-- ==== Sys2Proof/Machine/MemoryInstr.lean ====
section
/-! DEFINITION. Loads, stores, full/empty accesses, atomics, prefetch, flush and fences: opcodes 0x50 to 0x5D (R268 to R282) and
the short loads and stores (R214). -/

namespace Sys2Proof.Machine

/-! ## Shared steps -/

/-- The order includes acquire, or release (R268). -/
def ordAcq (o : Long) : Bool := o.ord == 1#2 || o.ord == 3#2
def ordRel (o : Long) : Bool := o.ord == 2#2 || o.ord == 3#2

/-- The scope of a release, where the order includes one. -/
def relScope (o : Long) : Option Nat := if ordRel o then some o.scope.toNat else none

/-- A release of a package scope or wider has write-backs on their way to another package. -/
def releaseWaits (s : State) (ep scope : Nat) : Bool := wideScope scope && farPending (releaseAction s ep scope) ep

/-- A counting memory instruction: its flag must have room and nothing may hold it back, for a release not even a write-back on its way to
another package; then it goes on (R212, R66, R81, R282). -/
def memStart (s : State) (k : Nat) (t : Thread) (o : Long) (global : Bool) (release : Option Nat) (go : State → Thread → Out) : Out :=
  if flagFull t (flagOf t o.fs) then .wait s .waiting
  else match memGate s k t global release.isSome with
    | .hold s1 st => .wait s1 st
    | .pass s1 =>
      if release.any (releaseWaits s1 t.core) then .wait (releaseAction s1 t.core (release.getD 0)) .waiting
      else go s1 { t with fence := none }

/-- Adds an operation and performs its pieces as far as they go at once. -/
def startPieces (s : State) (k : Nat) (p : Op) (pieces : List Piece) : State :=
  let r := addOp s k p
  match r.1.thread k with
  | none => r.1
  | some t => runPieces r.1 k r.2 t pieces []

/-- The first word of a long instruction, as TRAPINFO0 names it. -/
def firstWord (op : LongOp) (o : Long) : DWord := ((encodeLong op o).headD 0#32).setWidth 64

/-- The release half of an order: the cache action of R66. -/
def releaseFor (s : State) (t : Thread) (o : Long) : State :=
  if ordRel o then releaseAction s t.core o.scope.toNat else s
/-- The acquire half of an order, to be taken when the access is performed. -/
def acquireFor (o : Long) : Option Nat := if ordAcq o then some o.scope.toNat else none

/-- A load's operation: destination, size, extension. -/
def loadOp (t : Thread) (o : Long) (signed : Bool) (info : DWord) : Op :=
  { mkOp t o with
    dst := some (o.d.toNat, sizeRegs o.size)
    ext := if signed then .sign else .zero
    size := sizeBytes o.size
    reads := true
    acquire := acquireFor o
    info := info }

/-- The bytes a store takes from its register run (R270). -/
def storeBytes (t : Thread) (o : Long) : List Byte :=
  (wordsToBytes (srcRun t o .c (sizeRegs o.size))).take (sizeBytes o.size)

/-! ## LD, ST (R274) -/

/-- LD. -/
def effLd (o : Long) : State → Nat → Thread → Out := fun s k t =>
  memStart s k t o true (relScope o) (fun s t =>
    let va := globalAddress t o
    match placeGlobal s k t 0 false false va (sizeBytes o.size) 1 with
    | .out r => r
    | .ok s1 l =>
      .go (startPieces (releaseFor s1 t o) k { loadOp t o (o.mode.getLsbD 0) va with global := true } (loadPieces o.hint.toNat l)))

/-- ST. -/
def effSt (o : Long) : State → Nat → Thread → Out := fun s k t =>
  memStart s k t o true (relScope o) (fun s t =>
    let va := globalAddress t o
    match placeGlobal s k t 1 false false va (sizeBytes o.size) 1 with
    | .out r => r
    | .ok s1 l =>
      .go (startPieces (releaseFor s1 t o) k
        { mkOp t o with global := true, acquire := acquireFor o, release := if ordRel o then some o.scope.toNat else none, info := va }
        (storePieces o.hint.toNat l (storeBytes t o))))

/-! ## Scratch (R53, R55, R274) -/

/-- The member of the issuer's cluster with an index (R31): its team's key. -/
def memberTeam (s : State) (t : Thread) (n : Nat) : Option Nat :=
  let m := s.team t.team
  match m.cluster with
  | none => none
  | some (c, _) => (s.teams.find? (fun p => p.2.grid == m.grid && p.2.cluster == some (c, n))).map (·.1)

/-- A request of another packet leaves this thread: its operation counts in RPEND and in its team (R287). -/
def sendRemote (s : State) (k : Nat) (t : Thread) (p : Op) (mk : Nat → Packet) : State :=
  let q := (s.core t.core).seq
  let r := addOp s k { p with remote := true, left := true, seq := q }
  let s1 := (r.1.updCore t.core (fun c => { c with rpend := c.rpend + 1 })).updTeam t.team (fun m => { m with remote := m.remote + 1 })
  let pk := mk r.2
  if reachable s t.core pk.dst then
    s1.send { pk with
      src := t.core
      team := t.team
      priv := t.sr.priv
      deriv := if t.prio.isSome then t.sr.deriv else 0#64
      parent := if t.prio.isSome then some t.sr.deriv else none }
  else
    let s2 := (s1.updCore t.core (fun c => { c with rpend := c.rpend - 1 })).updTeam t.team (fun m => { m with remote := m.remote - 1 })
    opRefused s2 k r.2 0x67 p.info

/-- An access to the issuing team's own scratch, performed at once at its controller. -/
def ownScratch (s : State) (k : Nat) (t : Thread) (p : Op) (addr : Nat) (a : Access) : Out :=
  match scratchOffset s t.core (s.team t.team) t.sr.priv a.writes addr a.size with
  | none => memTrap s 0x26 3 (BitVec.ofNat 64 addr) t
  | some off =>
    let whole := match a with
      | .store _ => true
      | _ => false
    let r := addOp s k p
    if hitsError s (scratchLoc t.core off) a.size whole then .go (loseTreelet (opRefused r.1 k r.2 0x2A p.info) t.core off (threadRay s t))
    else match a with
      | .store bs => .go (opReady { writeScratch r.1 t.core off bs with
          bad := s.bad.filter (fun w => !coversWord (scratchLoc t.core off) a.size w) } k r.2 [])
      | _ => .go (opReady r.1 k r.2 (readScratch s t.core off a.size))

/-- A scratch access, own or of a cluster member (R52, R53); of a member that has retired it is refused, as every remote access to a grid that is not
resident at its target (R408). -/
def scratchAccess (s : State) (k : Nat) (t : Thread) (o : Long) (p : Op) (a : Access) : Out :=
  let addr := narrowAddress t o .a .b
  if !o.mode.getLsbD 1 then ownScratch (releaseFor s t o) k t p addr a
  else
    let n := o.m4.toNat
    match memberTeam s t n with
    | none => let r := addOp s k p; .go (opRefused r.1 k r.2 0x27 p.info)
    | some mk =>
      let m := s.team mk
      let f := flitsOf (match a with
        | .store bs => bs.length
        | _ => 0)
      if m.scratchSize < addr + a.size then memTrap s 0x26 3 (BitVec.ofNat 64 addr) t
      else if m.core = t.core then ownScratch (releaseFor s t o) k t p addr a
      else match passTo s k t m.core f with
        | .hold s1 st => .wait s1 st
        | .ok s1 => .go (sendRemote (releaseFor s1 t o) k t p (fun key =>
            mkPacket 1 (reqType a) t.core m.core f (.member (m.scratch + addr) a k key)))

/-- LDS. -/
def effLds (o : Long) : State → Nat → Thread → Out := fun s k t =>
  memStart s k t o false (relScope o) (fun s t =>
    let addr := narrowAddress t o .a .b
    scratchAccess s k t o (loadOp t o (o.mode.getLsbD 0) (BitVec.ofNat 64 addr)) (.load (sizeBytes o.size)))

/-- STS. -/
def effSts (o : Long) : State → Nat → Thread → Out := fun s k t =>
  memStart s k t o false (relScope o) (fun s t =>
    let addr := narrowAddress t o .a .b
    scratchAccess s k t o { mkOp t o with acquire := acquireFor o, info := BitVec.ofNat 64 addr } (.store (storeBytes t o)))

/-! ## Column store (R57, R274, R350) -/

/-- A TWMMA of the thread has not read the column store yet. -/
def wavePending (s : State) (k : Nat) (t : Thread) : Bool := (s.core t.core).waves.any (fun w => w.lanes.any (fun l => l.2.1 == k))

/-- A TBLD of the thread has not written the column store yet. -/
def columnPending (t : Thread) : Bool := (NMap.vals t.ops).any (fun p => p.token == 9)

/-- An access to the issuing team's column window, or, for a record thread, to its lending team's, in the order of the thread's accesses to
the column store (R57). -/
def columnAccess (op : LongOp) (s : State) (k : Nat) (t : Thread) (o : Long) (p : Op) (a : Access) : Out :=
  let addr := narrowAddress t o .a .b
  if columnPending t || wavePending s k t then .wait s .waiting
  else match lendingTeam s t.team with
  | none => .trap s (trapAt 0x11 (firstWord op o) t.pc)
  | some lk =>
    match columnOffset (s.team lk) addr a.size with
    | none => memTrap s 0x26 4 (BitVec.ofNat 64 addr) t
    | some off =>
      let loc := columnLoc t.core off
      let r := addOp s k { p with info := BitVec.ofNat 64 addr }
      match a with
      | .store bs =>
        if hitsError s loc a.size true then .go (opRefused r.1 k r.2 0x2E (BitVec.ofNat 64 addr))
        else .go (opReady (homeWrite r.1 loc bs) k r.2 [])
      | _ =>
        if hitsError s loc a.size false then .go (opRefused r.1 k r.2 0x2E (BitVec.ofNat 64 addr))
        else .go (opReady r.1 k r.2 (s.read loc a.size))

/-- LDC. -/
def effLdc (o : Long) : State → Nat → Thread → Out := fun s k t =>
  memStart s k t o false none (fun s t =>
    columnAccess .ldc s k t o (loadOp t o (o.mode.getLsbD 0) 0#64) (.load (sizeBytes o.size)))

/-- STC. -/
def effStc (o : Long) : State → Nat → Thread → Out := fun s k t =>
  memStart s k t o false none (fun s t => columnAccess .stc s k t o (mkOp t o) (.store (storeBytes t o)))

/-! ## LDX, STX, SETFE (R275, R276, R406) -/

/-- A full/empty access: at the issuing team's scratch, or at the home of an HBM page with FE = 1.  Where it holds its thread, the thread is
Parked until it ends. -/
def feAccess (s : State) (k : Nat) (t : Thread) (o : Long) (p : Op) (a : Access) (n : Nat) : Out :=
  let finish (s : State) : Out := if p.held then .done (waitIn s k (.parked false)) else .go s
  if o.mode.getLsbD 2 then
    let addr := narrowAddress t o .a .b
    if addr % n ≠ 0 then memTrap s 0x24 0 (BitVec.ofNat 64 addr) t
    else match scratchOffset s t.core (s.team t.team) t.sr.priv true addr n with
      | none => memTrap s 0x26 3 (BitVec.ofNat 64 addr) t
      | some off =>
        let loc := scratchLoc t.core off
        let piece : Piece := { pa := loc, home := true, access := a }
        let r := addOp (releaseAction s t.core o.scope.toNat) k { p with pieces := [piece], info := BitVec.ofNat 64 addr }
        match feArrive r.1 t.core k r.2 loc a with
        | .done s1 data => finish (answerPiece s1 k r.2 data)
        | .parked s1 => finish s1
        | .again => finish (updOp (r.1.count (lifeKey 10 (epDie t.core) 3) 1) k r.2 (fun q => { q with status := .again s.time }))
        | .error => finish (loseTreelet (opRefused r.1 k r.2 0x2A (BitVec.ofNat 64 addr)) t.core off (threadRay s t))
  else
    let va := globalAddress t o
    match placeGlobal s k t 3 true false va n n with
    | .out r => r
    | .ok s1 l =>
      match l with
      | [] => .go s1
      | (pa, _, e) :: _ =>
        if !pteFe e || regionOf pa != .hbm then memTrap s1 0x23 2 va t
        else finish (startPieces (releaseAction s1 t.core o.scope.toNat) k { p with global := true, info := va }
          [{ pa := pa, home := true, access := a, hint := o.hint.toNat }])

/-- LDX. -/
def effLdx (o : Long) : State → Nat → Thread → Out := fun s k t =>
  memStart s k t o (!o.mode.getLsbD 2) (some o.scope.toNat) (fun s t =>
    let n := sizeBytes o.size
    feAccess s k t o { loadOp t o false 0#64 with held := true, acquire := some o.scope.toNat } (.take n (o.mode.getLsbD 0)) n)

/-- STX. -/
def effStx (o : Long) : State → Nat → Thread → Out := fun s k t =>
  memStart s k t o (!o.mode.getLsbD 2) (some o.scope.toNat) (fun s t =>
    feAccess s k t o { mkOp t o with held := true, acquire := some o.scope.toNat }
      (.fill (o.mode.toNat % 4) (storeBytes t o)) (sizeBytes o.size))

/-- SETFE: the bit's previous state goes to predicate d; p0 discards it, and nothing is owed. -/
def effSetfe (o : Long) : State → Nat → Thread → Out := fun s k t =>
  memStart s k t o (!o.mode.getLsbD 2) (some o.scope.toNat) (fun s t =>
    feAccess s k t o { mkOp t o with dst := if o.d = 0#9 then none else some (o.d.toNat, 1), ext := .predicate, reads := true } (.setFe (o.mode.getLsbD 0)) 8)

/-! ## ATOM, RED (R277 to R279) -/

/-- The access of an atomic. -/
def atomAccess (t : Thread) (o : Long) : Access :=
  let v (w : Src) : DWord := if o.size = 3#3 then src64 t o w else (src32 t o w).setWidth 64
  let swap := if o.size = 3#3 then t.reg (o.e.toNat + 1) ++ t.reg o.e.toNat else (t.reg o.e.toNat).setWidth 64
  .atomic o.m4.toNat (o.mode.toNat % 4) (sizeBytes o.size) (v .c) swap

/-- The operation of an atomic: operations below 10 return the old value. -/
def atomOp (t : Thread) (o : Long) (info : DWord) : Op :=
  if o.m4.toNat < 10 then loadOp t o false info else { mkOp t o with acquire := acquireFor o, reads := true, info := info }

/-- ATOM. -/
def effAtom (o : Long) : State → Nat → Thread → Out := fun s k t =>
  memStart s k t o (!o.mode.getLsbD 2) (relScope o) (fun s t =>
    let n := sizeBytes o.size
    let a := atomAccess t o
    if o.mode.getLsbD 2 then
      let addr := narrowAddress t o .a .b
      if addr % n ≠ 0 then memTrap s 0x24 0 (BitVec.ofNat 64 addr) t
      else match scratchOffset s t.core (s.team t.team) t.sr.priv true addr n with
        | none => memTrap s 0x26 3 (BitVec.ofNat 64 addr) t
        | some off =>
          let deriv := if t.prio.isSome then some t.sr.deriv else none
          match atomScratch (releaseFor s t o) t.core off a deriv t.atomIx with
          | .held s1 => .wait s1 (.parked true)
          | .error => .go (let r := addOp s k (atomOp t o (BitVec.ofNat 64 addr))
                           loseTreelet (opRefused r.1 k r.2 0x2A (BitVec.ofNat 64 addr)) t.core off (threadRay s t))
          | .done s1 old =>
            let r := addOp s1 k (atomOp t o (BitVec.ofNat 64 addr))
            .go ((opReady r.1 k r.2 old).updThread k (fun u => { u.visit t.core with atomIx := u.atomIx + 1 }))
    else
      let va := globalAddress t o
      match placeGlobal s k t 3 false false va n n with
      | .out r => r
      | .ok s1 l =>
        match l with
        | [] => .go s1
        | (pa, _, e) :: _ =>
          if regionOf pa == .agent then memTrap s1 0x23 2 va t
          else
            let home := goesHome e (t.prio.isSome || wideScope o.scope.toNat)
            .go (startPieces (releaseFor s1 t o) k { atomOp t o va with global := true } [{ pa := pa, home := home, access := a, hint := o.hint.toNat }]))

/-- RED: it completes, for its flag, when issued. -/
def effRed (o : Long) : State → Nat → Thread → Out := fun s k t =>
  memStart s k t o true (relScope o) (fun s t =>
    let n := sizeBytes o.size
    let va := globalAddress t o
    let c := if o.size = 3#3 then src64 t o .c else (src32 t o .c).setWidth 64
    match placeGlobal s k t 1 false false va n n with
    | .out r => r
    | .ok s1 l =>
      match l with
      | [] => .go s1
      | (pa, _, e) :: _ =>
        if regionOf pa == .agent then memTrap s1 0x23 2 va t
        else if goesHome e t.prio.isSome then
          .go (startPieces (releaseFor s1 t o) k { mkOp t o with flag := none, global := true, info := va }
            [{ pa := pa, home := true, access := .reduce o.m4.toNat (o.mode.toNat % 4) n c, hint := o.hint.toNat }])
        else
          let s2 := reduceL1 (releaseFor s1 t o) t.core pa o.hint.toNat o.m4.toNat (o.mode.toNat % 4) n c
          .go (dropHint (nextHint s2 t.core pa o.hint.toNat) t.core pa o.hint.toNat))

/-! ## PREF, FLUSH, FENCE (R280 to R282) -/

/-- PREF: it fetches a line into the L1 where its hint and page allow; it never waits and never traps but for the address form and a
PRIV page. -/
def effPref (o : Long) : State → Nat → Thread → Out := fun s k t =>
  match memGate s k t false false with
  | .hold s1 st => .wait s1 st
  | .pass s =>
    let va := globalAddress t o
    match placeGlobal s k t 4 false true va 1 1 with
    | .out r => r
    | .ok s1 l =>
      match l with
      | [] => .go s1
      | (pa, _, e) :: _ =>
        if !pteRead e || (!isFar pa && !memoryOn s1 pa) then .go s1
        else if o.hint == 3#3 || o.hint == 4#3 || o.hint == 7#3 then .go (nextHint (touchL2 s1 pa o.hint.toNat) t.core pa o.hint.toNat)
        else if pteFe e || goesHome e false || lineReady s1 t.core pa false then .go s1
        else if isFar pa then
          .go (startPieces s1 k { mkOp t o with flag := none, info := va } (loadPieces o.hint.toNat [(pa, 1, e)]))
        else .go (nextHint (fillLine s1 t.core (lineOf pa) o.hint.toNat none) t.core pa o.hint.toNat)

/-- FLUSH of one line in the issuing L1 (R281). -/
def flushLine (s : State) (ep l : Nat) (inv : Bool) : State :=
  match s.line ep l with
  | none => s
  | some x =>
    match x.state with
    | .u _ _ _ => evictLine s ep l
    | _ => if inv then evictLine s ep l else cleanLine s ep l

/-- A FLUSH is complete once what it sent is acknowledged: at once, unless something of its die is on its way to another package. -/
def endFlush (s : State) (k : Nat) (t : Thread) (p : Op) : State :=
  if farPending s t.core then (addOp s k { p with token := 13 }).1 else addReady s k p []

/-- FLUSH of one line. -/
def effFlush (o : Long) : State → Nat → Thread → Out := fun s k t =>
  memStart s k t o true none (fun s t =>
    let va := globalAddress t o
    match placeGlobal s k t 4 false true va 1 1 with
    | .out r => r
    | .ok s1 l =>
      match l with
      | [] => .go s1
      | (pa, _, e) :: _ =>
        let s2 := if goesHome e false then s1 else flushLine s1 t.core (lineOf pa) (o.m4.getLsbD 0)
        .go (endFlush s2 k t { mkOp t o with info := va }))

/-- FLUSH.ALL. -/
def effFlushAll (o : Long) : State → Nat → Thread → Out := fun s k t =>
  memStart s k t o true none (fun s t =>
    let s1 := (NMap.keys (s.core t.core).lines).foldl (fun s l => flushLine s t.core l (o.m4.getLsbD 0)) s
    .go (endFlush s1 k t (mkOp t o)))

/-- FENCE: its action is complete before the thread's next memory event (R282). -/
def effFence (o : Long) : State → Nat → Thread → Out := fun s k t =>
  match memGate s k t false false with
  | .hold s1 st => .wait s1 st
  | .pass s1 => .go (s1.updThread k (fun u => { u with fence := some (o.ord.toNat, o.scope.toNat) }))

/-! ## Meanings -/

/-- LD. -/
def execLd (o : Long) (s : State) : Host.Outcome State Fault Refusal := runLong .ld o (effLd o) s
/-- ST. -/
def execSt (o : Long) (s : State) : Host.Outcome State Fault Refusal := runLong .st o (effSt o) s
/-- LDS. -/
def execLds (o : Long) (s : State) : Host.Outcome State Fault Refusal := runLong .lds o (effLds o) s
/-- STS. -/
def execSts (o : Long) (s : State) : Host.Outcome State Fault Refusal := runLong .sts o (effSts o) s
/-- LDC. -/
def execLdc (o : Long) (s : State) : Host.Outcome State Fault Refusal := runLong .ldc o (effLdc o) s
/-- STC. -/
def execStc (o : Long) (s : State) : Host.Outcome State Fault Refusal := runLong .stc o (effStc o) s
/-- LDX. -/
def execLdx (o : Long) (s : State) : Host.Outcome State Fault Refusal := runLong .ldx o (effLdx o) s
/-- STX. -/
def execStx (o : Long) (s : State) : Host.Outcome State Fault Refusal := runLong .stx o (effStx o) s
/-- SETFE. -/
def execSetfe (o : Long) (s : State) : Host.Outcome State Fault Refusal := runLong .setfe o (effSetfe o) s
/-- ATOM. -/
def execAtom (o : Long) (s : State) : Host.Outcome State Fault Refusal := runLong .atom o (effAtom o) s
/-- RED. -/
def execRed (o : Long) (s : State) : Host.Outcome State Fault Refusal := runLong .red o (effRed o) s
/-- PREF. -/
def execPref (o : Long) (s : State) : Host.Outcome State Fault Refusal := runLong .pref o (effPref o) s
/-- FLUSH. -/
def execFlush (o : Long) (s : State) : Host.Outcome State Fault Refusal := runLong .flush o (effFlush o) s
/-- FLUSH.ALL. -/
def execFlushAll (o : Long) (s : State) : Host.Outcome State Fault Refusal := runLong .flushAll o (effFlushAll o) s
/-- FENCE. -/
def execFence (o : Long) (s : State) : Host.Outcome State Fault Refusal := runLong .fence o (effFence o) s

/-- The long form of a short load or store: address a + i with i = 4 × X6, size W (R214). -/
def aliasMem (i : BitVec 6) (a : BitVec 9) : Long :=
  { longZero with a := a, kb := 3#2, lit := some ((i.setWidth 64) <<< 2), sub := 2#13 }

/-- LDW. -/
def execLdw (i : BitVec 6) (a d : BitVec 9) (s : State) : Host.Outcome State Fault Refusal :=
  let o := { aliasMem i a with d := d }
  runShort .ld o (wordS 0x0B#6 i a d) (effLd o) s
/-- STW. -/
def execStw (i : BitVec 6) (a d : BitVec 9) (s : State) : Host.Outcome State Fault Refusal :=
  let o := { aliasMem i a with c := d }
  runShort .st o (wordS 0x0C#6 i a d) (effSt o) s
/-- LDSW. -/
def execLdsw (i : BitVec 6) (a d : BitVec 9) (s : State) : Host.Outcome State Fault Refusal :=
  let o := { aliasMem i a with d := d }
  runShort .lds o (wordS 0x0D#6 i a d) (effLds o) s
/-- STSW. -/
def execStsw (i : BitVec 6) (a d : BitVec 9) (s : State) : Host.Outcome State Fault Refusal :=
  let o := { aliasMem i a with c := d }
  runShort .sts o (wordS 0x0E#6 i a d) (effSts o) s

end Sys2Proof.Machine
end

