-- ==== Sys2Proof/Machine/Remote.lean ====
section
/-! DEFINITION. Remote access (R89 to R91, R283 to R287, R408): GET, PUT, PUTS and RATOM; requests arriving at homes and at cores, and
the replies to them (R144, R401). -/

namespace Sys2Proof.Machine

/-! ## At the target (R269, R408) -/

/-- The team of the issuer's grid that is resident at a core with the lowest slot. -/
def targetTeam (s : State) (ep team : Nat) : Option Nat :=
  match (s.team team).grid with
  | none => none
  | some g =>
    ((coreTeams s ep).filter (fun p => p.2.grid == some g)).foldl (fun b p =>
      match b with
      | none => some p.1
      | some x => if p.2.slot < (s.team x).slot then some p.1 else b) none

/-- Location of n bytes at a remote address of a core, in the view of the target team; none where the target refuses. -/
def remoteLoc (s : State) (ep team : Nat) (priv column write : Bool) (addr n : Nat) : Option Nat :=
  if !s.isCore ep then none
  else if column then
    (targetTeam s ep team).bind (fun m => (columnOffset (s.team m) addr n).map (columnLoc ep))
  else
    let m := match targetTeam s ep team with
      | some k => s.team k
      | none => default
    if (targetTeam s ep team).isNone && !priv then none
    else (scratchOffset s ep m priv write addr n).map (scratchLoc ep)

/-- Bytes of a core's scratch or column store at a location. -/
def readLoc (s : State) (loc n : Nat) : List Byte :=
  (List.range n).map (fun i => if locBookkeeping (loc + i) then 0#8 else memRead s.mem (loc + i))
/-- Writes bytes of a core's scratch or column store at a location. -/
def writeLoc (s : State) (loc : Nat) (bs : List Byte) : State :=
  if loc < 2 ^ 61 then
    homeWrite s loc (bs.take (min bs.length (0x1FE000 - (loc - 2 ^ 60) % 2 ^ 32)))
  else homeWrite s loc bs

/-- A read at a location of a core met an uncorrectable error: a resident treelet there is lost (R422). -/
def loseAt (s : State) (ep loc thread : Nat) : State :=
  if loc < 2 ^ 61 then loseTreelet s ep (loc - scratchLoc ep 0) (((s.thread thread).map (threadRay s)).getD 0) else s

/-- TRAPINFO0 of a remote access (R399). -/
def remoteInfo (ep addr : Nat) : DWord := BitVec.ofNat 64 (addr % 2 ^ 32 + ep * 2 ^ 32)

/-- Structure class of a remote target. -/
def remoteClass (column : Bool) : Nat := if column then 4 else 3

/-! ## At issue (R79, R89, R408) -/

/-- A thread's scope instance contains a core. -/
def scopeHolds (s : State) (t : Thread) (scope ep : Nat) : Bool :=
  let m := s.team t.team
  match scope with
  | 3 => ep == t.core || (m.cluster.isSome && s.teams.any (fun p => p.2.core == ep && p.2.grid == m.grid &&
      p.2.cluster.map (·.1) == m.cluster.map (·.1)))
  | 4 => ep / 128 == t.core / 128
  | 5 => ep / 4096 == t.core / 4096
  | 6 | 7 => true
  | _ => ep == t.core

/-- The endpoint operand of a remote access. -/
def remoteEp (t : Thread) (o : Long) : Nat := (src32 t o .a).toNat % 2 ^ 20

/-- Checks a remote access at issue (R400): alignment of its address, then its scope and form. -/
def remoteCheck (s : State) (t : Thread) (o : Long) (column : Bool) (addr align : Nat) : Option Out :=
  let ep := remoteEp t o
  if addr % align ≠ 0 then some (memTrap s 0x24 0 (remoteInfo ep addr) t)
  else if !scopeHolds s t o.scope.toNat ep || (column && onGateway ep) then
    some (memTrap s 0x27 (remoteClass column) (remoteInfo ep addr) t)
  else none

/-! ## GET, RATOM (R283, R286) -/

/-- GET. -/
def effGet (o : Long) : State → Nat → Thread → Out := fun s k t =>
  memStart s k t o false (relScope o) (fun s t =>
    let n := sizeBytes o.size
    let ep := remoteEp t o
    let addr := narrowAddress t o .b .c
    let column := o.mode.getLsbD 0
    let info := remoteInfo ep addr
    match remoteCheck s t o column addr n with
    | some r => r
    | none =>
      let p := { loadOp t o (o.mode.getLsbD 1) info with cls := remoteClass column }
      if ep = t.core ∧ column ∧ (columnPending t || wavePending s k t) then .wait s .waiting
      else if ep = t.core then
        let r := addOp s k p
        match remoteLoc s ep t.team t.sr.priv column false addr n with
        | none => memTrap s 0x27 (remoteClass column) info t
        | some loc =>
          if hitsError s loc n false then
            .go (loseAt (opRefused r.1 k r.2 (if column then 0x2E else 0x2A) info) ep loc k)
          else .go (opReady r.1 k r.2 (readLoc s loc n))
      else match passTo s k t ep 1 with
        | .hold s1 st => .wait s1 st
        | .ok s1 => .go (sendRemote s1 k t p (fun key => mkPacket 1 0x14 t.core ep 1 (.get addr n column k key))))

/-- RATOM. -/
def effRatom (o : Long) : State → Nat → Thread → Out := fun s k t =>
  memStart s k t o false (relScope o) (fun s t =>
    let n := sizeBytes o.size
    let ep := remoteEp t o
    let addr := (src32 t o .b).toNat
    let info := remoteInfo ep addr
    match remoteCheck s t o false addr n with
    | some r => r
    | none =>
      let p := atomOp t o info
      let a := atomAccess t o
      let bump (s : State) : State := s.updThread k (fun u => { u.visit ep with atomIx := u.atomIx + 1 })
      if ep = t.core then
        match remoteLoc s ep t.team t.sr.priv false true addr n with
        | none => memTrap s 0x27 3 info t
        | some loc =>
          match atomScratch (releaseFor s t o) ep (loc - scratchLoc ep 0) a
              (if t.prio.isSome then some t.sr.deriv else none) t.atomIx with
          | .held s1 => .wait s1 (.parked true)
          | .error => let r := addOp s k p; .go (loseAt (opRefused r.1 k r.2 0x2A info) ep loc k)
          | .done s1 old => let r := addOp s1 k p; .go (bump (opReady r.1 k r.2 old))
      else match passTo s k t ep 1 with
        | .hold s1 st => .wait s1 st
        | .ok s1 => .go (bump (sendRemote (releaseFor s1 t o) k t p (fun key =>
            mkPacket 1 0x18 t.core ep 1 (.ratom addr a k key t.atomIx)))))

/-! ## PUT, PUTS (R284, R285, R91, R411) -/

/-- PENDING of a descriptor. -/
def pendingOf (s : State) (d : Nat) : Nat := field (s.read d 8) 0 7

/-- Sends a PENDING update of a descriptor to its home (R91). -/
def sendPending (s : State) (src d n step : Nat) (add : Bool) : State :=
  s.inject { mkPacket 1 0x12 src (homeEndpoint d) 1
    (.request 0x12 { pa := d, home := true, access := .pending add n step } 0 0 0) with addr := BitVec.ofNat 64 d }

/-- Bytes of a payload's last flit. -/
def lastFlit (n : Nat) : Nat := if n ≤ 32 then n else n - (n - 1) / 64 * 64

/-- The step in which a bound thread's PUT counts: the descriptor's own, or for one of another package the step last seen. -/
def stepNow (s : State) (t : Thread) : Option (Nat × Nat) :=
  t.sstep.map (fun x => (x.1, if isFar x.1 then x.2 else field (s.read (x.1 + 16) 4) 0 4))

/-- A bound thread's PUT raises PENDING by its bytes at issue (R91); at a descriptor of another package, when the update arrives there. -/
def countBytes (s : State) (t : Thread) (n : Nat) : State :=
  match stepNow s t with
  | none => s
  | some (d, step) =>
    if isFar d then sendPending s t.core d n step true
    else if memoryOn s d then homeWrite s d (leBytes 7 (pendingOf s d + n))
    else s

/-- The common part of PUT and PUTS: the checks, the source read and the payload packet. -/
def putPayload (s : State) (k : Nat) (t : Thread) (o : Long) (typ : Nat) (p : Op) (local_ : State → Nat → Nat → List Byte → Out) : Out :=
  let n := (o.m4.toNat + 1) * 16
  let ep := remoteEp t o
  let addr := (src32 t o .b).toNat
  let src := (src32 t o .c).toNat
  let column := o.mode.getLsbD 0
  let info := remoteInfo ep addr
  if src % 16 ≠ 0 then memTrap s 0x24 0 (BitVec.ofNat 64 src) t
  else if addr % 16 ≠ 0 then memTrap s 0x24 0 info t
  else match scratchOffset s t.core (s.team t.team) t.sr.priv false src n with
    | none => memTrap s 0x26 3 (BitVec.ofNat 64 src) t
    | some off =>
      match remoteCheck s t o column addr 16 with
      | some r => r
      | none =>
        let tooMany : Bool := match t.sstep with
          | some (d, _) => decide (2 ^ 56 ≤ pendingOf s d + n)
          | none => false
        if tooMany then memTrap s 0x29 5 (BitVec.ofNat 64 ((t.sstep.map (·.1)).getD 0)) t
        else
          let p' := { p with info := info, cls := remoteClass column, pend := (stepNow s t).map (fun x => (x.1, x.2, n)) }
          if hitsError s (scratchLoc t.core off) n false then
            let r := addOp s k { p' with pend := none, cls := 3, token := 0, held := false }
            .go (loseAt (opRefused r.1 k r.2 0x2A (BitVec.ofNat 64 src)) t.core (scratchLoc t.core off) k)
          else
            let bytes := readScratch s t.core off n
            if ep = t.core ∧ column ∧ (columnPending t || wavePending s k t) then .wait s .waiting
            else if ep = t.core then local_ s ep addr bytes
            else match passTo s k t ep (flitsOf n) with
              | .hold s1 st => .wait s1 st
              | .ok s1 =>
                let s2 := releaseFor s1 t o
                .go (sendRemote (if reachable s2 t.core ep then countBytes s2 t n else s2) k t p' (fun key =>
                  mkPacket 1 typ t.core ep (flitsOf n) (.put typ addr column bytes (stepNow s t) k key)))

/-- PUT. -/
def effPut (o : Long) : State → Nat → Thread → Out := fun s k t =>
  memStart s k t o false (relScope o) (fun s t =>
    putPayload s k t o 0x15 (mkOp t o) (fun s ep addr bytes =>
      let r := addOp s k { mkOp t o with info := remoteInfo ep addr, cls := remoteClass (o.mode.getLsbD 0) }
      match remoteLoc s ep t.team t.sr.priv (o.mode.getLsbD 0) true addr bytes.length with
      | none => memTrap s 0x27 (remoteClass (o.mode.getLsbD 0)) (remoteInfo ep addr) t
      | some loc => .go (opReady (writeLoc (releaseFor r.1 t o) loc bytes) k r.2 [])))

/-- Performs a PUTS signal at a core (R285), or the code with which it is refused: by the target, or by an uncorrectable error in its word
(R412). -/
def signalAt (s : State) (ep team : Nat) (priv : Bool) (addr : Nat) (add : Bool) (v : Word) : Except Nat State :=
  match remoteLoc s ep team priv false true addr 4 with
  | none => .error 0x27
  | some loc =>
    let old := leNat (readLoc s loc 4)
    if hitsError s loc 4 false then .error 0x2A
    else .ok (writeLoc s loc (leBytes 4 (if add then (old + v.toNat) % 2 ^ 32 else v.toNat)))

/-- The PUTS at this address whose payload has left and whose signal still waits for allowance. -/
def signalDue (t : Thread) : Option (Nat × Op) := t.ops.find? (fun p => p.2.token == 3 && p.2.at_ == t.pc)

/-- PUTS: payload, then signal, each metered on its own (R285).  The thread is held while the signal waits for allowance. -/
def effPuts (o : Long) : State → Nat → Thread → Out := fun s k t =>
  let ep := remoteEp t o
  let n := (o.m4.toNat + 1) * 16
  let sig := (t.reg o.e.toNat).toNat
  let v := t.reg (o.e.toNat + 1)
  let sendSignal (s : State) (key : Nat) : Out :=
    match passTo s k t ep 1 with
    | .hold s1 st => .wait s1 st
    | .ok s1 =>
      let counted := (((s.thread k).bind (fun u => u.ops.find key)).bind (·.pend)).map (fun x => (x.1, x.2.1))
      let pk := { mkPacket 1 0x17 t.core ep 1 (.signal sig (o.mode.getLsbD 1) v counted (lastFlit n) k key) with
                  team := t.team
                  priv := t.sr.priv }
      .go ((updOp s1 k key (fun p => { p with token := 0, held := false, extra := [1] })).send pk)
  match signalDue t with
  | some (key, p) => if p.sent then sendSignal s key else .wait s .waiting
  | none =>
    memStart s k t o false (relScope o) (fun s t =>
      if sig % 4 ≠ 0 then memTrap s 0x24 0 (remoteInfo ep sig) t
      else
        let r := putPayload s k t o 0x16 { mkOp t o with token := 3, held := true } (fun s ep addr bytes =>
          let r := addOp s k { mkOp t o with info := remoteInfo ep addr, cls := remoteClass (o.mode.getLsbD 0) }
          match remoteLoc s ep t.team t.sr.priv (o.mode.getLsbD 0) true addr bytes.length with
          | none => memTrap s 0x27 (remoteClass (o.mode.getLsbD 0)) (remoteInfo ep addr) t
          | some loc =>
            match signalAt (writeLoc (releaseFor r.1 t o) loc bytes) ep t.team t.sr.priv sig (o.mode.getLsbD 1) v with
            | .ok s1 => .go (opReady s1 k r.2 [])
            | .error code => memTrap (writeLoc (releaseFor s t o) loc bytes) code 3 (remoteInfo ep sig) t)
        match r with
        | .go s1 =>
          (match (s1.thread k).bind signalDue with
          | some (key, p) => if p.sent then sendSignal s1 key else .go s1
          | none => .go s1)
        | x => x)

/-! ## Requests arriving -/

/-- A request to a core's scratch may not overtake an earlier one of the same thread (R55). -/
def threadEarlier (s : State) (p : Packet) (k thread : Nat) : Bool :=
  let owner (b : Body) : Option Nat := match b with
    | .get _ _ _ t _ | .put _ _ _ _ _ t _ | .signal _ _ _ _ _ t _ | .ratom _ _ t _ _ | .member _ _ t _ => some t
    | _ => none
  s.packets.any (fun q => decide (q.1 < k) && q.2.src == p.src && q.2.dst == p.dst && owner q.2.body == some thread)

/-- A PUT of an earlier lane of the same issue group still travels to some of the same bytes: the lanes' writes of one location are
performed in increasing lane order (R271). -/
def laneEarlier (s : State) (p : Packet) (k addr n : Nat) (column : Bool) : Bool :=
  s.packets.any (fun q => decide (q.1 < k) && q.2.src == p.src && q.2.dst == p.dst && q.2.sent == p.sent && q.2.typ == 0x15 &&
    (match q.2.body with
    | .put _ addr' column' bytes _ _ _ => column' == column && decide (addr' < addr + n) && decide (addr < addr' + bytes.length)
    | _ => false))

/-- Refuses a request. -/
def refuse (s : State) (p : Packet) (code : Nat) (info : DWord) (thread op : Nat) : State :=
  s.reply p 0x22 (.refusal code info thread op)

/-- The packet is a request of a TYPE, or a member access of that TYPE. -/
def isRequest (typ : Nat) (p : Packet) : Bool :=
  p.typ == typ && (match p.body with
    | .request _ pc _ _ _ => (match pc.access with
      | .arrive | .pending _ _ _ => false
      | _ => true)
    | .member _ _ _ _ => true
    | _ => false)

/-- REQ_ATOMIC, REQ_REDUCTION: performed at the home, or answered from the log (R278, R443). -/
def homeAtomic (s : State) (p : Packet) : Option State :=
  match p.body with
  | .request _ pc thread op ix =>
    match atomHome s pc.pa pc.access p.parent ix pc.hint with
    | .done s1 old =>
      if old.isEmpty then some (s1.reply p 0x21 (.acknowledgment thread op))
      else some (s1.reply p 0x20 (.data old thread op))
    | .held s1 => some { s1 with packets := s1.packets.put s.obj p }
    | .error => some (refuse s p 0x2A 0#64 thread op)
  | _ => none

/-- REQ_ATOMIC. -/
def execReqAtomic (s : State) : Host.Outcome State Fault Refusal :=
  .next (arrive s (isRequest 0x12) (fun s _ p => homeAtomic s p))
/-- REQ_REDUCTION. -/
def execReqReduction (s : State) : Host.Outcome State Fault Refusal :=
  .next (arrive s (isRequest 0x13) (fun s _ p => homeAtomic s p))

/-- REQ_FULL_EMPTY_ACCESS (R71). -/
def homeFe (s : State) (p : Packet) : Option State :=
  match p.body with
  | .request _ pc thread op _ =>
    match feArrive s p.src thread op pc.pa pc.access with
    | .done s1 data =>
      if data.isEmpty then some (s1.reply p 0x21 (.acknowledgment thread op))
      else some (s1.reply p 0x20 (.data data thread op))
    | .parked s1 => some s1
    | .again => some (refuse (s.count (lifeKey 10 (epDie p.dst) 5) 1) p 0 0#64 thread op)
    | .error => some (refuse s p 0x2A 0#64 thread op)
  | _ => none

/-- REQ_FULL_EMPTY_ACCESS. -/
def execReqFullEmptyAccess (s : State) : Host.Outcome State Fault Refusal :=
  .next (arrive s (isRequest 0x19) (fun s _ p => homeFe s p))

/-- REQ_GET (R283). -/
def execReqGet (s : State) : Host.Outcome State Fault Refusal :=
  .next (arrive s (fun p => match p.body with
    | .get _ _ _ _ _ => true
    | _ => false) (fun s k p =>
    match p.body with
    | .get addr n column thread op =>
      if threadEarlier s p k thread then none
      else
        let s0 := sink s p.dst p.src p.flits
        match remoteLoc s p.dst p.team p.priv column false addr n with
        | none => some (refuse s0 p 0x27 (remoteInfo p.dst addr) thread op)
        | some loc =>
          if hitsError s loc n false then
            some (loseAt (refuse s0 p (if column then 0x2E else 0x2A) (remoteInfo p.dst addr) thread op) p.dst loc thread)
          else some (s0.reply p 0x20 (.data (readLoc s loc n) thread op))
    | _ => none))

/-- The bytes of a PUT or PUTS payload are counted off its step (R91). -/
def countOff (s : State) (ep : Nat) (pend : Option (Nat × Nat)) (n : Nat) : State :=
  match pend with
  | some (d, step) => if n = 0 then s else sendPending s ep d n step false
  | none => s

/-- Of the bytes that an operation of the package counts in PENDING so many are left to count off (R408). -/
def leaveCounted (s : State) (thread op n : Nat) : State :=
  updOp s thread op (fun p => { p with pend := if n = 0 then none else p.pend.map (fun x => (x.1, x.2.1, n)) })

/-- REQ_PUT_PAYLOAD (R284). -/
def execReqPutPayload (s : State) : Host.Outcome State Fault Refusal :=
  .next (arrive s (fun p => p.typ == 0x15) (fun s k p =>
    match p.body with
    | .put _ addr column bytes pend thread op =>
      if threadEarlier s p k thread || laneEarlier s p k addr bytes.length column then none
      else
        let s0 := sink s p.dst p.src p.flits
        match remoteLoc s p.dst p.team p.priv column true addr bytes.length with
        | none => some (refuse s0 p 0x27 (remoteInfo p.dst addr) thread op)
        | some loc =>
          some ((leaveCounted (countOff (writeLoc s0 loc bytes) p.dst pend bytes.length) thread op 0).reply p 0x21
            (.acknowledgment thread op))
    | _ => none))

/-- REQ_PUTS_PAYLOAD (R285): all but its last flit is counted off; a refused payload takes its signal with it. -/
def execReqPutsPayload (s : State) : Host.Outcome State Fault Refusal :=
  .next (arrive s (fun p => p.typ == 0x16) (fun s k p =>
    match p.body with
    | .put _ addr column bytes pend thread op =>
      if threadEarlier s p k thread then none
      else
        let s0 := sink s p.dst p.src p.flits
        match remoteLoc s p.dst p.team p.priv column true addr bytes.length with
        | none =>
          let s1 := { s0 with packets := s0.packets.filter (fun q => match q.2.body with
            | .signal _ _ _ _ _ t o => !(t == thread && o == op)
            | _ => true) }
          some (refuse s1 p 0x27 (remoteInfo p.dst addr) thread op)
        | some loc =>
          some (leaveCounted (countOff (writeLoc s0 loc bytes) p.dst pend (bytes.length - lastFlit bytes.length)) thread op
            (lastFlit bytes.length))
    | _ => none))

/-- The payload of a PUTS has been refused at its target, and the refusal is on its way: the signal is not performed (R408). -/
def payloadRefused (s : State) (ep thread op : Nat) : Bool :=
  s.packets.any (fun q => q.2.src == ep && (match q.2.body with
    | .refusal _ _ k o => k == thread && o == op
    | _ => false))

/-- REQ_PUTS_SIGNAL (R285). -/
def execReqPutsSignal (s : State) : Host.Outcome State Fault Refusal :=
  .next (arrive s (fun p => match p.body with
    | .signal _ _ _ _ _ _ _ => true
    | _ => false) (fun s k p =>
    match p.body with
    | .signal addr add v pend last thread op =>
      if threadEarlier s p k thread then none
      else if payloadRefused s p.dst thread op then some (sink s p.dst p.src p.flits)
      else
        let s0 := sink s p.dst p.src p.flits
        match signalAt s0 p.dst p.team p.priv addr add v with
        | .error code => some (refuse s0 p code (remoteInfo p.dst addr) thread op)
        | .ok s1 => some ((leaveCounted (countOff s1 p.dst pend last) thread op 0).reply p 0x21 (.acknowledgment thread op))
    | _ => none))

/-- REQ_RATOM (R286). -/
def execReqRatom (s : State) : Host.Outcome State Fault Refusal :=
  .next (arrive s (fun p => match p.body with
    | .ratom _ _ _ _ _ => true
    | _ => false) (fun s k p =>
    match p.body with
    | .ratom addr a thread op ix =>
      if threadEarlier s p k thread then none
      else
        let s0 := sink s p.dst p.src p.flits
        match remoteLoc s p.dst p.team p.priv false true addr a.size with
        | none => some (refuse s0 p 0x27 (remoteInfo p.dst addr) thread op)
        | some loc =>
          match atomScratch s0 p.dst (loc - scratchLoc p.dst 0) a p.parent ix with
          | .held s1 => some { s1 with packets := s1.packets.put k p }
          | .error => some (loseAt (refuse s0 p 0x2A (remoteInfo p.dst addr) thread op) p.dst loc thread)
          | .done s1 old =>
            if old.isEmpty then some (s1.reply p 0x21 (.acknowledgment thread op))
            else some (s1.reply p 0x20 (.data old thread op))
    | _ => none))

/-- PENDING_UPDATE_AT_HOME (R91, R290): an update of an earlier step is ignored (R450).  The 56-bit counter wraps, so that a fall which comes
before its rise from another package is made good by it; an uncorrectable error refuses the update, an event alone (R412). -/
def pendingHome (s : State) (p : Packet) : Option State :=
  match p.body with
  | .request _ pc _ _ _ =>
    match pc.access with
    | .pending add n step =>
      let s := touchL2 (recallLine s (lineOf pc.pa)) pc.pa 0
      let b := s.read pc.pa 32
      if hitsError s pc.pa 32 false then some (s.event p.dst (memoryClass s pc.pa) 0x2A 2 false pc.pa 1)
      else if field b 16 4 != step % 2 ^ 32 then some s
      else
        let old := field b 0 7
        let s1 := homeWrite s pc.pa (leBytes 7 ((if add then old + n else old + (2 ^ 56 - n % 2 ^ 56)) % 2 ^ 56))
        some (if add then s1 else testStep s1 pc.pa)
    | _ => none
  | _ => none

/-- PENDING_UPDATE_AT_HOME. -/
def execPendingUpdateAtHome (s : State) : Host.Outcome State Fault Refusal :=
  .next (arrive s (fun p => match p.body with
    | .request _ pc _ _ _ => (match pc.access with
      | .pending _ _ _ => true
      | _ => false)
    | _ => false) (fun s _ p => pendingHome s p))

/-! ## Replies arriving (R144, R287, R401) -/

/-- A reply to a counted remote request: RPEND and its team's count fall. -/
def replyCounted (s : State) (k op : Nat) : State :=
  match s.thread k with
  | none => s
  | some t =>
    match t.ops.find op with
    | none => s
    | some p =>
      if p.remote then
        (updOp s k op (fun p => { p with remote := false })).updCore t.core (fun c => { c with rpend := c.rpend - 1 })
          |>.updTeam t.team (fun m => { m with remote := m.remote - 1 })
      else s

/-- RSP_DATA: the data reaches its walk, or the operation that waits for it. -/
def dataArrives (s : State) (p : Packet) : State :=
  match p.body with
  | .data bs thread op =>
    if epLocal p.dst = 124 then stepWalk s (epDie p.dst) thread (BitVec.ofNat 64 (leNat bs))
    else answerPiece (replyCounted s thread op) thread op bs
  | _ => s

/-- A refusal arrives: a walk is malformed (R413); a retry response makes the access wait to be sent again (R409); a write-back that another
package refuses is over; otherwise the piece is refused, and the bytes of a PUT that are still counted leave its step (R408): of a PUTS whose
signal alone is refused, its last flit's. -/
def refusalArrives (s : State) (p : Packet) : State :=
  match p.body with
  | .refusal code info k op =>
    if epLocal p.dst = 124 then
      s.updDie (epDie p.dst) (fun d => { d with walks := d.walks.adjust k (fun w => { w with status := .bad }) })
    else if k = farThread then farDone s p.dst op
    else if code = 0 then updOp s k op (fun q => { q with status := .again s.time })
    else
      let s1 := replyCounted s k op
      match (s1.thread k).bind (fun t => (t.ops.find op).map (fun q => (t, q))) with
      | none => s1
      | some (t, q) =>
        let s2 := match q.pend with
          | some (d, step, n) => sendPending s1 t.core d (if q.token = 0 && q.extra == [1] && info ≠ 0#64 && info ≠ q.info then lastFlit n else n) step false
          | none => s1
        let s3 := updOp s2 k op (fun q => { q with info := if info = 0#64 then q.info else info, pend := none, asked := none })
        answerPiece (failPiece s3 k op code ((q.pieces.head?.map (fun x => memoryClass s x.pa)).getD q.cls)) k op []
  | _ => s

/-! ## Meanings -/

/-- GET. -/
def execGet (o : Long) (s : State) : Host.Outcome State Fault Refusal := runLong .get o (effGet o) s
/-- PUT. -/
def execPut (o : Long) (s : State) : Host.Outcome State Fault Refusal := runLong .put o (effPut o) s
/-- PUTS. -/
def execPuts (o : Long) (s : State) : Host.Outcome State Fault Refusal := runLong .puts o (effPuts o) s
/-- RATOM. -/
def execRatom (o : Long) (s : State) : Host.Outcome State Fault Refusal := runLong .ratom o (effRatom o) s

end Sys2Proof.Machine
end

