-- ==== Sys2Proof/Machine/Sync.lean ====
section
/-! DEFINITION. Barriers (R288), supersteps (R289, R290), engine harts and their jobs (R291 to R293), and EXIT (R18, R247): opcodes 0x62 to
0x66, 0x2D and the events that belong to them. -/

namespace Sys2Proof.Machine

/-! ## Named barriers (R288, R385) -/

/-- The team that holds a barrier and its index there: SCOPE 3 in a cluster names member 0's barriers 16 to 31. -/
def barrierAt (s : State) (team : Nat) (o : Long) : Nat × Nat :=
  let m := s.team team
  match m.cluster with
  | some (c, _) =>
    if o.scope = 3#3 then
      match s.teams.find? (fun p => p.2.grid == m.grid && p.2.cluster == some (c, 0)) with
      | some p => (p.1, 16 + o.m4.toNat)
      | none => (team, o.m4.toNat)
    else (team, o.m4.toNat)
  | none => (team, o.m4.toNat)

/-- A barrier of a team. -/
def Team.bar (m : Team) (i : Nat) : Barrier := m.bars.getD i default

/-- The phase has moved past the one named: the difference is in 1 to 2^31 − 1. -/
def phasePast (phase named : Word) : Bool :=
  let d := (phase - named).toNat
  decide (1 ≤ d) && decide (d < 2 ^ 31)

/-- A thread waits in a BARW that may now go on. -/
def barReleased (s : State) (t : Thread) : Bool :=
  t.state == .barWait && (match standingAt t with
    | some (.barw, o) =>
      let b := barrierAt s t.team o
      phasePast ((s.team b.1).bar b.2).phase (src32 t o .a)
    | _ => false)

/-- Threads whose BARW may go on become Runnable. -/
def wakeBarrier (s : State) : State :=
  { s with threads := s.threads.map (fun p =>
      if barReleased s p.2 then (p.1, p.2.wake) else p) }

/-- BARA: an arrival, which is a release; the last one completes the phase. -/
def effBara (o : Long) : State → Nat → Thread → Out := fun s k t =>
  match memGate s k t false true with
  | .hold s1 st => .wait s1 st
  | .pass s =>
    let at_ := barrierAt s t.team o
    let b := (s.team at_.1).bar at_.2
    let n := (src32 t o .a).toNat
    if n = 0 ∨ (b.arrived ≠ 0 ∧ n ≠ b.count) then
      .trap s (trapAt 0x0D (BitVec.ofNat 64 (n % 65536 + b.count % 65536 * 2 ^ 16 + o.m4.toNat * 2 ^ 32)) t.pc)
    else
      let count := if b.arrived = 0 then n else b.count
      let full : Bool := b.arrived + 1 == count
      let b' : Barrier :=
        { phase := if full then b.phase + 1#32 else b.phase
          count := count
          arrived := if full then 0 else b.arrived + 1 }
      let s1 := s.updTeam at_.1 (fun m => { m with bars := m.bars.set at_.2 b' })
      let s2 := s1.updThread k (fun t => t.setRegs o.d.toNat [b.phase])
      .go (if full then wakeBarrier s2 else s2)

/-- BARW. -/
def effBarw (o : Long) : State → Nat → Thread → Out := fun s k t =>
  match memGate s k t false false with
  | .hold s1 st => .wait s1 st
  | .pass s =>
    let b := barrierAt s t.team o
    if phasePast ((s.team b.1).bar b.2).phase (src32 t o .a) then .go s else .wait s .barWait

/-! ## Supersteps (R289, R290, R411) -/

/-- Places a superstep descriptor (R406, R407): 32-byte aligned, on an HBM page of kind S. -/
def placeStep (s : State) (k : Nat) (t : Thread) (cls : Nat) (va : DWord) (go : State → Nat → Out) : Out :=
  match placeGlobal s k t cls false false va 32 32 with
  | .out r => r
  | .ok s1 l =>
    match l with
    | [] => .go s1
    | (pa, _, e) :: _ => if pteKind e != 0 || regionOf pa != .hbm then memTrap s1 0x23 2 va t else go s1 pa

/-- Before a read of a word that is performed at its home (R68): the issuing L1 gives up its copy of the line, and an M copy elsewhere in the
island is written back (R65). -/
def clearPolled (s : State) (ep pa : Nat) : State := cleanOthers (evictLine s ep (lineOf pa)) ep (lineOf pa)

/-- SSTEP: the bound thread's arrival leaves for the descriptor's home, and the thread waits for the step to close. -/
def effSstep (o : Long) : State → Nat → Thread → Out := fun s k t =>
  let va := src64 t o .a
  match memGate s k t true true with
  | .hold s1 st => .wait s1 st
  | .pass s =>
    if va.toNat + 32 > 2 ^ 56 ∨ va.toNat % 32 ≠ 0 then memTrap s 0x24 0 va t
    else match t.sstep with
      | none => memTrap s 0x29 5 va t
      | some (d, _) =>
        if va ≠ t.sstepVa then memTrap s 0x29 5 va t
        else placeStep s k t 3 va (fun s1 pa =>
          if pa ≠ d then memTrap s1 0x29 5 va t
          else
            let p := { mkOp t o with
              flag := none, dst := some (o.d.toNat, 1), size := 4, global := true, reads := true, held := true
              acquire := some o.scope.toNat, info := va, token := 1 }
            .done (waitIn (startPieces (releaseAction s1 t.core o.scope.toNat) k p
              [{ pa := pa, home := true, access := .arrive }]) k .barWait))

/-- SSTEP.BIND: the thread is bound, and STEP is read at the descriptor's home, the L1's own copy having been dropped. -/
def effSstepBind (o : Long) : State → Nat → Thread → Out := fun s k t =>
  let va := src64 t o .a
  match memGate s k t true false with
  | .hold s1 st => .wait s1 st
  | .pass s =>
    placeStep s k t 0 va (fun s1 pa =>
      let p := { mkOp t o with
        flag := none, dst := some (o.d.toNat, 1), size := 4, global := true, reads := true, held := true, info := va, token := 1 }
      let s2 := (clearPolled s1 t.core pa).updThread k (fun u => { u with sstep := some (pa, 0), sstepVa := va })
      .done (waitIn (startPieces s2 k p [{ pa := pa + 16, home := true, access := .load 4 }]) k (.parked false)))

/-- A superstep arrival at its home: refused where PARTS is 0, else counted, and the test is made. -/
def arriveStep (s : State) (p : Packet) : State :=
  match p.body with
  | .request _ pc thread op _ =>
    let s := touchL2 (recallLine s (lineOf pc.pa)) pc.pa 0
    let b := s.read pc.pa 32
    if hitsError s pc.pa 32 false then refuse s p 0x2A 0#64 thread op
    else if field b 8 4 = 0 then refuse s p 0x29 0#64 thread op
    else
      let s1 := s.write (pc.pa + 12) (leBytes 4 (field b 12 4 + 1))
      let s2 := s1.updDie (homeDie pc.pa) (fun d => { d with waiters := d.waiters ++ [(pc.pa, p.src, thread, op)] })
      testStep s2 pc.pa
  | _ => s

/-- SSTEP_ARRIVAL_AT_HOME. -/
def execSstepArrivalAtHome (s : State) : Host.Outcome State Fault Refusal :=
  .next (arrive s (fun p => match p.body with
    | .request _ pc _ _ _ => pc.access == .arrive
    | _ => false) (fun s _ p => some (arriveStep s p)))

/-! ## Kicks (R291) -/

/-- The endpoint holds a KICK register: a copy hart or a gateway core. -/
def kickable (s : State) (ep : Nat) : Bool :=
  epPackage ep == Config.package && decide (epDie ep < 24) && (s.die (epDie ep)).present &&
    (isHart ep || (onGateway ep && s.isCore ep))

/-- A store to a KICK register queues a kick; none while 16 are queued. -/
def queueKick (s : State) (ep asid root scope : Nat) (desc : DWord) : Option State :=
  if 16 ≤ (s.core ep).kicks.length then none
  else some (s.updCore ep (fun c => { c with kicks := c.kicks ++ [(asid, root, scope, desc &&& 0x00FFFFFFFFFFFFE0#64)] }))

/-- ENGK: the kick is queued at once at its hart (log 17); an endpoint of the package without a KICK register ignores the store
(R60). -/
def effEngk (o : Long) : State → Nat → Thread → Out := fun s k t =>
  memStart s k t o false (some o.scope.toNat) (fun s t =>
    let ep := (src32 t o .a).toNat % 2 ^ 20
    let desc := src64 t o .b
    let done (s : State) : Out := .go (addReady s k { mkOp t o with info := desc } [])
    if desc.toNat + 32 > 2 ^ 56 ∨ desc.toNat % 32 ≠ 0 then memTrap s 0x24 0 desc t
    else if epPackage ep ≠ Config.package then memTrap s 0x27 3 (remoteInfo ep 0x800) t
    else if !reachable s t.core ep then
      .go ((addOp s k { mkOp t o with status := .refused 0x67 (remoteInfo ep 0x800) }).1)
    else if !kickable s ep then done s
    else match queueKick (releaseAction s t.core o.scope.toNat) ep (s.team t.team).asid (s.team t.team).root o.scope.toNat desc with
      | none => .wait s .waiting
      | some s1 => done s1)

/-- The root table of an address space: that of a team, a grid or a bound queue that has it (R169 gives the pair). -/
def rootOf (s : State) (asid : Nat) : Nat :=
  match s.teams.find? (fun p => p.2.asid == asid && !p.2.engine) with
  | some p => p.2.root
  | none =>
    match s.grids.find? (fun p => p.2.asid == asid) with
    | some p => p.2.root
    | none => 0

/-- KICK: a store-release to a hart's KICK register, at system scope; while sixteen kicks are queued it is not performed yet, and changes
nothing. -/
def execKick (hart asid : Nat) (desc : DWord) (s : State) : Host.Outcome State Fault Refusal :=
  .next (if kickable s hart then (queueKick s hart asid (rootOf s asid) 7 desc).getD s else s)

/-! ## Jobs (R292) -/

/-- Makes the hart's thread for the next kick: lane 0 of a group of 64 registers, in the kick's address space. -/
def makeEngine (s : State) (ep asid root : Nat) (desc : DWord) : State :=
  let team := s.fresh
  let g := s.fresh + 1
  let k := s.fresh + 2
  let m := { mkTeam ep 64 asid root 0 1 64 team with engine := true }
  let t := mkThread ep 0 g team 64 0 0#64 desc (startSpecials (asid == 0) 0#64 0#64 0) (s.core ep).cycles
  { s with
    fresh := s.fresh + 3
    teams := s.teams.put team m
    groups := s.groups.put g (mkGroup team 0 0 1)
    threads := s.threads.put k t }
    |>.updCore ep (fun c => { c with kicks := c.kicks.tail, busy := true, engine := some k })

/-- The operation that reads a job descriptor or the mailbox of a poll: it ends through the event that looks at it. -/
def watchOp (t : Thread) (token : Nat) (info : DWord) : Op :=
  { mkOp t longZero with flag := none, global := true, reads := true, held := true, info := info, token := token }

/-- Starts the read of the job descriptor; a refusal found at once is the job thread's trap, with no mailbox to store to. -/
def readJob (s : State) (k : Nat) (t : Thread) : State :=
  match placeGlobal s k t 0 false false t.frame 32 32 with
  | .out (.wait s1 st) => s1.updThread k (fun u => { u with state := st })
  | .out (.trap s1 x) => takeTrap (s1.updThread k (fun u => { u with job := some (0#64, 0#64, 8) })) k x
  | .out _ => s
  | .ok s1 l =>
    (startPieces s1 k (watchOp t 4 t.frame) (loadPieces 0 l)).updThread k (fun u => { u with state := .parked false })

/-- The descriptor has been read: the thread starts the job's code with g0:g1 = the descriptor address. -/
def beginJob (s : State) (k key : Nat) (data : List Byte) : State :=
  s.updThread k (fun u => { u with
    ops := u.ops.drop key
    pc := BitVec.ofNat 64 (field data 0 8)
    after := BitVec.ofNat 64 (field data 0 8)
    state := .runnable
    clause := none
    arrival := s.now u
    job := some (BitVec.ofNat 64 (field data 8 8), BitVec.ofNat 64 (field data 16 8), field data 24 1 % 8) })

/-- HART_JOB_START: the hart takes its oldest kick with an acquire at the scope of the kick, reads the descriptor and starts the job's
code (R93). -/
def startJob (s : State) (ep : Nat) : State :=
  let c := s.core ep
  match c.engine with
  | none =>
    (match c.kicks with
    | [] => s
    | (asid, root, scope, desc) :: _ =>
      if !kickable s ep then s else
      let k := s.fresh + 2
      let s1 := makeEngine (acquireAction s ep scope) ep asid root desc
      match s1.thread k with
      | none => s1
      | some t => readJob s1 k t)
  | some k =>
    match s.thread k with
    | none => s
    | some t =>
      if t.job.isSome then s
      else match t.ops.find? (fun p => p.2.token == 4) with
        | some (key, p) => (match p.status with
          | .ready data => beginJob s k key data
          | .refused code info => takeTrap
              (s.updThread k (fun u => { u with ops := u.ops.drop key, job := some (0#64, 0#64, 8) })) k
              { trapAt code info 0#64 with cls := refusalClass p.cls code }
          | _ => s)
        | none => if t.state == .runnable then readJob s k t else s

/-! ## Mailbox polls (R293, R66) -/

/-- The mailbox has reached the target. -/
def reached (v c : DWord) : Bool := decide ((v - c).toNat < 2 ^ 63)

/-- ENGW and CWAIT: the first try is sent, and d is owed until one succeeds.  The operation keeps its target value, its scope and whether
it is a CWAIT's, which holds its thread (R336, R448). -/
def startPoll (s : State) (k : Nat) (t : Thread) (o : Long) (va : DWord) (cwait : Bool) : Out :=
  match placeGlobal s k t 0 false false va 8 8 with
  | .out r => r
  | .ok s1 l =>
    match l with
    | [] => .go s1
    | (pa, _, _) :: _ =>
      let p := { watchOp t 6 va with
        flag := flagOf t o.fs, dst := some (o.d.toNat, 2), size := 8, held := cwait
        extra := [(src64 t o .c).toNat, o.scope.toNat, if cwait then 1 else 0] }
      let s2 := startPieces (clearPolled s1 t.core pa) k p [{ pa := pa, home := true, access := .load 8 }]
      if cwait then .done (waitIn s2 k (.parked false)) else .go s2

/-- ENGW. -/
def effEngw (o : Long) : State → Nat → Thread → Out := fun s k t =>
  memStart s k t o true none (fun s t => startPoll s k t o (globalAddress t o) false)

/-- Another try of a poll: its mailbox is translated and read again. -/
def pollAgain (s : State) (k key : Nat) (t : Thread) (va : DWord) : State :=
  let m := s.team t.team
  match agentPlace s t.core m.asid m.root t.sr.priv 0 va.toNat with
  | .wait s1 => s1
  | .refused s1 code => opRefused s1 k key code va
  | .ok s1 pa _ =>
    let s2 := updOp (clearPolled s1 t.core pa) k key (fun p => { p with
      pieces := [{ pa := pa, home := true, access := .load 8 }], data := [], status := .sent, issued := s.ticks })
    match s2.thread k with
    | none => s2
    | some u => runPieces s2 k key u [{ pa := pa, home := true, access := .load 8 }] []

/-- The live members of a view domain (R158). -/
def liveMembers (s : State) (dom : Nat) : Nat :=
  match s.pkg.domains.find? (fun p => p.1 == dom) with
  | some (_, d) => (d.set.filter (fun b => b)).length
  | none => 0

/-- The membership-change trap (R448) of a thread whose armed view its die has left. -/
def viewTrap (s : State) (t : Thread) (pc : DWord) : Option Trap :=
  let dom := bits t.sr.carm.toNat 27 24
  let now := viewAt s (epDie t.core) dom
  if !t.sr.carm.getLsbD 31 || now = bits t.sr.carm.toNat 23 0 then none
  else some (trapAt 0x68 (BitVec.ofNat 64 (now % 2 ^ 24 + dom * 2 ^ 24 + liveMembers s dom % 65536 * 2 ^ 32)) pc)

/-- MAILBOX_POLL_TRY: a CWAIT whose domain has changed its view takes the trap of R448; a try that has reached the target takes its
acquire and ends the wait; another is made otherwise, at most one in a cycle. -/
def pollTry (s : State) (k : Nat) : State :=
  match s.thread k with
  | none => s
  | some t =>
    match t.ops.find? (fun p => p.2.token == 6) with
    | some (key, p) =>
      let moved : Option Trap := if p.extra.getD 2 0 = 1 then viewTrap s t t.pc else none
      (match moved, p.status with
      | some x, _ => takeTrap (s.updThread k (fun u => ({ u with ops := u.ops.drop key }).lower p.flag)) k x
      | none, .ready data =>
        if reached (BitVec.ofNat 64 (leNat data)) (BitVec.ofNat 64 (p.extra.getD 0 0)) then
          updOp (acquireAction s t.core (p.extra.getD 1 0)) k key (fun p => { p with token := 0 })
        else if s.ticks ≤ p.issued then s
        else pollAgain s k key t p.info
      | none, _ => s)
    | none => s

/-- MAILBOX_POLL_TRY. -/
def execMailboxPollTry (s : State) : Host.Outcome State Fault Refusal := .next (pollTry s s.obj)

/-! ## EXIT (R18, R30, R247, R292) -/

/-- An engine thread's job is over: its group is free for the next. -/
def endEngine (s : State) (k : Nat) (t : Thread) : State :=
  let s1 := exitThread s k
  { s1 with teams := s1.teams.drop t.team, groups := s1.groups.drop t.group }
    |>.updCore t.core (fun c => { c with busy := false, engine := none })

/-- The end of a job: FENCE.AR at the mailbox scope, or at that of a fence of the job's own that is wider and not complete; then the release store of the value; the thread is held at its EXIT. -/
def storeMailbox (s : State) (k : Nat) (t : Thread) (o : Long) (box value : DWord) (scope : Nat) : Out :=
  let before := (t.fence.map (·.2)).getD 0
  match memGate s k { t with fence := some (3, max scope before) } true true with
  | .hold s1 st => .wait s1 st
  | .pass s =>
    match placeGlobal s k t 1 false false box 8 8 with
    | .out (.trap s1 x) => .trap (s1.updThread k (fun u => { u with job := some (0#64, 0#64, 8) })) x
    | .out r => r
    | .ok s1 l =>
      let p := { mkOp t o with flag := none, global := true, held := true, release := some scope, info := box, next := t.pc }
      let s2 := startPieces s1 k p (storePieces 0 l (leBytes 8 value.toNat))
      .done (waitIn (s2.updThread k (fun u => { u with job := some (0#64, 0#64, 8) })) k (.parked false))

/-- EXIT: it waits for the registers still owed to the thread; a hart's thread first ends its job. -/
def effExit (o : Long) : State → Nat → Thread → Out := fun s k t =>
  if owesRegister t then .wait s (owedState ((NMap.vals t.ops).filter (·.dst.isSome)))
  else match t.job with
    | some (box, value, scope) =>
      if scope < 8 then storeMailbox s k t o box value scope else .done (endEngine s k t)
    | none => .done (exitThread s k)

/-! ## Meanings -/

/-- EXIT. -/
def execExit (o : Long) (s : State) : Host.Outcome State Fault Refusal := runLong .exit o (effExit o) s
/-- EXIT_SHORT. -/
def execExitShort (s : State) : Host.Outcome State Fault Refusal :=
  runShort .exit longZero (wordS 0x12#6 2#6 0#9 0#9) (effExit longZero) s
/-- BARA. -/
def execBara (o : Long) (s : State) : Host.Outcome State Fault Refusal := runLong .bara o (effBara o) s
/-- BARW. -/
def execBarw (o : Long) (s : State) : Host.Outcome State Fault Refusal := runLong .barw o (effBarw o) s
/-- SSTEP. -/
def execSstep (o : Long) (s : State) : Host.Outcome State Fault Refusal := runLong .sstep o (effSstep o) s
/-- SSTEP.BIND. -/
def execSstepBind (o : Long) (s : State) : Host.Outcome State Fault Refusal := runLong .sstepBind o (effSstepBind o) s
/-- ENGK. -/
def execEngk (o : Long) (s : State) : Host.Outcome State Fault Refusal := runLong .engk o (effEngk o) s
/-- ENGW. -/
def execEngw (o : Long) (s : State) : Host.Outcome State Fault Refusal := runLong .engw o (effEngw o) s

end Sys2Proof.Machine
end

