-- ==== Sys2Proof/Machine/Fetch.lean ====
section
/-! DEFINITION. Fetching clauses and starting them (R198, R199, R209 to R213, R380): the header row of the opcode table, and reading
the instruction a thread stands at. -/

namespace Sys2Proof.Machine

/-! ## Reading code (R198, R199, R406) -/

/-- The outcome of fetching words. -/
inductive Fetched where
  | ok (s : State) (ws : List Word)
  | out (r : Out)

/-- Words that an instruction cache holds: 64 KiB (R5).  A full one loses the word fetched longest ago (DESIGN CHOICE, log 77). -/
def icacheWords : Nat := 16384

/-- One instruction word at a virtual address: through the translation (class fetch, a page of kind C), from the core's
instruction cache or else from memory into it. -/
def fetchWord (s : State) (k : Nat) (t : Thread) (va : Nat) : Fetched :=
  let m := s.team t.team
  match translate s t.core m.asid t.sr.priv 2 va with
  | .miss => .out (.wait (startWalk s t.core k m.asid m.root va 2 false t.sr.priv false) (.parked false))
  | .refuse s1 code => .out (memTrap s1 code 2 (BitVec.ofNat 64 va) t)
  | .ok s1 pa e =>
    if pteKind e != 1 then .out (memTrap s1 0x23 2 (BitVec.ofNat 64 va) t)
    else match (s1.core t.core).icache.find? (fun x => x.1 == pa) with
      | some x => .ok s1 [x.2]
      | none =>
        match performHome s1 pa (.load 4) with
        | none => .out (memTrap s1 0x2A (memoryClass s1 pa) (BitVec.ofNat 64 va) t)
        | some (s2, bs) =>
          let w : Word := BitVec.ofNat 32 (leNat bs)
          .ok (s2.updCore t.core (fun c => { c with icache := ((pa, w) :: c.icache).take icacheWords })) [w]

/-- n words from a virtual address. -/
def fetchWords (s : State) (k : Nat) (t : Thread) (va : Nat) : Nat → Fetched
  | 0 => .ok s []
  | n + 1 =>
    match fetchWord s k t va with
    | .out r => .out r
    | .ok s1 w =>
      match fetchWords s1 k t (va + 4) n with
      | .out r => .out r
      | .ok s2 ws => .ok s2 (w ++ ws)

/-! ## Checking a clause (R209, R210, R380) -/

/-- The first word ends its clause when it is an instruction (R210): its opcode alone decides. -/
def wordEnds (ws : List Word) : Bool :=
  match decode ws with
  | .ok (.braShort _ _ _, _) | .ok (.callShort _ _ _, _) | .ok (.retShort, _) | .ok (.exitShort, _) => true
  | .ok (i, _) => (i.long?).any (fun p => endsClause p.1)
  | .error (.unusedField w) => w.extractLsb' 2 6 == 0x12#6 && (w.extractLsb' 26 6 == 1#6 || w.extractLsb' 26 6 == 2#6)
  | .error _ => false

/-- Walks the instruction words of a clause, with fuel: the offset of the first offending word, counted from the header. -/
def badWord : Nat → List Word → Nat → Option Nat
  | 0, _, _ => none
  | _, [], _ => none
  | fuel + 1, w :: ws, i =>
    let n := lenWords w
    let rest := (w :: ws).drop n
    if w.extractLsb' 0 2 == 3#2 then some i
    else if (w :: ws).length < n then some i
    else if wordEnds (w :: ws) && !rest.isEmpty then some i
    else badWord fuel rest (i + n)

/-- The breach of R209 or R210 in a clause, if any: the offending word's offset. -/
def badClause (setb seta : BitVec 4) (ws : List Word) : Option Nat :=
  let flag (v : BitVec 4) : Bool := decide (12 ≤ v.toNat) && decide (v.toNat ≤ 14)
  if ws.isEmpty || flag setb || flag seta then some 0 else badWord ws.length ws 1

/-! ## Starting a clause (R211, R213) -/

/-- The thread starts its clause: a region entry writes REGION and RCOUNT, and keeps SENDIX and the atomic index for R377. -/
def enterClause (t : Thread) (kind : BitVec 2) (header : Word) (ws : List Word) : Thread :=
  let t1 := { t with
    pc := t.pc + 4#64
    state := .runnable
    atHeader := some (t.sr.region, t.sr.rcount, t.sendixAt, t.atomIxAt)
    clause := some { base := t.pc, header := header, words := ws } }
  if kind.getLsbD 0 then
    { t1 with
      sr := { t.sr with region := t.pc, rcount := t.sr.rcount + 1#32 }
      sendixAt := t.sr.sendix
      atomIxAt := t.atomIx }
  else t1

/-- Trap 0x09: control passed to a word that is no header; 0x08 where a clause ran on into it (R380). -/
def notHeader (t : Thread) (w : Word) : Trap :=
  if t.ranOn then trapAt 0x08 (w.setWidth 64) t.pc else trapAt 0x09 t.pc t.last

/-- A thread at a header: its clause is fetched and checked; it yields at a yield point under a request; it waits for the named
flags; then the clause starts. -/
def startClause (kind : BitVec 2) (length : BitVec 8) (setb seta : BitVec 4) (wait : BitVec 12) (header : Word)
    (s : State) (k : Nat) : State :=
  match s.thread k with
  | none => s
  | some t0 =>
    let t := { t0 with state := .runnable }
    let s0 := s.updThread k (fun _ => t)
    match fetchWords s0 k t (t.pc.toNat + 4) length.toNat with
    | .out (.wait s1 st) => waitIn s1 k st
    | .out (.trap s1 x) => takeTrap s1 k { x with info1 := t.pc }
    | .out _ => s0
    | .ok s1 ws =>
      match badClause setb seta ws with
      | some i => takeTrap s1 k (trapAt 0x08 (BitVec.ofNat 64 (header.toNat + i * 2 ^ 32)) t.pc)
      | none =>
        if kind.getLsbD 1 && (s1.team t.team).preq then yieldAt s1 k
        else if (List.range 12).any (fun i => wait.getLsbD i && t.flags.getD i 0 != 0) then
          waitIn (s1.updThread k (fun u => { u with named := wait })) k .waiting
        else s1.updThread k (fun u => enterClause u kind header ws)

/-- CLAUSE_START. -/
def execClauseStart (kind : BitVec 2) (length : BitVec 8) (setb seta : BitVec 4) (wait : BitVec 12) (s : State) :
    Host.Outcome State Fault Refusal :=
  let header : Word := kind ++ length ++ setb ++ seta ++ wait ++ 3#2
  .next (restop (s.cur.foldl (startClause kind length setb seta wait header) s))

/-! ## The instruction a group stands at -/

/-- The words of its clause from a thread's program counter on. -/
def wordsHere (t : Thread) : Option (List Word) :=
  t.clause.map (fun c => c.words.drop ((t.pc - c.base).toNat / 4 - 1))

/-- What an issue group runs: an instruction, or, where there is none, the state after the traps or waits of its threads. -/
inductive Chosen where
  | run (s : State) (i : Instr)
  | ended (s : State)

/-- An encoding that is no instruction (R379): 0x03, or 0x04 for a short form with a field that must be zero. -/
def noInstr (s : State) (e : DecodeError) (w : Word) : State :=
  s.cur.foldl (fun s k =>
    match s.thread k with
    | none => s
    | some t =>
      if t.skip = some t.pc then
        s.updThread k (fun u => { { u with after := u.pc + BitVec.ofNat 64 (4 * lenWords w) }.advance (s.now t) with skip := none })
      else takeTrap s k (trapAt (match e with
        | .unusedField _ => 0x04
        | _ => 0x03) (w.setWidth 64) t.pc)) s

/-- Reads the header for a group at a header, thread by thread: those whose header cannot be read take their trap or wait. -/
def readHeaders (s : State) : List Nat → State × Option Word
  | [] => (s, none)
  | k :: ks =>
    match s.thread k with
    | none => readHeaders s ks
    | some t =>
      let out (s : State) : State := { s with cur := s.cur.filter (fun j => j != k) }
      if t.pc.toNat % 4 ≠ 0 ∨ 2 ^ 56 ≤ t.pc.toNat then readHeaders (out (takeTrap s k (notHeader t 0#32))) ks
      else match fetchWord s k t t.pc.toNat with
        | .out (.wait s1 st) => readHeaders (out (waitIn s1 k st)) ks
        | .out (.trap s1 x) => readHeaders (out (takeTrap s1 k x)) ks
        | .out _ => readHeaders (out s) ks
        | .ok s1 [w] =>
          if w.extractLsb' 0 2 != 3#2 then readHeaders (out (takeTrap s1 k (notHeader t w))) ks
          else
            let r := readHeaders s1 ks
            (r.1, some w)
        | .ok s1 _ => readHeaders (out s1) ks

/-- What the issue group in State.cur runs. -/
def chosen (s : State) : Chosen :=
  match s.cur.head?.bind s.thread with
  | none => .ended s
  | some t =>
    match wordsHere t with
    | none =>
      (match readHeaders s s.cur with
      | (s1, some w) => .run s1 (decodeHeader w)
      | (s1, none) => .ended s1)
    | some ws =>
      match decode ws with
      | .ok (i, _) => .run s i
      | .error e => .ended (noInstr s e (ws.headD 0#32))

end Sys2Proof.Machine
end

