-- ==== Sys2Proof/Machine/Matrix.lean ====
section
/-! DEFINITION. The matrix array (R125 to R127, R184, R194 to R196): element values, exact chunk sums and their addition into the
accumulators; tile-task records (R128, R129) and their limits (R297, R396). -/

namespace Sys2Proof.Machine

/-! ## Elements -/

/-- n elements of w bits from packed bytes; 4-bit elements two to a byte, the even one low (R126). -/
def unpackElems (w n : Nat) (bs : List Byte) : List Nat :=
  if w = 4 then (List.range n).map (fun k => (bs.getD (k / 2) 0#8).toNat / 2 ^ (4 * (k % 2)) % 16)
  else (List.range n).map (fun k => field bs (k * (w / 8)) (w / 8))

/-- Packs elements of w bits into bytes. -/
def packElems (w : Nat) (cs : List Nat) : List Byte :=
  if w = 4 then (List.range ((cs.length + 1) / 2)).map (fun m =>
    BitVec.ofNat 8 (cs.getD (2 * m) 0 % 16 + 16 * (cs.getD (2 * m + 1) 0 % 16)))
  else cs.flatMap (leBytes (w / 8))

/-- The exact value of an element: a CB4 code has its codebook entry's (R184); code 16, of no 4-bit element, stands for zero (R307). -/
def elemValue (t : Nat) (book : BitVec 256) (c : Nat) : XVal :=
  if t = 14 then if 16 ≤ c then .zero false else decodeF bf16 false (bookEntry book c) else decodeF (fmtOf t) false c

/-- The integer an I8 or Z8 element holds. -/
def elemInt (t c : Nat) : Int := codeInt 8 (t == 6) c

/-- Exception bits in the order of MXCLR (R397). -/
def excFLT : BitVec 4 := 1#4
def excNANT : BitVec 4 := 2#4
def excOFT : BitVec 4 := 4#4
def excIVT : BitVec 4 := 8#4

/-- A row of A or a column of B for one chunk: 32 codes, none for an absent element, and an E8M0 scale (127 for 1). -/
structure Strip where
  codes : List (Option Nat)
  scale : Nat
  deriving DecidableEq, Repr

/-- The values of a strip. -/
def Strip.values (x : Strip) (t : Nat) (book : BitVec 256) : List (Option XVal) :=
  x.codes.map (fun c => c.map (elemValue t book))

/-- The strip holds a NaN element, a NaN codebook entry or the scale 0xFF (R397). -/
def Strip.nan (x : Strip) (t : Nat) (book : BitVec 256) : Bool :=
  x.scale == 255 || (x.values t book).any (fun v => (v.map XVal.isNan).getD false)

/-- The exact sum of the products of one cell for one chunk (R125, R194 to R196); an absent element is a +0 product. -/
def cellSum (ra : List (Option XVal)) (sa : Nat) (cb : List (Option XVal)) (sb : Nat) : XVal × Nat :=
  let prods := (ra.zip cb).map (fun p =>
    match p with
    | (some a, some b) =>
      let ab := mulX a b
      let x := mulX ab.1 (decodeScale sa)
      let y := mulX x.1 (decodeScale sb)
      (y.1, ab.2)
    | _ => (XVal.zero false, 0))
  match prods with
  | [] => (.zero false, 0)
  | p :: ps => (ps.foldl (fun acc q => (addX 0 acc q.1).1) p.1,
      prods.foldl (fun f q => f ||| q.2) (if clash (prods.map (·.1)) then flagIV else 0))

/-- A chunk sum added into an accumulator, rounded once to nearest even (R125, R196): code and exception bits. -/
def accumulate (c : Word) (x : XVal × Nat) : Word × BitVec 4 :=
  let r := addX 0 (decodeF f32 false c.toNat) x.1
  let q := roundRne f32 r.1
  (BitVec.ofNat 32 q.1,
    (if (x.2 ||| r.2) &&& flagIV != 0 then excIVT else 0#4) ||| (if q.2 &&& flagOF != 0 then excOFT else 0#4))

/-- One chunk for the whole array: acc + A·B over 32 rows and 32 columns (R125). -/
def chunkProduct (ta tb : Nat) (bookA bookB : BitVec 256) (rows cols : List Strip) (acc : List Word) : List Word × BitVec 4 :=
  if ta = 6 ∨ ta = 7 then
    ((List.range 32).flatMap (fun i => (List.range 32).map (fun j =>
      let prods := (((rows.getD i ⟨[], 127⟩).codes).zip ((cols.getD j ⟨[], 127⟩).codes)).map (fun p =>
        match p with
        | (some a, some b) => elemInt ta a * elemInt tb b
        | _ => 0)
      acc.getD (32 * i + j) 0#32 + BitVec.ofInt 32 prods.sum)), 0#4)
  else
    let rv := rows.map (fun r => (r.values ta bookA, r.scale))
    let cv := cols.map (fun c => (c.values tb bookB, c.scale))
    let nan : BitVec 4 := if rows.any (fun r => r.nan ta bookA) || cols.any (fun c => c.nan tb bookB) then excNANT else 0#4
    let cells := (List.range 32).flatMap (fun i => (List.range 32).map (fun j =>
      let r := rv.getD i ([], 127)
      let c := cv.getD j ([], 127)
      accumulate (acc.getD (32 * i + j) 0#32) (cellSum r.1 r.2 c.1 c.2)))
    (cells.map (·.1), cells.foldl (fun e p => e ||| p.2) nan)

/-- A matrix of 1,024 F32 codes as the strips of its rows. -/
def rowStrips (m : List Word) : List Strip :=
  (List.range 32).map (fun i => ⟨(List.range 32).map (fun k => some (m.getD (32 * i + k) 0#32).toNat), 127⟩)
/-- The strips of its columns. -/
def colStrips (m : List Word) : List Strip :=
  (List.range 32).map (fun j => ⟨(List.range 32).map (fun k => some (m.getD (32 * k + j) 0#32).toNat), 127⟩)

/-- A zero tile. -/
def zeroTile : List Word := List.replicate 1024 0#32
/-- A diagonal matrix. -/
def diagonal (c : Word) : List Word := (List.range 1024).map (fun n => if n / 32 = n % 32 then c else 0#32)

/-- One F32 addition to nearest even. -/
def f32Add (sub : Bool) (a b : Word) : Word := BitVec.ofNat 32 (faddOp f32 rne 0#32 sub a.toNat b.toNat).1

/-- The residual of a Gram product (R135): the root of Σ (G − I)², i then j ascending, each operation rounded. -/
def residual (g : List Word) : Word :=
  let sum := (List.range 1024).foldl (fun acc n =>
    let d := f32Add true (g.getD n 0#32) (if n / 32 = n % 32 then 0x3F800000#32 else 0#32)
    f32Add false acc (BitVec.ofNat 32 (fmulOp f32 rne 0#32 d.toNat d.toNat).1)) 0#32
  BitVec.ofNat 32 (fsqrtOp f32 rne 0#32 sum.toNat).1

/-! ## Records (R128, R129) -/

def trKind (r : List Byte) : Nat := bits (field r 0 2) 3 0
def trMode (r : List Byte) : Nat := bits (field r 0 2) 7 4
def trBtype (r : List Byte) : Nat := bits (field r 2 2) 11 8
def trAtype (r : List Byte) : Nat := bits (field r 2 2) 7 4
def trTile (r : List Byte) : Nat := bits (field r 2 2) 2 0
def trExpv (r : List Byte) : Nat := field r 4 2
def trAspace (r : List Byte) : Bool := (field r 6 2).testBit 2
def trCtadd (r : List Byte) : Bool := (field r 6 2).testBit 1
def trCt (r : List Byte) : Bool := (field r 6 2).testBit 0
def trAaddr (r : List Byte) : Nat := field r 8 8
def trAstride (r : List Byte) : Nat := field r 16 4
def trK (r : List Byte) : Nat := field r 20 4
def trBoff (r : List Byte) : Nat := field r 24 4
def trBsc (r : List Byte) : Bool := (field r 28 4).testBit 9
def trAsc (r : List Byte) : Bool := (field r 28 4).testBit 8
def trBcb (r : List Byte) : Nat := bits (field r 28 4) 6 4
def trAcb (r : List Byte) : Nat := bits (field r 28 4) 2 0
def trAscale (r : List Byte) : Nat := field r 32 8
def trMaddr (r : List Byte) : Nat := field r 40 8
def trCtaddr (r : List Byte) : Nat := field r 48 8
def trDeriv (r : List Byte) : DWord := BitVec.ofNat 64 (field r 56 8)

/-- A record's fields, to be laid out (R128). -/
structure RecordFields where
  kind : Nat := 0
  mode : Nat := 0
  btype : Nat := 0
  atype : Nat := 0
  tile : Nat := 0
  expv : Nat := 0
  aspace : Bool := false
  ctadd : Bool := false
  ct : Bool := false
  aaddr : Nat := 0
  astride : Nat := 0
  k : Nat := 0
  boff : Nat := 0
  bsc : Bool := false
  asc : Bool := false
  bcb : Nat := 0
  acb : Nat := 0
  ascale : Nat := 0
  maddr : Nat := 0
  ctaddr : Nat := 0
  deriv : Nat := 0
  deriving DecidableEq, Repr

/-- The 64 bytes of a record (R128). -/
def RecordFields.bytes (f : RecordFields) : List Byte :=
  leBytes 2 (f.kind + 16 * f.mode) ++ leBytes 2 (f.tile + 16 * f.atype + 256 * f.btype) ++ leBytes 2 f.expv ++
    leBytes 2 (bit f.aspace 2 + bit f.ctadd 1 + bit f.ct 0) ++ leBytes 8 f.aaddr ++ leBytes 4 f.astride ++ leBytes 4 f.k ++
    leBytes 4 f.boff ++ leBytes 4 (bit f.bsc 9 + bit f.asc 8 + 16 * f.bcb + f.acb) ++ leBytes 8 f.ascale ++
    leBytes 8 f.maddr ++ leBytes 8 f.ctaddr ++ leBytes 8 f.deriv

/-- Bits of an element type. -/
def widthOf (t : Nat) : Nat := typeBits (BitVec.ofNat 4 t)

/-- N of an N-of-48 code: 12, 24 or 36; dense is 48 (R129). -/
def sparseN (r : List Byte) : Nat := if trKind r = 1 then 12 * (trMode r / 2 % 4 + 1) else 48

/-- The multiply types agree (R125). -/
def typesOk (a b : Nat) : Bool :=
  (oneOf [6, 7] a && oneOf [6, 7] b) || (oneOf [9, 10, 11, 12, 13, 14] a && oneOf [9, 10, 11, 12, 13, 14] b)

/-- Bytes from BOFF, per slice, that a record's task uses (R126, R297). -/
def columnSpan (r : List Byte) : Nat :=
  match trKind r with
  | 0 | 1 => trK r * widthOf (trBtype r) / 8 + (if trBsc r then trK r / 32 else 0)
  | 2 => if trMode r % 4 = 2 then 384 else 128
  | 4 | 5 => 4 * widthOf (trBtype r)
  | _ => 0

/-- The record keeps the limits of R128, R129 and R297 for a team with this column window and this many tiles (R396).  W16 is
looked at when the task starts. -/
def recordOk (window : Nat) (r : List Byte) : Bool :=
  let a := trAtype r
  let b := trBtype r
  let k := trK r
  let st := trAstride r
  let n := sparseN r
  decide (trKind r ≤ 8) &&
  (columnSpan r == 0 || decide (trBoff r + columnSpan r ≤ window)) &&
  (!(trAspace r && oneOf [0, 1, 6, 7] (trKind r)) || (decide (trAaddr r < 2 ^ 32) &&
    (!(trAsc r && decide (trKind r ≤ 1)) || decide (trAscale r < 2 ^ 32)) && (trKind r != 1 || decide (trMaddr r < 2 ^ 32)))) &&
  match trKind r with
  | 0 | 1 => typesOk a b && !(oneOf [6, 7] a && (trAsc r || trBsc r)) && k % 32 == 0 && decide (32 ≤ k) && decide (k ≤ 65536) &&
      (trKind r != 1 || (trMode r / 2 % 4 != 3 && k % 96 == 0)) && st % 16 == 0 && decide (k * n / 48 * widthOf a ≤ st * 8)
  | 2 => st % 256 != 0
  | 3 => oneOf [8, 9, 10] a
  | 4 => oneOf [9, 10, 11, 12, 13] a && oneOf [9, 10, 11, 12, 13, 14] b && k == 32
  | 5 => oneOf [9, 10, 11, 12, 13] b
  | 6 | 7 => oneOf [0, 8, 9, 10] (trMode r) && st % 16 == 0 &&
      decide ((if trMode r = 9 ∨ trMode r = 10 then 64 else 128) ≤ st)
  | _ => true

end Sys2Proof.Machine
end

