-- ==== Sys2Proof/Machine/Tile.lean ====
section
/-! DEFINITION. Tile instructions, opcodes 0x80 to 0x8F (R294 to R308): building and accepting tile tasks, versions, team registers,
loading the column store, TWMMA; and the end of every operation (OPERATION_COMPLETE, R212). -/

namespace Sys2Proof.Machine

/-! ## Tiles of a team (R138, R350) -/

/-- The physical tile behind a team's tile. -/
def tileIndex (m : Team) (i : Nat) : Nat := m.tiles.getD i 8
/-- A team's tile. -/
def teamTile (s : State) (m : Team) (i : Nat) : Tile := (s.core m.core).tiles.getD (tileIndex m i) Tile.reset
/-- Changes a team's tile. -/
def updTile (s : State) (m : Team) (i : Nat) (f : Tile → Tile) : State :=
  s.updCore m.core (fun c => { c with tiles := c.tiles.modify (tileIndex m i) f })

/-- Trap 0x40 of a tile (R378). -/
def tileTrap (s : State) (m : Team) (i : Nat) (t : Thread) : Out :=
  .trap s (trapAt 0x40 (BitVec.ofNat 64 (i % 8 + bit ((teamTile s m i).w16 && decide (i < m.tiles.length)) 3)) t.pc)

/-- An instruction of 0x80 to 0x8F on the resources of the thread's lending team: 0x11 where none is resident (R350), behind the code of
an operand that is outside its limits whatever the team (R379). -/
def withLender (op : LongOp) (o : Long) (s : State) (t : Thread) (go : Nat → Team → Out) (limits : Bool := true) : Out :=
  match lendingTeam s t.team with
  | none => .trap s (trapAt (if limits then 0x11 else 0x41) (firstWord op o) t.pc)
  | some k => go k (s.team k)

/-! ## Accepting tasks (R131, R298) -/

/-- Tasks that occupy the queue: those not yet complete. -/
def queuedTasks (c : Core) : List (Nat × Task) := c.tasks.filter (fun p => p.2.due.isNone)

/-- TENQs of a core that have issued and whose records are not yet accepted. -/
def tenqsPending (s : State) (ep : Nat) : Nat :=
  ((NMap.vals s.threads).map (fun t => if t.core = ep then ((NMap.vals t.ops).filter (fun p => p.token == 7)).length else 0)).sum

/-- The queue is full (R131).  A TENQ that has issued holds its place, so that its thread waits at the TENQ itself and not beyond it (R298,
R300; log 138). -/
def queueFull (s : State) (ep : Nat) : Bool := decide (64 ≤ (queuedTasks (s.core ep)).length + tenqsPending s ep)

/-- Accepts a record into a core's tile-task queue: coefficients and codebook entries are captured (R184, R298). -/
def acceptTask (s : State) (team space : Nat) (record : List Byte) (prio : Nat) (priv : Bool) (source : DWord) (index : Nat)
    (entry : Option Nat := none) (hint : Nat := 0) : State :=
  let m := s.team team
  let k := s.fresh
  let x : Task :=
    { team := team, entry := entry, space := space, record := record, prio := prio, order := k
      bookA := m.books.getD (trAcb record) 0#256, bookB := m.books.getD (trBcb record) 0#256
      coef := m.coef, priv := priv, source := source, started := false, step := 0, second := false, staging := [], work := []
      done := false, due := none, index := index, hint := hint, excs := 0#4, fault := none }
  { s with fresh := k + 1 }.updCore m.core (fun c => { c with tasks := c.tasks.put k x })
/-- A column-store write, or a record's read, that the thread issued before is not done (R132, R298, R305). -/
def buildsPending (t : Thread) : Bool := (NMap.vals t.ops).any (fun p => p.token == 7 || p.token == 9)

/-- The atomic index that the completion target of a record thread's next task takes: the write counts as one of the thread's atomics. -/
def nextIndex (s : State) (k : Nat) : State × Nat :=
  match s.thread k with
  | none => (s, 0)
  | some t => (s.updThread k (fun u => { u with atomIx := u.atomIx + 1 }), t.atomIx)

/-- Accepts a record for a thread. -/
def acceptFor (s : State) (k : Nat) (t : Thread) (lender : Nat) (record : List Byte) (source : DWord) (hint : Nat := 0) : State :=
  let r := nextIndex s k
  acceptTask (if trCt record then r.1 else s) lender t.team record (taskPrio s t) t.sr.priv source r.2 none hint

/-- What is wrong with a record (R350, R378, R396): a tile at or above the tile count, 0x40 with that tile; anything else, 0x41. -/
def recordFault (m : Team) (r : List Byte) (source : DWord) : Option (Nat × DWord) :=
  if m.tiles.length ≤ trTile r then some (0x40, BitVec.ofNat 64 (trTile r))
  else if trKind r = 4 ∧ m.tiles.length ≤ trAaddr r % 8 then some (0x40, BitVec.ofNat 64 (trAaddr r % 8))
  else if recordOk m.columnSize r then none
  else some (0x41, source)

/-- Issues a task-building instruction (R298): the checks of R379, then acceptance when the queue has room.  The enqueue is a release
(R85), so earlier accesses are performed first. -/
def buildTask (op : LongOp) (o : Long) (mk : Thread → RecordFields) : State → Nat → Thread → Out := fun s k t =>
  if bits (t.reg o.e.toNat).toNat 31 26 ≠ 0 then .trap s (trapAt 0x04 (firstWord op o) t.pc)
  else withLender op o s t (limits := recordOk (2 ^ 64) (mk t).bytes) (fun key m =>
    let f := mk t
    let r := f.bytes
    let wide := (teamTile s m f.tile).w16 && (f.kind == 6 || f.kind == 7) && (f.mode == 0 || f.mode == 8)
    if m.tiles.length ≤ f.tile then tileTrap s m f.tile t
    else if f.kind = 4 ∧ m.tiles.length ≤ f.aaddr % 8 then tileTrap s m (f.aaddr % 8) t
    else if wide then tileTrap s m f.tile t
    else if !recordOk m.columnSize r then .trap s (trapAt 0x41 (firstWord op o) t.pc)
    else memStart s k t o false (some 0) (fun s t =>
      if buildsPending t || queueFull s t.core then .wait s .waiting
      else .go (addReady (acceptFor s k t key r (firstWord op o) o.hint.toNat) k (mkOp t o) [])))

/-- Registers of the group named by E, and the fields that the control word gives (R296). -/
def groupWord (t : Thread) (o : Long) (i : Nat) : Nat := (t.reg (o.e.toNat + i)).toNat
/-- A register pair of the group. -/
def groupPair (t : Thread) (o : Long) (i : Nat) : Nat := groupWord t o i + 2 ^ 32 * groupWord t o (i + 1)

/-- The fields common to every built record (R296, R297). -/
def commonFields (t : Thread) (o : Long) : RecordFields :=
  let w := groupWord t o 0
  let ct := w.testBit 16
  { tile := o.d.toNat, expv := bits w 15 0, ct := ct, ctadd := w.testBit 17,
    ctaddr := if ct then groupPair t o 2 else 0,
    deriv := if t.prio.isSome then t.sr.deriv.toNat else 0 }

/-- The address operand A: wide, or narrow in scratch (R295). -/
def tileAddress (t : Thread) (o : Long) : Nat :=
  if o.m4.getLsbD 1 then (src32 t o .a).toNat else (src64 t o .a).toNat

/-- The record of TMMA and TMMAS (R297). -/
def mmaFields (sparse : Bool) (o : Long) (t : Thread) : RecordFields :=
  let w := groupWord t o 0
  let asc := w.testBit 24
  { commonFields t o with
    kind := if sparse then 1 else 0
    mode := (if o.m4.getLsbD 0 then 1 else 0) + (if sparse then 2 * (o.m4.toNat / 4) else 0)
    atype := o.ty.toNat, btype := o.p5.toNat % 16, aaddr := tileAddress t o, astride := groupWord t o 1
    k := (src32 t o .c).toNat, boff := (src32 t o .b).toNat, aspace := o.m4.getLsbD 1
    asc := asc, bsc := w.testBit 25, acb := bits w 20 18, bcb := bits w 23 21
    ascale := if asc then groupPair t o 4 else 0
    maddr := if sparse then groupPair t o 6 else 0 }

/-- The record of TITER. -/
def iterFields (o : Long) (t : Thread) : RecordFields :=
  { commonFields t o with
    kind := 2, mode := o.m4.toNat, aaddr := (src32 t o .a).toNat, astride := (src32 t o .b).toNat % 256, boff := (src32 t o .c).toNat }
/-- The record of TPOLY. -/
def polyFields (o : Long) (t : Thread) : RecordFields :=
  { commonFields t o with kind := 3, mode := o.m4.toNat, atype := o.ty.toNat }
/-- The record of TFEED. -/
def feedFields (o : Long) (t : Thread) : RecordFields :=
  { commonFields t o with
    kind := 4, mode := o.m4.toNat, atype := o.ty.toNat, btype := o.p5.toNat % 16
    aaddr := o.a.toNat + groupWord t o 1 % 65536 * 65536, k := 32, boff := (src32 t o .b).toNat
    bcb := bits (groupWord t o 0) 23 21 }
/-- The record of TTRN. -/
def trnFields (o : Long) (t : Thread) : RecordFields :=
  { commonFields t o with kind := 5, btype := o.p5.toNat % 16, boff := (src32 t o .c).toNat }
/-- The record of TSTA (kind 6) and TLDA (kind 7). -/
def rowFields (kind : Nat) (o : Long) (t : Thread) : RecordFields :=
  { commonFields t o with
    kind := kind, mode := o.ty.toNat, aaddr := tileAddress t o, astride := groupWord t o 1, aspace := o.m4.getLsbD 1 }
/-- The record of TZERO. -/
def zeroFields (o : Long) (t : Thread) : RecordFields := { commonFields t o with kind := 8, mode := o.m4.toNat }

/-! ## Reads that end in more than a register: TENQ, TCB, TBLD (R300, R304, R305) -/

/-- Starts the read of byte ranges, in scratch or in memory, as one operation with an end of its own. -/
def readFor (s : State) (k : Nat) (t : Thread) (o : Long) (token : Nat) (extra : List Nat) (addr align : Nat)
    (ranges : List (Nat × Nat)) : Out :=
  let p := { mkOp t o with token := token, extra := extra, reads := true, info := BitVec.ofNat 64 addr }
  if addr % align ≠ 0 then memTrap s 0x24 0 (BitVec.ofNat 64 addr) t
  else if o.m4.getLsbD 1 then
    let offs := ranges.map (fun r => (scratchOffset s t.core (s.team t.team) t.sr.priv false r.1 r.2, r))
    match offs.find? (fun x => x.1.isNone) with
    | some x => memTrap s 0x26 3 (BitVec.ofNat 64 x.2.1) t
    | none =>
      let r := addOp s k p
      match offs.find? (fun x => hitsError s (scratchLoc t.core (x.1.getD 0)) x.2.2 false) with
      | some x => .go (loseTreelet (opRefused r.1 k r.2 0x2A p.info) t.core (x.1.getD 0) (threadRay s t))
      | none => .go (opReady r.1 k r.2 (offs.flatMap (fun x => readScratch s t.core (x.1.getD 0) x.2.2)))
  else if ranges.any (fun r => decide (2 ^ 56 < r.1 + r.2)) then memTrap s 0x24 0 (BitVec.ofNat 64 addr) t
  else match placePieces s k t 0 false false (ranges.flatMap (fun r => cutLines r.1 r.2)) with
    | .out r => r
    | .ok s1 l => .go (startPieces s1 k { p with global := true } (loadPieces o.hint.toNat l))

/-- Lower lanes of the issue group that have been turned away at this instruction: their records and codebooks come first (R298, R304). -/
def lanesAhead (s : State) (k : Nat) (t : Thread) : List Nat :=
  (s.cur.takeWhile (· != k)).filter (fun j => (s.thread j).any (fun u => u.pc == t.pc && u.state == .parked false))

/-- TENQ. -/
def effTenq (o : Long) : State → Nat → Thread → Out := fun s k t =>
  withLender .tenq o s t (fun lk _ =>
    memStart s k t o (!o.m4.getLsbD 1) (some 0) (fun s t =>
      if buildsPending t || queueFull s t.core then .wait s .waiting
      else
        let a := tileAddress t o
        readFor s k t o 7 (lk :: 0 :: lanesAhead s k t) a 64 [(a, 64)]))

/-- TCB. -/
def effTcb (o : Long) : State → Nat → Thread → Out := fun s k t =>
  withLender .tcb o s t (fun lk _ =>
    memStart s k t o (!o.m4.getLsbD 1) none (fun s t =>
      let a := tileAddress t o
      readFor s k t o 8 (lk :: o.d.toNat :: lanesAhead s k t) a 32 [(a, 32)]))

/-- The stride and row count of a TBLD keep their limits (R305). -/
def tbldLimits (w stride rows : Nat) : Bool :=
  stride % 16 == 0 && decide (4 * w ≤ stride) && decide (0 < rows) && decide (rows ≤ 65536) && !(w == 4 && rows % 2 == 1)

/-- TBLD. -/
def effTbld (o : Long) : State → Nat → Thread → Out := fun s k t =>
  let w := typeBits o.ty
  let a := tileAddress t o
  let stride := (src32 t o .b).toNat
  let boff := (src32 t o .c).toNat
  let rows := (t.reg o.e.toNat).toNat
  withLender .tbld o s t (limits := tbldLimits w stride rows) (fun lk m =>
    if !tbldLimits w stride rows ∨ m.columnSize < boff + rows * w / 8 then
      .trap s (trapAt 0x41 (firstWord .tbld o) t.pc)
    else memStart s k t o (!o.m4.getLsbD 1) none (fun s t =>
      if buildsPending t || wavePending s k t then .wait s .waiting
      else readFor s k t o 9 [lk, w, boff, rows] a 1 ((List.range rows).map (fun i => (a + i * stride, 4 * w)))))

/-- Writes bytes into a slice of a team's column window. -/
def writeColumn (s : State) (m : Team) (j off : Nat) (bs : List Byte) : State :=
  homeWrite s (columnLoc m.core (j * 0x20000 + m.column + off)) bs

/-- A lower lane of the issue group has still to end the same instruction: its operation is outstanding, or it was turned away there and has
not come past it (R298, R304). -/
def behindLane (s : State) (k key : Nat) (t : Thread) (p : Op) : Bool :=
  s.threads.any (fun x => x.1 != k && x.2.core == t.core && x.2.state != .exited &&
    (x.2.ops.any (fun y => y.2.token == p.token && y.2.at_ == p.at_ && ((p.extra.drop 2).contains x.1 || y.2.issued == p.issued && decide (y.1 < key))) ||
      ((p.extra.drop 2).contains x.1 && x.2.pc == p.at_)))

/-- The lending team that an instruction of 0x80 to 0x8F found when it issued (R350, R378), as long as it is resident. -/
def lenderAtIssue (s : State) (p : Op) : Option Nat := (s.teams.find (p.extra.headD 0)).map (fun _ => p.extra.headD 0)

/-- The end of a TENQ: the record is checked and accepted, behind those of lower lanes (R300, R396). -/
def endTenq (s closed : State) (k key : Nat) (t : Thread) (p : Op) (record : List Byte) : State :=
  if behindLane s k key t p then s
  else match lenderAtIssue s p with
  | none => closed
  | some lk =>
    match recordFault (s.team lk) record p.info with
    | some (code, info) =>
      if t.state == .exited then closed else closed.updThread k (fun u => { u with lateTrap := u.lateTrap ++ [(code, info, 0)] })
    | none => if 64 ≤ (queuedTasks (s.core t.core)).length then s else acceptFor closed k t lk record p.info

/-- The end of a TCB: codebook register cb is written, after those of lower lanes (R304). -/
def endTcb (s closed : State) (k key : Nat) (t : Thread) (p : Op) (data : List Byte) : State :=
  if behindLane s k key t p then s
  else match lenderAtIssue s p with
  | none => closed
  | some lk => closed.updTeam lk (fun m => { m with books := m.books.set (p.extra.getD 1 0) (BitVec.ofNat 256 (leNat data)) })

/-- The end of a TBLD: the rows go to the column store, element j of each to slice j (R305). -/
def endTbld (s closed : State) (k key : Nat) (p : Op) (data : List Byte) : State :=
  match lenderAtIssue s p, p.extra.tail with
  | some lk, [w, boff, rows] =>
    let m := s.team lk
    let n := rows * w / 8
    match (List.range 32).find? (fun j => hitsError s (columnLoc m.core (j * 0x20000 + m.column + boff)) n true) with
    | some j => opRefused s k key 0x2E (BitVec.ofNat 64 (j * 0x20000 + boff))
    | none =>
      (List.range 32).foldl (fun s j =>
        writeColumn s m j boff (packElems w ((List.range rows).map (fun r =>
          (unpackElems w 32 ((data.drop (r * 4 * w)).take (4 * w))).getD j 0)))) closed
  | _, _ => closed

/-! ## Versions and team registers (R301 to R303, R136) -/

/-- The state word of a tile (R136). -/
def tileWord (x : Tile) : Nat :=
  x.version % 65536 + x.iter % 256 * 2 ^ 16 + x.phase % 16 * 2 ^ 24 + x.status % 8 * 2 ^ 28 + bit x.w16 31 + x.resid.toNat * 2 ^ 32

/-- The version counter has reached a version (R301). -/
def versionReached (x : Tile) (v : Nat) : Bool := decide ((x.version + 65536 - v % 65536) % 65536 < 2 ^ 15)

/-- TWAIT: when it ends it empties the tile's report slot and takes its trap (R393). -/
def effTwait (o : Long) : State → Nat → Thread → Out := fun s k t =>
  withLender .twait o s t (fun key m =>
    let i := o.d.toNat
    if m.tiles.length ≤ i then tileTrap s m i t
    else if !versionReached (teamTile s m i) (src32 t o .a).toNat then
      (if (s.team t.team).preq then .done (yieldAt s k) else .wait s .waiting)
    else match (m.reports.getD i none) with
      | some (code, info, cls) =>
        let s1 := s.updTeam key (fun m => { m with reports := m.reports.set i none })
        .trap s1 { trapLate code info 0 with cls := cls }
      | none => .go s)

/-- TVER. -/
def effTver (o : Long) : State → Nat → Thread → Out := fun s k t =>
  withLender .tver o s t (fun _ m =>
    if m.tiles.length ≤ o.a.toNat then tileTrap s m o.a.toNat t
    else
      let v := tileWord (teamTile s m o.a.toNat)
      .go (s.updThread k (fun t => t.setRegs o.d.toNat [BitVec.ofNat 32 v, BitVec.ofNat 32 (v / 2 ^ 32)])))

/-- TCOEF. -/
def effTcoef (o : Long) : State → Nat → Thread → Out := fun s _ t =>
  withLender .tcoef o s t (fun key _ =>
    .go (s.updTeam key (fun m => { m with coef := m.coef.set o.d.toNat (src32 t o .a) })))

/-- TCOEF.GET. -/
def effTcoefGet (o : Long) : State → Nat → Thread → Out := fun s k t =>
  withLender .tcoefGet o s t (fun _ m =>
    .go (s.updThread k (fun t => t.setRegs o.d.toNat [m.coef.getD o.a.toNat 0#32])))

/-! ## TWMMA (R306 to R308) -/

/-- Registers of an A run, and of a result run. -/
def runA (o : Long) : Nat := if typeBits o.ty = 16 then 16 else if typeBits o.ty = 8 then 8 else 4
def runD (o : Long) : Nat := if o.m4.toNat % 4 = 0 then 32 else 16

/-- The mask has released: the participants' runs are read, and the product waits for the array. -/
def applyTwmma (o : Long) (s : State) (ks : List Nat) : State :=
  let ps := ks.filterMap (fun k => (s.thread k).map (fun t => (k, t)))
  match ps with
  | [] => s
  | (_, t0) :: _ =>
    let bad (s : State) (code : Nat) : State :=
      ps.foldl (fun s p => takeTrap s p.1 (trapAt code (firstWord .twmma o) p.2.pc)) s
    match lendingTeam s t0.team with
    | none => bad s 0x11
    | some lk =>
      let m := s.team lk
      let boff := (src32 t0 o .b).toNat
      if m.columnSize < boff + 4 * widthOf (o.p5.toNat % 16) then bad s 0x41
      else
        let issued := ps.foldl (fun (a : State × List (Nat × Nat × Nat)) p =>
          let r := addOp a.1 p.1 { mkOp p.2 o with dst := some (o.d.toNat, runD o), size := 4 * runD o, reads := true, info := BitVec.ofNat 64 boff }
          (r.1, a.2 ++ [(p.2.lane, p.1, r.2)])) (s, [])
        let x : WaveTask :=
          { team := lk, boff := boff, lanes := issued.2, o := o
            rows := ps.map (fun p => srcRun p.2 o .a (runA o))
            accs := if o.m4.getLsbD 2 then ps.map (fun p => regRun p.2 o.d.toNat 32) else []
            book := m.books.getD o.e.toNat 0#256 }
        issued.1.updCore t0.core (fun c => { c with waves := c.waves ++ [x] })

/-- Lanes that may arrive at a TWMMA: the others wait for room on their flag, for their own column-store writes, or for an acquire or a fence
of theirs (R81, R282). -/
def twmmaReady (o : Long) (t : Thread) : Bool :=
  !(flagFull t (flagOf t o.fs) || buildsPending t || t.polls || t.awaits (fun p => p.acquire.isSome) ||
    t.fence.isSome && t.awaits (fun _ => true))

/-- TWMMA. -/
def runTwmma (o : Long) (s : State) : State :=
  let held := s.cur.filter (fun k => match s.thread k with
    | some t => guardHolds t o && !twmmaReady o t
    | none => false)
  let s1 := held.foldl (fun s k => waitIn s k .waiting) s
  let len := o.bytes
  runWide .twmma o len ((encodeLong .twmma o).headD 0#32) (applyTwmma o) { s1 with cur := s1.cur.filter (fun k => !held.contains k) }

/-! ## Meanings -/

/-- TMMA. -/
def execTmma (o : Long) (s : State) : Host.Outcome State Fault Refusal := runLong .tmma o (buildTask .tmma o (mmaFields false o)) s
/-- TMMAS. -/
def execTmmas (o : Long) (s : State) : Host.Outcome State Fault Refusal := runLong .tmmas o (buildTask .tmmas o (mmaFields true o)) s
/-- TWMMA. -/
def execTwmma (o : Long) (s : State) : Host.Outcome State Fault Refusal := .next (runTwmma o s)
/-- TITER. -/
def execTiter (o : Long) (s : State) : Host.Outcome State Fault Refusal := runLong .titer o (buildTask .titer o (iterFields o)) s
/-- TPOLY. -/
def execTpoly (o : Long) (s : State) : Host.Outcome State Fault Refusal := runLong .tpoly o (buildTask .tpoly o (polyFields o)) s
/-- TWAIT. -/
def execTwait (o : Long) (s : State) : Host.Outcome State Fault Refusal := runLong .twait o (effTwait o) s
/-- TVER. -/
def execTver (o : Long) (s : State) : Host.Outcome State Fault Refusal := runLong .tver o (effTver o) s
/-- TLDA. -/
def execTlda (o : Long) (s : State) : Host.Outcome State Fault Refusal := runLong .tlda o (buildTask .tlda o (rowFields 7 o)) s
/-- TSTA. -/
def execTsta (o : Long) (s : State) : Host.Outcome State Fault Refusal := runLong .tsta o (buildTask .tsta o (rowFields 6 o)) s
/-- TZERO. -/
def execTzero (o : Long) (s : State) : Host.Outcome State Fault Refusal := runLong .tzero o (buildTask .tzero o (zeroFields o)) s
/-- TENQ. -/
def execTenq (o : Long) (s : State) : Host.Outcome State Fault Refusal := runLong .tenq o (effTenq o) s
/-- TCOEF. -/
def execTcoef (o : Long) (s : State) : Host.Outcome State Fault Refusal := runLong .tcoef o (effTcoef o) s
/-- TCOEF.GET. -/
def execTcoefGet (o : Long) (s : State) : Host.Outcome State Fault Refusal := runLong .tcoefGet o (effTcoefGet o) s
/-- TCB. -/
def execTcb (o : Long) (s : State) : Host.Outcome State Fault Refusal := runLong .tcb o (effTcb o) s
/-- TBLD. -/
def execTbld (o : Long) (s : State) : Host.Outcome State Fault Refusal := runLong .tbld o (effTbld o) s
/-- TTRN. -/
def execTtrn (o : Long) (s : State) : Host.Outcome State Fault Refusal := runLong .ttrn o (buildTask .ttrn o (trnFields o)) s
/-- TFEED. -/
def execTfeed (o : Long) (s : State) : Host.Outcome State Fault Refusal := runLong .tfeed o (buildTask .tfeed o (feedFields o)) s

end Sys2Proof.Machine
end

