-- ==== Sys2Proof/Machine/Agent.lean ====
section
/-! DEFINITION. Accesses that an agent of a core makes for itself, without a thread: the task scheduler's and the array's reads and
writes (R94, R127, R133, R415), and the read of a KIND 2 record (R38, R396). -/

namespace Sys2Proof.Machine

/-- What an agent's access comes to. -/
inductive Found where
  | ok (s : State) (data : List Byte)
  /-- its translation is not done -/
  | wait (s : State)
  /-- refused with a code and an address for TRAPINFO0 -/
  | refused (s : State) (code : Nat) (info : Nat)

/-- An agent's access goes in a packet: to another package's memory, or to a register window (R60, R64). -/
def agentFar (pa : Nat) : Bool := isFar pa || regionOf pa == .agent

/-- The structure class of a refusal to an agent: that of the memory that its address maps to (R399). -/
def agentClass (s : State) (ep asid : Nat) (priv : Bool) (va code : Nat) : Nat :=
  match translate s ep asid priv 0 va with
  | .ok _ pa _ => refusalClass (memoryClass s pa) code
  | _ => refusalClass 6 code

/-- n free bytes, of a use. -/
def freeBytes (s : State) (use n : Nat) : List Byte × State :=
  ((List.range n).map (fun i => Config.freeByte use (s.free + i)), { s with free := s.free + n })

/-- A read of a core's agents goes out. -/
def askRead (s : State) (ep pa n hint : Nat) : State :=
  (s.updCore ep (fun c => { c with reads := c.reads.put c.seq { pa := pa, size := n, asked := s.stamp, got := none, code := none } })).send
    { mkPacket 1 0x10 ep (homeEndpoint pa) 1
        (.request 0x10 { pa := pa, home := true, access := .load n, hint := hint } agentReader (s.core ep).seq 0) with addr := BitVec.ofNat 64 pa }

/-- The answer to an agents' read has come: its bytes, or the code of a refusal. -/
def readAnswered (s : State) (ep seq : Nat) (r : Except Nat (List Byte)) : State :=
  s.updCore ep (fun c => { c with reads := c.reads.adjust seq (fun x => match r with
    | .ok bs => { x with got := some bs }
    | .error code => { x with code := some code }) })

/-- The answers that have come have been used. -/
def dropReads (s : State) (ep : Nat) : State :=
  s.updCore ep (fun c => { c with reads := c.reads.filter (fun x => x.2.got.isNone && x.2.code.isNone) })

/-- A line that an L1 holds ready serves an agent's access, with what its hint asks for (R207). -/
def serveAgent (s : State) (ep pa hint : Nat) (a : Access) : Found :=
  let r := performL1 s ep pa a
  .ok (dropHint (nextHint r.1 ep pa hint) ep pa hint) r.2

/-- An agent's access to a line of another package in its core's L1: the line is there, comes from a peer, or is asked of its home. -/
def agentLine (s : State) (ep pa hint : Nat) (a : Access) (va : Nat) : Found :=
  let l := lineOf pa
  if lineReady s ep pa a.writes then serveAgent s ep pa hint a
  else if lineReady s ep pa false || (peerCopy s ep l).isSome then serveAgent (serveMiss s ep pa hint none a.writes) ep pa hint a
  else match (s.core ep).reads.find? (fun x => x.2.pa == l && x.2.size == 128) with
  | some (q, x) =>
    let gone := s.updCore ep (fun c => { c with reads := c.reads.drop q })
    (match x.code, x.got with
    | some code, _ => .refused gone code va
    | none, some bs =>
      if dirtyElsewhere s ep l then .wait gone
      else serveAgent (serveMiss gone ep pa hint (some (bs, x.asked)) a.writes) ep pa hint a
    | none, none => .wait s)
  | none =>
    let s1 := sendLineHome s ep l
    if linePending s1 ep l then .wait s1
    else if reachable s1 ep (homeEndpoint l) then .wait (askRead (perfCount s1 ep 3 1) ep l 128 hint)
    else .refused s1 0x67 va

/-- An agent's read by packet, of which the answer stays until the step that needs it is made. -/
def agentAnswer (s : State) (ep pa hint n va : Nat) : Found :=
  match (s.core ep).reads.find? (fun x => x.2.pa == pa && x.2.size == n) with
  | some (q, x) =>
    (match x.code, x.got with
    | some code, _ => .refused (s.updCore ep (fun c => { c with reads := c.reads.drop q })) code va
    | none, some bs => .ok s bs
    | none, none => .wait s)
  | none => if reachable s ep (homeEndpoint pa) then .wait (askRead s ep pa n hint) else .refused s 0x67 va

/-- Performs a placed read of n bytes within a line. -/
def agentLoad (s : State) (ep pa : Nat) (e : DWord) (va n hint : Nat) : Found :=
  if agentFar pa then (if pteKind e == 0 then agentAnswer s ep pa hint n va else agentLine s ep pa hint (.load n) va)
  else if !memoryOn s pa then .refused s 0x67 va
  else if pteKind e == 0 then
    match performHome s pa (.load n) hint with
    | some (s1, bs) => .ok s1 bs
    | none => .refused s 0x2A va
  else if hitsError s pa n false then .refused s 0x2A va
  else serveAgent (serveMiss s ep pa hint none false) ep pa hint (.load n)

/-- Performs a placed write within a line. -/
def agentSave (s : State) (ep pa : Nat) (e : DWord) (va : Nat) (bs : List Byte) (hint : Nat) : Found :=
  if agentFar pa then
    if pteKind e == 0 then
      (if reachable s ep (homeEndpoint pa) then .ok (sendFar s ep pa (.store bs)) [] else .refused s 0x67 va)
    else agentLine s ep pa hint (.store bs) va
  else if !memoryOn s pa then .refused s 0x67 va
  else if pteKind e == 0 then
    match performHome s pa (.store bs) hint with
    | some (s1, _) => .ok s1 []
    | none => .refused s 0x2A va
  else if hitsError s pa bs.length true then .refused s 0x2A va
  else serveAgent (serveMiss s ep pa hint none true) ep pa hint (.store bs)

/-- Reads ranges of at most 128 bytes in turn. -/
def agentReads (s : State) (ep asid root : Nat) (priv : Bool) (hint : Nat) : List (Nat × Nat) → Found
  | [] => .ok s []
  | (va, n) :: rest =>
    match agentPlace s ep asid root priv 0 va with
    | .wait s1 => .wait s1
    | .refused s1 code => .refused s1 code va
    | .ok s1 pa e =>
      match agentLoad s1 ep pa e va n hint with
      | .ok s2 bs =>
        (match agentReads s2 ep asid root priv hint rest with
        | .ok s3 cs => .ok s3 (bs ++ cs)
        | r => r)
      | r => r

/-- Reads ranges of at most 128 bytes, each cut at its line. -/
def agentRead (s : State) (ep asid root : Nat) (priv : Bool) (ranges : List (Nat × Nat)) (hint : Nat := 0) : Found :=
  agentReads s ep asid root priv hint (ranges.flatMap (fun r => cutLines r.1 r.2))

/-- Every range can be translated for writing. -/
def agentPlaces (s : State) (ep asid root : Nat) (priv : Bool) : List (Nat × Nat) → Found
  | [] => .ok s []
  | (va, _) :: rest =>
    match agentPlace s ep asid root priv 1 va with
    | .wait s1 => .wait s1
    | .refused s1 code => .refused s1 code va
    | .ok s1 _ _ => agentPlaces s1 ep asid root priv rest

/-- Writes bytes at an address, at most 128 of them: nothing is written before every line of it is translated. -/
def agentWrite (s : State) (ep asid root : Nat) (priv : Bool) (va : Nat) (bs : List Byte) (hint : Nat := 0) : Found :=
  let cut := cutLines va bs.length
  match agentPlaces s ep asid root priv cut with
  | .ok s1 _ =>
    (cut.foldl (fun (a : Found × Nat) r =>
      match a.1 with
      | .ok s2 _ =>
        (match agentPlace s2 ep asid root priv 1 r.1 with
        | .ok s3 pa e => (agentSave s3 ep pa e r.1 ((bs.drop a.2).take r.2) hint, a.2 + r.2)
        | .wait s3 => (.wait s3, a.2)
        | .refused s3 code => (.refused s3 code r.1, a.2))
      | f => (f, a.2)) (.ok s1 [], 0)).1
  | r => r

end Sys2Proof.Machine
end

