-- ==== Sys2Proof/Machine/Tasks.lean ====
section
/-! DEFINITION. Tile tasks on the array (R130 to R138, R354, R392 to R398): the scheduler's choice, the Shawm's steps, completion and
its target, TWMMA's run, and versions that cannot be reached. -/

namespace Sys2Proof.Machine

/-! ## Choosing (R130, R131) -/

/-- Tiles of its team that a task names. -/
def namedTiles (x : Task) : List Nat :=
  if trKind x.record = 4 then [trTile x.record, trAaddr x.record % 8].eraseDups else [trTile x.record]

/-- Every tile a task names is at the version the task expects for it. -/
def taskReady (s : State) (x : Task) : Bool :=
  let m := s.team x.team
  (teamTile s m (trTile x.record)).version == trExpv x.record &&
    (trKind x.record != 4 || (teamTile s m (trAaddr x.record % 8)).version == bits (trAaddr x.record) 31 16)

/-- The tasks of a team take part: its context is active, or it is saved and its tiles stay in place (R40, R132). -/
def taskLive (s : State) (x : Task) : Bool :=
  let m := s.team x.team
  m.context == (s.core m.core).active || m.pre == .saved

/-- The task that is on the array of a core. -/
def runningTask (s : State) (ep : Nat) : Option (Nat × Task) :=
  (queuedTasks (s.core ep)).find? (fun p => p.2.started && taskLive s p.2)

/-- The array of a core is at a step boundary and may go on. -/
def arrayFree (s : State) (ep : Nat) : Bool :=
  let c := s.core ep
  !c.swapping && (s.die (epDie ep)).present

/-- The ready task of highest priority, the oldest on ties. -/
def nextTask (s : State) (ep : Nat) : Option (Nat × Task) :=
  let l := (queuedTasks (s.core ep)).filter (fun p => !p.2.started && taskLive s p.2 && taskReady s p.2)
  l.foldl (fun b p =>
    match b with
    | none => some p
    | some q => if keyBefore [p.2.prio, p.2.order] [q.2.prio, q.2.order] then some p else some q) none

/-- Changes a task. -/
def updTask (s : State) (ep key : Nat) (f : Task → Task) : State :=
  s.updCore ep (fun c => { c with tasks := c.tasks.adjust key f })

/-- TRAPINFO0 of code 0x40 (R378). -/
def tileInfo (s : State) (m : Team) (i : Nat) : DWord := BitVec.ofNat 64 (i + bit (teamTile s m i).w16 3)

/-- The fault of R392 that a task meets when it starts. -/
def startFault (s : State) (x : Task) : Option (Nat × DWord) :=
  let m := s.team x.team
  let r := x.record
  let i := trTile r
  let w := (teamTile s m i).w16
  let src := trAaddr r % 8
  match trKind r with
  | 0 | 1 | 2 | 5 => if w then some (0x40, tileInfo s m i) else none
  | 4 =>
    if w then some (0x40, tileInfo s m i)
    else if (teamTile s m src).w16 then some (0x40, tileInfo s m src)
    else none
  | 3 => if w == (trAtype r == 8) then some (0x40, tileInfo s m i) else none
  | 6 | 7 =>
    if !w then none
    else if trMode r = 0 ∨ trMode r = 8 then some (0x40, tileInfo s m i)
    else if trAstride r < 128 then some (0x41, x.source)
    else none
  | _ => none

/-- TILE_TASK_START: at a step boundary with nothing in progress, the scheduler starts the ready task of highest priority. -/
def startTask (s : State) (ep : Nat) : State :=
  if !arrayFree s ep || !(s.core ep).waves.isEmpty || (runningTask s ep).isSome then s
  else match nextTask s ep with
  | none => s
  | some (key, x) =>
    let fault := startFault s x
    let s1 := updTask s ep key (fun x => { x with started := true, fault := fault, done := fault.isSome })
    if trKind x.record = 2 && fault.isNone then
      updTile s1 (s.team x.team) (trTile x.record) (fun y => { y with status := 1, phase := 0, iter := 0 })
    else s1

/-- TILE_TASK_START. -/
def execTileTaskStart (s : State) : Host.Outcome State Fault Refusal := .next (startTask s s.obj)

/-! ## What a step reads (R126, R127, R415) -/

/-- The outcome of reading for a step, or of the step. -/
inductive Stepped (α : Type) where
  | ok (s : State) (v : α)
  | wait (s : State)
  | fault (s : State) (code : Nat) (info : DWord)

/-- Bytes of a task's operands, in scratch or at virtual addresses. -/
def taskRead (s : State) (ep : Nat) (x : Task) (ranges : List (Nat × Nat)) : Stepped (List Byte) :=
  let m := s.team x.space
  if trAspace x.record then
    let offs := ranges.map (fun r => (scratchOffset s ep m x.priv false r.1 r.2, r))
    match offs.find? (fun q => q.1.isNone) with
    | some q => .fault s 0x26 (BitVec.ofNat 64 q.2.1)
    | none =>
      match offs.find? (fun q => hitsError s (scratchLoc ep (q.1.getD 0)) q.2.2 false) with
      | some q => .fault (loseTreelet s ep (q.1.getD 0) 0) 0x2A (BitVec.ofNat 64 q.2.1)
      | none => .ok s (offs.flatMap (fun q => readScratch s ep (q.1.getD 0) q.2.2))
  else match agentRead s ep m.asid m.root x.priv ranges x.hint with
    | .ok s1 bs => .ok s1 bs
    | .wait s1 => .wait s1
    | .refused s1 code info => .fault s1 code (BitVec.ofNat 64 info)

/-- Bytes that a task writes, in scratch or at a virtual address. -/
def taskWrite (s : State) (ep : Nat) (x : Task) (addr : Nat) (bs : List Byte) : Stepped Unit :=
  let m := s.team x.space
  if trAspace x.record then
    match scratchOffset s ep m x.priv true addr bs.length with
    | none => .fault s 0x26 (BitVec.ofNat 64 addr)
    | some off =>
      if hitsError s (scratchLoc ep off) bs.length true then .fault s 0x2A (BitVec.ofNat 64 addr)
      else .ok (writeLoc s (scratchLoc ep off) bs) ()
  else match agentWrite s ep m.asid m.root x.priv addr bs x.hint with
    | .ok s1 _ => .ok s1 ()
    | .wait s1 => .wait s1
    | .refused s1 code info => .fault s1 code (BitVec.ofNat 64 info)

/-- n bytes at an offset of a team's window in every slice; none with the address where a word holds an error. -/
def columnRead (s : State) (m : Team) (off n : Nat) : Except Nat (List (List Byte)) :=
  let loc (j : Nat) : Nat := columnLoc m.core (j * 0x20000 + m.column + off)
  match (List.range 32).find? (fun j => hitsError s (loc j) n false) with
  | some j => .error (j * 0x20000 + off)
  | none => .ok ((List.range 32).map (fun j => s.read (loc j) n))

/-- The columns of a chunk of B, without scales. -/
def columnStrips (w : Nat) (cols : List (List Byte)) : List Strip :=
  cols.map (fun bs => ⟨(unpackElems w 32 bs).map some, 127⟩)

/-! ## Matrix products (R125 to R127) -/

/-- Metadata address of a group of a row (R127). -/
def metaAddr (r : List Byte) (i g : Nat) : Nat := trMaddr r + (i * (trK r / 48) + g) * 8

/-- Groups of 48 that a chunk of 32 touches. -/
def chunkGroups (c : Nat) : List Nat := (List.range ((32 * c + 31) / 48 + 1)).filter (fun g => 32 * c / 48 ≤ g)

/-- The metadata word has exactly n set bits among its low 48 and none above. -/
def metaOk (n : Nat) (w : Nat) : Bool := decide (w < 2 ^ 48) && popCount 48 w == n

/-- The elements of one row of a sparse chunk: words and stored elements of the groups it touches. -/
def sparseRow (c w n : Nat) (groups : List (Nat × Nat × List Byte)) : List (Option Nat) :=
  (List.range 32).map (fun k =>
    let d := 32 * c + k
    match groups.find? (fun g => g.1 == d / 48) with
    | none => none
    | some (_, word, bs) =>
      if word.testBit (d % 48) then (unpackElems w n bs)[popCount (d % 48) (word % 2 ^ (d % 48))]? else none)

/-- The rows of A for chunk c of MMA or MMAS. -/
def rowsOfA (s : State) (ep : Nat) (x : Task) (c : Nat) : Stepped (List Strip) :=
  let r := x.record
  let w := widthOf (trAtype r)
  let row (i : Nat) : Nat := trAaddr r + i * trAstride r
  let scales (s : State) : Stepped (List Byte) :=
    if trAsc r then taskRead s ep x ((List.range 32).map (fun i => (trAscale r + i * (trK r / 32) + c, 1)))
    else .ok s (List.replicate 32 127#8)
  let finish (s : State) (rows : List (List (Option Nat))) : Stepped (List Strip) :=
    match scales s with
    | .ok s1 sc => .ok s1 ((rows.zip sc).map (fun p => ⟨p.1, p.2.toNat⟩))
    | .wait s1 => .wait s1
    | .fault s1 code info => .fault s1 code info
  if trKind r = 1 then
    let n := sparseN r
    let gs := chunkGroups c
    let size := n * w / 8
    let slots := (List.range 32).flatMap (fun i => gs.map (fun g => (i, g)))
    match taskRead s ep x (slots.map (fun p => (metaAddr r p.1 p.2, 8))) with
    | .wait s1 => .wait s1
    | .fault s1 code info => .fault s1 code info
    | .ok s1 meta_ =>
      let words := (List.range slots.length).map (fun q => field meta_ (8 * q) 8)
      match (slots.zip words).find? (fun p => !metaOk n p.2) with
      | some p => .fault s1 0x42 (BitVec.ofNat 64 (metaAddr r p.1.1 p.1.2))
      | none =>
        match taskRead s1 ep x (slots.map (fun p => (row p.1 + p.2 * size, size))) with
        | .wait s2 => .wait s2
        | .fault s2 code info => .fault s2 code info
        | .ok s2 bs =>
          let groups := ((List.range slots.length).zip (slots.zip words)).map (fun p =>
            (p.2.1.1, p.2.1.2, p.2.2, (bs.drop (p.1 * size)).take size))
          finish s2 ((List.range 32).map (fun i =>
            sparseRow c w n ((groups.filter (fun g => g.1 == i)).map (·.2))))
  else
    match taskRead s ep x ((List.range 32).map (fun i => (row i + 4 * c * w, 4 * w))) with
    | .wait s1 => .wait s1
    | .fault s1 code info => .fault s1 code info
    | .ok s1 bs => finish s1 ((List.range 32).map (fun i => (unpackElems w 32 (bs.drop (4 * w * i))).map some))

/-- The columns of B for chunk c. -/
def columnsOfB (s : State) (x : Task) (c : Nat) : Stepped (List Strip) :=
  let r := x.record
  let m := s.team x.team
  let w := widthOf (trBtype r)
  match columnRead s m (trBoff r + 4 * c * w) (4 * w) with
  | .error a => .fault s 0x2E (BitVec.ofNat 64 a)
  | .ok cols =>
    let strips := columnStrips w cols
    if trBsc r then
      match columnRead s m (trBoff r + trK r * w / 8 + c) 1 with
      | .error a => .fault s 0x2E (BitVec.ofNat 64 a)
      | .ok sc => .ok s ((strips.zip sc).map (fun p => { p.1 with scale := leNat p.2 }))
    else .ok s strips

/-- What a step leaves: the state, the task, and whether it was the last. -/
abbrev StepEnd := Stepped (Task × Bool)

/-- Writes the contents of a task's tile. -/
def setElems (s : State) (x : Task) (v : List Word) : State :=
  updTile s (s.team x.team) (trTile x.record) (fun y => { y with elems := v })

/-- The contents of a task's tile. -/
def taskElems (s : State) (x : Task) : List Word := (teamTile s (s.team x.team) (trTile x.record)).elems

/-- One chunk of MMA, MMAS. -/
def stepMma (s : State) (ep : Nat) (x : Task) : StepEnd :=
  let r := x.record
  let c := x.step
  match rowsOfA s ep x c with
  | .wait s1 => .wait s1
  | .fault s1 code info => .fault s1 code info
  | .ok s1 rows =>
    match columnsOfB s1 x c with
    | .wait s2 => .wait s2
    | .fault s2 code info => .fault s2 code info
    | .ok s2 cols =>
      let acc := if c = 0 ∧ trMode r % 2 = 1 then zeroTile else taskElems s2 x
      let p := chunkProduct (trAtype r) (trBtype r) x.bookA x.bookB rows cols acc
      .ok (setElems s2 x p.1) ({ x with excs := x.excs ||| p.2 }, c + 1 == trK r / 32)

/-- FEED: the source tile, rounded row by row, times B. -/
def stepFeed (s : State) (x : Task) : StepEnd :=
  let r := x.record
  let src := (teamTile s (s.team x.team) (trAaddr r % 8)).elems
  let code (c : Word) : Nat := (cvtOp 8 (trAtype r) rne 0#32 c.toNat).1
  match columnsOfB s { x with record := patch r 28 [0#8, 0#8] } 0 with
  | .wait s1 => .wait s1
  | .fault s1 c info => .fault s1 c info
  | .ok s1 cols =>
    let rows := (List.range 32).map (fun i => (⟨(regSlice src i).map (fun c => some (code c)), 127⟩ : Strip))
    let acc := if trMode r % 2 = 1 then zeroTile else taskElems s x
    let p := chunkProduct (trAtype r) (trBtype r) x.bookA x.bookB rows cols acc
    .ok (setElems s1 x p.1) ({ x with excs := x.excs ||| p.2 }, true)
where
  /-- Row i of a matrix. -/
  regSlice (m : List Word) (i : Nat) : List Word := (m.drop (32 * i)).take 32

/-! ## Rows, TRN, ZERO, POLY (R129, R137, R299) -/

/-- The words of a row from memory. -/
def rowWords (w16 : Bool) (mode : Nat) (bs : List Byte) : List Word :=
  if w16 || mode == 0 || mode == 8 then bytesToWords 32 bs
  else (unpackElems 16 32 bs).map (fun c => BitVec.ofNat 32 (cvtOp mode 8 rne 0#32 c).1)

/-- The bytes of a row for memory. -/
def rowBytes (w16 : Bool) (mode : Nat) (ws : List Word) : List Byte :=
  if w16 || mode == 0 || mode == 8 then wordsToBytes ws
  else packElems 16 (ws.map (fun c => (cvtOp 8 mode rne 0#32 c.toNat).1))

/-- NANT where a row that LOAD or STORE reads holds a NaN element, of the mode's 16-bit type in a W16 tile, else of F32 (R397). -/
def nanRow (w16 : Bool) (mode : Nat) (ws : List Word) : BitVec 4 :=
  let nan (ty c : Nat) : Bool := (decodeF (fmtOf ty) false c).isNan
  if mode != 0 && ws.any (fun c => if w16 then nan mode (c.toNat % 65536) || nan mode (c.toNat / 65536) else nan 8 c.toNat) then excNANT else 0#4

/-- One row of STORE or LOAD. -/
def stepRow (s : State) (ep : Nat) (x : Task) : StepEnd :=
  let r := x.record
  let i := x.step
  let y := teamTile s (s.team x.team) (trTile r)
  let addr := trAaddr r + i * trAstride r
  let last := i + 1 == 32
  let seen (ws : List Word) : Task := { x with excs := x.excs ||| nanRow y.w16 (trMode r) ws }
  if trKind r = 6 then
    let ws := (y.elems.drop (32 * i)).take 32
    match taskWrite s ep x addr (rowBytes y.w16 (trMode r) ws) with
    | .ok s1 _ => .ok s1 (seen ws, last)
    | .wait s1 => .wait s1
    | .fault s1 code info => .fault s1 code info
  else
    let n := if y.w16 || trMode r == 0 || trMode r == 8 then 128 else 64
    match taskRead s ep x [(addr, n)] with
    | .ok s1 bs =>
      let ws := rowWords y.w16 (trMode r) bs
      .ok (setElems s1 x (setWords y.elems (32 * i) ws)) (seen ws, last)
    | .wait s1 => .wait s1
    | .fault s1 code info => .fault s1 code info

/-- TRN: row j of the tile to slice j. -/
def stepTrn (s : State) (x : Task) : StepEnd :=
  let r := x.record
  let m := s.team x.team
  let v := taskElems s x
  let b := trBtype r
  .ok ((List.range 32).foldl (fun s j =>
    writeColumn s m j (trBoff r) (packElems (widthOf b) (((v.drop (32 * j)).take 32).map (fun c => (cvtOp 8 b rne 0#32 c.toNat).1))))
    s) ({ x with excs := x.excs ||| nanRow false 8 v }, true)

/-- ZERO. -/
def stepZero (s : State) (x : Task) : StepEnd :=
  .ok (updTile s (s.team x.team) (trTile x.record) (fun y =>
    { y with elems := zeroTile, w16 := (trMode x.record).testBit 0 })) (x, true)

/-- The elements of a tile widened to F32: 1,024 of them, or 2,048 of a 16-bit type. -/
def widened (w16 : Bool) (ty : Nat) (v : List Word) : List Word :=
  if w16 then v.flatMap (fun c => [BitVec.ofNat 32 (cvtOp ty 8 rne 0#32 (c.toNat % 65536)).1,
    BitVec.ofNat 32 (cvtOp ty 8 rne 0#32 (c.toNat / 65536)).1])
  else v

/-- Pairs of 16-bit elements as words. -/
def paired : List Nat → List Word
  | a :: b :: rest => BitVec.ofNat 32 (a + 65536 * b) :: paired rest
  | _ => []

/-- One Horner stage of POLY. -/
def stepPoly (s : State) (x : Task) : StepEnd :=
  let r := x.record
  let n := trMode r % 8
  let ty := trAtype r
  let y := teamTile s (s.team x.team) (trTile r)
  let xs := widened y.w16 ty y.elems
  let isNan (c : Word) : Bool := (decodeF f32 false c.toNat).isNan
  let c := x.coef.getD (n - x.step) 0#32
  let stage : List Word × BitVec 4 :=
    if x.step = 0 then (xs.map (fun _ => c), if xs.any isNan then excNANT else 0#4)
    else
      let l := (x.work.zip xs).map (fun p => (ffmaOp f32 rne 0#32 false false p.1.toNat p.2.toNat c.toNat,
        isNan p.1 || isNan p.2 || isNan c))
      (l.map (fun p => BitVec.ofNat 32 p.1.1), if l.any (fun p => p.1.2.1 &&& flagIV != 0 && !p.2) then excIVT else 0#4)
  let x' := { x with work := stage.1, excs := x.excs ||| stage.2 }
  if x.step = n then
    let out := if y.w16 then paired (stage.1.map (fun c => (cvtOp 8 ty rne 0#32 c.toNat).1)) else stage.1
    .ok (setElems s x out) (x', true)
  else .ok s (x', false)

/-! ## ITER (R135, R354) -/

/-- The coefficients of p(G), lowest first (R135). -/
def iterCoefs (x : Task) : List Word :=
  match trMode x.record % 4 with
  | 0 | 2 => [0x3FC00000#32, 0xBF000000#32]
  | 1 => [0x3FF00000#32, 0xBFA00000#32, 0x3EC00000#32]
  | _ =>
    let n := (List.range 8).foldl (fun b i => if (x.coef.getD i 0#32) &&& 0x7FFFFFFF#32 != 0#32 then i else b) 0
    x.coef.take (n + 1)

/-- F32 columns of a work area. -/
def workColumns (s : State) (x : Task) (off : Nat) : Except Nat (List Strip) :=
  match columnRead s (s.team x.team) (trBoff x.record + off) 128 with
  | .error a => .error a
  | .ok cols => .ok (columnStrips 32 cols)

/-- An F32 product A·B into a zero tile. -/
def f32Product (a : List Word) (cols : List Strip) : List Word × BitVec 4 := chunkProduct 8 8 0#256 0#256 (rowStrips a) cols zeroTile

/-- Ends an iteration step: the tile's state word has the next phase. -/
def iterGo (s : State) (x : Task) (phase : Nat) : StepEnd :=
  .ok (updTile s (s.team x.team) (trTile x.record) (fun y => { y with phase := phase })) (x, false)

/-- The loop stops with a status (R135, R354); phase 0. -/
def iterStop (s : State) (x : Task) (status : Nat) : StepEnd :=
  .ok (updTile s (s.team x.team) (trTile x.record) (fun y => { y with phase := 0, status := status })) (x, true)

/-- One step of ITER: a transpose, a product, a residual or a diagonal update. -/
def stepIter (s : State) (x : Task) : StepEnd :=
  let r := x.record
  let m := s.team x.team
  let y := teamTile s m (trTile r)
  let isq : Bool := trMode r % 4 == 2
  let cs := iterCoefs x
  let deg := cs.length - 1
  if y.phase = 0 then
    let s1 := (List.range 32).foldl (fun s j =>
      let col := (List.range 32).map (fun k => y.elems.getD (if isq then 32 * k + j else 32 * j + k) 0#32)
      writeColumn s m j (trBoff r + if isq then 256 else 0) (wordsToBytes col)) s
    iterGo s1 x 1
  else if y.phase = 1 then
    let a := if x.second then x.staging else y.elems
    match workColumns s x (if isq then (if x.second then 256 else 128) else 0) with
    | .error c => .fault s 0x2E (BitVec.ofNat 64 c)
    | .ok cols =>
      let p := f32Product a cols
      let more : Bool := isq && !x.second
      iterGo s { x with staging := p.1, second := more, excs := x.excs ||| p.2 } (if more then 1 else 2)
  else if y.phase = 2 then
    let res := residual x.staging
    let v := decodeF f32 false res.toNat
    let s1 := updTile s m (trTile r) (fun y => { y with resid := res })
    if (res &&& 0x7F800000#32) == 0x7F800000#32 then
      let x' := { x with fault := some (0x44, BitVec.ofNat 64 ((y.version + 1) % 65536 + res.toNat * 2 ^ 32)) }
      iterStop s1 x' 4
    else
      let th := decodeF f32 false (trAaddr r % 2 ^ 32)
      if !th.isNan && cmpX v th != .gt then iterStop s1 x 2
      else iterGo s1 { x with work := diagonal (cs.getD deg 0#32) } 3
  else if y.phase < 3 + deg then
    if x.second then
      let c := cs.getD (deg - 1 - (y.phase - 3)) 0#32
      let h := (List.range 1024).map (fun n =>
        let v := x.work.getD n 0#32
        if n / 32 = n % 32 then f32Add false v c else v)
      iterGo s { x with work := h, second := false } (y.phase + 1)
    else
      let p := f32Product x.work (colStrips x.staging)
      iterGo s { x with work := p.1, second := true, excs := x.excs ||| p.2 } y.phase
  else
    let p := if isq then f32Product y.elems (colStrips x.work) else f32Product x.work (colStrips y.elems)
    let x' := { x with excs := x.excs ||| p.2 }
    let s1 := updTile (setElems s x p.1) m (trTile r) (fun y => { y with iter := y.iter + 1 })
    if y.iter + 1 = trAstride r % 256 then iterStop s1 x' 3 else iterGo s1 x' 0

/-! ## One step of a task -/

/-- One step of a task by its kind (R134). -/
def taskStep (s : State) (ep : Nat) (x : Task) : StepEnd :=
  match trKind x.record with
  | 0 | 1 => stepMma s ep x
  | 2 => stepIter s x
  | 3 => stepPoly s x
  | 4 => stepFeed s x
  | 5 => stepTrn s x
  | 6 | 7 => stepRow s ep x
  | _ => stepZero s x

/-! ## Completion (R130, R133, R393, R398) -/

/-- Adds executions with these exception bits to MXEXC, whose fields saturate (R397), and to what its die's fault unit folds into the lifetime store
(R398). -/
def commitExc (s : State) (ep : Nat) (e : BitVec 4) : State :=
  let up (v : DWord) (i : Nat) : DWord :=
    if e.getLsbD i && bits v.toNat (16 * i + 15) (16 * i) != 0xFFFF then v + BitVec.ofNat 64 (2 ^ (16 * i)) else v
  if e == 0#4 then s
  else (List.range 4).foldl (fun s i => if e.getLsbD i then s.count (lifeKey 12 (epDie ep) i) 1 else s)
    (s.updCore ep (fun c => { c with mxexc := (List.range 4).foldl up c.mxexc }))

/-- Reports a task's fault: its tile's slot if that is empty, and the event. -/
def reportFault (s : State) (ep : Nat) (x : Task) (code : Nat) (info : DWord) (version : Nat) : State :=
  let i := trTile x.record
  let m := s.team x.space
  let cls := if 0x40 ≤ code then 0 else if trAspace x.record then refusalClass 3 code
    else agentClass s ep m.asid x.priv info.toNat code
  let s1 := s.updTeam x.team (fun m => { m with
    reports := if (m.reports.getD i none).isNone then m.reports.set i (some (code, info, cls)) else m.reports })
  s1.event ep cls code 2 false (trDeriv x.record).toNat version

/-- The derivation id of the record that a task came from. -/
def recordDeriv (s : State) (ep : Nat) (x : Task) : Option DWord := (x.entry.bind (fun q => (s.core ep).recs.entries.find q)).map (·.deriv)

/-- A task is over: it leaves the queue, and the record it came from retires (R439), with notices to the places that logged its writes (R442). -/
def dropTask (s : State) (ep key : Nat) (x : Task) (places : List Nat := []) : State :=
  let s1 := s.updCore ep (fun c => { c with tasks := c.tasks.drop key })
  match x.entry with
  | none => s1
  | some q =>
    let d := (recordDeriv s ep x).getD 0#64
    (sendNotices (dropEntry s1 ep 3 q) ep d places).updPkg (fun k => { k with committed := k.committed.filter (· != d) })

/-- A task's exceptions are committed: of a record's task once per derivation id, whatever its attempts (R398, R444). -/
def commitOnce (s : State) (ep : Nat) (x : Task) (excs : BitVec 4) : State :=
  match recordDeriv s ep x with
  | none => commitExc s ep excs
  | some d =>
    if s.pkg.committed.contains d then s
    else (commitExc s ep excs).updPkg (fun k => { k with committed := d :: k.committed })

/-- The task's last effect is made: versions rise, the fault is reported, exceptions are committed; the completion target is
then due. -/
def finishTask (s : State) (ep key : Nat) (x : Task) : State :=
  let m := s.team x.team
  let s1 := (namedTiles x).foldl (fun s i => updTile s m i (fun y => { y with version := (y.version + 1) % 65536 })) s
  let version := (teamTile s1 m (trTile x.record)).version
  let s2 := match x.fault with
    | some (code, info) => reportFault s1 ep x code info version
    | none => s1
  let s3 := commitOnce (perfCount s2 ep 9 1) ep x (x.excs ||| (if x.fault.isSome then excFLT else 0#4))
  if trCt x.record then updTask s3 ep key (fun x => { x with due := some version })
  else dropTask s3 ep key x

/-- SHAWM_STEP: the running task of a core makes one step.  A fault of R392 stops it there.  The step at which the loop of
an ITER stops raises its version too (R135, R354). -/
def shawmStep (s : State) (ep : Nat) : State :=
  if !arrayFree s ep || !(s.core ep).waves.isEmpty then s
  else match runningTask s ep with
  | none => s
  | some (key, x) =>
    if x.done then s
    else match taskStep s ep x with
    | .wait s1 => s1
    | .fault s0 code info =>
      let s1 := dropReads s0 ep
      let s2 := updTask s1 ep key (fun _ => { x with fault := some (code, info), done := true })
      if trKind x.record = 2 then updTile s2 (s.team x.team) (trTile x.record) (fun y => { y with phase := 0 }) else s2
    | .ok s0 (x', last) =>
      let s1 := dropReads s0 ep
      let y := { x' with step := x.step + 1, done := last }
      let s2 := updTask (perfCount s1 ep 10 1) ep key (fun _ => y)
      if last ∧ trKind x.record = 2 then finishTask s2 ep key y else s2

/-- SHAWM_STEP. -/
def execShawmStep (s : State) : Host.Outcome State Fault Refusal := .next (shawmStep s s.obj)

/-- Writes a completion target at a placed address: a release at package scope, which waits for every write of the task on its way to another
package, and for a record's task once per derivation id, under the atomic index that its thread gave it (R94, R133, R444; log 139).  To a register
window or another package it goes in a packet with the derivation id. -/
def writeTarget (s : State) (ep : Nat) (x : Task) (version pa : Nat) (e : DWord) : Found :=
  let r := x.record
  let va := trCtaddr r
  let s0 := releaseAction s ep 5
  let deriv := if trDeriv r == 0#64 then none else some (trDeriv r)
  let l := lineOf pa
  if farPending s0 ep then .wait s0
  else if agentFar pa && (trCtadd r || pteKind e == 0) then
    let s1 := if trCtadd r then clearIsland s0 ep l else s0
    if linePending s1 ep l then .wait s1
    else if !reachable s ep (homeEndpoint pa) then .refused s 0x67 va
    else .ok (sendFar s1 ep pa (if trCtadd r then .reduce 0 1 4 1#64 else .store (leBytes 4 version)) (trDeriv r) x.index) []
  else if isFar pa then
    match agentSave s0 ep pa e va (leBytes 4 version) x.hint with
    | .ok s1 _ => .ok (releaseAction s1 ep 5) []
    | f => f
  else if !memoryOn s pa then .refused s 0x67 va
  else if trCtadd r then
    match atomHome (clearIsland s0 ep (lineOf pa)) pa (.reduce 0 1 4 1#64) deriv x.index with
    | .done s1 _ => .ok s1 []
    | .held s1 => .wait s1
    | .error => .refused s 0x2A va
  else
    match onceAtHome s0 pa deriv x.index with
    | .seen _ => .ok s0 []
    | .full => .wait s0
    | .fresh =>
      match agentSave s0 ep pa e va (leBytes 4 version) x.hint with
      | .ok s1 _ => .ok (logAtHome (releaseAction s1 ep 5) pa deriv x.index []) []
      | f => f

/-- A completed task's target is written, or its refusal is an event alone (R415); the task is over. -/
def payTarget (s : State) (ep key : Nat) (x : Task) (version : Nat) : State :=
  let m := s.team x.space
  let va := trCtaddr x.record
  let over_ (s : State) : State := dropTask s ep key x
  let fail (s : State) (code : Nat) : State := (over_ s).event ep (agentClass s ep m.asid x.priv va code) code 2 false (trDeriv x.record).toNat version
  if va % 4 ≠ 0 then fail s 0x24
  else match agentPlace s ep m.asid m.root x.priv (if trCtadd x.record then 3 else 1) va with
  | .wait s1 => s1
  | .refused s1 code => fail s1 code
  | .ok s1 pa e =>
    match writeTarget s1 ep x version pa e with
    | .ok s2 _ => dropTask s2 ep key x [homeEndpoint pa]
    | .wait s2 => s2
    | .refused s2 code _ => fail s2 code

/-- TILE_TASK_COMPLETE: a task whose last step is made completes; a completion target that is due is written. -/
def completeTask (s : State) (ep : Nat) : State :=
  match (s.core ep).tasks.find? (fun p => p.2.due.isSome) with
  | some (key, x) => payTarget s ep key x (x.due.getD 0)
  | none =>
    match runningTask s ep with
    | some (key, x) => if x.done then finishTask s ep key x else s
    | none => s

/-- TILE_TASK_COMPLETE. -/
def execTileTaskComplete (s : State) : Host.Outcome State Fault Refusal := .next (completeTask s s.obj)

/-! ## TWMMA_RUN (R307, R308) -/

/-- A participant's product is lost to a column-store error: it takes 0x2E (R415). -/
def waveLost (s : State) (k key : Nat) (info : DWord) : State :=
  match s.thread k with
  | none => s
  | some t =>
    match t.ops.find key with
    | none => s
    | some p =>
      let closed := s.updThread k (fun u => ({ u with ops := u.ops.drop key }).lower p.flag)
      if t.state == .exited then forgetThread (closed.event t.core 4 0x2E 2 false info.toNat 0) k
      else if waitsFor t p then takeTrap closed k { trapAt 0x2E info p.at_ with cls := 4 }
      else closed.updThread k (fun u => { u with lateTrap := u.lateTrap ++ [(0x2E, info, 0)] })

/-- Bytes of a result row (R307). -/
def resultBytes (o : Long) (row : List Word) : List Byte :=
  match o.m4.toNat % 4 with
  | 0 => wordsToBytes row
  | 1 => packElems 16 (row.map (fun c => (cvtOp 8 10 rne 0#32 c.toNat).1))
  | _ => packElems 16 (row.map (fun c => (cvtOp 8 9 rne 0#32 c.toNat).1))

/-- TWMMA_RUN: the oldest released TWMMA of a core runs, ahead of its tasks: its result rows are written and with them its exceptions committed
(R307, R398). -/
def runWave (s : State) (ep : Nat) : State :=
  if !arrayFree s ep then s
  else match (s.core ep).waves with
  | [] => s
  | x :: rest =>
    let m := s.team x.team
    let ta := x.o.ty.toNat
    let tb := x.o.p5.toNat % 16
    let w := widthOf ta
    let s1 := s.updCore ep (fun c => { c with waves := rest })
    match columnRead s m x.boff (4 * widthOf tb) with
    | .error a => x.lanes.foldl (fun s l => waveLost s l.2.1 l.2.2 (BitVec.ofNat 64 a)) s1
    | .ok cols =>
      let at_ (i : Nat) : Option Nat := (x.lanes.map (·.1)).idxOf? i
      -- a lane outside P supplies zeros: code 16 is beyond the codebook's entries and reads as zero
      let rows := (List.range 32).map (fun i =>
        match at_ i with
        | some q => (⟨(unpackElems w 32 (wordsToBytes (x.rows.getD q []))).map some, 127⟩ : Strip)
        | none => ⟨List.replicate 32 (some (if ta = 14 then 16 else 0)), 127⟩)
      let acc := (List.range 32).flatMap (fun i =>
        match at_ i with
        | some q => (if x.accs.isEmpty then List.replicate 32 0#32 else x.accs.getD q [])
        | none => List.replicate 32 0#32)
      let p := chunkProduct ta tb x.book x.book rows (columnStrips (widthOf tb) cols) acc
      commitExc (x.lanes.foldl (fun s l =>
        completeOp (opReady s l.2.1 l.2.2 (resultBytes x.o ((p.1.drop (32 * l.1)).take 32))) l.2.1 l.2.2) s1) ep p.2

/-- TWMMA_RUN. -/
def execTwmmaRun (s : State) : Host.Outcome State Fault Refusal := .next (runWave s s.obj)

/-! ## VERSION_UNREACHABLE (R395) -/

/-- The version a thread awaits at a TWAIT, and the tile. -/
def awaited (s : State) (t : Thread) (k : Nat) : Option (Nat × Nat) :=
  if t.state != .waiting then none
  else match standingAt t with
    | some (.twait, o) => if laneRuns .twait o s k then some (o.d.toNat, (src32 t o .a).toNat % 65536) else none
    | _ => none

/-- No task that owns tiles of a team is running or ready to run. -/
def noTaskMoves (s : State) (lender : Nat) : Bool :=
  let m := s.team lender
  !(queuedTasks (s.core m.core)).any (fun p => p.2.team == lender && (p.2.started || taskReady s p.2))

/-- A version that nothing can reach any more: every waiting thread of the team takes 0x43; where all have exited its queued tasks are
discarded. -/
def unreachableVersion (s : State) (team : Nat) : State :=
  match lendingTeam s team with
  | none => s
  | some lk =>
    let m := s.team lk
    let ts := s.threads.filter (fun p => p.2.team == team)
    let live := ts.filter (fun p => p.2.state != .exited)
    if !noTaskMoves s lk then s
    else if live.isEmpty then
      let mine := (queuedTasks (s.core m.core)).filter (fun p => p.2.team == team)
      if lk != team || mine.isEmpty || ts.any (fun p => !p.2.ops.isEmpty) then s
      else (s.updCore m.core (fun c => { c with tasks := c.tasks.filter (fun p => !(mine.map (·.1)).contains p.1) })).event
        m.core 0 0x43 2 false 0 mine.length
    else
      let stuck (p : Nat × Thread) : Bool :=
        match awaited s p.2 p.1 with
        | some (i, v) => decide (i < m.tiles.length) && !versionReached (teamTile s m i) v
        | none => false
      if !live.all stuck then s
      else live.foldl (fun s p =>
        match awaited s p.2 p.1 with
        | some (i, v) => takeTrap s p.1 (trapAt 0x43 (BitVec.ofNat 64 (v + (teamTile s m i).version * 65536)) p.2.pc)
        | none => s) s

/-- VERSION_UNREACHABLE. -/
def execVersionUnreachable (s : State) : Host.Outcome State Fault Refusal := .next (unreachableVersion s s.obj)

end Sys2Proof.Machine
end

