-- ==== Sys2Proof/Machine/Row.lean ====
section
/-! DEFINITION. Row instructions, opcodes 0x90 to 0x99 (R309 to R313), on the rows of the thread's own team's tiles (R138). -/

namespace Sys2Proof.Machine

/-! ## Rows (R138, R200, R309) -/

/-- Tile of a row operand. -/
def rowTile (v : BitVec 9) : Nat := v.toNat / 32
/-- Row within its tile. -/
def rowIndex (v : BitVec 9) : Nat := v.toNat % 32

/-- The 32 words of a row. -/
def rowOf (s : State) (m : Team) (v : BitVec 9) : List Word :=
  ((teamTile s m (rowTile v)).elems.drop (32 * rowIndex v)).take 32
/-- Writes a row. -/
def setRow (s : State) (m : Team) (v : BitVec 9) (ws : List Word) : State :=
  updTile s m (rowTile v) (fun y => { y with elems := setWords y.elems (32 * rowIndex v) ws })

/-- The type's elements are 16 bits wide. -/
def halfType (ty : Nat) : Bool := ty == 9 || ty == 10
/-- Elements of a row of a type. -/
def rowLength (ty : Nat) : Nat := if halfType ty then 64 else 32
/-- The elements of a row of a type, element 0 first. -/
def rowElems (ty : Nat) (ws : List Word) : List Nat :=
  if halfType ty then ws.flatMap (fun w => [w.toNat % 65536, w.toNat / 65536]) else ws.map (·.toNat)
/-- The words of a row from its elements. -/
def elemsRow (ty : Nat) (cs : List Nat) : List Word := if halfType ty then paired cs else cs.map (BitVec.ofNat 32)

/-- A started task names a tile and holds it on the array (R132). -/
def tileHeld (s : State) (m : Team) (key i : Nat) : Bool :=
  (queuedTasks (s.core m.core)).any (fun p => p.2.started && p.2.team == key && (namedTiles p.2).contains i)

/-- Runs a row instruction over the rows it names, each with the W16 it must have (none: either): a tile the team does not hold, or of the
wrong W16, traps with 0x40; while a task holds one on the array the thread waits. -/
def withRows (rows : List (BitVec 9 × Option Bool)) (go : State → Team → Thread → State) : State → Nat → Thread → Out := fun s _ t =>
  let m := s.team t.team
  match rows.find? (fun r => decide (m.tiles.length ≤ rowTile r.1) ||
      (match r.2 with
      | some w => (teamTile s m (rowTile r.1)).w16 != w
      | none => false)) with
  | some r => tileTrap s m (rowTile r.1) t
  | none =>
    if rows.any (fun r => tileHeld s m t.team (rowTile r.1)) then .wait s .waiting
    else .go (go s m t)

/-- Maps elements in increasing index, threading flags and generator (R189, R310). -/
def mapElems (f : Word → Nat → Nat × Nat × Word) (gen : Word) (n : Nat) : List Nat × Nat × Word :=
  (List.range n).foldl (fun (a : List Nat × Nat × Word) e =>
    let r := f a.2.2 e
    (a.1 ++ [r.1], a.2.1 ||| r.2.1, r.2.2)) ([], 0, gen)

/-- Commits flags and generator to a thread. -/
def rowFlags (s : State) (k : Nat) (r : List Nat × Nat × Word) : State :=
  s.updThread k (fun t => { t.raiseFlags r.2.1 with gen := r.2.2 })

/-- The rows of an instruction whose every row has the TYPE's width. -/
def typedRows (o : Long) (vs : List (BitVec 9)) : List (BitVec 9 × Option Bool) := vs.map (fun v => (v, some (halfType o.ty.toNat)))

/-- An instruction that computes every element of row d from the elements of source rows. -/
def rowOp (o : Long) (srcs : List (BitVec 9)) (f : Thread → Word → List Nat → Nat × Nat × Word) : State → Nat → Thread → Out := fun s k t =>
  withRows (typedRows o (o.d :: srcs)) (fun s m t =>
    let ins := srcs.map (fun v => rowElems o.ty.toNat (rowOf s m v))
    let r := mapElems (fun gen e => f t gen (ins.map (fun l => l.getD e 0))) t.gen (rowLength o.ty.toNat)
    rowFlags (setRow s m o.d (elemsRow o.ty.toNat r.1)) k r) s k t

/-- The type is an integer type. -/
def intElems (o : Long) : Bool := decide (o.ty.toNat ≤ 1)
/-- An integer element (R177). -/
def intElem (o : Long) (c : Nat) : Int := codeInt 32 (intSigned o.ty) c

/-- One element of VADD, VMUL. -/
def arithElem (o : Long) (mul : Bool) (t : Thread) (gen : Word) (l : List Nat) : Nat × Nat × Word :=
  let a := l.getD 0 0
  let b := l.getD 1 0
  if intElems o then
    (intResult o (if mul then intElem o a * intElem o b else intElem o a + intElem o b) % 2 ^ 32, 0, gen)
  else if mul then fmulOp (fmt o) (modeOf o t) gen a b
  else faddOp (fmt o) (modeOf o t) gen false a b

/-- One element of VMAX, VMIN. -/
def pickElem (o : Long) (greater : Bool) (t : Thread) (gen : Word) (l : List Nat) : Nat × Nat × Word :=
  let a := l.getD 0 0
  let b := l.getD 1 0
  if intElems o then (if decide (intElem o a ≤ intElem o b) == greater then b else a, 0, gen)
  else
    let r := fminmaxOp (fmt o) t.ftz greater (o.m4.getLsbD 0) a b
    (r.1, r.2, gen)

/-- VADD. -/
def effVadd (o : Long) : State → Nat → Thread → Out := rowOp o [o.a, o.b] (arithElem o false)
/-- VMUL. -/
def effVmul (o : Long) : State → Nat → Thread → Out := rowOp o [o.a, o.b] (arithElem o true)
/-- VFMA. -/
def effVfma (o : Long) : State → Nat → Thread → Out := rowOp o [o.a, o.b, o.c] (fun t gen l =>
  ffmaOp (fmt o) (modeOf o t) gen false false (l.getD 0 0) (l.getD 1 0) (l.getD 2 0))
/-- VMAX. -/
def effVmax (o : Long) : State → Nat → Thread → Out := rowOp o [o.a, o.b] (pickElem o true)
/-- VMIN. -/
def effVmin (o : Long) : State → Nat → Thread → Out := rowOp o [o.a, o.b] (pickElem o false)

/-- VEXP: FEX2 of the exact F32 value, rounded into the type. -/
def effVexp (o : Long) : State → Nat → Thread → Out := rowOp o [o.a] (fun t gen l =>
  let a := l.getD 0 0
  if o.ty = 8#4 then
    let r := fex2Op ⟨0, o.sat, t.ftz⟩ (BitVec.ofNat 32 a)
    (r.1, r.2, gen)
  else
    let wide := cvtOp o.ty.toNat 8 ⟨0, false, t.ftz⟩ gen a
    let r := fex2Op ⟨0, false, t.ftz⟩ (BitVec.ofNat 32 wide.1)
    let out := cvtOp 8 o.ty.toNat (modeOf o t) gen r.1
    (out.1, wide.2.1 ||| r.2 ||| out.2.1, out.2.2))

/-! ## VRED (R311) -/

/-- Folds one element into the running result. -/
def redElem (o : Long) (t : Thread) (acc : Nat × Nat × Word) (c : Nat) : Nat × Nat × Word :=
  let keep (r : Nat × Nat × Word) : Nat × Nat × Word := (r.1, acc.2.1 ||| r.2.1, r.2.2)
  match o.m4.toNat with
  | 0 =>
    if intElems o then (intResult o (intElem o acc.1 + intElem o c) % 2 ^ 32, 0, acc.2.2)
    else keep (faddOp f32 (modeOf o t) acc.2.2 false acc.1 c)
  | m =>
    if intElems o then (if decide (intElem o acc.1 ≤ intElem o c) == (m == 1) then c else acc.1, 0, acc.2.2)
    else
      let r := fminmaxOp f32 t.ftz (m == 1) false acc.1 c
      keep (r.1, r.2, acc.2.2)

/-- VRED. -/
def effVred (o : Long) : State → Nat → Thread → Out := fun s k t =>
  withRows (typedRows o [o.a]) (fun s m t =>
    let ty := o.ty.toNat
    let wide := (rowElems ty (rowOf s m o.a)).map (fun c =>
      if halfType ty then let r := cvtOp ty 8 ⟨0, false, t.ftz⟩ t.gen c; (r.1, r.2.1) else (c, 0))
    let flags := wide.foldl (fun f p => f ||| p.2) 0
    let cs := wide.map (·.1)
    let r := cs.tail.foldl (redElem o t) (cs.headD 0, flags, t.gen)
    s.updThread k (fun t => { (t.setRegs o.d.toNat [BitVec.ofNat 32 r.1]).raiseFlags r.2.1 with gen := r.2.2 })) s k t

/-! ## Moves (R312) -/

/-- VBCAST. -/
def effVbcast (o : Long) : State → Nat → Thread → Out :=
  withRows (typedRows o [o.d]) (fun s m t =>
    let v := (src32 t o .a).toNat % (if halfType o.ty.toNat then 65536 else 2 ^ 32)
    setRow s m o.d (elemsRow o.ty.toNat (List.replicate (rowLength o.ty.toNat) v)))

/-- VMOV. -/
def effVmovRow (o : Long) : State → Nat → Thread → Out :=
  withRows [(o.d, none), (o.a, none)] (fun s m _ => setRow s m o.d (rowOf s m o.a))

/-- VMOV.GET. -/
def effVmovGet (o : Long) : State → Nat → Thread → Out := fun s k t =>
  withRows (typedRows o [o.a]) (fun s m t =>
    let c := (rowElems o.ty.toNat (rowOf s m o.a)).getD ((src32 t o .b).toNat % rowLength o.ty.toNat) 0
    s.updThread k (fun t => t.setRegs o.d.toNat [BitVec.ofNat 32 c])) s k t

/-- VMOV.PUT. -/
def effVmovPut (o : Long) : State → Nat → Thread → Out :=
  withRows (typedRows o [o.d]) (fun s m t =>
    let ty := o.ty.toNat
    let v := (src32 t o .a).toNat % (if halfType ty then 65536 else 2 ^ 32)
    setRow s m o.d (elemsRow ty ((rowElems ty (rowOf s m o.d)).set ((src32 t o .b).toNat % rowLength ty) v)))

/-! ## VCVT (R313) -/

/-- One converted element. -/
def convertElem (o : Long) (src : Nat) (t : Thread) (gen : Word) (c : Nat) : Nat × Nat × Word :=
  let ty := o.ty.toNat
  if src = 0 ∧ ty = 0 then (c, 0, gen)
  else if src = 0 then roundTo (fmt o) (modeOf o t) gen (ofInt (codeInt 32 true c))
  else if ty = 0 then
    let r := roundInt 32 true (modeOf o t) gen (decodeF f32 t.ftz c)
    (intCode 32 r.1, r.2.1 ||| signalFlag f32 [c], r.2.2)
  else cvtOp src ty (modeOf o t) gen c

/-- VCVT. -/
def effVcvt (o : Long) : State → Nat → Thread → Out := fun s k t =>
  let src := o.p5.toNat % 16
  let ty := o.ty.toNat
  let h := o.p5.toNat / 16
  withRows [(o.d, some (halfType ty)), (o.a, some (halfType src))] (fun s m t =>
    let ins := rowElems src (rowOf s m o.a)
    let first := if halfType src && !halfType ty then 32 * h else 0
    let n := if halfType src && halfType ty then 64 else 32
    let r := mapElems (fun gen e => convertElem o src t gen (ins.getD (first + e) 0)) t.gen n
    let out := if halfType ty && !halfType src then
        let old := rowElems ty (rowOf s m o.d)
        old.take (32 * h) ++ r.1 ++ old.drop (32 * h + 32)
      else r.1
    rowFlags (setRow s m o.d (elemsRow ty out)) k r) s k t

/-! ## Meanings -/

/-- VADD. -/
def execVadd (o : Long) (s : State) : Host.Outcome State Fault Refusal := runLong .vadd o (effVadd o) s
/-- VMUL. -/
def execVmul (o : Long) (s : State) : Host.Outcome State Fault Refusal := runLong .vmul o (effVmul o) s
/-- VFMA. -/
def execVfma (o : Long) (s : State) : Host.Outcome State Fault Refusal := runLong .vfma o (effVfma o) s
/-- VMAX. -/
def execVmax (o : Long) (s : State) : Host.Outcome State Fault Refusal := runLong .vmax o (effVmax o) s
/-- VMIN. -/
def execVmin (o : Long) (s : State) : Host.Outcome State Fault Refusal := runLong .vmin o (effVmin o) s
/-- VEXP. -/
def execVexp (o : Long) (s : State) : Host.Outcome State Fault Refusal := runLong .vexp o (effVexp o) s
/-- VRED. -/
def execVred (o : Long) (s : State) : Host.Outcome State Fault Refusal := runLong .vred o (effVred o) s
/-- VBCAST. -/
def execVbcast (o : Long) (s : State) : Host.Outcome State Fault Refusal := runLong .vbcast o (effVbcast o) s
/-- VMOV. -/
def execVmovRow (o : Long) (s : State) : Host.Outcome State Fault Refusal := runLong .vmovRow o (effVmovRow o) s
/-- VMOV.GET. -/
def execVmovGet (o : Long) (s : State) : Host.Outcome State Fault Refusal := runLong .vmovGet o (effVmovGet o) s
/-- VMOV.PUT. -/
def execVmovPut (o : Long) (s : State) : Host.Outcome State Fault Refusal := runLong .vmovPut o (effVmovPut o) s
/-- VCVT. -/
def execVcvt (o : Long) (s : State) : Host.Outcome State Fault Refusal := runLong .vcvt o (effVcvt o) s

end Sys2Proof.Machine
end

