-- ==== Sys2Proof/Machine/Ray.lean ====
section
/-! DEFINITION. The box and triangle units, the route cache and residency: BOXT, TRIT, TLOOK and RESID (R98 to R107, R117, R317 to R320,
R417, R418, R422). -/

namespace Sys2Proof.Machine

/-! ## Exact distances (R104) -/

/-- A finite F32 code as a number of units of 2 to the power −149. -/
def f32Units (w : Word) : Int :=
  let e := (w.extractLsb' 23 8).toNat
  let m := (w.extractLsb' 0 23).toNat
  let v : Nat := if e = 0 then m else (2 ^ 23 + m) * 2 ^ (e - 1)
  if w.getLsbD 31 then -(v : Int) else v

/-- The code is NaN or infinite. -/
def f32Special (w : Word) : Bool := w.extractLsb' 23 8 == 255#8
/-- The code is NaN. -/
def f32Nan (w : Word) : Bool := f32Special w && w.extractLsb' 0 23 != 0#23

/-- The F32 code of n ÷ d units, d positive, rounded toward −∞. -/
def f32Down (n : Int) (d : Nat) : Word :=
  let a := n.natAbs
  if 0 ≤ n then
    let q := a / d
    let sh := Nat.log2 q - 23
    BitVec.ofNat 32 (min (sh * 2 ^ 23 + q / 2 ^ sh) 0x7F7FFFFF)
  else
    let q := (a + d - 1) / d
    let sh := Nat.log2 q - 23
    BitVec.ofNat 32 (0x80000000 + min (sh * 2 ^ 23 + (q + 2 ^ sh - 1) / 2 ^ sh) 0x7F800000)

/-- A distance: a quotient of units, or an infinity. -/
inductive Dist where
  | low
  | at_ (n : Int) (d : Nat)
  | high
  deriving DecidableEq, Repr

/-- The first distance is at most the second. -/
def Dist.le : Dist → Dist → Bool
  | .low, _ => true
  | _, .high => true
  | .at_ n d, .at_ m e => decide (n * e ≤ m * d)
  | _, _ => false

/-- The greater and the lesser of two distances. -/
def Dist.max (x y : Dist) : Dist := if x.le y then y else x
def Dist.min (x y : Dist) : Dist := if x.le y then x else y

/-- An F32 code that is no NaN, as a distance. -/
def f32Dist (w : Word) : Dist :=
  if f32Special w then (if w.getLsbD 31 then .low else .high) else .at_ (f32Units w) 1

/-- The two distances differ by no more than one F32 ulp at either of them. -/
def withinUlp (x y : Dist) : Bool :=
  let ulp (n : Int) (d : Nat) : Nat := 2 ^ (Nat.log2 (n.natAbs / d) - 23)
  match x, y with
  | .at_ n d, .at_ m e => decide ((n * e - m * d).natAbs ≤ max (ulp n d) (ulp m e) * (d * e))
  | _, _ => false

/-! ## Rays and nodes -/

/-- A ray run (R316): origin, direction, tmin, tmax. -/
structure RayRun where
  o : List Word
  d : List Word
  tmin : Word
  tmax : Word

/-- The ray run at the operand a. -/
def rayRun (t : Thread) (o : Long) : RayRun :=
  let r := srcRun t o .a 8
  { o := r.take 3, d := (r.drop 3).take 3, tmin := r.getD 6 0#32, tmax := r.getD 7 0#32 }

/-- The ray run is degenerate (R417). -/
def RayRun.degenerate (r : RayRun) : Bool :=
  (r.o ++ r.d).any f32Special || f32Nan r.tmin || f32Nan r.tmax || r.d.all (fun w => f32Units w == 0) ||
    !(f32Dist r.tmin).le (f32Dist r.tmax)

/-- Component of a direction or origin. -/
def axisOf (l : List Word) (a : Nat) : Int := f32Units (l.getD a 0#32)

/-- Bound of a child on an axis, in units: field j of its nine bytes (R100). -/
def childBound (node : List Byte) (i a j : Nat) : Int :=
  let v := bits (field node (40 + 9 * i) 9) (12 * j + 11) (12 * j)
  f32Units (BitVec.ofNat 32 (field node (4 * a) 4)) + (v * 2 ^ (field node (12 + a) 1 + 22) : Nat)

/-- Distances at which the ray enters and leaves a child's box; none where it misses a slab it runs along, or the box is empty. -/
def slabs (node : List Byte) (i : Nat) (r : RayRun) : Option (Dist × Dist) :=
  (List.range 3).foldl (fun acc a =>
    acc.bind (fun p =>
      let lo := childBound node i a a
      let hi := childBound node i a (3 + a)
      let o := axisOf r.o a
      let d := axisOf r.d a
      if hi < lo then none
      else if d = 0 then (if lo ≤ o ∧ o ≤ hi then some p else none)
      else
        let q (b : Int) : Dist := if 0 < d then .at_ ((b - o) * 2 ^ 149) d.natAbs else .at_ ((o - b) * 2 ^ 149) d.natAbs
        let (near, far) := if 0 < d then (q lo, q hi) else (q hi, q lo)
        some (p.1.max near, p.2.min far))) (some (.low, .high))

/-- Reference of a child. -/
def childRef (node : List Byte) (i : Nat) : Word := BitVec.ofNat 32 (field node (16 + 4 * i) 4)

/-- What BOXT finds of one child: its entry distance.  A child that the segment misses by no more than one ulp is reported where the free
choice says so. -/
def childHit (node : List Byte) (i : Nat) (r : RayRun) (mask : Nat) (extra : Bool) : Option Word :=
  if field node 15 1 ≤ i ∨ (childRef node i).extractLsb' 30 2 = 0#2 ∨ field node (94 + i) 1 &&& mask % 256 = 0 then none
  else match slabs node i r with
    | none => none
    | some (e, x) =>
      let first := (f32Dist r.tmin).max e
      let last := (f32Dist r.tmax).min x
      let entry : Word := match e with
        | .at_ n d =>
          let w := f32Down n d
          if (f32Dist w).le (f32Dist r.tmin) then r.tmin else w
        | _ => r.tmin
      if first.le last || (extra && withinUlp first last) then some entry else none

/-- The reported children in order: entry distance, then index (R104). -/
def boxList (node : List Byte) (r : RayRun) (mask : Nat) (extra : Nat → Bool) : List (Nat × Word) :=
  let found := (List.range 6).filterMap (fun i => (childHit node i r mask (extra i)).map (fun w => (i, w)))
  found.mergeSort (fun a b => (f32Dist a.2).le (f32Dist b.2) && (!(f32Dist b.2).le (f32Dist a.2) || decide (a.1 ≤ b.1)))

/-- The node is malformed (R418). -/
def badNode (node : List Byte) (l : List (Nat × Word)) : Bool :=
  let n := field node 15 1
  n == 0 || decide (6 < n) || (List.range 3).any (fun a => f32Special (BitVec.ofNat 32 (field node (4 * a) 4))) ||
    (List.range 3).any (fun a => field node (12 + a) 1 == 255) ||
    l.any (fun p => (childRef node p.1).extractLsb' 30 2 == 2#2 && (childRef node p.1).extractLsb' 0 4 == 0#4)

/-- d to d + 7 of BOXT. -/
def boxResult (node : List Byte) (l : List (Nat × Word)) : List Word :=
  (List.range 6).map (fun i => match l[i]? with
    | some p => childRef node p.1
    | none => 0#32) ++ [BitVec.ofNat 32 l.length, (l.head?.map (·.2)).getD 0x7F800000#32]

/-! ## Reads of the treelet pool (R422) -/

/-- Reads n bytes of scratch for a unit, which it occupies for a cycle (event code of R346): a trap at the instruction, an operation refused with 0x2A, or the bytes. -/
def unitRead (s : State) (k : Nat) (t : Thread) (o : Long) (unit n align : Nat) (go : State → List Byte → Out) : Out :=
  let a := (src32 t o .b).toNat
  if a % align ≠ 0 then memTrap s 0x24 0 (BitVec.ofNat 64 a) t
  else match scratchOffset s t.core (s.team t.team) t.sr.priv false a n with
    | none => memTrap s 0x26 3 (BitVec.ofNat 64 a) t
    | some off =>
      if hitsError s (scratchLoc t.core off) n false then
        let r := addOp s k { mkOp t o with dst := some (o.d.toNat, 8), size := 32, info := BitVec.ofNat 64 a }
        .go (loseTreelet (opRefused r.1 k r.2 0x2A (BitVec.ofNat 64 a)) t.core off (threadRay s t))
      else go (perfCount s t.core unit 1) (readScratch s t.core off n)

/-- Holds a unit instruction back as memory instructions are, and while its flag stands at 63 (R212, R282). -/
def unitStart (s : State) (k : Nat) (t : Thread) (o : Long) (go : State → Out) : Out :=
  memStart s k t o false none (fun s _ => go s)

/-- BOXT (R317). A malformed node is refused with 0x50 before the ray is looked at, a degenerate ray's too: DEDUCED (log 67).
On a gateway core, which has no box-test unit (R5), its results are free values: DESIGN CHOICE (log 146). -/
def effBoxt (o : Long) : State → Nat → Thread → Out := fun s k t =>
  unitStart s k t o (fun s =>
    unitRead s k t o 7 128 128 (fun s node =>
      let p := { mkOp t o with dst := some (o.d.toNat, 8), size := 32, info := BitVec.ofNat 64 (src32 t o .b).toNat }
      let r := rayRun t o
      if onGateway t.core then let b := freeBytes s 9 32; .go (addReady b.2 k p b.1)
      else if badNode node [] then
        let q := addOp s k p
        .go (opRefused q.1 k q.2 0x50 p.info)
      else if r.degenerate then .go (addReady s k p (wordsToBytes (boxResult node [])))
      else
        let l := boxList node r (src32 t o .c).toNat (fun i => (Config.freeValue 2 (s.free + i)).getLsbD 0)
        let s1 := { s with free := s.free + 6 }
        if badNode node l then
          let q := addOp s1 k p
          .go (opRefused q.1 k q.2 0x50 p.info)
        else .go (addReady s1 k p (wordsToBytes (boxResult node l)))))

/-! ## TRIT (R105, R318) -/

/-- F32 operations to nearest even, on codes. -/
def rnSub (a b : Nat) : Nat := (faddOp f32 rne 0#32 true a b).1
def rnMul (a b : Nat) : Nat := (fmulOp f32 rne 0#32 a b).1
def rnDiv (a b : Nat) : Nat := (fdivOp f32 rne 0#32 a b).1

/-- The exact value of an F32 code. -/
def f32Value (c : Nat) : XVal := decodeF f32 false c

/-- An edge function p·q − r·s: rounded, or exact where it comes out zero or not finite; none when an input is not finite. -/
def edgeFn (p q r s : Nat) : Option XVal :=
  if [p, q, r, s].any (fun c => f32Special (BitVec.ofNat 32 c)) then none
  else
    let v := rnSub (rnMul p q) (rnMul r s)
    if f32Special (BitVec.ofNat 32 v) || v % 2 ^ 31 == 0 then
      some (addX 0 (mulX (f32Value p) (f32Value q)).1 ((mulX (f32Value r) (f32Value s)).1).neg).1
    else some (f32Value v)

/-- The value is zero. -/
def isZeroX : XVal → Bool
  | .zero _ => true
  | _ => false

/-- A sum of exact values. -/
def sumX (l : List XVal) : XVal := l.foldl (fun a b => (addX 0 a b).1) (.zero false)

/-- Axes of a direction (R105, step 1). -/
def triAxes (d : List Word) : Nat × Nat × Nat :=
  let mag (a : Nat) : Nat := (d.getD a 0#32).toNat % 2 ^ 31
  let kz := if mag 0 < mag 1 then (if mag 1 < mag 2 then 2 else 1) else (if mag 0 < mag 2 then 2 else 0)
  let kx := (kz + 1) % 3
  let ky := (kx + 1) % 3
  if (d.getD kz 0#32).getLsbD 31 then (ky, kx, kz) else (kx, ky, kz)

/-- A vertex after the shear (step 2): x, y and z. -/
def shear (r : RayRun) (tri : List Byte) (i : Nat) : Nat × Nat × Nat :=
  let (kx, ky, kz) := triAxes r.d
  let d (a : Nat) : Nat := (r.d.getD a 0#32).toNat
  let a (j : Nat) : Nat := rnSub (field tri (12 * i + 4 * j) 4) (r.o.getD j 0#32).toNat
  (rnSub (a kx) (rnMul (rnDiv (d kx) (d kz)) (a kz)), rnSub (a ky) (rnMul (rnDiv (d ky) (d kz)) (a kz)),
    rnMul (rnDiv 0x3F800000 (d kz)) (a kz))

/-- An accepted hit (steps 3 to 6): kind, t, u and v. -/
def triHit (r : RayRun) (tri : List Byte) (flags : Nat) (best : Word) (bestPrim : Nat) : Option (Nat × Nat × Nat × Nat) :=
  let (x0, y0, z0) := shear r tri 0
  let (x1, y1, z1) := shear r tri 1
  let (x2, y2, z2) := shear r tri 2
  match edgeFn x2 y1 y2 x1, edgeFn x0 y2 y0 x2, edgeFn x1 y0 y1 x0 with
  | some w, some u, some v =>
    let det := sumX [u, v, w]
    let t := sumX [(mulX w (f32Value z0)).1, (mulX u (f32Value z1)).1, (mulX v (f32Value z2)).1]
    let inside := [u, v, w].all (fun x => isZeroX x || !x.isNeg) || [u, v, w].all (fun x => isZeroX x || x.isNeg)
    let q (x : XVal) : Nat := (roundRne f32 (divX x det).1).1
    let tc := q t
    let prim := field tri 36 4
    let le (a b : Nat) : Bool := !(f32Value a).isNan && !(f32Value b).isNan && cmpX (f32Value a) (f32Value b) != .gt
    let lt (a b : Nat) : Bool := le a b && !le b a
    let near := if flags.testBit 3 then lt tc best.toNat || (le tc best.toNat && le best.toNat tc && decide (prim < bestPrim))
      else le tc r.tmax.toNat
    let culled := if det.isNeg then flags.testBit 1 else flags.testBit 2
    if !inside || isZeroX det || culled || !le r.tmin.toNat tc || !near then none
    else some (if det.isNeg then 2 else 1, tc, q u, q v)
  | _, _, _ => none

/-- TRIT (R318). On a gateway core, which has no triangle-test unit (R5), its results are free values: DESIGN CHOICE (log 146). -/
def effTrit (o : Long) : State → Nat → Thread → Out := fun s k t =>
  unitStart s k t o (fun s =>
    unitRead s k t o 8 48 16 (fun s tri =>
      let p := { mkOp t o with dst := some (o.d.toNat, 8), size := 32, info := BitVec.ofNat 64 (src32 t o .b).toNat }
      if onGateway t.core then let b := freeBytes s 9 32; .go (addReady b.2 k p b.1) else
      let r := rayRun t o
      let c := srcRun t o .c 4
      let hit := if r.degenerate then none
        else triHit r tri ((c.getD 0 0#32).toNat % 65536) (c.getD 1 0#32) (c.getD 2 0#32).toNat
      let out := match hit with
        | some (kind, tc, u, v) => [kind, tc, u, v, field tri 36 4, 0, 0, 0].map (BitVec.ofNat 32)
        | none => List.replicate 8 0#32
      .go (addReady s k p (wordsToBytes out))))

/-! ## TLOOK, RESID (R107, R319, R320) -/

/-- The owner nearest an endpoint, the lowest endpoint id on ties. -/
def nearestOwner (s : State) (ep : Nat) (owners : List Nat) : Option Nat :=
  owners.foldl (fun b x =>
    match b with
    | none => some x
    | some y => if keyBefore [hops s ep x, x] [hops s ep y, y] then some x else some y) none

/-- TLOOK. -/
def effTlook (o : Long) : State → Nat → Thread → Out := fun s k t =>
  if flagFull t (flagOf t o.fs) then .wait s .waiting
  else
    let id := (src32 t o .a).toNat
    let c := s.core t.core
    let p := { mkOp t o with dst := some (o.d.toNat, 1), size := 4 }
    match (c.routes.find? (fun r => r.treelet == id)).bind (fun r => nearestOwner s t.core r.owners) with
    | some owner =>
      let s1 := s.updCore t.core (fun c => { c with
        routes := c.routes.map (fun r => if r.treelet = id then { r with used := c.cycles } else r) })
      .go (addReady s1 k p (leBytes 4 (owner % 2 ^ 20 + 2 ^ 31)))
    | none => .go (addReady s k p (leBytes 4 (homeSlice id % 2 ^ 20)))

/-- RESID and RESID.REQ: the packet leaves, and the reply completes it. -/
def askResidency (o : Long) (request : Bool) : State → Nat → Thread → Out := fun s k t =>
  if flagFull t (flagOf t o.fs) then .wait s .waiting
  else
    let id := (src32 t o .a).toNat
    let r := addOp s k { mkOp t o with dst := some (o.d.toNat, 1), size := 4, info := BitVec.ofNat 64 id, seq := (s.core t.core).seq }
    .go (r.1.send (mkPacket 0 0x0D t.core (servingSlice s id) 1 (.residency id request (some (freeUnits (s.core t.core))) k r.2)))

/-- RESID. -/
def effResid (o : Long) : State → Nat → Thread → Out := askResidency o false
/-- RESID.REQ. -/
def effResidReq (o : Long) : State → Nat → Thread → Out := askResidency o true

/-! ## Meanings -/

/-- BOXT. -/
def execBoxt (o : Long) (s : State) : Host.Outcome State Fault Refusal := runLong .boxt o (effBoxt o) s
/-- TRIT. -/
def execTrit (o : Long) (s : State) : Host.Outcome State Fault Refusal := runLong .trit o (effTrit o) s
/-- TLOOK. -/
def execTlook (o : Long) (s : State) : Host.Outcome State Fault Refusal := runLong .tlook o (effTlook o) s
/-- RESID. -/
def execResid (o : Long) (s : State) : Host.Outcome State Fault Refusal := runLong .resid o (effResid o) s
/-- RESID.REQ. -/
def execResidReq (o : Long) (s : State) : Host.Outcome State Fault Refusal := runLong .residReq o (effResidReq o) s

end Sys2Proof.Machine
end

