-- ==== Sys2Proof/Machine/Record.lean ====
section
/-! DEFINITION. Enqueues and records (R321 to R329): RAYSEND, HITQ, SEND, RECQ, RECJ, RQUE, RECV, ABIND and BALW; and the arrival of
rays, hits, messages, records and RECJs at a core (R33, R103, R115, R408, R442). -/

namespace Sys2Proof.Machine

/-! ## Derived ids (R322, R441) -/

/-- The next derived id of a thread, and its send index and its core's counter moved on. -/
def nextId (s : State) (k : Nat) (t : Thread) : DWord × State :=
  let moved := s.updThread k (fun u => { u with sr := { u.sr with sendix := u.sr.sendix + 1#32 } })
  if t.prio.isSome then
    let origin := t.sr.deriv.toNat / 2 ^ 44
    (BitVec.ofNat 64 (origin * 2 ^ 44 + (t.sr.deriv.toNat % 2 ^ 44 * 257 + t.sr.sendix.toNat + 1) % 2 ^ 44), moved)
  else
    let n := ((s.core t.core).sendCount + 1) % 2 ^ 44
    (BitVec.ofNat 64 (t.core % 2 ^ 20 * 2 ^ 44 + n), moved.updCore t.core (fun c => { c with sendCount := n }))

/-- DERIV of the record whose thread this is, for the doubt sets (R442). -/
def parentOf (t : Thread) : Option DWord := if t.prio.isSome then some t.sr.deriv else none

/-! ## Payloads -/

/-- What comes of reading a payload. -/
inductive Payload where
  | ok (bytes : List Byte)
  | out (r : Out)

/-- n payload bytes at operand b: a register run, or own scratch aligned to 16 (R316). -/
def payloadOf (s : State) (k : Nat) (t : Thread) (o : Long) (n : Nat) : Payload :=
  if !o.m4.getLsbD 0 then .ok ((wordsToBytes (srcRun t o .b (n / 4))).take n)
  else
    let a := (src32 t o .b).toNat
    if a % 16 ≠ 0 then .out (memTrap s 0x24 0 (BitVec.ofNat 64 a) t)
    else match scratchOffset s t.core (s.team t.team) t.sr.priv false a n with
      | none => .out (memTrap s 0x26 3 (BitVec.ofNat 64 a) t)
      | some off =>
        if hitsError s (scratchLoc t.core off) n false then
          let r := addOp s k { mkOp t o with info := BitVec.ofNat 64 a }
          .out (.go (loseTreelet (opRefused r.1 k r.2 0x2A (BitVec.ofNat 64 a)) t.core off (threadRay s t)))
        else .ok (readScratch s t.core off n)

/-- The endpoint that has adopted a queue of a lost home (R440). -/
def adopterOf (s : State) (ep q : Nat) : Nat :=
  match s.pkg.adopted.find? (fun x => x.1 == ep && x.2.1 == q) with
  | some x => x.2.2
  | none => ep

/-- Queue that a packet's TYPE enters: 1 hit, 2 message, 3 record; 4 none of them. -/
def queueOfType (typ : Nat) : Nat := if typ = 0x40 then 1 else if typ = 0x41 then 2 else if typ = 0x42 then 3 else 4

/-- The die of an endpoint is being fenced or drained: packets to its cores' queues are held at their sources (R435). -/
def beingLost (s : State) (ep : Nat) : Bool :=
  epPackage ep == Config.package && (match (s.die (epDie ep)).loss with
    | .fence | .drain => true
    | _ => false)

/-- The queue at an endpoint waits for its die to rejoin (R440). -/
def orphaned (s : State) (ep q : Nat) : Bool := s.pkg.orphans.any (fun x => x.1 == ep && x.2.1 == q)

/-- The sends whose packets to cores are metered (R156): not RECJ's and CRED's. -/
def Body.metered : Body → Bool
  | .join _ _ _ _ | .block _ _ _ => false
  | _ => true

/-- Sends an enqueue of a thread: allowance, derived id, release, then the packet, to the adopter of a lost home's queue.  An endpoint that
cannot be reached refuses it, and takes no allowance.  The core that a ray runs on is not known when it goes to a slice: then the package's scope serves.  A block's scope is the fabric (R332).
A packet for a queue that is to be adopted is held at its source (R435, R440). -/
def sendEnqueue (s : State) (k : Nat) (t : Thread) (p : Op) (dst0 flits : Nat) (mk : DWord → Nat → Packet) : Out :=
  let q := queueOfType (mk 0#64 0).typ
  let dst := adopterOf s dst0 q
  if q < 4 ∧ (beingLost s dst ∨ orphaned s dst q) then .wait s .waiting
  else match (if reachable s t.core dst && (mk 0#64 0).body.metered then takeAllowance s k t dst flits else .ok s) with
  | .hold s1 st => .wait s1 st
  | .ok s1 =>
    let scope := if (mk 0#64 0).typ = 0x43 then 6 else if epLocal dst = 125 then max 5 (betweenScope t.core dst) else betweenScope t.core dst
    let s1a := releaseAction s1 t.core scope
    if wideScope scope ∧ farPending s1a t.core then .wait (releaseAction s t.core scope) .waiting
    else
    let (did, s2) := nextId s1a k t
    let r := addOp (s2.updThread k (fun u => u.visit dst)) k { p with info := remoteInfo dst 0, token := 15, seq := (s2.core t.core).seq }
    if reachable s t.core dst then
      .go (r.1.send { mk did r.2 with src := t.core, dst := dst, deriv := did, parent := parentOf t, team := t.team, priv := t.sr.priv })
    else .go (opRefused r.1 k r.2 0x67 (remoteInfo dst 0))

/-- The endpoint operand a. -/
def destOf (t : Thread) (o : Long) : Nat := (src32 t o .a).toNat % 2 ^ 20

/-! ## RAYSEND, HITQ, SEND -/

/-- Clears FWD in a ray message, and the unassigned flags (R101, R12). -/
def clearFwd (bs : List Byte) : List Byte := patch bs 44 [BitVec.ofNat 8 (field bs 44 1 % 16), 0#8]
/-- Sets FWD. -/
def setFwd (bs : List Byte) : List Byte := patch bs 44 [BitVec.ofNat 8 (field bs 44 1 % 16), 0x80#8]
/-- FWD of a ray message. -/
def rayFwd (bs : List Byte) : Bool := decide (128 ≤ field bs 45 1)
/-- Next treelet id of a ray message. -/
def rayTreelet (bs : List Byte) : Nat := field bs 40 4
/-- Ray id. -/
def rayId (bs : List Byte) : Nat := field bs 32 8

/-- The die of an endpoint of this package is lost or quiescing (R423, R434). -/
def dieGone (s : State) (src dst : Nat) : Bool :=
  epPackage dst == Config.package && (!reachable s src dst || (s.die (epDie dst)).loss != .serving)

/-- A core drops the owners that lie on a die from its route cache (R423). -/
def dropOwners (c : Core) (die : Nat) : Core :=
  let left := c.routes.map (fun r => { r with owners := r.owners.filter (fun e => epDie e != die) })
  { c with routes := left.filter (fun r => !r.owners.isEmpty) }

/-- A ray is re-addressed away from a die: its sender drops the die's owners and writes event 0x51. -/
def rayRedirected (s : State) (src dst : Nat) (ray : List Byte) : State :=
  (if s.isCore src then s.updCore src (fun c => dropOwners c (epDie dst)) else s).event src 8 0x51 1 false (rayId ray) (rayTreelet ray)

/-- Re-addresses a ray away from a lost or quiescing die: to the slice that serves its next treelet, with event 0x51. -/
def redirectRay (s : State) (src dst : Nat) (ray : List Byte) : Nat × State :=
  if epLocal dst = 125 && onGateway dst then (if dieGone s src dst then servingSlice s (rayTreelet ray) else dst, s)
  else if dieGone s src dst then (servingSlice s (rayTreelet ray), rayRedirected s src dst ray)
  else (dst, s)

/-- RAYSEND. -/
def effRaysend (o : Long) : State → Nat → Thread → Out := fun s k t =>
  memStart s k t o false (some 0) (fun s t =>
    match payloadOf s k t o 64 with
    | .out r => r
    | .ok bs =>
      let ray := clearFwd bs
      let (dst, s1) := redirectRay s t.core (destOf t o) ray
      sendEnqueue s1 k t (mkOp t o) dst 2 (fun _ key => mkPacket 3 0x30 t.core dst 2 (.ray ray (taskPrio s t) k key)))

/-- HITQ (TYPE 0x40) and SEND (TYPE 0x41). -/
def effSendTo (typ : Nat) (o : Long) : State → Nat → Thread → Out := fun s k t =>
  memStart s k t o false (some 0) (fun s t =>
    match payloadOf s k t o 64 with
    | .out r => r
    | .ok bs =>
      let dst := destOf t o
      sendEnqueue s k t (mkOp t o) dst 2 (fun _ key => mkPacket 4 typ t.core dst 2 (.hit typ bs (taskPrio s t) k key)))

/-- HITQ. -/
def effHitq (o : Long) : State → Nat → Thread → Out := effSendTo 0x40 o
/-- SEND. -/
def effSend (o : Long) : State → Nat → Thread → Out := effSendTo 0x41 o

/-! ## RECQ, RECJ -/

/-- A record as the part fills it (R321): DERIV, ATTEMPT 0, HELD; unassigned bits are zero (R12). -/
def fillRecord (r : List Byte) (did : DWord) (held : Bool) : List Byte :=
  let flags := field r 27 1 % 16
  patch (patch (patch r 16 (leBytes 8 did.toNat)) 26 [0#8, BitVec.ofNat 8 (flags - bit (flags.testBit 2) 2 + bit held 2)])
    7 [BitVec.ofNat 8 (field r 7 1 % 16)]

/-- Handle of a held record (R324). -/
def handleOf (home ticket : Nat) : List Byte := leBytes 8 (home % 2 ^ 20 * 2 ^ 44 + ticket % 2 ^ 32)

/-- The end of an enqueue to the issuing core's own queue; a refusal is found before the access leaves the core (R401). -/
def ownDelivery (s : State) (k : Nat) (t : Thread) (p : Op) (r : Delivery) (data : List Byte) : Out :=
  match r with
  | .accepted s1 => .go (addReady s1 k p data)
  | .refused => memTrap s 0x27 3 (remoteInfo t.core 0) t
  | .full => .wait s .waiting

/-- RECQ and RECQ.HELD. -/
def queueRecord (op : LongOp) (held : Bool) (o : Long) : State → Nat → Thread → Out := fun s k t =>
  memStart s k t o false (some 0) (fun s t =>
    match payloadOf s k t o 32 with
    | .out r => r
    | .ok bs =>
      if recKind bs % 2 = 1 ∨ recQueue bs ≠ 0 then
        (if o.m4.getLsbD 0 then .go (s.updThread k (fun u => { u with lateTrap := u.lateTrap ++ [(0x04, firstWord op o, 0)] }))
         else .trap s (trapAt 0x04 (firstWord op o) t.pc))
      else
        let home := recHome bs
        let p := if held then { mkOp t o with dst := some (o.d.toNat, 2), size := 8 } else mkOp t o
        if home = t.core then
          let (did, s1) := nextId s k t
          let r := deliverRecord (s1.updThread k (fun u => u.visit home)) home (fillRecord bs did held) t.core (parentOf t)
          match r.1 with
          | .full => .wait s .waiting
          | _ => ownDelivery s1 k t p r.1 (if held then handleOf home r.2 else [])
        else sendEnqueue s k t p home 1 (fun did key =>
          mkPacket 4 0x42 t.core home 1 (.hit 0x42 (fillRecord bs did held) (recPrio bs) k key)))

/-- RECQ. -/
def effRecq (o : Long) : State → Nat → Thread → Out := queueRecord .recq false o
/-- RECQ.HELD. -/
def effRecqHeld (o : Long) : State → Nat → Thread → Out := queueRecord .recqHeld true o

/-- RECJ.  A decrement outside 1 to 65,535 is a field value outside its table (log 28). -/
def effRecj (o : Long) : State → Nat → Thread → Out := fun s k t =>
  memStart s k t o false (some 0) (fun s t =>
    let h := (src64 t o .a).toNat
    let dec := (src32 t o .b).toNat
    let home := h / 2 ^ 44
    let ticket := h % 2 ^ 32
    if dec = 0 ∨ 65535 < dec then .trap s (trapAt 0x04 (firstWord .recj o) t.pc)
    else if home = t.core then
      let (did, s1) := nextId s k t
      let r := joinHeld (s1.updThread k (fun u => u.visit home)) home t.core ticket dec did (parentOf t)
      match r with
      | .full => .wait s .waiting
      | _ => ownDelivery s1 k t (mkOp t o) r []
    else sendEnqueue s k t (mkOp t o) home 1 (fun _ key =>
      { mkPacket 4 0x42 t.core home 1 (.join ticket dec k key) with addr := BitVec.ofNat 64 (2 ^ 63 + dec * 2 ^ 32 + ticket) }))

/-! ## RQUE (R35, R326) -/

/-- The record that RQUE enqueues. -/
def rqueRecord (o : Long) (t : Thread) (prio : Nat) (deriv : DWord) : List Byte :=
  leBytes 8 (t.after.toNat % 2 ^ 56 + prio * 2 ^ 56) ++ leBytes 8 t.frame.toNat ++ leBytes 8 deriv.toNat ++ leBytes 2 0 ++
    leBytes 1 (t.sr.attempt.toNat % 256) ++ leBytes 1 8 ++ leBytes 4 (t.core % 2 ^ 20 + (src32 t o .a).toNat % 4096 * 2 ^ 20)

/-- RQUE: the thread ends and its continuation is accepted by its own core's record queue. -/
def effRque (o : Long) : State → Nat → Thread → Out := fun s k t =>
  if owesRegister t then .wait s (owedState ((NMap.vals t.ops).filter (·.dst.isSome)))
  else match memGate s k t false true with
    | .hold s1 st => .wait s1 st
    | .pass s =>
      if !(s.core t.core).recs.bound then memTrap s 0x27 3 (remoteInfo t.core 0) t
      else if ringFull (s.core t.core).recs && (t.entry.map (·.1)) != some 3 then .wait s .waiting
      else
        let prio := if o.m4.getLsbD 2 then o.m4.toNat % 4 else taskPrio s t
        let (deriv, s1) := if t.prio.isSome then (t.sr.deriv, s) else nextId s k t
        let r := rqueRecord o t prio deriv
        let s2 := exitThread s1 k
        .done (s2.updQueue t.core 3 (fun u => { u with ticket := (u.ticket + 1) % 2 ^ 32 }) |> fun s =>
          acceptEntry s t.core 3 (recEntry r t.core))

/-! ## RECV (R327) -/

/-- ADDR fields of a collective block (R161). -/
def blockDomain (a : DWord) : Nat := bits a.toNat 63 60
def blockView (a : DWord) : Nat := bits a.toNat 59 36
def blockSeq (a : DWord) : Nat := bits a.toNat 35 20
def blockIndex (a : DWord) : Nat := bits a.toNat 19 8

/-- The entry is a block of a view that its domain has left. -/
def staleBlock (s : State) (ep : Nat) (e : Entry) : Bool :=
  e.typ == 0x43 && blockView e.addr != viewAt s (epDie ep) (blockDomain e.addr)

/-- Discards stale blocks at the head of the message queue, at most n of them. -/
def dropStale (s : State) (ep : Nat) : Nat → State
  | 0 => s
  | n + 1 =>
    match nextEntry (s.core ep).msgs with
    | some (k, e) => if staleBlock s ep e then dropStale (takeGone s ep 2 k e) ep n else s
    | none => s

/-- RECV. -/
def effRecv (o : Long) : State → Nat → Thread → Out := fun s k t =>
  match memGate s k t false false with
  | .hold s1 st => .wait s1 st
  | .pass s0 =>
    let nb := o.m4.getLsbD 0
    let s := dropStale s0 t.core ((s0.core t.core).msgs.entries.length)
    match nextEntry (s.core t.core).msgs with
    | none =>
      if nb then .go (s.updThread k (fun t => t.setPred o.c.toNat false))
      else if (s.team t.team).preq then .done (yieldAt s k)
      else .wait s .waiting
    | some (key, e) =>
      let info := if e.typ = 0x43 then [e.addr.setWidth 32, e.addr.extractLsb' 32 32] else [BitVec.ofNat 32 (e.src % 2 ^ 20), 0#32]
      let s1 := acquireAction (takeGone s t.core 2 key e) t.core (entryScope t.core e)
      .go (s1.updThread k (fun t => ((t.setRegs o.d.toNat (bytesToWords 16 e.bytes)).setRegs o.e.toNat info).setPred o.c.toNat true))

/-! ## ABIND, BALW (R328, R329) -/

/-- ABIND. -/
def effAbind (o : Long) : State → Nat → Thread → Out := fun s k t =>
  let dst := destOf t o
  let bind (s : State) : Out := .go (s.updThread k (fun t => { t with sr := { t.sr with slots := t.sr.slots.set o.d.toNat (some dst) } }))
  if !meteredEp dst then bind s
  else match allowEntry s t.core dst with
    | none => .wait s .waiting
    | some s1 => bind s1

/-- ABIND.UN. -/
def effAbindUn (o : Long) : State → Nat → Thread → Out :=
  pureLane (fun t => { t with sr := { t.sr with slots := t.sr.slots.set o.d.toNat none } })

/-- BALW. -/
def effBalw (o : Long) : State → Nat → Thread → Out := fun s k t =>
  let ok := match t.sr.slots.getD o.a.toNat none with
    | some dst => decide (o.m4.toNat % 8 ≤ allowanceOf s t.core dst)
    | none => false
  .go (s.updThread k (fun t => t.setPred o.d.toNat ok))

/-! ## Arrivals at a core (R33, R115, R408) -/

/-- A core has sunk a packet: the flits of a metered one count toward the credits it returns (R156). -/
def sinkPacket (s : State) (p : Packet) : State := if p.body.metered then sink s p.dst p.src p.flits else s

/-- Answers the sender of an enqueue, where a thread waits for it. -/
def answerSender (s : State) (p : Packet) (thread op : Nat) (r : Delivery) (data : List Byte) : Option State :=
  let ack (s : State) : State :=
    if thread = 0 then s
    else if data.isEmpty then s.reply p 0x21 (.acknowledgment thread op)
    else s.reply p 0x20 (.data data thread op)
  match r with
  | .accepted s1 => some (ack (sinkPacket s1 p))
  | .refused =>
    let s1 := sinkPacket s p
    some (if thread = 0 then s1 else refuse s1 p 0x27 (remoteInfo p.dst 0) thread op)
  | .full => none

/-- An entry from a packet. -/
def packetEntry (p : Packet) (bs : List Byte) (prio : Nat) : Entry :=
  { mkEntry p.typ bs prio p.src p.deriv with attempt := p.attempt, addr := p.addr, origin := p.origin }

/-- A hit or message reaches a queue. -/
def entryArrives (q : Nat) (s : State) (p : Packet) : Option State :=
  match p.body with
  | .hit _ bs prio thread op =>
    let r := if s.isCore p.dst then deliver s p.dst q (packetEntry p bs prio) p.parent else .refused
    answerSender s p thread op r []
  | _ => none

/-- HIT_ARRIVAL. -/
def execHitArrival (s : State) : Host.Outcome State Fault Refusal :=
  .next (arrive s (fun p => p.typ == 0x40) (fun s _ p => entryArrives 1 s p))
/-- MESSAGE_ARRIVAL. -/
def execMessageArrival (s : State) : Host.Outcome State Fault Refusal :=
  .next (arrive s (fun p => p.typ == 0x41) (fun s _ p => entryArrives 2 s p))

/-- A record reaches its HOME; a held record's handle goes back to its sender. -/
def recordArrives (s : State) (p : Packet) : Option State :=
  match p.body with
  | .hit _ bs _ thread op =>
    if !s.isCore p.dst then answerSender s p thread op .refused []
    else
      let r := deliverRecord s p.dst bs p.src p.parent
      answerSender s p thread op r.1 (if recHeld bs then handleOf p.dst r.2 else [])
  | _ => none

/-- REMOTE_RECORD_ARRIVAL. -/
def execRemoteRecordArrival (s : State) : Host.Outcome State Fault Refusal :=
  .next (arrive s (fun p => p.typ == 0x42 && (match p.body with
    | .hit _ _ _ _ _ => true
    | _ => false)) (fun s _ p => recordArrives s p))

/-- RECJ_ARRIVAL. -/
def execRecjArrival (s : State) : Host.Outcome State Fault Refusal :=
  .next (arrive s (fun p => match p.body with
    | .join _ _ _ _ => true
    | _ => false) (fun s _ p =>
    match p.body with
    | .join ticket dec thread op =>
      answerSender s p thread op (if s.isCore p.dst then joinHeld s p.dst p.src ticket dec p.deriv p.parent else .refused) []
    | _ => none))

/-- An owner counts a ray that did not come from a slice, and reports every 2^RPT of them (R110). -/
def countDirect (s : State) (ep id : Nat) (p : Packet) : State :=
  let n := 2 ^ ((s.slice (id % 6)).dctl.extractLsb' 5 3).toNat
  if epLocal p.src = 125 then s
  else
    let d := match (s.core ep).pool.find id with
      | some x => x.direct + 1
      | none => 0
    let set (s : State) (d : Nat) : State := s.updCore ep (fun c => { c with pool := c.pool.adjust id (fun x => { x with direct := d }) })
    if n ≤ d then (set s 0).ctl ep (servingSlice s id) 0x07 (.counterIncrement id n (freeUnits (s.core ep)))
    else set s d

/-- Sends a ray that a core cannot run back to its slice with FWD (R115): the slice answers the sender that still waits. -/
def returnRay (s : State) (ep origin : Nat) (bs : List Byte) (prio attempt : Nat) (deriv : DWord) (parent : Option DWord)
    (thread op : Nat := 0) : State :=
  s.inject { mkPacket 3 0x30 ep (servingSlice s (rayTreelet bs)) 2 (.ray (setFwd bs) prio thread op) with
             deriv := deriv, parent := parent, attempt := attempt, origin := origin }

/-- A ray reaches a core: queued where its treelet is resident, otherwise returned with FWD to the treelet's home slice (R103, R115). -/
def rayArrives (s : State) (p : Packet) : Option State :=
  match p.body with
  | .ray bs prio thread op =>
    let id := rayTreelet bs
    let c := s.core p.dst
    if !s.isCore p.dst || !c.rays.bound then answerSender s p thread op .refused []
    else match c.pool.find id with
      | some x =>
        if x.resident then
          let seen := s.updCore p.dst (fun c => { c with pool := c.pool.adjust id (fun x => { x with lastArrival := s.fresh }) })
          let s1 := perfCount (countDirect { seen with fresh := s.fresh + 1 } p.dst id p) p.dst 6 1
          answerSender s1 p thread op (deliver s1 p.dst 0 (packetEntry p bs prio) p.parent) []
        else some (back s p bs prio thread op)
      | none => some (back s p bs prio thread op)
  | _ => none
where
  /-- Returns a ray to its slice with FWD: the slice accepts or refuses it (R426). -/
  back (s : State) (p : Packet) (bs : List Byte) (prio thread op : Nat) : State :=
    sinkPacket (returnRay s p.dst p.origin bs prio p.attempt p.deriv p.parent thread op) p

/-- RAY_ARRIVAL_AT_CORE. -/
def execRayArrivalAtCore (s : State) : Host.Outcome State Fault Refusal :=
  .next (arrive s (fun p => p.typ == 0x30 && decide (epLocal p.dst < 125)) (fun s _ p => rayArrives s p))

/-! ## Meanings -/

/-- RAYSEND. -/
def execRaysend (o : Long) (s : State) : Host.Outcome State Fault Refusal := runLong .raysend o (effRaysend o) s
/-- HITQ. -/
def execHitq (o : Long) (s : State) : Host.Outcome State Fault Refusal := runLong .hitq o (effHitq o) s
/-- SEND. -/
def execSend (o : Long) (s : State) : Host.Outcome State Fault Refusal := runLong .send o (effSend o) s
/-- RECQ. -/
def execRecq (o : Long) (s : State) : Host.Outcome State Fault Refusal := runLong .recq o (effRecq o) s
/-- RECQ.HELD. -/
def execRecqHeld (o : Long) (s : State) : Host.Outcome State Fault Refusal := runLong .recqHeld o (effRecqHeld o) s
/-- RECJ. -/
def execRecj (o : Long) (s : State) : Host.Outcome State Fault Refusal := runLong .recj o (effRecj o) s
/-- RQUE. -/
def execRque (o : Long) (s : State) : Host.Outcome State Fault Refusal := runLong .rque o (effRque o) s
/-- RECV. -/
def execRecv (o : Long) (s : State) : Host.Outcome State Fault Refusal := runLong .recv o (effRecv o) s
/-- ABIND. -/
def execAbind (o : Long) (s : State) : Host.Outcome State Fault Refusal := runLong .abind o (effAbind o) s
/-- ABIND.UN. -/
def execAbindUn (o : Long) (s : State) : Host.Outcome State Fault Refusal := runLong .abindUn o (effAbindUn o) s
/-- BALW. -/
def execBalw (o : Long) (s : State) : Host.Outcome State Fault Refusal := runLong .balw o (effBalw o) s

end Sys2Proof.Machine
end

