-- ==== Sys2Proof/Machine/FabricInstr.lean ====
section
/-! DEFINITION. Views and collectives (R158, R160, R161, R330 to R336, R448, R457): CINIT, VIEW, CRED, BLKQ, BADDQ and CWAIT; blocks
that arrive; credits that return (R156); retire notices (R442). -/

namespace Sys2Proof.Machine

/-! ## CINIT, VIEW (R330, R335) -/

/-- The view domain under a number, where it is set up. -/
def domainOf (s : State) (dom : Nat) : Option Domain := (s.pkg.domains.find? (fun p => p.1 == dom)).map (·.2)

/-- Changes a view domain. -/
def updDomain (s : State) (dom : Nat) (f : Domain → Domain) : State :=
  s.updPkg (fun k => { k with domains := k.domains.map (fun p => if p.1 = dom then (p.1, f p.2) else p) })

/-- Member index of a die in a domain's list; 0xFF where the list does not name it (log 29). -/
def memberIndex (d : Domain) (pkg die : Nat) : Nat := (d.members.idxOf? (pkg, die)).getD 0xFF

/-- CINIT. -/
def effCinit (o : Long) : State → Nat → Thread → Out := fun s k t =>
  let dom := (src32 t o .a).toNat % 16
  let die := epDie t.core
  let view := viewAt s die dom % 2 ^ 24
  let member := match domainOf s dom with
    | some d => memberIndex d (epPackage t.core) die
    | none => 0xFF
  .go (s.updThread k (fun t =>
    let u := t.setRegs o.d.toNat [BitVec.ofNat 32 (member * 2 ^ 24 + view)]
    let carm := BitVec.ofNat 64 (member * 2 ^ 32 + 2 ^ 31 + dom * 2 ^ 24 + view)
    { u with sr := { u.sr with carm := carm, viewDomain := some dom } }))

/-- VIEW. -/
def effView (o : Long) : State → Nat → Thread → Out := fun s k t =>
  let dom := (src32 t o .a).toNat % 16
  .go (s.updThread k (fun t => t.setRegs o.d.toNat
    [BitVec.ofNat 32 (viewAt s (epDie t.core) dom % 2 ^ 24), BitVec.ofNat 32 (liveMembers s dom)]))

/-- 32 bits of a domain's member set. -/
def setWord (d : Domain) (b : Nat) : Nat :=
  ((List.range 32).map (fun i => bit (d.set.getD (32 * b + i) false) i)).sum

/-- VIEW.SET: the word index is the low three bits of b (log 30). -/
def effViewSet (o : Long) : State → Nat → Thread → Out := fun s k t =>
  let v := match domainOf s ((src32 t o .a).toNat % 16) with
    | some d => setWord d ((src32 t o .b).toNat % 8)
    | none => 0
  .go (s.updThread k (fun t => t.setRegs o.d.toNat [BitVec.ofNat 32 v]))

/-! ## CRED (R332) -/

/-- ADDR of a block (R161). -/
def blockAddr (dom view seq index member : Nat) : DWord :=
  BitVec.ofNat 64 (dom * 2 ^ 60 + view % 2 ^ 24 * 2 ^ 36 + seq % 65536 * 2 ^ 20 + index % 4096 * 2 ^ 8 + member % 256)

/-- CRED. -/
def effCred (o : Long) : State → Nat → Thread → Out := fun s k t =>
  if !t.sr.carm.getLsbD 31 then .trap s (trapAt 0x04 (firstWord .cred o) t.pc)
  else memStart s k t o false (some 0) (fun s t =>
    match viewTrap s t t.pc with
    | some x => .trap s x
    | none =>
      let a := (src32 t o .b).toNat
      let v := (src32 t o .a).toNat
      let c := t.sr.carm.toNat
      let dst := (src32 t o .c).toNat % 2 ^ 20
      if a % 16 ≠ 0 then memTrap s 0x24 0 (BitVec.ofNat 64 a) t
      else match scratchOffset s t.core (s.team t.team) t.sr.priv false a 64 with
        | none => memTrap s 0x26 3 (BitVec.ofNat 64 a) t
        | some off =>
          if hitsError s (scratchLoc t.core off) 64 false then
            let r := addOp s k { mkOp t o with info := BitVec.ofNat 64 a }
            .go (loseTreelet (opRefused r.1 k r.2 0x2A (BitVec.ofNat 64 a)) t.core off (threadRay s t))
          else
            let bytes := readScratch s t.core off 64
            sendEnqueue s k t (mkOp t o) dst 2 (fun _ key => { mkPacket 4 0x43 t.core dst 2 (.block bytes k key) with
              addr := blockAddr (bits c 27 24) (bits c 23 0) (v / 65536) (v % 4096) (bits c 39 32) }))

/-! ## Block queues (R333, R457) -/

/-- The first sequence is older than the second, as 16-bit counts. -/
def seqOlder (a b : Nat) : Bool := a % 65536 != b % 65536 && decide ((b + 65536 - a % 65536) % 65536 < 32768)

/-- Takes a sequence into the four that a block queue holds of a domain: none when it is older than all of four; the oldest leaves with
its blocks and assignments when a fifth comes. -/
def admitSeq (d : Domain) (gw seq : Nat) : Option Domain :=
  let mine := (d.latest.filter (fun p => p.1 == gw)).map (·.2)
  if mine.contains seq then some d
  else if mine.length < 4 then some { d with latest := (gw, seq) :: d.latest }
  else
    let oldest := mine.foldl (fun b x => if seqOlder x b then x else b) (mine.headD 0)
    if seqOlder seq oldest then none
    else
      let keep (g q : Nat) : Bool := !(g == gw && q == oldest)
      some { d with
        latest := (gw, seq) :: d.latest.filter (fun p => keep p.1 p.2)
        blocks := d.blocks.filter (fun b => keep b.gateway b.seq)
        assigned := d.assigned.filter (fun x => keep x.1 x.2.1) }

/-- Forwards a contribution to the gateway core that its index is assigned to, in order with those before it. -/
def forwardBlock (s : State) (gw core : Nat) (b : Block) : State :=
  s.inject { mkPacket 4 0x43 (endpoint gw 126) core 2 (.block b.bytes 0 0) with
    ord := true, addr := b.addr, deriv := b.deriv }

/-- A contribution enters the block queue of a link gateway. -/
def takeBlock (s : State) (gw : Nat) (b : Block) : State :=
  let dom := blockDomain b.addr
  match domainOf s dom with
  | none => s
  | some d =>
    if blockView b.addr != viewAt s gw dom then s
    else match admitSeq d gw b.seq with
      | none => s
      | some d' =>
        let s1 := updDomain s dom (fun _ => d')
        match d'.assigned.find? (fun x => x.1 == gw && x.2.1 == b.seq && x.2.2.1 == b.index) with
        | some x => forwardBlock s1 gw x.2.2.2 b
        | none => updDomain s1 dom (fun d => { d with blocks := d.blocks ++ [b] })

/-- A collective block arrives: at a block queue, at most once per derived id (R442); or, forwarded, at a gateway core's message queue.  A
block of another view is discarded (R161).  It is sunk as a hit is: where the queue cannot take it yet it stays (R118, R144). -/
def blockArrives (s : State) (p : Packet) : Option State :=
  match p.body with
  | .block bytes thread op =>
    let gw := epDie p.dst
    let ack (s : State) : State := if thread = 0 then s else s.reply p 0x21 (.acknowledgment thread op)
    if epLocal p.dst = 126 ∧ (gw = 22 ∨ gw = 23) then
      let b : Block :=
        { gateway := gw, seq := blockSeq p.addr, index := blockIndex p.addr, addr := p.addr, bytes := bytes, deriv := p.deriv }
      match p.parent with
      | none => some (ack (takeBlock s gw b))
      | some d =>
        if s.pkg.blockSeen.any (fun x => x.1 == gw && x.2.1 == p.deriv) then some (ack (s.corrected p.dst 0 0x6C gw 1))
        else if 4096 ≤ (s.pkg.blockSeen.filter (fun x => x.1 == gw)).length then none
        else some (ack (takeBlock (s.updPkg (fun k => { k with blockSeen := (gw, p.deriv, d) :: k.blockSeen })) gw b))
    else if thread ≠ 0 then some (refuse s p 0x27 (remoteInfo p.dst 0) thread op)
    else if blockView p.addr != viewAt s gw (blockDomain p.addr) then some s
    else match deliver s p.dst 2 (packetEntry p bytes 3) none with
      | .accepted s1 => some s1
      | .refused => some s
      | .full => none
  | _ => none

/-- COLLECTIVE_BLOCK_ARRIVAL. -/
def execCollectiveBlockArrival (s : State) : Host.Outcome State Fault Refusal :=
  .next (arrive s (fun p => p.typ == 0x43) (fun s _ p => blockArrives s p))

/-- A gateway core serves BLKQ for a domain: it sits beside an enabled port whose far package holds a member (R141, R457). -/
def servesDomain (s : State) (core : Nat) (d : Domain) : Bool :=
  let p := (epDie core - 22) * 8 + epLocal core / 2
  let q := s.pkg.ports.getD p Port.reset
  decide (epLocal core < 16) && q.cfg.getLsbD 31 && d.members.any (fun m => m.1 == bits q.cfg.toNat 7 0)

/-- BLKQ. -/
def effBlkq (o : Long) : State → Nat → Thread → Out := fun s k t =>
  let gw := epDie t.core
  if gw ≠ 22 ∧ gw ≠ 23 then .trap s (trapAt 0x04 (firstWord .blkq o) t.pc)
  else memStart s k t o false none (fun s t =>
    let v := (src32 t o .a).toNat
    let dom := v % 16
    let seq := v / 65536
    let answer (s : State) (v : Nat) : Out :=
      .go (addReady s k { mkOp t o with dst := some (o.d.toNat, 1), size := 4 } (leBytes 4 v))
    match domainOf s dom with
    | none => answer s 0
    | some d =>
      let mine := d.blocks.filter (fun b => b.gateway == gw && b.seq == seq)
      let left := mine.filter (fun b => !d.assigned.any (fun x => x.1 == gw && x.2.1 == seq && x.2.2.1 == b.index))
      if !servesDomain s t.core d || !(s.core t.core).msgs.bound then answer s 0
      else match left with
        | [] => answer s 0
        | b0 :: _ =>
          let i := left.foldl (fun m b => min m b.index) b0.index
          let s1 := updDomain s dom (fun d => { d with
            assigned := d.assigned ++ [(gw, seq, i, t.core)]
            blocks := d.blocks.filter (fun b => !(b.gateway == gw && b.seq == seq && b.index == i)) })
          answer ((mine.filter (fun b => b.index == i)).foldl (fun s b => forwardBlock s gw t.core b) s1) (2 ^ 31 + i))

/-! ## BADDQ (R331, R334) -/

/-- Types a block at rest may have (R331). -/
def blockType (t : Nat) : Bool := oneOf [8, 10, 11, 12, 13] t
/-- Bytes of a block. -/
def blockSize (t : Nat) : Nat := 16 + 4 * widthOf t

/-- The exact elements of a block (R331). -/
def blockValues (t : Nat) (bs : List Byte) : List XVal :=
  (unpackElems (widthOf t) 32 (bs.drop 16)).map (fun c => (mulX (decodeF (fmtOf t) false c) (decodeScale (field bs 0 1))).1)

/-- A value times 2 to a power. -/
def scaleX (k : Int) : XVal → XVal
  | .num n m e more => .num n m (e + k) more
  | v => v

/-- The exact results and flags of a mode. -/
def blockResults (mode st : Nat) (a b : List Byte) : List (XVal × Nat) :=
  let xs := blockValues st a
  match mode with
  | 0 => (xs.zip (blockValues st b)).map (fun p => addX 0 p.1 p.2)
  | 1 => xs.map (fun x => divX x (ofInt (field a 2 2)))
  | _ => xs.map (fun x => (x, 0))

/-- floor(log2 m) of the largest finite magnitude; none when every value is zero or NaN; an infinity lies above every number. -/
def blockLog (xs : List XVal) : Option Int :=
  xs.foldl (fun b x =>
    let l : Option Int := match x with
      | .num _ m e _ => some (magLog m e)
      | .inf _ => some 10000
      | _ => none
    match b, l with
    | some p, some q => some (max p q)
    | none, q => q
    | p, none => p) none

/-- emax of a destination type (R334). -/
def blockEmax (t : Nat) : Int :=
  match t with
  | 11 => 8
  | 12 => 15
  | _ => 2

/-- k of a destination block. -/
def blockShift (dt : Nat) (xs : List XVal) : Int :=
  if dt = 8 ∨ dt = 10 then 0
  else match blockLog xs with
    | none => 0
    | some l => max (-127) (min 127 (l - blockEmax dt))

/-- IV where an element of a source is a signalling NaN (R180). -/
def blockSignals (mode st : Nat) (a b : List Byte) : Nat :=
  let codes (bs : List Byte) : List Nat := unpackElems (widthOf st) 32 (bs.drop 16)
  if ((codes a) ++ (if mode = 0 then codes b else [])).any (isSignalling (fmtOf st)) then flagIV else 0

/-- The destination block, with flags and generator; FTZ does not act here (R188). -/
def combineBlock (mode dt st rm : Nat) (gen : Word) (a b : List Byte) : List Byte × Nat × Word :=
  let rs := blockResults mode st a b
  let k := blockShift dt (rs.map (·.1))
  let r := mapElems (fun g i =>
    let x := rs.getD i (.nan, 0)
    let q := roundTo (fmtOf dt) ⟨rm, true, false⟩ g (scaleX (-k) x.1)
    (q.1, x.2 ||| q.2.1, q.2.2)) gen 32
  let count := match mode with
    | 0 => min (field a 2 2 + field b 2 2) 65535
    | 1 => 1
    | _ => field a 2 2
  ([BitVec.ofInt 8 (k + 127), BitVec.ofNat 8 dt] ++ leBytes 2 count ++ List.replicate 12 0#8 ++ packElems (widthOf dt) r.1, r.2.1 ||| blockSignals mode st a b, r.2.2)

/-- BADDQ. -/
def effBaddq (o : Long) : State → Nat → Thread → Out := fun s k t =>
  match memGate s k t false false with
  | .hold s1 st => .wait s1 st
  | .pass s =>
    let mode := o.m4.toNat % 4
    let dt := o.sub.toNat % 16
    let rm := (o.sub.extractLsb' 4 3).toNat
    let st := (o.sub.extractLsb' 8 4).toNat
    let addr (w : Src) : Nat := (src32 t o w).toNat
    let used : List Src := if mode = 0 then [Src.a, Src.b] else [Src.a]
    let place (w : Src) (write : Bool) (n : Nat) : Option Nat := scratchOffset s t.core (s.team t.team) t.sr.priv write (addr w) n
    let bad (w : Src) : Out := .trap s (trapAt 0x45 (BitVec.ofNat 64 (addr w)) t.pc)
    match (used ++ [Src.c]).find? (fun w => addr w % 16 != 0) with
    | some w => memTrap s 0x24 0 (BitVec.ofNat 64 (addr w)) t
    | none =>
      if !blockType st then bad Src.a
      else if !blockType dt then bad Src.c
      else match used.find? (fun w => (place w false (blockSize st)).isNone), place Src.c true (blockSize dt) with
        | some w, _ => memTrap s 0x26 3 (BitVec.ofNat 64 (addr w)) t
        | none, none => memTrap s 0x26 3 (BitVec.ofNat 64 (addr Src.c)) t
        | none, some out =>
          match used.find? (fun w => hitsError s (scratchLoc t.core ((place w false (blockSize st)).getD 0)) (blockSize st) false) with
          | some w =>
            memTrap (loseTreelet s t.core ((place w false (blockSize st)).getD 0) (threadRay s t)) 0x2A 3 (BitVec.ofNat 64 (addr w)) t
          | none =>
            let bytes (w : Src) : List Byte := readScratch s t.core ((place w false (blockSize st)).getD 0) (blockSize st)
            match used.find? (fun w => field (bytes w) 1 1 != st) with
            | some w => bad w
            | none =>
              if mode = 1 ∧ field (bytes Src.a) 2 2 = 0 then bad Src.a
              else
                let r := combineBlock mode dt st rm t.gen (bytes Src.a) (bytes Src.b)
                .go ((writeLoc s (scratchLoc t.core out) r.1).updThread k (fun t => { t.raiseFlags r.2.1 with gen := r.2.2 }))

/-! ## CWAIT (R336) -/

/-- CWAIT. -/
def effCwait (o : Long) : State → Nat → Thread → Out := fun s k t =>
  if !t.sr.carm.getLsbD 31 then .trap s (trapAt 0x04 (firstWord .cwait o) t.pc)
  else memStart s k t o true none (fun s t =>
    match viewTrap s t t.pc with
    | some x => .trap s x
    | none => startPoll s k t o (src64 t o .a) true)

/-! ## Credits, retire notices (R156, R442) -/

/-- CREDIT_RETURN: credits come back to a core's entry for a destination; those who wait for it try again in their turn. -/
def execCreditReturn (s : State) : Host.Outcome State Fault Refusal :=
  .next (arrive s (fun p => p.typ == 0x01) (fun s _ p =>
    match p.body with
    | .creditReturn n =>
      some (s.updCore p.dst (fun c => { c with allow := c.allow.adjust p.src (fun a => { a with flits := min 1023 (a.flits + n) }) }))
    | _ => none))

/-- CREDIT_RETURN_TIMEOUT: 256 ns after the last flit sunk from a source its remaining credits return. -/
def returnCredits (s : State) (core src : Nat) : State :=
  match (s.core core).sunk.find src with
  | none => s
  | some (n, at_) =>
    if s.time < at_ + 256 then s
    else (s.updCore core (fun c => { c with sunk := c.sunk.drop src })).ctl core src 0x01 (.creditReturn n)

/-- CREDIT_RETURN_TIMEOUT. -/
def execCreditReturnTimeout (core src : Nat) (s : State) : Host.Outcome State Fault Refusal := .next (returnCredits s core src)

/-- A slice notes the free pool units that a core's message carries (R111). -/
def noteUnits (s : State) (p : Packet) : State :=
  match p.body with
  | .retireNotice (some n) => if epLocal p.dst = 125 then s.updSlice (epDie p.dst - 16) (fun x => { x with free := x.free.put p.src n }) else s
  | _ => s

/-- A place's atomic log has room again: the threads of its core that were Parked at an atomic for it are Runnable, in a saved context as
well (R46, R443). -/
def wakeLogged (s : State) (ep : Nat) : State :=
  (s.threads.filter (fun p => p.2.core == ep && p.2.state == .parked true && !(NMap.vals p.2.ops).any (waitsFor p.2) &&
    (match standingAt p.2 with
    | some (.atom, _) | some (.ratom, _) => true
    | _ => false))).foldl (fun s p => s.updThread p.1 (fun t => { t.wake with arrival := s.now t })) s

/-- RETIRE_NOTICE. -/
def execRetireNotice (s : State) : Host.Outcome State Fault Refusal :=
  .next (arrive s (fun p => p.typ == 0x0F) (fun s _ p =>
    let s1 := noteUnits (purge s p.dst p.deriv) p
    some (if (s1.core p.dst).alog.length < (s.core p.dst).alog.length then wakeLogged s1 p.dst else s1)))

/-! ## Meanings -/

/-- CINIT. -/
def execCinit (o : Long) (s : State) : Host.Outcome State Fault Refusal := runLong .cinit o (effCinit o) s
/-- CRED. -/
def execCred (o : Long) (s : State) : Host.Outcome State Fault Refusal := runLong .cred o (effCred o) s
/-- CWAIT. -/
def execCwait (o : Long) (s : State) : Host.Outcome State Fault Refusal := runLong .cwait o (effCwait o) s
/-- BADDQ. -/
def execBaddq (o : Long) (s : State) : Host.Outcome State Fault Refusal := runLong .baddq o (effBaddq o) s
/-- BLKQ. -/
def execBlkq (o : Long) (s : State) : Host.Outcome State Fault Refusal := runLong .blkq o (effBlkq o) s
/-- VIEW. -/
def execView (o : Long) (s : State) : Host.Outcome State Fault Refusal := runLong .view o (effView o) s
/-- VIEW.SET. -/
def execViewSet (o : Long) (s : State) : Host.Outcome State Fault Refusal := runLong .viewSet o (effViewSet o) s

end Sys2Proof.Machine
end

