-- ==== Sys2Proof/Machine/System.lean ====
section
/-! DEFINITION. The system instructions 0xC0 to 0xC8 (R337 to R346), binding a queue (R168, R344), invalidating translations (R342),
the two contexts of a core (R45, R341), and the end of an operation (R212). -/

namespace Sys2Proof.Machine

/-! ## TRAP, RTE, BRK (R338 to R340, R381) -/

/-- TRAP: the software trap with its number. -/
def effTrap (o : Long) : State → Nat → Thread → Out := fun s _ t =>
  .trap s (trapAt 0x01 (BitVec.ofNat 64 (o.sub.toNat % 256)) t.pc)

/-- RTE. -/
def effRte : State → Nat → Thread → Out := fun s k t => .jump (s.updThread k leaveTrap) t.sr.epc

/-- XCTL.HALTTEAM of a core. -/
def haltsTeam (c : Core) : Bool := c.xctl.getLsbD 8

/-- Every thread of a team enters Stopped at the end of its current instruction (R28). -/
def haltTeam (s : State) (team : Nat) : State :=
  (s.teamThreads team).foldl (fun s j => s.updThread j Thread.stop) (s.updTeam team (fun m => { m with halted := true }))

/-- BRK: with a debugger attached the thread stops after it, and with HALTTEAM its whole team stops; otherwise it traps. -/
def effBrk : State → Nat → Thread → Out := fun s k t =>
  if (s.core t.core).attach then
    let s1 := s.updThread k (fun u => (u.advance (s.now t)).stop)
    .done (if haltsTeam (s.core t.core) then haltTeam s1 t.team else s1)
  else .trap s (trapAt 0x02 0#64 t.pc)

/-! ## The two contexts (R45, R341) -/

/-- A core decides to swap its contexts: it issues nothing until the exchange is done. -/
def decideSwap (s : State) (ep : Nat) : State := s.updCore ep (fun c => { c with swapping := true, lastSwap := c.cycles })

/-- The last lane of the issue group in which the instruction runs: what an issue group does once, it does there. -/
def lastLane (op : LongOp) (o : Long) (s : State) (t : Thread) : Bool :=
  !s.cur.any (fun j =>
    match s.thread j with
    | none => false
    | some u => u.core == t.core && decide (t.lane < u.lane) && laneRuns op o s j)

/-- CSWAP: a swap at once, or a second one when the swap in progress ends.  An issue group makes one swap (R21); a gateway core, which has no
shadow region, makes none (R5, log 152). -/
def effCswap (o : Long) : State → Nat → Thread → Out := fun s _ t =>
  if onGateway t.core || !lastLane .cswap o s t then .go s
  else if (s.core t.core).swapping then .go (s.updCore t.core (fun c => { c with swapAgain := c.swapAgain + 1 }))
  else .go (decideSwap s t.core)

/-! ## TLBI (R342) -/

/-- Which entries a TLBI removes: mode, address, address space. -/
def tlbiHits (mode va asid : Nat) (x : Tlb) : Bool :=
  match mode with
  | 0 => x.hits asid va
  | 1 => x.asid == asid && !pteGlobal x.entry
  | _ => true

/-- Walks that are under way at a die, and do not wait for service, begin again: they may have read a table before it changed. -/
def restartWalks (s : State) (die : Nat) : State :=
  ((s.die die).walks.filter (fun p => !p.2.waits)).foldl (fun s p =>
    let key := s.fresh
    queueWalk ({ s with fresh := key + 1 }.updDie die (fun d => { d with walks := d.walks.drop p.1 })) die key p.2) s

/-- Removes translations from every TLB of some dies; the operations with accesses not yet performed that were translated through
one of them. -/
def invalidate (s : State) (dies : List Nat) (hit : Tlb → Bool) : State × List Nat :=
  let here (ep : Nat) : Bool := dies.contains (epDie ep)
  let cores := s.cores.filter (fun p => here p.1)
  let gone := cores.flatMap (fun p => p.2.tlb.filter hit) ++ dies.flatMap (fun d => (s.die d).tlb.filter hit)
  let keep (l : List Tlb) : List Tlb := l.filter (fun x => !hit x)
  let uses (p : Op) : Bool := p.sent && p.pieces.any (fun q =>
    gone.any (fun x => decide (ptePa x.entry ≤ q.pa) && decide (q.pa < ptePa x.entry + x.size)))
  let ops := s.threads.flatMap (fun p => if here p.2.core then (p.2.ops.filter (fun x => uses x.2)).map (·.1) else [])
  let s1 := { s with cores := s.cores.map (fun p => if here p.1 then (p.1, { p.2 with tlb := keep p.2.tlb }) else p) }
  let s2 := dies.foldl (fun s d => s.updDie d (fun x => { x with tlb := keep x.tlb })) s1
  (dies.foldl restartWalks s2, ops)

/-- Some of these operations is not yet performed. -/
def stillUsed (s : State) (ops : List Nat) : Bool :=
  s.threads.any (fun p => p.2.ops.any (fun x => ops.contains x.1 && x.2.sent))

/-- The dies that a mask names. -/
def maskDies (mask : Nat) : List Nat := (List.range 24).filter (fun d => mask.testBit d)

/-- TLBI: a release at system scope, then the removal; it completes when the accesses translated before are performed. -/
def effTlbi (o : Long) : State → Nat → Thread → Out := fun s k t =>
  memStart s k t o false (some 0) (fun s t =>
    let mask := (src32 t o .c).toNat % 2 ^ 24
    let dies := if mask = 0 then [epDie t.core] else maskDies mask
    if releaseWaits s t.core 7 then .wait (releaseAction s t.core 7) .waiting
    else
      let r := invalidate (releaseAction s t.core 7) dies
        (tlbiHits o.m4.toNat (src64 t o .a).toNat ((src32 t o .b).toNat % 65536))
      .go (addOp r.1 k { mkOp t o with token := 10, extra := r.2 }).1)

/-! ## ESCHED (R69, R343) -/

/-- An earlier ESCHED LOAD of the thread is not yet applied. -/
def schedPending (t : Thread) : Bool := (NMap.vals t.ops).any (fun p => p.token == 11)

/-- Entry i of a loaded table. -/
def schedEntry (data : List Byte) (first i : Nat) : Nat × Nat × Nat × Nat :=
  let e := (data.drop (16 * i)).take 16
  (first + i, field e 0 8 / 65536 % 2 ^ 36 * 65536, field e 8 4, field e 12 2)

/-- Loads table entries into the schedule, a higher index counting as loaded later. -/
def loadSchedule (s : State) (first : Nat) (data : List Byte) : State :=
  (List.range (data.length / 16)).foldl (fun s i =>
    let x := schedEntry data first i
    s.updPkg (fun k => { k with schedule := x :: k.schedule.filter (fun y => y.1 != x.1) })) s

/-- ESCHED.LOAD. -/
def effEschedLoad (o : Long) : State → Nat → Thread → Out := fun s k t =>
  let a := (src64 t o .a).toNat
  let b := (src32 t o .b).toNat
  let c := (src32 t o .c).toNat
  if 1024 < b + c then .trap s (trapAt 0x04 (firstWord .eschedLoad o) t.pc)
  else memStart s k t o true none (fun s t =>
    if schedPending t then .wait s .waiting
    else readFor s k t o 11 [b] a 1 ((List.range c).map (fun i => (a + 16 * i, 16))))

/-- An ESCHED that reads no table: applied at once, behind the thread's earlier ones. -/
def schedNow (f : Thread → Package → Package) (o : Long) : State → Nat → Thread → Out := fun s k t =>
  memStart s k t o false none (fun s t =>
    if schedPending t then .wait s .waiting
    else .go (addReady (s.updPkg (f t)) k (mkOp t o) []))

/-- ESCHED.STEP. -/
def effEschedStep (o : Long) : State → Nat → Thread → Out :=
  schedNow (fun t p => { p with step := (src32 t o .b).toNat % 65536 }) o
/-- ESCHED.ADV. -/
def effEschedAdv (o : Long) : State → Nat → Thread → Out :=
  schedNow (fun _ p => { p with step := min (p.step + 1) 65535 }) o
/-- ESCHED.CLR. -/
def effEschedClr (o : Long) : State → Nat → Thread → Out :=
  schedNow (fun _ p => { p with schedule := [], step := 0 }) o

/-! ## Binding a queue (R33, R36, R168, R344, R359) -/

/-- What a QUEUE_SETUP image names. -/
structure Binding where
  asid : Nat
  home : Nat
  queue : Nat
  ringLog : Nat
  regs : Nat
  ring : DWord
  code : DWord
  root : Nat
  scratch : Nat
  save : DWord

/-- Reads a QUEUE_SETUP image. -/
def bindingOf (r : List Byte) : Binding :=
  { asid := field r 12 4, home := field r 16 4, queue := field r 20 1, ringLog := field r 21 1, regs := 16 * field r 22 1
    ring := BitVec.ofNat 64 (field r 24 8), code := BitVec.ofNat 64 (field r 32 8), root := field r 40 8
    scratch := 4096 * field r 48 2, save := BitVec.ofNat 64 (field r 56 8) }

/-- The image keeps the ranges of its fields (R167, R168, R367).  A binding of no record team uses no registers (R359). -/
def bindingOk (r : List Byte) : Bool :=
  let b := bindingOf r
  field r 0 2 == 5 && field r 2 2 == 0 && decide (field r 8 4 < 2 ^ 26) && decide (b.asid < 65536) && decide (b.home < 2 ^ 20) &&
    decide (b.queue < 4) && decide (8 ≤ b.ringLog) && decide (b.ringLog ≤ 20) && (b.code == 0#64 || decide (16 ≤ b.regs)) && decide (b.regs ≤ 512) &&
    field r 23 1 == 0 && field r 50 6 == 0 && (b.queue == 2 || b.code != 0#64) && decide (b.ring.toNat < 2 ^ 52) &&
    decide (b.code.toNat < 2 ^ 56) && decide (b.save.toNat < 2 ^ 56) && b.save.toNat % 4096 == 0 &&
    decide (b.root < 2 ^ 52) && b.root % 8192 == 0 && decide (b.scratch ≤ 0x200000)

/-- QUEUE of R32 as the number of Core.queue: 0 record, 1 hit, 2 message, 3 ray. -/
def queueNumber (q : Nat) : Nat :=
  match q with
  | 0 => 3
  | 3 => 0
  | n => n

/-- The outcome of binding a queue. -/
inductive Bound where
  | ok (s : State)
  /-- a completion status of R367 -/
  | status (n : Nat)

/-- A record team on its core, with its scratch allocation at a place. -/
def recordTeam (s : State) (ep : Nat) (b : Binding) (slot place : Nat) : State :=
  let k := s.fresh
  let m := { mkTeam ep slot b.asid b.root 3 64 b.regs k with
    context := (s.core ep).active
    scratch := place
    scratchSize := b.scratch
    saveBase := b.save }
  fillScratch (startScratch { s with teams := s.teams.put k m, fresh := k + 1 } ep place b.scratch) ep place b.scratch

/-- Every instruction cache of some dies is invalidated (R199). -/
def clearIcaches (s : State) (dies : List Nat) : State :=
  { s with cores := s.cores.map (fun p => if dies.contains (epDie p.1) then (p.1, { p.2 with icache := [] }) else p) }

/-- A mask names dies, and none of them is present (R367, R373). -/
def maskAbsent (s : State) (mask : Nat) : Bool := mask != 0 && !(maskDies mask).any (fun d => (s.die d).present)

/-- An endpoint is not present: it is of another package or an absent die, or a core position without a core. -/
def homeAbsent (s : State) (ep : Nat) : Bool :=
  epPackage ep != Config.package || decide (24 ≤ epDie ep) || !(s.die (epDie ep)).present || (decide (epLocal ep < 80) && !s.isCore ep)

/-- An endpoint can be the home of a queue: a core, or for the message and record queues a gateway core, which has no other (R5). -/
def hasQueue (ep q : Nat) : Bool := decide (epLocal ep < 80) && (decide (2 ≤ q) || !onGateway ep)

/-- Binds a queue: its ring, its code and its record team, whose scratch is taken at once.  The mirror ring is on the gateway that R439 names. -/
def bindQueue (s : State) (r : List Byte) : Bound :=
  let b := bindingOf r
  if !bindingOk r then .status 2
  else if maskAbsent s (field r 8 4 % 2 ^ 24) || homeAbsent s b.home then .status 5
  else if !hasQueue b.home (queueNumber b.queue) then .status 2
  else
    let q := queueNumber b.queue
    let u := (s.core b.home).queue q
    if !u.entries.isEmpty || !u.held.isEmpty then .status 3
    else if regionOf b.ring.toNat != .hbm || !memoryOn s b.ring.toNat then .status 4
    else
      let s0 := match u.team with
        | some k => { s with teams := s.teams.drop k }
        | none => s
      let named := epDie b.home :: maskDies (field r 8 4 % 2 ^ 24)
      let set (s : State) (team : Option Nat) : State := (clearIcaches s named).updQueue b.home q (fun _ =>
        { Queue.reset with
          bound := true, team := team, code := b.code, ring := b.ring, ringLog := b.ringLog, image := r
          mirror := BitVec.ofNat 64 (mirrorGateway (homeDie b.ring.toNat)) })
      if b.code == 0#64 then .ok (set s0 none)
      else match slotFit s0 b.home, scratchFit s0 b.home b.scratch with
        | some slot, some place => .ok (set (recordTeam s0 b.home b slot place) (some s0.fresh))
        | _, _ => .status 3

/-- MAPQ: the image is read as a load reads it. -/
def effMapq (o : Long) : State → Nat → Thread → Out := fun s k t =>
  memStart s k t o true none (fun s t =>
    let a := (src64 t o .a).toNat
    readFor s k t o 12 [(firstWord .mapq o).toNat] a 64 [(a, 64)])

/-- The end of a MAPQ: the queue is bound, or the thread takes 0x04 with LATE = 1 (log 40). -/
def endMapq (closed : State) (k : Nat) (t : Thread) (p : Op) (image : List Byte) : State :=
  match bindQueue closed image with
  | .ok s => s
  | .status _ =>
    if t.state == .exited then closed
    else closed.updThread k (fun u => { u with lateTrap := u.lateTrap ++ [(0x04, BitVec.ofNat 64 (p.extra.headD 0), 0)] })

/-! ## CLK, PERF (R345, R346) -/

/-- A 64-bit value in a register pair. -/
def pairWords (v : Nat) : List Word := bytesToWords 2 (leBytes 8 v)

/-- CLK.SYNC: it waits until every earlier operation of the thread has completed. -/
def effClkSync (o : Long) : State → Nat → Thread → Out := fun s k t =>
  match memGate s k t false true with
  | .hold s1 st => .wait s1 st
  | .pass s1 =>
    if t.ops.isEmpty then .go (s1.updThread k (fun u => u.setRegs o.d.toNat (pairWords s.time))) else .wait s1 .waiting

/-- CLK.CYC. -/
def effClkCyc (o : Long) : State → Nat → Thread → Out := fun s k t =>
  .go (s.updThread k (fun u => u.setRegs o.d.toNat (pairWords (s.now t))))

/-- CLK.WAIT: under a pre-emption request the wait yields, the thread's address staying at it. -/
def effClkWait (o : Long) : State → Nat → Thread → Out := fun s k t =>
  if (src64 t o .a).toNat ≤ s.time then .go s
  else if (s.team t.team).preq then .done (yieldAt s k)
  else .wait s .waiting

/-- CLOCK_WAIT_EXPIRY: device time has reached the value that a thread's CLK.WAIT waits for. -/
def clockExpiry (s : State) (k : Nat) : State :=
  match s.thread k with
  | none => s
  | some t =>
    match standingAt t with
    | some (.clkWait, o) =>
      if t.state == .waiting && !t.yielded && decide ((src64 t o .a).toNat ≤ s.time) && (owed t (usedRegs .clkWait o)).isEmpty then goPast s k
      else s
    | _ => s

/-- CLOCK_WAIT_EXPIRY. -/
def execClockWaitExpiry (s : State) : Host.Outcome State Fault Refusal := .next (clockExpiry s s.obj)

/-- PERF. -/
def effPerf (o : Long) : State → Nat → Thread → Out := fun s k t =>
  .go (s.updThread k (fun u => u.setRegs o.d.toNat (pairWords ((s.core t.core).perf.getD o.m4.toNat 0#64).toNat)))

/-! ## The end of an operation (R212) -/

/-- The end of an operation: of the reads with an end of their own and of TLBI by their rules, of every other by R212. -/
def endOp (s : State) (k key : Nat) : State :=
  match s.thread k with
  | none => s
  | some t =>
    match t.ops.find key with
    | none => s
    | some p =>
      let closed := s.updThread k (fun u => ({ u with ops := u.ops.drop key }).lower p.flag)
      let finish (s : State) (p : Op) : State := forgetThread (endWait s k p) k
      match p.token, p.status with
      | 7, .ready data => finish (endTenq s closed k key t p data) p
      | 8, .ready data => finish (endTcb s closed k key t p data) p
      | 9, .ready data => finish (endTbld s closed k key p data) p
      | 10, .sent => if stillUsed s p.extra then s else finish closed p
      | 11, .ready data => finish (loadSchedule closed (p.extra.headD 0) data) p
      | 12, .ready data => finish (endMapq closed k t p data) p
      | _, _ => completeOp s k key

/-- OPERATION_COMPLETE. -/
def execOperationComplete (thread op : Nat) (s : State) : Host.Outcome State Fault Refusal := .next (endOp s thread op)

/-! ## Meanings -/

/-- TRAP. -/
def execTrap (o : Long) (s : State) : Host.Outcome State Fault Refusal := runLong .trap o (effTrap o) s
/-- RTE. -/
def execRte (o : Long) (s : State) : Host.Outcome State Fault Refusal := runLong .rte o effRte s
/-- BRK. -/
def execBrk (o : Long) (s : State) : Host.Outcome State Fault Refusal := runLong .brk o effBrk s
/-- CSWAP. -/
def execCswap (o : Long) (s : State) : Host.Outcome State Fault Refusal := runLong .cswap o (effCswap o) s
/-- TLBI. -/
def execTlbi (o : Long) (s : State) : Host.Outcome State Fault Refusal := runLong .tlbi o (effTlbi o) s
/-- ESCHED.LOAD. -/
def execEschedLoad (o : Long) (s : State) : Host.Outcome State Fault Refusal := runLong .eschedLoad o (effEschedLoad o) s
/-- ESCHED.STEP. -/
def execEschedStep (o : Long) (s : State) : Host.Outcome State Fault Refusal := runLong .eschedStep o (effEschedStep o) s
/-- ESCHED.ADV. -/
def execEschedAdv (o : Long) (s : State) : Host.Outcome State Fault Refusal := runLong .eschedAdv o (effEschedAdv o) s
/-- ESCHED.CLR. -/
def execEschedClr (o : Long) (s : State) : Host.Outcome State Fault Refusal := runLong .eschedClr o (effEschedClr o) s
/-- CLK.SYNC. -/
def execClkSync (o : Long) (s : State) : Host.Outcome State Fault Refusal := runLong .clkSync o (effClkSync o) s
/-- CLK.CYC. -/
def execClkCyc (o : Long) (s : State) : Host.Outcome State Fault Refusal := runLong .clkCyc o (effClkCyc o) s
/-- CLK.WAIT. -/
def execClkWait (o : Long) (s : State) : Host.Outcome State Fault Refusal := runLong .clkWait o (effClkWait o) s
/-- PERF. -/
def execPerf (o : Long) (s : State) : Host.Outcome State Fault Refusal := runLong .perf o (effPerf o) s
/-- MAPQ. -/
def execMapq (o : Long) (s : State) : Host.Outcome State Fault Refusal := runLong .mapq o (effMapq o) s

end Sys2Proof.Machine
end

