-- ==== Sys2Proof/Machine/Place.lean ====
section
/-! DEFINITION. Placing and retiring teams (R29 to R31, R170), starting record threads, waves and KIND 2 tasks (R35 to R39, R396),
pre-emption (R40 to R43, R390), the swap of contexts (R45), fairness (R22), and resuming and aborting teams (R340, R387). -/

namespace Sys2Proof.Machine

/-! ## Launched teams (R29, R31, R170) -/

/-- A die serves: it is present and in no stage of loss. -/
def serving (s : State) (die : Nat) : Bool := (s.die die).present && (s.die die).loss == .serving

/-- The core endpoints of the serving dies of a mask, in endpoint order. -/
def maskCores (s : State) (mask : Nat) : List Nat :=
  (maskDies mask).flatMap (fun d => if serving s d then ((List.range 80).filter (s.die d).enabled.contains).map (endpoint d) else [])

/-- Room for a team of a grid on a core whose contexts are not being exchanged. -/
def gridRoom (s : State) (g : Grid) (ep : Nat) : Option Place :=
  if (s.core ep).swapping || !s.isCore ep || !serving s (epDie ep) then none
  else roomFor s ep g.groups g.regs g.scratch g.columns g.tiles

/-- The better of two candidates: more free slots, then the lower endpoint id. -/
def betterPlace {α : Type} (b : Option (Nat × Nat × α)) (c : Nat × Nat × α) : Option (Nat × Nat × α) :=
  match b with
  | none => some c
  | some x => if x.1 < c.1 ∨ (x.1 = c.1 ∧ c.2.1 < x.2.1) then some c else some x

/-- The core for the next team of a grid. -/
def chooseCore (s : State) (g : Grid) : Option (Nat × Nat × Place) :=
  (maskCores s g.dies).foldl (fun b ep =>
    match gridRoom s g ep with
    | none => b
    | some p => betterPlace b (freeSlotSum s ep, ep, p)) none

/-- The team or cluster of a grid that is placed next: one that is to run again, else the next that has not run (R29, R445). -/
def nextUnit (g : Grid) : Nat := (g.again.head?).getD g.nextTeam
/-- It has been placed. -/
def unitTaken (g : Grid) : Grid := if g.again.isEmpty then { g with nextTeam := g.nextTeam + 1 } else { g with again := g.again.tail }

/-- TEAM_ADMIT: the next waiting team of a grid without clusters starts where R29 places it. -/
def admitTeam (s : State) (grid : Nat) : State :=
  match s.grids.find grid with
  | none => s
  | some g =>
    let i := nextUnit g
    if g.cw ≠ 0 ∨ g.dimx * g.dimy * g.dimz ≤ i then s
    else match chooseCore s g with
      | none => s
      | some (_, ep, p) =>
        let s1 := { s with grids := s.grids.put grid (unitTaken g) }
        startTeam s1 grid g ep p i (i % g.dimx) (i / g.dimx % g.dimy) (i / (g.dimx * g.dimy)) none

/-- TEAM_ADMIT. -/
def execTeamAdmit (s : State) : Host.Outcome State Fault Refusal := .next (admitTeam s s.obj)

/-- Columns and rows of the rectangle that a cluster shape occupies. -/
def clusterRect (w h : Nat) : Nat × Nat := if h = 1 ∧ 10 < w then (6, 2) else if w = 1 ∧ 8 < h then (2, 6) else (w, h)

/-- Column and row of member i within the rectangle. -/
def memberPos (w h i : Nat) : Nat × Nat :=
  if h = 1 ∧ 10 < w then (i % 6, i / 6) else if w = 1 ∧ 8 < h then (i / 6, i % 6) else (i % w, i / w)

/-- The places of all members of a cluster whose rectangle begins at a position of a die. -/
def rectPlaces (s : State) (g : Grid) (die x y : Nat) : Option (List (Nat × Place)) :=
  (List.range (g.cw * g.ch)).foldr (fun i b =>
    let q := memberPos g.cw g.ch i
    let ep := endpoint die (10 * (y + q.2) + x + q.1)
    match b, gridRoom s g ep with
    | some l, some p => some ((ep, p) :: l)
    | _, _ => none) (some [])

/-- The rectangle for the next cluster of a grid. -/
def chooseRect (s : State) (g : Grid) : Option (Nat × Nat × List (Nat × Place)) :=
  let r := clusterRect g.cw g.ch
  let dies := (maskDies g.dies).filter (fun d => decide (d < 16) && serving s d)
  dies.foldl (fun b d => (List.range (11 - r.1)).foldl (fun b x => (List.range (9 - r.2)).foldl (fun b y =>
    match rectPlaces s g d x y with
    | some ((ep, p) :: l) => betterPlace b ((((ep, p) :: l).map (fun q => freeSlotSum s q.1)).sum, ep, (ep, p) :: l)
    | _ => b) b) b) none

/-- CLUSTER_START: every team of the next cluster of a grid starts in one step; of one that runs again, those that had not retired (R445). -/
def startCluster (s : State) (grid : Nat) : State :=
  match s.grids.find grid with
  | none => s
  | some g =>
    let c := nextUnit g
    if g.cw = 0 ∨ g.dimx * g.dimy * g.dimz ≤ c then s
    else match chooseRect s g with
      | none => s
      | some (_, _, l) =>
        let first := c * (g.cw * g.ch)
        let mine (i : Nat) : Bool := decide (first ≤ i) && decide (i < first + g.cw * g.ch)
        let s1 := { s with grids := s.grids.put grid { unitTaken g with skip := g.skip.filter (fun i => !mine i) } }
        l.zipIdx.foldl (fun s q =>
          let m := q.2
          if g.skip.contains (first + m) then s
          else startTeam s grid g q.1.1 q.1.2 (c * (g.cw * g.ch) + m) (c % g.dimx * g.cw + m % g.cw)
            (c / g.dimx % g.dimy * g.ch + m / g.cw) (c / (g.dimx * g.dimy)) (some (c, m))) s1

/-- CLUSTER_START. -/
def execClusterStart (s : State) : Host.Outcome State Fault Refusal := .next (startCluster s s.obj)

/-- TEAM_RETIRE: a launched team that is done, and whose cluster's teams are all done, retires. -/
def retireDone (s : State) (k : Nat) : State :=
  match s.teams.find k with
  | none => s
  | some m =>
    let mates : List Nat := match m.cluster with
      | none => [k]
      | some (c, _) => (s.teams.filter (fun p => p.2.grid == m.grid && p.2.cluster.map (·.1) == some c)).map (·.1)
    if m.grid.isNone || m.engine || !mates.all (teamDone s) then s else retireTeam s k

/-- TEAM_RETIRE. -/
def execTeamRetire (s : State) : Host.Outcome State Fault Refusal := .next (retireDone s s.obj)

/-! ## Record threads (R36, R37, R39) -/

/-- Live threads of a team. -/
def liveThreads (s : State) (team : Nat) : List (Nat × Thread) :=
  s.threads.filter (fun p => p.2.team == team && p.2.state != .exited)

/-- A record team may run threads: it is not saved or being saved, unless it has no live thread (log 45). -/
def recordTeamOk (s : State) (team : Nat) : Bool := (s.team team).pre == .running || (liveThreads s team).isEmpty

/-- The lane for a record thread in a context: of those with a free slot and the registers free, the one with the most free slots, the
lowest on ties. -/
def recordLane (s : State) (ep ctx regs : Nat) : Option Nat :=
  (List.range 32).foldl (fun b l =>
    if freeSlots s ep ctx l = 0 ∨ freeRegs s ep ctx l < regs then b
    else match b with
      | none => some l
      | some x => if freeSlots s ep ctx x < freeSlots s ep ctx l then some l else b) none

/-- The entry of a queue that could start as a thread next, by its kind: a thread record; a ray or a message of a record team, which
stands on chip while its thread runs (log 129). -/
def threadEntry (s : State) (ep q : Nat) : Option (Nat × Nat × Entry) :=
  let u := (s.core ep).queue q
  match u.team, nextEntry u with
  | some m, some (k, e) =>
    if u.bound && recordTeamOk s m && (if q = 3 then recKind e.bytes == 0 else (takePlace s ep q e).isSome) then some (m, k, e) else none
  | _, _ => none

/-- Hits in the order in which they would be dequeued, at most n. -/
def hitOrder : Nat → Queue → List (Nat × Entry)
  | 0, _ => []
  | n + 1, u =>
    match nextEntry u with
    | none => []
    | some (k, e) => (k, e) :: hitOrder n { (fixBin u k e) with entries := (fixBin u k e).entries.drop k }

/-- Hits that wait in the hit queue. -/
def waitingHits (u : Queue) : List (Nat × Entry) := u.entries.filter (fun p => !p.2.live)

/-- The oldest queued hit has waited XCTL.WAVEWAIT × 64 cycles. -/
def waveExpired (c : Core) : Bool :=
  (waitingHits c.hits).any (fun p => decide ((c.xctl.extractLsb' 24 8).toNat * 64 ≤ c.cycles - p.2.arrived))

/-- The hit that the next wave would give to lane 0, once the conditions of R37 on the hits hold. -/
def waveHead (s : State) (ep : Nat) : Option (Nat × Nat × Entry) :=
  let c := s.core ep
  match c.hits.team, nextEntry c.hits with
  | some m, some (k, e) =>
    if c.hits.bound && recordTeamOk s m && (decide (32 ≤ (waitingHits c.hits).length) || waveExpired c) then some (m, k, e) else none
  | _, _ => none

/-- Room for what a queue would start in a context: a whole group for a wave, a slot in some lane otherwise. -/
def recordRoom (s : State) (ep ctx q team : Nat) : Bool :=
  if q = 1 then lanesHave s ep ctx 1 (s.team team).regs else (recordLane s ep ctx (s.team team).regs).isSome

/-- What each queue of a core could start in a context: queue, record team, entry. -/
def candidates (s : State) (ep : Nat) : List (Nat × Nat × Nat × Entry) :=
  [0, 1, 2, 3].flatMap (fun q =>
    match if q = 1 then waveHead s ep else threadEntry s ep q with
    | some (m, k, e) => [(q, m, k, e)]
    | none => [])

/-- The entry that starts next on a core: of those with room, of the highest priority, then the one accepted earliest; of those accepted in
the same cycle the ray, hit, message and record queues' in this order (DESIGN CHOICE, log 130). -/
def nextStart (s : State) (ep : Nat) : Option (Nat × Nat × Nat × Entry) :=
  let c := s.core ep
  if c.swapping || !s.isCore ep || !serving s (epDie ep) then none
  else ((candidates s ep).filter (fun x => recordRoom s ep c.active x.1 x.2.1)).foldl (fun b x =>
    match b with
    | none => some x
    | some y =>
      if keyBefore [x.2.2.2.prio, x.2.2.2.arrived, x.1] [y.2.2.2.prio, y.2.2.2.arrived, y.1] then some x else some y) none

/-- RECORD of an entry: its address on chip, or in the backing ring when it was refilled from there (R39). -/
def recordOf (u : Queue) (q : Nat) (e : Entry) : DWord :=
  if e.ring then BitVec.ofNat 64 (ringAddress u e.ringSlot) else queuePlace u q e

/-- The group index of a record thread or wave, which the manual does not give: a free value (log 46). -/
def freeGid (s : State) : Nat × State := ((Config.freeValue 5 s.free).toNat % 64, { s with free := s.free + 1 })

/-- The record team is in use in the active context; one that was saved without threads runs again. -/
def wakeRecordTeam (s : State) (ep team : Nat) : State :=
  s.updTeam team (fun m => { m with
    context := (s.core ep).active, pre := .running, preq := false, pdead := 0, halted := false, resume := none })

/-- Scratch address of a resident treelet's image, in the absolute aperture (R103). -/
def imageAddress (s : State) (ep id : Nat) : Word :=
  let c := s.core ep
  match c.pool.find id with
  | some x => BitVec.ofNat 32 (0x40000000 + poolBase c + x.unit * 4096)
  | none => 0#32

/-- The core holds the treelet that a queued ray needs. -/
def rayHoldable (s : State) (ep : Nat) (e : Entry) : Bool :=
  match (s.core ep).pool.find (rayTreelet e.bytes) with
  | some x => x.resident
  | none => false

/-- A thread for an entry of a queue, in a lane of a group. -/
def entryThread (s : State) (ep lane group team gid q k : Nat) (e : Entry) (prio : Nat) (record : DWord) : Thread :=
  let m := s.team team
  let u := (s.core ep).queue q
  let isRec : Bool := q == 3
  let code := if isRec then recCode e.bytes else u.code
  let frame := if isRec then recFrame e.bytes else queuePlace u q e
  let sr := startSpecials (m.asid == 0) record (if isRec then recDeriv e.bytes else e.deriv)
    (if isRec then recAttempt e.bytes else e.attempt)
  let t := { mkThread ep lane group team m.regs gid code frame sr (s.core ep).cycles with
    prio := some prio
    entry := some (q, k) }
  if q = 0 then { (t.setRegs 2 [imageAddress s ep (rayTreelet e.bytes)]) with treelet := some (rayTreelet e.bytes) } else t

/-- A record thread starts: its entry is taken and its group of one lane begins.  A queued ray whose treelet has left the core meanwhile
goes back to its slice; a block of a view that its domain has left is discarded (R161).  The dequeue is an acquire (R85). -/
def startRecord (s : State) (ep q team k : Nat) (e : Entry) : State :=
  if q = 2 ∧ staleBlock s ep e then takeGone s ep 2 k e
  else if q = 0 ∧ !rayHoldable s ep e then returnRay (takeGone s ep 0 k e) ep e.origin e.bytes e.prio e.attempt e.deriv none
  else match recordLane s ep (s.core ep).active (s.team team).regs with
  | some lane =>
    let (s1, e1) := takeLive (acquireAction s ep (entryScope ep e)) ep q k e
    let g := freeGid s1
    let s2 := wakeRecordTeam g.2 ep team
    let key := s2.fresh
    let gr : Group := { mkGroup team g.1 (s.core ep).active 0 with
      masks := { enrolled := laneBit lane, arrived := 0#32 } :: List.replicate 11 default, slots := false, lane := lane }
    let t := entryThread s2 ep lane key team g.1 q k e1 e1.prio (recordOf ((s1.core ep).queue q) q e1)
    { s2 with groups := s2.groups.put key gr, threads := s2.threads.put (key + 1) t, fresh := key + 2 }
  | none => s

/-- RECORD_THREAD_START: the entry whose turn it is starts as a thread, unless that is a wave's. -/
def startNext (s : State) (ep : Nat) : State :=
  match nextStart s ep with
  | some (q, m, k, e) => if q = 1 then s else startRecord s ep q m k e
  | none => s

/-- RECORD_THREAD_START. -/
def execRecordThreadStart (s : State) : Host.Outcome State Fault Refusal := .next (startNext s s.obj)

/-- A wave forms: up to 32 hits in dequeue order, the i-th in lane i.  Each dequeue is an acquire (R85). -/
def formWave (s : State) (ep team : Nat) : State :=
  let order := hitOrder 32 (s.core ep).hits
  match order with
  | [] => s
  | (_, e0) :: _ =>
    let taken := order.foldl (fun (a : State × List (Nat × Entry)) p =>
      let r := takeLive (acquireAction a.1 ep (entryScope ep p.2)) ep 1 p.1 p.2
      (r.1, a.2 ++ [(p.1, r.2)])) (s, [])
    let g := freeGid taken.1
    let s2 := wakeRecordTeam g.2 ep team
    let key := s2.fresh
    let u := (s2.core ep).hits
    let s3 := { s2 with groups := s2.groups.put key (mkGroup team g.1 (s.core ep).active order.length), fresh := key + 1 }
    taken.2.zipIdx.foldl (fun s p =>
      let t := entryThread s ep p.2 key team g.1 1 p.1.1 p.1.2 e0.prio (recordOf u 1 p.1.2)
      { s with threads := s.threads.put s.fresh t, fresh := s.fresh + 1 }) s3

/-- The next start of a core is a wave of its hit queue, on a condition on the queue. -/
def waveIf (s : State) (ep : Nat) (cond : Core → Bool) : State :=
  match nextStart s ep with
  | some (1, m, _, _) => if cond (s.core ep) then formWave s ep m else s
  | _ => s

/-- WAVE_FORM: 32 hits are queued and a group is free. -/
def execWaveForm (s : State) : Host.Outcome State Fault Refusal :=
  .next (waveIf s s.obj (fun c => decide (32 ≤ (waitingHits c.hits).length)))
/-- WAVE_WAIT_EXPIRY: the oldest hit has waited long enough, and a wave of the hits there are forms. -/
def execWaveWaitExpiry (s : State) : Host.Outcome State Fault Refusal := .next (waveIf s s.obj waveExpired)

/-! ## KIND 2 records (R38, R396) -/

/-- Discards a KIND 2 record at its dequeue, with an event that names its derivation id. -/
def discardRecord (s : State) (ep k : Nat) (e : Entry) (cls code : Nat) : State :=
  (sendNotices (takeGone s ep 3 k e) ep e.deriv []).event ep cls code 2 false e.deriv.toNat 0

/-- TILE_TASK_RECORD_DISPATCH: the KIND 2 record at the head of a record queue is handed to the task scheduler, or discarded.
The dequeue is an acquire (R85). -/
def dispatchTask (s : State) (ep : Nat) : State :=
  let u := (s.core ep).recs
  if !s.isCore ep || (s.core ep).swapping then s
  else match u.team, nextEntry u with
  | some m, some (k, e) =>
    if recKind e.bytes ≠ 2 then s
    else match lendingTeam s m with
      | none => discardRecord s ep k e 0 0x11
      | some lender =>
        if queueFull s ep then s
        else
          let w := s.team m
          let a := (recCode e.bytes).toNat
          if a % 64 ≠ 0 then discardRecord s ep k e 0 0x24
          else match agentRead (acquireAction s ep (entryScope ep e)) ep w.asid w.root (w.asid == 0) [(a, 64)] with
            | .wait s1 => s1
            | .refused s1 code _ => discardRecord s1 ep k e (agentClass s1 ep w.asid (w.asid == 0) a code) code
            | .ok s0 bs =>
              let s1 := dropReads s0 ep
              let l := s1.team lender
              match recordFault l bs 0#64 with
              | some (code, _) => discardRecord s1 ep k e 0 code
              | none => acceptTask (takeLive s1 ep 3 k e).1 lender m bs e.prio (w.asid == 0) (recCode e.bytes) 0 (some k)
  | _, _ => s

/-- TILE_TASK_RECORD_DISPATCH. -/
def execTileTaskRecordDispatch (s : State) : Host.Outcome State Fault Refusal := .next (dispatchTask s s.obj)

/-! ## Pre-emption (R40 to R43, R390) -/

/-- D: PDLINE.DEADLINE, or 2^24. -/
def deadline (c : Core) : Nat :=
  let d := (c.pdline.extractLsb' 0 24).toNat
  if d = 0 then 2 ^ 24 else d

/-- Raises a pre-emption request on a team that is Running.  A thread that stands in Mask-wait, Parked or Descheduled yields at once
(log 47). -/
def raiseRequest (s : State) (team cause : Nat) : State :=
  match s.teams.find team with
  | none => s
  | some m =>
    if m.pre != .running || m.engine then s
    else
      let s1 := s.updTeam team (fun m => { m with pre := .requested, preq := true, cause := cause, pdead := deadline (s.core m.core) })
      let held (t : Thread) : Bool := match t.state with
        | .maskWait _ _ | .barWait | .parked _ | .descheduled => true
        | _ => false
      let s2 := { s1 with threads := s1.threads.map (fun p =>
        if p.2.team == team && held p.2 then (p.1, { p.2 with yielded := true }) else p) }
      checkYielded s2 team

/-- Restarts a thread's region, as a forced save leaves it (R390, R377). -/
def toRegion (t : Thread) : Thread :=
  { t with pc := t.sr.region, clause := none, sr := { t.sr with sendix := t.sendixAt }, atomIx := t.atomIxAt }

/-- PREEMPT_FORCED: the deadline has passed; each live thread stops, to restart its region where a remote request of the core is
outstanding, unless it is in a trap handler or has no region. -/
def forceTeam (s : State) (team : Nat) : State :=
  match s.teams.find team with
  | none => s
  | some m =>
    if m.pre != .requested || m.pdead != 0 then s
    else
      let busy : Bool := (s.core m.core).rpend != 0
      let stop (t : Thread) : Thread :=
        if t.yielded || t.state == .exited then t
        else
          let u := { t with yielded := true }
          if busy && t.sr.region != 0#64 && !t.sr.intrap then toRegion u else u
      let s1 : State := { s with threads := s.threads.map (fun p => if p.2.team == team then (p.1, stop p.2) else p) }
      (perfCount (s1.updTeam team (fun m => { m with pre := .forced })) m.core 12 1).count (lifeKey 8 (epDie m.core) 0) 1

/-- PREEMPT_FORCED. -/
def execPreemptForced (s : State) : Host.Outcome State Fault Refusal := .next (forceTeam s s.obj)

/-- A thread without a region, saved while a remote request of its own is outstanding: the save waits for it. -/
def saveHeld (t : Thread) : Bool := t.sr.region == 0#64 && (NMap.vals t.ops).any (fun p => p.remote && p.sent)

/-- Bytes of a save area (R41). -/
def saveSize (m : Team) : Nat := (4096 + m.groups * (128 + 32 * (512 + 4 * m.regs)) + 4095) / 4096 * 4096

/-- The other context of a core holds no group.  A gateway core has no shadow region (R5), and so no place for another context (DEDUCED, log 152). -/
def shadowFree (s : State) (ep : Nat) : Bool := !onGateway ep && (ctxGroups s ep (1 - (s.core ep).active)).isEmpty

/-- A save is complete: the team is Saved, its groups stand in no context. -/
def saved (s : State) (team ctx : Nat) : State :=
  let s1 := s.updTeam team (fun m => { m with pre := .saved, context := ctx })
  { s1 with groups := s1.groups.map (fun p => if p.2.team == team then (p.1, { p.2 with context := 2 }) else p) }

/-- Writes a save area: its bytes are the part's own (free bytes).  Every page is translated before the first byte is written. -/
def writeSave (s : State) (m : Team) : Found :=
  let base := m.saveBase.toNat
  let priv := m.asid == 0
  match agentPlaces s m.core m.asid m.root priv ((List.range (saveSize m / 4096)).map (fun i => (base + 4096 * i, 1))) with
  | .ok s1 _ => (List.range (saveSize m / 128)).foldl (fun r i =>
      match r with
      | .ok s2 _ =>
        let b := freeBytes s2 6 128
        agentWrite b.2 m.core m.asid m.root priv (base + 128 * i) b.1
      | x => x) (.ok s1 [])
  | x => x

/-- PREEMPT_SAVE_COMPLETE: a Yielded or Forced team is saved to the free context of the shadow region, else to its save area; with
neither it waits.  A save area that cannot be written counts as none (log 48). -/
def completeSave (s : State) (team : Nat) : State :=
  match s.teams.find team with
  | none => s
  | some m =>
    let ready : Bool := m.pre == .yielded || m.pre == .saving ||
      (m.pre == .forced && !(liveThreads s team).any (fun p => saveHeld p.2))
    if !ready then s
    else if shadowFree s m.core then saved s team (1 - (s.core m.core).active)
    else
      let s0 := s.updTeam team (fun m => { m with pre := .saving })
      if m.saveBase = 0#64 then s0
      else match writeSave s0 m with
        | .ok s1 _ => saved s1 team 2
        | .wait s1 => s1
        | .refused s1 _ _ => s1.updTeam team (fun m => { m with saveBase := 0#64 })

/-- PREEMPT_SAVE_COMPLETE. -/
def execPreemptSaveComplete (s : State) : Host.Outcome State Fault Refusal := .next (completeSave s s.obj)

/-- Every lane of the active context has the slots and registers that a saved team's groups take. -/
def restoreRoom (s : State) (team : Nat) (m : Team) : Bool :=
  let gs := s.groups.filter (fun p => p.2.team == team)
  (List.range 32).all (fun l =>
    let n := (gs.filter (fun p => p.2.takes l)).length
    decide (n ≤ freeSlots s m.core (s.core m.core).active l) && decide (n * m.regs ≤ freeRegs s m.core (s.core m.core).active l))

/-- A priority-0 entry waits at the head of a queue of a core. -/
def urgent (s : State) (ep : Nat) : Bool :=
  [0, 1, 2, 3].any (fun q => match nextEntry ((s.core ep).queue q) with
    | some (_, e) => e.prio == 0
    | none => false)

/-- TEAM_RESTORE: a Saved team that is to resume, in turn after earlier resumptions, returns to Running once there is room.  A team saved
for a priority-0 record is to resume once none waits. -/
def restoreTeam (s : State) (team : Nat) : State :=
  match s.teams.find team with
  | none => s
  | some m =>
    if m.pre != .saved || (s.core m.core).swapping then s
    else match m.resume with
      | none =>
        if m.cause = 1 ∧ !urgent s m.core then { s.updTeam team (fun m => { m with resume := some s.fresh }) with fresh := s.fresh + 1 }
        else s
      | some n =>
        let before := s.teams.any (fun p => p.2.core == m.core && p.2.pre == .saved && (match p.2.resume with
          | some j => decide (j < n)
          | none => false))
        if before || !restoreRoom s team m then s
        else
          let a := (s.core m.core).active
          let s1 := s.updTeam team (fun m => { m with pre := .running, preq := false, pdead := 0, resume := none, context := a })
          checkShadow { s1 with
            groups := s1.groups.map (fun p => if p.2.team == team then (p.1, { p.2 with context := a }) else p)
            threads := s1.threads.map (fun p =>
              if p.2.team == team then (p.1, { p.2 with yielded := false, arrival := s.now p.2 }) else p) } (fun t => t.team == team)

/-- TEAM_RESTORE. -/
def execTeamRestore (s : State) : Host.Outcome State Fault Refusal := .next (restoreTeam s s.obj)

/-- Priority of a team in the choice of R43: a record team has that of its live threads, or 3. -/
def rankOf (s : State) (k : Nat) (m : Team) : Nat :=
  if m.grid.isSome then m.prio else ((liveThreads s k).filterMap (fun p => p.2.prio)).foldl min 3

/-- PRIORITY0_PREEMPTION: a priority-0 entry at the head of its queue finds no room; the core raises a request on its Running team of
lowest priority, the youngest on ties, unless one raised so is still being carried out. -/
def preemptFor (s : State) (ep : Nat) : State :=
  let c := s.core ep
  let stuck := (candidates s ep).any (fun x => x.2.2.2.prio == 0 && !recordRoom s ep c.active x.1 x.2.1)
  let teams := coreTeams s ep
  let under := teams.any (fun p => p.2.cause == 1 && (match p.2.pre with
    | .requested | .yielded | .forced | .saving => true
    | _ => false))
  if !stuck || under || c.swapping || !serving s (epDie ep) then s
  else
    let best := (teams.filter (fun p => p.2.pre == .running)).foldl (fun b p =>
      match b with
      | none => some p
      | some q => if keyBefore [rankOf s q.1 q.2, q.2.age] [rankOf s p.1 p.2, p.2.age] then some p else b) none
    match best with
    | none => s
    | some p => raiseRequest s p.1 1

/-- PRIORITY0_PREEMPTION. -/
def execPriority0Preemption (s : State) : Host.Outcome State Fault Refusal := .next (preemptFor s s.obj)

/-- PREEMPTION_REQUEST_MESSAGE: it names no team, so it raises a request on every Running team of the core (log 49). -/
def execPreemptionRequestMessage (s : State) : Host.Outcome State Fault Refusal :=
  .next (arrive s (fun p => match p.body with
    | .systemControl 0 _ => true
    | _ => false) (fun s _ p => some ((coreTeams s p.dst).foldl (fun s m => raiseRequest s m.1 0) s)))

/-! ## Swaps (R45, R341, R453) -/

/-- A group is parked: some thread is Parked and none is Runnable or Waiting. -/
def groupParked (s : State) (g : Nat) : Bool :=
  let ts := (NMap.vals s.threads).filter (fun t => t.group == g)
  ts.any (fun t => match t.state with
    | .parked _ => true
    | _ => false) &&
  !ts.any (fun t => t.state == .runnable || t.state == .waiting)

/-- The groups of a context that take a slot in every lane; a record thread takes one lane's slot and is no group (log 131). -/
def fullGroups (s : State) (ep ctx : Nat) : List (Nat × Group) := (ctxGroups s ep ctx).filter (fun p => p.2.slots)

/-- The parked share of a core is above the threshold.  Where no group is resident the share is that of the record threads: above the
threshold when none of them could run (DESIGN CHOICE, log 131). -/
def shareAbove (s : State) (ep thr : Nat) : Bool :=
  let a := (s.core ep).active
  let gs := fullGroups s ep a
  if gs.isEmpty then (ctxGroups s ep a).all (fun p => groupParked s p.1)
  else decide (thr * gs.length < 256 * (gs.filter (fun p => groupParked s p.1)).length)

/-- CONTEXT_SWAP_DECISION: the parked share is above the threshold, and the other context has work; a gateway core, which has no shadow
region, never swaps (R5, log 152). -/
def swapDecision (s : State) (ep : Nat) : State :=
  let c := s.core ep
  let thr := (c.xctl.extractLsb' 16 8).toNat
  let w := ((c.xctl.extractLsb' 0 8).toNat + 1) * 64
  let there := ctxGroups s ep (1 - c.active)
  let work : Bool := there.any (fun p => !groupParked s p.1) ||
    (there.isEmpty && (candidates s ep).any (fun x => recordRoom s ep (1 - c.active) x.1 x.2.1))
  let off : Bool := c.swaps != 0 && decide (c.cycles < c.lastSwap + 64 * w)
  if onGateway ep || c.swapping || thr = 0 || !shareAbove s ep thr || !work || off then s else decideSwap s ep

/-- CONTEXT_SWAP_DECISION. -/
def execContextSwapDecision (s : State) : Host.Outcome State Fault Refusal := .next (swapDecision s s.obj)

/-- CONTEXT_SWAP_COMPLETE: the other context is active; a CSWAP issued meanwhile starts the next swap. -/
def completeSwap (s : State) (ep : Nat) : State :=
  let c := s.core ep
  if !c.swapping then s
  else
    let s0 := perfCount (s.updCore ep (fun c => { c with active := 1 - c.active, swaps := c.swaps + 1, swapping := false })) ep 11 1
    let s1 := checkShadow s0 (fun t => t.core == ep && (s0.group t.group).context == (s0.core ep).active)
    if c.swapAgain = 0 then s1 else decideSwap (s1.updCore ep (fun c => { c with swapAgain := c.swapAgain - 1 })) ep

/-- CONTEXT_SWAP_COMPLETE. -/
def execContextSwapComplete (s : State) : Host.Outcome State Fault Refusal := .next (completeSwap s s.obj)

/-! ## Fairness (R22) -/

/-- FAIRNESS_WINDOW_EXPIRY: the counter restarts, and the group's Runnable threads at the address with the oldest last issue are
overdue; of two addresses with one oldest last issue, those at the lower (DESIGN CHOICE, log 132). -/
def fairnessExpiry (s : State) (g : Nat) : State :=
  match s.groups.find g with
  | none => s
  | some gr =>
    let ep := (s.team gr.team).core
    let c := s.core ep
    let w := ((c.xctl.extractLsb' 0 8).toNat + 1) * 64
    let run := s.threads.filter (fun p => p.2.group == g && p.2.state == .runnable)
    if gr.fair < w then s
    else
      let s1 := s.updGroup g (fun x => { x with fair := 0 })
      let oldest := run.foldl (fun b p =>
        match b with
        | none => some p.2
        | some t => if keyBefore [p.2.lastIssue, p.2.pc.toNat] [t.lastIssue, t.pc.toNat] then some p.2 else b) (none : Option Thread)
      match oldest with
      | none => s1
      | some t =>
        let mark (u : Thread) : Thread := if u.overdue.isSome then u else { u with overdue := some c.cycles }
        perfCount { s1 with threads := s1.threads.map (fun p =>
          if p.2.group == g && p.2.state == .runnable && p.2.pc == t.pc then (p.1, mark p.2) else p) } ep 14 1

/-- FAIRNESS_WINDOW_EXPIRY. -/
def execFairnessWindowExpiry (s : State) : Host.Outcome State Fault Refusal := .next (fairnessExpiry s s.obj)

/-! ## Writes to the core registers that act on teams (R41, R49, R340, R387) -/

/-- The team in a core-local slot. -/
def teamInSlot (s : State) (ep slot : Nat) : Option Nat := ((coreTeams s ep).find? (fun p => p.2.slot == slot)).map (·.1)

/-- PRAISE: on one team, or on every Running team. -/
def praise (s : State) (ep : Nat) (all : Bool) (slot : Nat) : State :=
  if all then (coreTeams s ep).foldl (fun s m => raiseRequest s m.1 0) s
  else match teamInSlot s ep slot with
    | some k => raiseRequest s k 0
    | none => s

/-- PRAISE_TEAM. -/
def execPraiseTeam (core slot : Nat) (s : State) : Host.Outcome State Fault Refusal := .next (praise s core false slot)
/-- PRAISE_ALL. -/
def execPraiseAll (s : State) : Host.Outcome State Fault Refusal := .next (praise s s.obj true 0)

/-- A write to PRESUME: with GO the Saved team in the slot is to resume. -/
def resumeTeam (s : State) (ep : Nat) (v : Word) : State :=
  if !v.getLsbD 31 then s
  else match teamInSlot s ep (v.toNat % 64) with
    | none => s
    | some k =>
      if (s.team k).pre == .saved && (s.team k).resume.isNone then
        { s.updTeam k (fun m => { m with resume := some s.fresh }) with fresh := s.fresh + 1 }
      else s

/-- PRESUME. -/
def execPresume (core : Nat) (value : Word) (s : State) : Host.Outcome State Fault Refusal := .next (resumeTeam s core value)

/-- DBGCTL.RESUME: every Stopped thread of a team becomes Runnable. -/
def resumeStopped (s : State) (ep slot : Nat) : State :=
  match teamInSlot s ep slot with
  | none => s
  | some k =>
    let s1 := s.updTeam k (fun m => { m with halted := false })
    { s1 with threads := s1.threads.map (fun p =>
        if p.2.team != k then p
        else if p.2.state == .stopped then (p.1, { p.2 with state := .runnable, arrival := s.now p.2 })
        else (p.1, { p.2 with stopping := false })) }

/-- DBGCTL_RESUME. -/
def execDbgctlResume (core slot : Nat) (s : State) : Host.Outcome State Fault Refusal := .next (resumeStopped s core slot)

/-- The packet waits at its place for room: in an atomic log, in a full queue or doubt set. -/
def waitsForRoom (s : State) (p : Packet) : Bool :=
  let full (q : Nat) : Bool :=
    let u := (s.core p.dst).queue q
    u.bound && (ringFull u || (p.parent.isSome && decide (4096 ≤ u.seen.length)))
  match p.body with
  | .request _ pc _ _ ix => (match p.parent with
    | some d => pc.access.logged && (match lookLog (s.die (homeDie pc.pa)).alog d ix
        (if regionOf pc.pa == .lpddr then 0 else channelOf pc.pa) (if regionOf pc.pa == .lpddr then 16384 else 65536) with
      | .full => true
      | _ => false)
    | none => false)
  | .ratom _ _ _ _ ix => (match p.parent with
    | some d => (match lookLog (s.core p.dst).alog d ix 0 256 with
      | .full => true
      | _ => false)
    | none => false)
  | .ray _ _ _ _ => full 0
  | .hit typ _ _ _ _ => full (if typ = 0x40 then 1 else if typ = 0x41 then 2 else 3)
  | .join _ _ _ _ => full 3
  | _ => false

/-- The thread and operation that a packet's reply goes to. -/
def packetOwner (p : Packet) : Option (Nat × Nat) :=
  match p.body with
  | .request _ _ t o _ | .get _ _ _ t o | .put _ _ _ _ _ t o | .signal _ _ _ _ _ t o | .ratom _ _ t o _ | .member _ _ t o
  | .ray _ _ t o | .hit _ _ _ t o | .join _ _ t o | .block _ t o => some (t, o)
  | _ => none

/-- Withdraws a thread's accesses that wait and have not been performed (R387): in a retry list, for a re-send, for a translation, for
room at their place. -/
def withdraw (s : State) (k : Nat) : State :=
  match s.thread k with
  | none => s
  | some t =>
    let parkedHere (op : Nat) : Bool :=
      s.cores.any (fun p => p.2.retry.any (fun r => r.thread == k && r.op == op)) ||
        s.dies.any (fun p => p.2.retry.any (fun r => r.thread == k && r.op == op))
    let again (p : Op) : Bool := match p.status with
      | .again _ => true
      | _ => false
    let roomless := (s.packets.filter (fun p => waitsForRoom s p.2 && (packetOwner p.2).map (·.1) == some k))
    let unsent := t.ops.filter (fun p => p.2.token == 3 && p.2.held)
    let gone := (t.ops.filter (fun p => parkedHere p.1 || again p.2 || unsent.any (fun x => x.1 == p.1) || roomless.any (fun q => packetOwner q.2 == some (k, p.1)))).map (·.1)
    let remote := ((t.ops.filter (fun p => gone.contains p.1 && p.2.remote)).length)
    let s1 := gone.foldl (fun s op => withdrawRetry s k op) s
    let s2 := { s1 with packets := s1.packets.filter (fun p => !roomless.any (fun q => q.1 == p.1)) }
    let s3 := s2.updThread k (fun u => { u with ops := u.ops.filter (fun p => !gone.contains p.1), lateTrap := [] })
    let s4 := (s3.updTeam t.team (fun m => { m with remote := m.remote - remote })).updCore t.core (fun c => { c with rpend := c.rpend - remote })
    let s5 := unsent.foldl (fun s x => match x.2.pend with
      | some (d, step, n) => sendPending s t.core d (lastFlit n) step false
      | none => s) s4
    let die := epDie t.core
    let walks := (s5.die die).walks.filter (fun p => p.2.thread == k)
    walks.foldl (fun s p =>
      let s' := if p.2.waits then leaveFault s die p.2 false else s
      s'.updDie die (fun d => { d with walks := d.walks.drop p.1 })) s5

/-- A write to TABORT: every thread of a team exits, what it waits for is withdrawn, and the team goes on to retire under R30; a record
team stays bound (log 50). -/
def abortTeam (s : State) (ep slot : Nat) : State :=
  match teamInSlot s ep slot with
  | none => s
  | some k =>
    let s0 := (s.threads.filter (fun p => p.2.team == k)).foldl (fun s p => forgetThread (withdraw s p.1) p.1) s
    let s1 := (liveThreads s0 k).foldl (fun s p => exitThread s p.1) s0
    s1.updTeam k (fun m => { m with aborted := true, halted := false })

/-- TABORT. -/
def execTabort (core slot : Nat) (s : State) : Host.Outcome State Fault Refusal := .next (abortTeam s core slot)

end Sys2Proof.Machine
end

