-- ==== Sys2Proof/Machine/Serpent.lean ====
section
/-! DEFINITION. The Serpent slices: their directory, placement, paging, parked rays and residency records (R106 to R123, R416 to R427),
the route caches and treelet pools of the cores, and the acknowledgments that close an operation or a PAGE flit (R144, R401). -/

namespace Sys2Proof.Machine

/-! ## The directory (R109) -/

/-- A directory entry as system software writes it (R109). -/
def entryFrom (bs : List Byte) : DirEntry where
  image := field bs 0 8
  size := field bs 8 1
  state := .cold
  evp := none
  norep := (field bs 9 1).testBit 3
  owners := []
  counter := 0
  parked := []
  attempt := none
  held := false

/-- Number of a residency state. -/
def residencyCode : Residency → Nat
  | .cold => 0
  | .paging => 1
  | .resident => 2
  | .replicated => 3

/-- Parked rays of an entry, as its count shows them. -/
def parkedCount (e : DirEntry) : Nat := min e.parked.length 0xFFFF

/-- An entry as the treelet table holds it (R109). -/
def entryBytes (e : DirEntry) : List Byte :=
  leBytes 8 e.image ++ leBytes 1 e.size ++ leBytes 1 (residencyCode e.state + bit e.evp.isSome 2 + bit e.norep 3) ++
    leBytes 1 e.owners.length ++ [0#8] ++ leBytes 2 e.counter ++ leBytes 2 (parkedCount e) ++
    (List.range 4).flatMap (fun i => leBytes 4 (e.owners.getD i 0 % 2 ^ 20))

/-- BASE of a slice's base register (R122). -/
def baseOf (w : DWord) : Nat := w.toNat / 4096 % 2 ^ 40 * 4096

/-- Address of an entry in the treelet table. -/
def entryPlace (x : Slice) (id : Nat) : Nat := baseOf x.ttbase + id * 32

/-- The entry of a treelet: as the slice holds it, or as the table does. -/
def entryAt (s : State) (id : Nat) : DirEntry :=
  let x := s.slice (id % 6)
  match x.entries.find id with
  | some e => e
  | none => entryFrom (s.read (entryPlace x id) 32)

/-- Writes an entry: into the slice's directory and its place in the treelet table. -/
def setEntry (s : State) (id : Nat) (e : DirEntry) : State :=
  let x := s.slice (id % 6)
  (agentPut s (entryPlace x id) (entryBytes e)).updSlice (id % 6) (fun x => { x with entries := x.entries.put id e })

/-- Changes an entry. -/
def updEntry (s : State) (id : Nat) (f : DirEntry → DirEntry) : State := setEntry s id (f (entryAt s id))

/-- The id lies in the table (R426). -/
def idInRange (s : State) (id : Nat) : Bool :=
  decide (id < (s.slice (id % 6)).dsize.toNat % 2 ^ 24) && id != 0xFFFFFFFF

/-- The slice serves rays and RESID (R121). -/
def sliceOn (s : State) (id : Nat) : Bool := (s.slice (id % 6)).dsize.getLsbD 31

/-! ## Residency records (R116) -/

/-- Records that a slice's feedback ring holds: 2^FQLOG2. -/
def ringSize (x : Slice) : Nat := 2 ^ (x.dctl.toNat % 32)

/-- Appends a residency record, or counts it as dropped while the ring is full. -/
def residencyRecord (s : State) (id code owner requester : Nat) : State :=
  let i := id % 6
  let x := s.slice i
  let e := entryAt s id
  let seq := x.fqtail.toNat
  if ringSize x ≤ (x.fqtail - x.fqhead).toNat then s.updSlice i (fun x => { x with fqdrop := x.fqdrop + 1#32 })
  else
    let r := leBytes 8 s.time ++ leBytes 4 id ++ leBytes 1 code ++ leBytes 1 e.owners.length ++ leBytes 2 (parkedCount e) ++
      leBytes 4 owner ++ leBytes 2 e.counter ++ leBytes 1 (epDie (servingSlice s id)) ++ [0#8] ++ leBytes 4 requester ++ leBytes 4 seq
    (agentPut s (baseOf x.fqbase + seq % ringSize x * 32) r).updSlice i (fun x => { x with fqtail := x.fqtail + 1#32 })

/-- Writes an event of a slice. -/
def sliceEvent (s : State) (id cls code sev ray : Nat) : State := s.event (servingSlice s id) cls code sev false ray id

/-! ## Placement (R111) -/

/-- Free pool units a core last reported to a treelet's slice. -/
def reportedFree (s : State) (id ep : Nat) : Nat := ((s.slice (id % 6)).free.find ep).getD 0

/-- Notes what a core reports as free. -/
def noteFree (s : State) (id ep n : Nat) : State := s.updSlice (id % 6) (fun x => { x with free := x.free.put ep n })

/-- The listed core, on a serving die, that is asked next for a grant: of those not yet owners that have not refused, the one with the most
free units, the lowest endpoint id on ties. -/
def nextChoice (s : State) (id : Nat) (refusedBy : List Nat) : Option Nat :=
  let e := entryAt s id
  ((s.slice (id % 6)).placement.filter (fun ep =>
    !e.owners.contains ep && !refusedBy.contains ep && serving s (epDie ep))).foldl (fun b ep =>
      match b with
      | none => some ep
      | some y =>
        let n := reportedFree s id ep
        let m := reportedFree s id y
        if m < n ∨ (m = n ∧ ep < y) then some ep else b) none

/-- Asks the next core for a grant, or waits when every listed core has refused. -/
def askNext (s : State) (id : Nat) (replica : Bool) (refusedBy : List Nat) : State :=
  let a : Attempt := { core := nextChoice s id refusedBy, since := s.time, granted := none, tag := 0, left := 0, refusedBy := refusedBy, replica := replica }
  let s1 := updEntry s id (fun e => { e with attempt := some a })
  match a.core with
  | some ep => s1.ctl (servingSlice s id) ep 0x04 (.grantRequest id (entryAt s id).size)
  | none => s1

/-- A cold entry starts paging. -/
def startPaging (s : State) (id : Nat) : State := askNext (updEntry s id (fun e => { e with state := .paging })) id false []

/-- Releases the reservation of an attempt, where its core's die is present, and ends the attempt. -/
def dropAttempt (s : State) (id : Nat) : State :=
  let s1 := updEntry s id (fun e => { e with attempt := none })
  match (entryAt s id).attempt.bind (·.core) with
  | some ep => if (s.die (epDie ep)).present then s1.ctl (servingSlice s id) ep 0x04 (.reservationRelease id) else s1
  | none => s1

/-- An attempt is abandoned and a new owner chosen (R420). -/
def abandonAttempt (s : State) (id : Nat) : State :=
  match (entryAt s id).attempt with
  | none => s
  | some a => askNext (sliceEvent (dropAttempt s id) id 6 0x52 1 0) id a.replica []

/-- An attempt fails for good (R421): the entry is held, and starts no attempt before REPAGE.  An entry whose failed attempt was for a further
owner stays resident or replicated, as its owners have it (DEDUCED, log 153). -/
def failAttempt (s : State) (id : Nat) : State :=
  match (entryAt s id).attempt with
  | none => s
  | some a =>
    let s1 := sliceEvent (dropAttempt s id) id 6 0x53 2 0
    residencyRecord (updEntry s1 id (fun e => { e with held := true })) id 6 (a.core.getD 0) 0

/-! ## Forwarding and parking (R108, R113, R114) -/

/-- Owners on serving dies (R424). -/
def liveOwners (s : State) (e : DirEntry) : List Nat := e.owners.filter (fun ep => serving s (epDie ep))

/-- Address of a place in a slice's spill area (R114; the order of the places is the part's, log 144). -/
def spillPlace (x : Slice) (j : Nat) : Nat := baseOf x.pkbase + 64 * j

/-- A parked ray's message, from its place in the spill area where it was spilled. -/
def parkedBytes (s : State) (id : Nat) (p : Parked) : List Byte :=
  match p.slot with
  | some j => s.read (spillPlace (s.slice (id % 6)) j) 64
  | none => p.bytes

/-- Sends a ray to the owner nearest its original sender, and a route fill to that sender (R108). -/
def forwardRay (s : State) (id : Nat) (p : Parked) : State :=
  let src := servingSlice s id
  let e := entryAt s id
  match nearestOwner s p.sender (liveOwners s e) with
  | none => s
  | some owner =>
    let q := { mkPacket 3 0x30 src owner 2 (.ray (clearFwd (parkedBytes s id p)) p.prio 0 0) with
      ord := true, deriv := p.deriv, attempt := p.attempt, origin := p.sender }
    (s.inject q).ctl src p.sender 0x02 (.routeFill id e.owners)

/-- An entry's rays may be forwarded. -/
def canForward (s : State) (e : DirEntry) : Bool :=
  ((e.state == .resident && e.evp.isNone) || e.state == .replicated) && !(liveOwners s e).isEmpty

/-- Forwards the parked rays of a treelet in order, as far as none waits for an eviction report. -/
def forwardParked (s : State) (id : Nat) : State :=
  let e := entryAt s id
  if !canForward s e then s
  else
    let go := e.parked.takeWhile (fun p => p.from_.isNone)
    go.foldl (fun s p => forwardRay s id p) (updEntry s id (fun e => { e with parked := e.parked.drop go.length }))

/-- Rays parked at a slice. -/
def parkedRays (x : Slice) : List Parked := (NMap.vals x.entries).flatMap (·.parked)

/-- Rays that a slice parks on chip (R114). -/
def chipRays : Nat := 4096

/-- Places of a slice's spill area that hold a ray. -/
def spillUsed (x : Slice) : List Nat := (parkedRays x).filterMap (·.slot)

/-- Rays that the spill area holds (R114). -/
def spillRays : Nat := 2 ^ 20

/-- Parks a ray at the end of its treelet's queue: on chip, or beyond 4,096 rays there in the first free place of the spill area.  The ray
that fills the spill area begins an episode, with event 0x55 (R425). -/
def park (s : State) (id : Nat) (p : Parked) : State :=
  let x := s.slice (id % 6)
  let used := spillUsed x
  let add (s : State) (p : Parked) : State := updEntry s id (fun e => { e with parked := e.parked ++ [p] })
  if (parkedRays x).length - used.length < chipRays then add s p
  else
    let j := ((List.range (used.length + 1)).find? (fun j => !used.contains j)).getD 0
    let s1 := add (agentPut s (spillPlace x j) p.bytes) { p with slot := some j }
    if used.length + 1 = spillRays then sliceEvent s1 id 0 0x55 1 (field p.bytes 32 8) else s1

/-- Starts a replica where the counter is above the threshold (R113). -/
def replicate (s : State) (id : Nat) : State :=
  let e := entryAt s id
  let hot := (s.slice (id % 6)).dctl.toNat / 65536
  if (e.state == .resident || e.state == .replicated) && decide (hot < e.counter) && hot != 0 && !e.norep && decide (e.owners.length < 4) &&
      e.attempt.isNone && !e.held && (nextChoice s id []).isSome then askNext s id true [] else s

/-- The access counter rises, no higher than 0xFFFF (R110). -/
def raiseCounter (s : State) (id n : Nat) : State := updEntry s id (fun e => { e with counter := min 0xFFFF (e.counter + n) })

/-- A slice handles a ray that it has accepted (R113), returned with FWD by a core or not.  While rays are parked, a later ray is parked behind
them (R114).  A ray with FWD from a core that the entry does not list as owner has no row in R113: it is handled as one without
(DESIGN CHOICE, log 143). -/
def handleRay (s : State) (id : Nat) (back : Option Nat) (p : Parked) : State :=
  let fwd := back.isSome
  let s1 := if fwd then s else raiseCounter s id 1
  let e := entryAt s1 id
  let behind : Bool := !e.parked.isEmpty
  replicate (match e.state with
    | .cold => startPaging (park s1 id p) id
    | .paging => park s1 id p
    | .resident =>
      if fwd && e.owners == back.toList then updEntry (park s1 id p) id (fun e => { e with evp := back })
      else if behind || !canForward s1 e then park s1 id p else forwardRay s1 id p
    | .replicated =>
      if fwd && back.any e.owners.contains then park s1 id { p with from_ := back }
      else if behind || !canForward s1 e then park s1 id p else forwardRay s1 id p) id

/-- A ray reaches a slice: it is refused, found to be a duplicate, kept waiting while the spill area is full (R425), or accepted.  A slice whose EN is 0
serves no ray: the ray is not sunk, before any other check (DESIGN CHOICE, log 145).  Of a ray that a core has returned, the original sender
is told (R426). -/
def rayAtSlice (s : State) (p : Packet) : Option State :=
  match p.body with
  | .ray bs prio thread op =>
    let id := rayTreelet bs
    let i := id % 6
    let x := s.slice i
    let fwd := rayFwd bs
    let asker : Packet := { p with src := p.origin }
    let ack (s : State) : State := if thread = 0 then s else s.reply asker 0x21 (.acknowledgment thread op)
    if !sliceOn s id then none
    else if !idInRange s id then
      let s1 := sliceEvent s id 0 0x56 2 (rayId bs)
      some (if thread = 0 then s1 else refuse s1 asker 0x56 0#64 thread op)
    else if !fwd && p.parent.isSome && x.seen.any (fun q => q.1 == p.deriv) then
      some (ack (s.corrected (servingSlice s id) 0 0x6C (servingSlice s id) 1))
    else if !fwd && p.parent.isSome && decide (4096 ≤ x.seen.length) then none
    else if spillRays ≤ (spillUsed x).length then none
    else
      let s1 := match p.parent with
        | some d => if fwd then s else s.updSlice i (fun x => { x with seen := (p.deriv, d) :: x.seen })
        | none => s
      some (handleRay (ack s1) id (if fwd then some p.src else none)
        { bytes := clearFwd bs, sender := p.origin, slot := none, deriv := p.deriv, attempt := p.attempt, from_ := none, prio := prio })
  | _ => none

/-- RAY_ARRIVAL_AT_SLICE. -/
def execRayArrivalAtSlice (s : State) : Host.Outcome State Fault Refusal :=
  .next (arrive s (fun p => p.typ == 0x30 && epLocal p.dst == 125) (fun s _ p => rayAtSlice s p))

/-! ## Grants, at the core (R111, R112, R420) -/

/-- The first run of free pool units of a size. -/
def poolFit (c : Core) (size : Nat) : Option Nat :=
  let total := bits c.spool.toNat 25 16
  (List.range (total + 1)).find? (fun u => decide (u + size ≤ total) &&
    (NMap.vals c.pool).all (fun x => decide (x.unit + x.size ≤ u) || decide (u + size ≤ x.unit)))

/-- A pool takes a treelet of a size: room is there, and fewer than 64 treelets are in its table. -/
def poolTakes (c : Core) (size : Nat) : Option Nat := if c.pool.length < 64 then poolFit c size else none

/-- Idle treelets of a core, least recently arrived first: a treelet arrives with its last ray, or with its install while no ray has come
(DESIGN CHOICE, log 142). -/
def idleTreelets (s : State) (ep : Nat) : List Nat :=
  (((s.core ep).pool.filter (fun p => p.2.resident && !treeletLive s ep p.1)).mergeSort
    (fun a b => decide (a.2.lastArrival ≤ b.2.lastArrival))).map (·.1)

/-- How many of the idle treelets, in that order, must leave before the space is free. -/
def evictionsFor (s : State) (ep size : Nat) : Option Nat :=
  let idle := idleTreelets s ep
  (List.range (idle.length + 1)).find? (fun n =>
    let c := s.core ep
    (poolTakes { c with pool := c.pool.filter (fun p => !(idle.take n).contains p.1) } size).isSome)

/-- A core is asked for a grant: it evicts what it must, reserves the space and replies, or refuses, evicting nothing. -/
def grantAt (s : State) (p : Packet) : Option State :=
  match p.body with
  | .grantRequest id size =>
    let ep := p.dst
    let answer (s : State) (u : Option Nat) : State := s.ctl ep p.src 0x05 (.grantReply id u (freeUnits (s.core ep)))
    if !s.isCore ep || ((s.core ep).pool.find id).isSome then some (answer s none)
    else match evictionsFor s ep size with
      | none => some (answer s none)
      | some n =>
        let s1 := ((idleTreelets s ep).take n).foldl (fun s x => evictTreelet s ep x) s
        match poolTakes (s1.core ep) size with
        | none => some (answer s1 none)
        | some u =>
          let t : Treelet := { unit := u, size := size, resident := false, lastArrival := 0, direct := 0, lost := false }
          some (answer (s1.updCore ep (fun c => { c with pool := c.pool.put id t })) (some u))
  | _ => none

/-- GRANT_REQUEST. -/
def execGrantRequest (s : State) : Host.Outcome State Fault Refusal :=
  .next (arrive s (fun p => match p.body with
    | .grantRequest _ _ => true
    | _ => false) (fun s _ p => grantAt s p))

/-- RESERVATION_RELEASE: a reservation that no install has made resident is given back. -/
def execReservationRelease (s : State) : Host.Outcome State Fault Refusal :=
  .next (arrive s (fun p => match p.body with
    | .reservationRelease _ => true
    | _ => false) (fun s _ p =>
    match p.body with
    | .reservationRelease id =>
      some (s.updCore p.dst (fun c => { c with pool := c.pool.filter (fun x => !(x.1 == id && !x.2.resident && !x.2.lost)) }))
    | _ => none))

/-! ## Paging (R112, R419 to R421) -/

/-- Names a slice's reads of a treelet's image to their homes, by treelet. -/
def imageReader (id : Nat) : Nat := farThread + 1 + id

/-- Reads the image of an entry for the core that granted space: a request for each line of 128 bytes (R112); an image with a part that no
home serves cannot be read. -/
def sendImage (s : State) (id unit : Nat) : State :=
  let e := entryAt s id
  let slice := servingSlice s id
  let lines := (List.range (e.size * 32)).map (fun i => e.image + 128 * i)
  if lines.any (fun a => !memoryOn s a) then failAttempt s id
  else
    let tag := s.fresh
    let s1 := updEntry { s with fresh := tag + 1 } id (fun e => { e with
      attempt := e.attempt.map (fun a => { a with granted := some unit, tag := tag, left := e.size * 64 }) })
    lines.zipIdx.foldl (fun s x =>
      s.inject { mkPacket 1 0x10 slice (homeEndpoint x.1) 1
        (.request 0x10 { pa := x.1, home := true, access := .load 128 } (imageReader id) (tag * 2 ^ 40 + 128 * x.2) 0) with
          addr := BitVec.ofNat 64 x.1 }) s1

/-- The attempt that a read of the image belongs to, while it goes on. -/
def imageAttempt (s : State) (id op : Nat) : Option Attempt :=
  (entryAt s id).attempt.filter (fun a => a.tag == op / 2 ^ 40 && a.granted.isSome)

/-- A part of an image reaches the slice: it goes to the owner in PAGE flits. -/
def imageArrives (s : State) (id op : Nat) (bs : List Byte) : State :=
  match (imageAttempt s id op).bind (·.core) with
  | none => s
  | some ep =>
    (List.range (bs.length / 64)).foldl (fun s i =>
      let off := op % 2 ^ 40 + 64 * i
      s.inject (mkPacket 5 0x50 (servingSlice s id) ep 2
        (.page id off ((bs.drop (64 * i)).take 64) (off + 64 == (entryAt s id).size * 4096)))) s

/-- A read of an image is refused: the attempt fails for good (R421). -/
def imageRefused (s : State) (id op : Nat) : State := if (imageAttempt s id op).isSome then failAttempt s id else s

/-- A grant reply reaches the slice: the image follows, or the next core is asked. -/
def grantAnswered (s : State) (p : Packet) : Option State :=
  match p.body with
  | .grantReply id unit free =>
    let s1 := noteFree s id p.src free
    match (entryAt s1 id).attempt with
    | none => some s1
    | some a =>
      if a.core != some p.src || a.granted.isSome then some s1
      else match unit with
        | some u => some (sendImage s1 id u)
        | none => some (askNext s1 id a.replica (p.src :: a.refusedBy))
  | _ => none

/-- GRANT_REPLY. -/
def execGrantReply (s : State) : Host.Outcome State Fault Refusal :=
  .next (arrive s (fun p => match p.body with
    | .grantReply _ _ _ => true
    | _ => false) (fun s _ p => grantAnswered s p))

/-- PLACEMENT_RETRY: 1,024 ns after every listed core has refused, the slice asks from the start. -/
def retryPlacement (s : State) (id : Nat) : State :=
  match (s.slice (id % 6)).entries.find id with
  | none => s
  | some e =>
    match e.attempt with
    | none => s
    | some a => if a.core.isSome || decide (s.time < a.since + 1024) then s else askNext s id a.replica []

/-- PLACEMENT_RETRY. -/
def execPlacementRetry (slice treelet : Nat) (s : State) : Host.Outcome State Fault Refusal :=
  .next (if treelet % 6 = slice then retryPlacement s treelet else s)

/-- A PAGE flit is sunk into the reserved space and acknowledged; without a reservation it is refused. -/
def pageArrives (s : State) (p : Packet) : Option State :=
  match p.body with
  | .page id off data _ =>
    let c := s.core p.dst
    match c.pool.find id with
    | some x =>
      if x.resident || x.lost || decide (x.size * 4096 < off + 64) then some (refuse s p 0x27 0#64 id off)
      else some ((homeWrite s (scratchLoc p.dst (poolBase c + x.unit * 4096 + off)) data).reply p 0x21 (.acknowledgment id off))
    | none => some (refuse s p 0x27 0#64 id off)
  | _ => none

/-- PAGE_FLIT. -/
def execPageFlit (s : State) : Host.Outcome State Fault Refusal :=
  .next (arrive s (fun p => p.typ == 0x50) (fun s _ p => pageArrives s p))

/-- The owners of a treelet, told to every core die (R113). -/
def broadcastOwners (s : State) (id : Nat) : State :=
  let owners := (entryAt s id).owners
  ((List.range 16).filter (serving s)).foldl (fun s d =>
    s.ctl (servingSlice s id) (endpoint d 127) 0x0B (.broadcast id owners)) s

/-- The install is complete (R113): a first owner, or a further one; an entry whose counter is past HOT by then is replicated at once. -/
def installed (s : State) (id ep : Nat) (replica : Bool) : State :=
  let s1 := updEntry s id (fun e => { e with attempt := none, owners := e.owners ++ [ep] })
  if replica then
    let s2 := residencyRecord (updEntry s1 id (fun e => { e with state := .replicated, counter := 0 })) id 2 ep 0
    forwardParked (broadcastOwners s2 id) id
  else replicate (forwardParked (residencyRecord (updEntry s1 id (fun e => { e with state := .resident })) id 1 ep 0) id) id

/-- The last flit is acknowledged: the image's own id and size (R99) are checked, and the install goes out (R112, R419). -/
def finishPaging (s : State) (id : Nat) (a : Attempt) : State :=
  match a.core, a.granted with
  | some ep, some u =>
    let e := entryAt s id
    let head := s.read (scratchLoc ep (poolBase (s.core ep) + u * 4096)) 8
    if field head 0 4 != id || field head 4 1 != e.size then failAttempt s id
    else s.ctl (servingSlice s id) ep 0x06 (.install id)
  | _, _ => s

/-- A PAGE flit has been acknowledged. -/
def flitAcknowledged (s : State) (id ep : Nat) : State :=
  match (entryAt s id).attempt with
  | none => s
  | some a =>
    if a.core != some ep || a.left = 0 then s
    else
      let b := { a with left := a.left - 1 }
      let s1 := updEntry s id (fun e => { e with attempt := some b })
      if b.left = 0 then finishPaging s1 id b else s1

/-- A PAGE flit has been refused (R420). -/
def flitRefused (s : State) (id ep : Nat) : State :=
  match (entryAt s id).attempt with
  | none => s
  | some a => if a.core == some ep then abandonAttempt s id else s

/-- INSTALL: the treelet is resident at its owner, and with it the install is complete at the slice: no ray is sent to an owner that could not
yet accept it (R113, R349). -/
def execInstall (s : State) : Host.Outcome State Fault Refusal :=
  .next (arrive s (fun p => match p.body with
    | .install _ => true
    | _ => false) (fun s _ p =>
    match p.body with
    | .install id =>
      let stamp := s.fresh
      let s1 := { s with fresh := stamp + 1 }.updCore p.dst (fun c => { c with
        pool := c.pool.adjust id (fun x => { x with resident := true, lastArrival := stamp, direct := 0 }) })
      some (match (entryAt s1 id).attempt with
        | some a => if a.core == some p.dst && a.granted.isSome && a.left == 0 then installed s1 id p.dst a.replica else s1
        | none => s1)
    | _ => none))

/-! ## Replies that close an operation (R144, R401) -/

/-- RSP_DATA: a part of an image at its slice, else the data that a walk or an operation waits for. -/
def execRspData (s : State) : Host.Outcome State Fault Refusal :=
  .next (arrive s (fun p => p.typ == 0x20) (fun s _ p =>
    match p.body with
    | .data bs reader op =>
      if epLocal p.dst = 125 then some (imageArrives s (reader - imageReader 0) op bs)
      else if reader = agentReader then some (readAnswered s p.dst op (.ok bs))
      else some (dataArrives s p)
    | _ => none))

/-- RSP_ACKNOWLEDGMENT: of a PAGE flit at its slice, else of an operation's piece. -/
def execRspAcknowledgment (s : State) : Host.Outcome State Fault Refusal :=
  .next (arrive s (fun p => p.typ == 0x21) (fun s _ p =>
    match p.body with
    | .acknowledgment thread op =>
      if epLocal p.dst = 125 then some (flitAcknowledged s thread p.src)
      else if thread = farThread then some (farDone s p.dst op)
      else some (answerPiece (replyCounted s thread op) thread op [])
    | _ => none))

/-- RSP_REFUSAL: of a PAGE flit or of a read of an image at its slice, else of an operation or a walk. -/
def execRspRefusal (s : State) : Host.Outcome State Fault Refusal :=
  .next (arrive s (fun p => p.typ == 0x22) (fun s _ p =>
    match p.body with
    | .refusal code _ thread op =>
      some (if thread = agentReader then readAnswered s p.dst op (.error code)
        else if epLocal p.dst ≠ 125 then refusalArrives s p
        else if farThread < thread then imageRefused s (thread - imageReader 0) op
        else flitRefused s thread p.src)
    | _ => none))

/-! ## Counters, evictions, queries (R110, R113, R117) -/

/-- COUNTER_INCREMENT. -/
def execCounterIncrement (s : State) : Host.Outcome State Fault Refusal :=
  .next (arrive s (fun p => match p.body with
    | .counterIncrement _ _ _ => true
    | _ => false) (fun s _ p =>
    match p.body with
    | .counterIncrement id n free => some (replicate (raiseCounter (noteFree s id p.src free) id n) id)
    | _ => none))

/-- COUNTER_DECAY: once for each DECAY × 1,024 ns every counter of a slice is halved. -/
def decayCounters (s : State) (i : Nat) : State :=
  let x := s.slice i
  let period := (x.dctl.extractLsb' 8 8).toNat * 1024
  if period = 0 ∨ !x.dsize.getLsbD 31 ∨ s.time < x.decayed + period then s
  else (NMap.keys x.entries).foldl (fun s id => updEntry s id (fun e => { e with counter := e.counter / 2 }))
    (s.updSlice i (fun x => { x with decayed := x.decayed + period }))

/-- COUNTER_DECAY. -/
def execCounterDecay (s : State) : Host.Outcome State Fault Refusal := .next (decayCounters s s.obj)

/-- The rays held for an owner's eviction report go on as rays without FWD (R113). -/
def releaseHeld (s : State) (id ep : Nat) : State :=
  updEntry s id (fun e => { e with parked := e.parked.map (fun p => if p.from_ = some ep then { p with from_ := none } else p) })

/-- Owners leave an entry: one that has evicted the treelet, or all those of a lost die (R113, R424).  EVP that was set for one of them is
cleared (R109); the record names the first. -/
def removeOwners (s : State) (id : Nat) (gone : List Nat) : State :=
  let ep := gone.headD 0
  let left := (entryAt s id).owners.filter (fun x => !gone.contains x)
  let s1 := updEntry (gone.foldl (fun s e => releaseHeld s id e) s) id (fun e => { e with
    owners := left, evp := if e.evp.any gone.contains then none else e.evp })
  if left.isEmpty then
    let s2 := residencyRecord (updEntry s1 id (fun e => { e with state := .cold, evp := none, held := false })) id 3 ep 0
    let s3 := residencyRecord (if (entryAt s2 id).attempt.isSome then dropAttempt s2 id else s2) id 4 ep 0
    if (entryAt s3 id).parked.isEmpty then s3 else startPaging s3 id
  else
    let st : Residency := if left.length = 1 then .resident else .replicated
    let s2 := residencyRecord (updEntry s1 id (fun e => { e with state := st })) id 3 ep 0
    replicate (forwardParked (broadcastOwners s2 id) id) id

/-- EVICTION_REPORT. -/
def execEvictionReport (s : State) : Host.Outcome State Fault Refusal :=
  .next (arrive s (fun p => match p.body with
    | .evictionReport _ _ => true
    | _ => false) (fun s _ p =>
    match p.body with
    | .evictionReport id free =>
      let s1 := noteFree s id p.src free
      some (if (entryAt s1 id).owners.contains p.src then removeOwners s1 id [p.src] else s1)
    | _ => none))

/-- Reply word of a RESID (R320). -/
def residencyWord (e : DirEntry) : Word :=
  BitVec.ofNat 32 (parkedCount e * 65536 + e.owners.length * 4 + residencyCode e.state)

/-- Notes the free units that came with a query or request (R111). -/
def noteAsked (s : State) (id ep : Nat) (free : Option Nat) : State :=
  match free with
  | some n => noteFree s id ep n
  | none => s

/-- A residency query or request at its slice.  The slice sinks it (R118), and answers it once EN is 1 (log 145). -/
def residencyAsked (s0 : State) (p : Packet) : Option State :=
  match p.body with
  | .residency id request free thread op =>
    let s := noteAsked s0 id p.src free
    if !sliceOn s id then some (s.updSlice (id % 6) (fun x => { x with asked := x.asked ++ [p] }))
    else if !idInRange s id then some (refuse (sliceEvent s id 0 0x56 2 0) p 0x56 0#64 thread op)
    else
      let s1 := if request && (entryAt s id).state == .cold then startPaging s id else s
      let s2 := if request then residencyRecord s1 id 5 0 p.src else s1
      some (s2.inject { mkPacket 0 0x0E p.dst p.src 1 (.residencyReply id (residencyWord (entryAt s2 id)) thread op) with seq := p.seq })
  | _ => none

/-- RESIDENCY_QUERY_OR_REQUEST. -/
def execResidencyQueryOrRequest (s : State) : Host.Outcome State Fault Refusal :=
  .next (arrive s (fun p => p.typ == 0x0D) (fun s _ p => residencyAsked s p))

/-- RESIDENCY_REPLY. -/
def execResidencyReply (s : State) : Host.Outcome State Fault Refusal :=
  .next (arrive s (fun p => p.typ == 0x0E) (fun s _ p =>
    match p.body with
    | .residencyReply _ w thread op => some (answerPiece s thread op (leBytes 4 w.toNat))
    | _ => none))

/-! ## Route caches (R107, R108) -/

/-- A route fill: the entry of the treelet, in a set of four ways whose least recently used one leaves; of several last used in the same cycle
the one filled first (DESIGN CHOICE, log 141). -/
def fillRoute (c : Core) (id : Nat) (owners : List Nat) : Core :=
  let r : Route := { treelet := id, owners := owners, used := c.cycles }
  let others := c.routes.filter (fun x => x.treelet != id)
  let set := others.filter (fun x => x.treelet % 64 == id % 64)
  match set with
  | [] => { c with routes := others ++ [r] }
  | a :: rest =>
    if set.length < 4 then { c with routes := others ++ [r] }
    else
      let old := rest.foldl (fun b x => if x.used < b.used then x else b) a
      { c with routes := others.filter (fun x => x.treelet != old.treelet) ++ [r] }

/-- A route update: the owner list of an entry is replaced; none left, the entry goes. -/
def updateRoute (c : Core) (id : Nat) (owners : List Nat) : Core :=
  if owners.isEmpty then { c with routes := c.routes.filter (fun x => x.treelet != id) }
  else { c with routes := c.routes.map (fun x => if x.treelet = id then { x with owners := owners } else x) }

/-- ROUTE_FILL. -/
def execRouteFill (s : State) : Host.Outcome State Fault Refusal :=
  .next (arrive s (fun p => p.typ == 0x02) (fun s _ p =>
    match p.body with
    | .routeFill id owners => some (if owners.isEmpty then s else s.updCore p.dst (fun c => fillRoute c id owners))
    | _ => none))

/-- ROUTE_UPDATE. -/
def execRouteUpdate (s : State) : Host.Outcome State Fault Refusal :=
  .next (arrive s (fun p => p.typ == 0x03) (fun s _ p =>
    match p.body with
    | .routeUpdate id owners => some (s.updCore p.dst (fun c => updateRoute c id owners))
    | _ => none))

/-- BROADCAST: the die controller delivers a route update to every core endpoint of its die. -/
def execBroadcast (s : State) : Host.Outcome State Fault Refusal :=
  .next (arrive s (fun p => p.typ == 0x0B) (fun s _ p =>
    match p.body with
    | .broadcast id owners =>
      let d := epDie p.dst
      some ((s.die d).enabled.foldl (fun s l => s.ctl p.dst (endpoint d l) 0x03 (.routeUpdate id owners)) s)
    | _ => none))

/-! ## The registers that act (R111, R121, R421) -/

/-- The placement list as the slice reads it when it is switched on. -/
def placementList (s : State) (x : Slice) : List Nat :=
  (List.range ((x.dsize.extractLsb' 24 7).toNat)).map (fun i => leNat (s.read (baseOf x.plbase + 4 * i) 4) % 2 ^ 20)

/-- A slice is switched on: it reads its placement list, the listed cores report their free units, its records number from 0 and its
entries stand as the table has them; rays parked earlier are paged for again, and what was asked while it was off is answered.  FQHEAD and
FQDROP keep their values (DESIGN CHOICE, log 96). -/
def switchOn (s : State) (i : Nat) : State :=
  let l := placementList s (s.slice i)
  let old := (s.slice i).entries.filter (fun p => !p.2.parked.isEmpty)
  let free := l.foldl (fun (m : NMap Nat) ep => m.put ep (freeUnits (s.core ep))) []
  let waiting := (s.slice i).asked
  let s1 := s.updSlice i (fun x => { x with placement := l, free := free, entries := [], fqtail := 0#32, decayed := s.time, asked := [] })
  let s2 := old.foldl (fun s p => startPaging (updEntry s p.1 (fun e => { e with parked := p.2.parked })) p.1) s1
  waiting.foldl (fun s p => (residencyAsked s p).getD s) s2

/-- A write to DSIZE (R120, R121): while EN is 1 it changes only EN. -/
def writeDsize (s : State) (i : Nat) (v : Word) : State :=
  let x := s.slice i
  if x.dsize.getLsbD 31 then
    s.updSlice i (fun x => { x with dsize := (x.dsize &&& 0x7FFFFFFF#32) ||| (v &&& 0x80000000#32) })
  else
    let s1 := s.updSlice i (fun x => { x with dsize := v })
    if v.getLsbD 31 then switchOn s1 i else s1

/-- DSIZE. -/
def execDsize (slice : Nat) (value : Word) (s : State) : Host.Outcome State Fault Refusal := .next (writeDsize s slice value)

/-- The window of a slice takes ids of its own class, and those of the slice that it serves for while that one's gateway is lost (R427). -/
def servesClass (s : State) (i id : Nat) : Bool := epDie (servingSlice s id) == i + 16 || id % 6 == i

/-- A write to REPAGE: a held entry begins a new attempt, for a further owner where it has owners. -/
def repage (s : State) (i id : Nat) : State :=
  match (s.slice (id % 6)).entries.find id with
  | none => s
  | some e =>
    if servesClass s i id && e.held then
      askNext (updEntry s id (fun e => { e with held := false })) id (e.state == .resident || e.state == .replicated) []
    else s

/-- REPAGE. -/
def execRepage (slice : Nat) (treelet : Word) (s : State) : Host.Outcome State Fault Refusal := .next (repage s slice treelet.toNat)

end Sys2Proof.Machine
end

