-- ==== Sys2Proof/Machine/Registers.lean ====
section
/-! DEFINITION. Agent and register space (R13, R60): the windows of cores, copy harts, L2 TLBs, slices, die controllers and the host
port agent; and the read, write and spill requests that reach a home (R67, R118). -/

namespace Sys2Proof.Machine

/-! ## Windows (R60) -/

/-- The kinds of window. -/
inductive Window where
  | core | hart | tlb | slice | controller | host | none
  deriving DecidableEq, Repr

/-- The window of an endpoint of this package.  The host port agent is served at either link gateway (log 52), and the registers of a slice
whose gateway is lost by its partner (R427). -/
def windowOf (s : State) (ep : Nat) : Window :=
  let d := epDie ep
  let l := epLocal ep
  if l = 125 ∧ 16 ≤ d ∧ d < 22 ∧ ((s.die d).present ∨ (s.die (mirrorGateway d)).present) then .slice
  else if 24 ≤ d ∨ !(s.die d).present then .none
  else if s.isCore ep then .core
  else if isHart ep then .hart
  else if l = 124 then .tlb
  else if l = 127 then .controller
  else if l = 122 ∧ 22 ≤ d then .host
  else .none

/-- Registers of 64 bits: their offsets. -/
def isWideReg (w : Window) (off : Nat) : Bool :=
  match w with
  | .core => off == 0x50 || off == 0x70 || off == 0x800
  | .hart => off == 0x800
  | .slice => off == 0x08 || off == 0x10 || off == 0x18 || off == 0x30
  | .host => off == 0x80 || (decide (0x100 ≤ off) && decide (off < 0x200) && off % 16 == 0)
  | _ => false

/-- The register that holds a byte: its offset and size. -/
def regAt (w : Window) (off : Nat) : Nat × Nat :=
  let b := off - off % 4
  if isWideReg w b then (b, 8) else if off % 8 ≥ 4 ∧ isWideReg w (off - off % 8) then (off - off % 8, 8) else (b, 4)

/-! ## Reading -/

/-- XSTAT (R50); a count past its field shows as the field's maximum. -/
def xstat (s : State) (ep : Nat) : Nat :=
  let c := s.core ep
  let gs := fullGroups s ep c.active
  c.active + min gs.length 127 * 2 + min (gs.filter (fun p => groupParked s p.1)).length 255 * 2 ^ 8 + c.swaps % 256 * 2 ^ 16

/-- MXSTAT (R139): QUEUED counts the entries that a full queue has (R131), the running task's among them. -/
def mxstat (s : State) (ep : Nat) : Nat :=
  let queued := min (queuedTasks (s.core ep)).length 127
  match runningTask s ep with
  | none => queued
  | some (_, x) => queued + trKind x.record * 2 ^ 8 + trTile x.record * 2 ^ 12 + 2 ^ 15 + x.step % 256 * 2 ^ 16

/-- A register of a core's window. -/
def readCore (s : State) (ep off : Nat) : Nat :=
  let c := s.core ep
  match off with
  | 0x000 => c.xctl.toNat
  | 0x004 => c.pdline.toNat
  | 0x00C => xstat s ep
  | 0x040 => c.spool.toNat
  | 0x044 => c.qdepth.toNat
  | 0x048 => mxstat s ep
  | 0x04C => c.allowcfg.toNat
  | 0x050 => c.tvec.toNat
  | 0x058 => if c.attach then 1 else 0
  | 0x060 => c.perfsel.toNat
  | 0x070 => c.mxexc.toNat
  | 0x080 => c.fewait.toNat
  | 0x808 => if kickable s ep then kstat c else 0
  | _ => 0
where
  /-- KSTAT (R291). -/
  kstat (c : Core) : Nat := c.kicks.length + (if c.busy then 256 else 0)

/-- Bytes of a fault-buffer entry (R405); one that holds no fault reads as zero. -/
def faultBytes (f : Option FaultEntry) : List Byte :=
  match f with
  | none => List.replicate 32 0#8
  | some f => leBytes 8 (faultWords f).1 ++ leBytes 8 (faultWords f).2 ++ leBytes 4 (f.first % 2 ^ 20) ++ leBytes 4 0 ++ leBytes 8 f.time

/-- FBSTAT (R404). -/
def fbstat (d : Die) : Nat := (d.faults.filter (·.isSome)).length + d.drops * 2 ^ 8 + bit d.dropped 31

/-- A register of an L2 TLB's window. -/
def readTlbWindow (s : State) (die off : Nat) : Nat :=
  let d := s.die die
  if off = 0 then fbstat d
  else if off = 4 then d.ftmo.toNat
  else if 0x100 ≤ off ∧ off < 0x200 then field (faultBytes (d.faults.getD ((off - 0x100) / 32) none)) (off % 32) 4
  else 0

/-- A register of a slice's window. -/
def readSlice (x : Slice) (off : Nat) : Nat :=
  match off with
  | 0x00 => x.dctl.toNat
  | 0x04 => x.dsize.toNat
  | 0x08 => x.ttbase.toNat
  | 0x10 => x.plbase.toNat
  | 0x18 => x.fqbase.toNat
  | 0x20 => x.fqhead.toNat
  | 0x24 => x.fqtail.toNat
  | 0x28 => x.fqdrop.toNat
  | 0x30 => x.pkbase.toNat
  | _ => 0

/-- PORTCFG of a port with its read-only fields (R155). -/
def portcfg (q : Port) : Nat := q.cfg.toNat + bit q.up 30 + (if q.up then q.farPort % 16 * 512 else 0)

/-- A register of a die controller's window. -/
def readController (s : State) (die off : Nat) : Nat :=
  if off = 0 then (s.die die).inc
  else if off = 0x200 ∧ 16 ≤ die ∧ die < 22 then (s.die die).fewait.toNat
  else if 22 ≤ die ∧ 0x100 ≤ off ∧ off < 0x120 then portcfg (s.pkg.ports.getD ((die - 22) * 8 + (off - 0x100) / 4) Port.reset)
  else if 22 ≤ die ∧ 0x1000 ≤ off ∧ off < 0x1400 then prouteOf s die ((off - 0x1000) / 4)
  else 0

/-- A register of the host port agent's window (R165, R365, R372). -/
def readHost (s : State) (off : Nat) : Nat :=
  let h := s.host
  if off = 0x040 then h.bootstat.toNat
  else if off = 0x080 then h.evbase.toNat
  else if off = 0x088 then h.evtail.toNat
  else if off = 0x08C then h.evhead.toNat
  else if off = 0x090 then h.evdrop.toNat
  else if 0x100 ≤ off ∧ off < 0x200 then
    let r := h.rings.getD ((off - 0x100) / 16) default
    match off % 16 with
    | 0 => r.base.toNat
    | 8 => r.tail.toNat
    | 12 => r.head.toNat
    | _ => 0
  else 0

/-- The register at an offset. -/
def readReg (s : State) (ep off : Nat) : Nat :=
  match windowOf s ep with
  | .core => readCore s ep off
  | .hart => if off = 0x808 then readCore.kstat (s.core ep) else 0
  | .tlb => readTlbWindow s (epDie ep) off
  | .slice => readSlice (s.slice (epDie ep - 16)) off
  | .controller => readController s (epDie ep) off
  | .host => readHost s off
  | .none => 0

/-- A byte of a window. -/
def windowByte (s : State) (ep off : Nat) : Byte :=
  let r := regAt (windowOf s ep) off
  BitVec.ofNat 8 (readReg s ep r.1 / 2 ^ (8 * (off - r.1)))

/-- Bytes of a window. -/
def windowRead (s : State) (ep off n : Nat) : List Byte := (List.range n).map (fun i => windowByte s ep (off + i))

/-! ## Registers that act when written -/

/-- PERFSEL (R346): every counter whose field changes is zeroed. -/
def writePerfsel (s : State) (ep : Nat) (v : Word) : State :=
  s.updCore ep (fun c => { c with
    perfsel := v
    perf := (List.range 8).map (fun i =>
      if bits v.toNat (4 * i + 3) (4 * i) = bits c.perfsel.toNat (4 * i + 3) (4 * i) then c.perf.getD i 0#64 else 0#64) })
/-- PERFSEL. -/
def execPerfsel (core : Nat) (value : Word) (s : State) : Host.Outcome State Fault Refusal := .next (writePerfsel s core value)

/-- PERFCLR (R346). -/
def writePerfclr (s : State) (ep : Nat) (v : Word) : State :=
  s.updCore ep (fun c => { c with perf := (List.range 8).map (fun i => if v.getLsbD i then 0#64 else c.perf.getD i 0#64) })
/-- PERFCLR. -/
def execPerfclr (core : Nat) (value : Word) (s : State) : Host.Outcome State Fault Refusal := .next (writePerfclr s core value)

/-- MXCLR (R397): the selected fields of MXEXC become zero. -/
def writeMxclr (s : State) (ep : Nat) (v : Word) : State :=
  let keep (i : Nat) (x : DWord) : Nat := if v.getLsbD i then 0 else bits x.toNat (16 * i + 15) (16 * i) * 2 ^ (16 * i)
  s.updCore ep (fun c => { c with mxexc := BitVec.ofNat 64 (keep 0 c.mxexc + keep 1 c.mxexc + keep 2 c.mxexc + keep 3 c.mxexc) })
/-- MXCLR. -/
def execMxclr (core : Nat) (value : Word) (s : State) : Host.Outcome State Fault Refusal := .next (writeMxclr s core value)

/-- EVHEAD (R366). -/
def writeEvhead (s : State) (v : Word) : State := s.updHost (fun h => { h with evhead := v })
/-- EVHEAD. -/
def execEvhead (value : Word) (s : State) : Host.Outcome State Fault Refusal := .next (writeEvhead s value)

/-- CRBASE of a ring (R165, R368): a ring whose EN is set is served from CRHEAD.  A write while EN is 1 is taken like any other (DESIGN CHOICE,
log 155). -/
def writeCrbase (s : State) (q : Nat) (v : DWord) : State :=
  s.updHost (fun h => { h with rings := h.rings.modify q (fun r => { r with base := v &&& 0x000FFFFFFFFFF11F#64 }) })
/-- CRBASE. -/
def execCrbase (ring : Nat) (value : DWord) (s : State) : Host.Outcome State Fault Refusal := .next (writeCrbase s ring value)

/-- DBGCTL (R340). -/
def writeDbgctl (s : State) (ep : Nat) (v : Word) : State :=
  let s1 := s.updCore ep (fun c => { c with attach := v.getLsbD 0 })
  if v.getLsbD 31 then resumeStopped s1 ep (v.extractLsb' 8 6).toNat else s1

/-- PRAISE (R49). -/
def writePraise (s : State) (ep : Nat) (v : Word) : State := praise s ep (v.getLsbD 31) (v.toNat % 64)

/-- TABORT (R387). -/
def writeTabort (s : State) (ep : Nat) (v : Word) : State := if v.getLsbD 31 then abortTeam s ep (v.toNat % 64) else s

/-! ## Writing (R13) -/

/-- A register of a core's window. -/
def writeCore (s : State) (ep off v : Nat) : State :=
  let w := BitVec.ofNat 32 v
  let set (f : Core → Core) : State := s.updCore ep f
  match off with
  | 0x000 => set (fun c => { c with xctl := w &&& 0xFFFF01FF#32 })
  | 0x004 => set (fun c => { c with pdline := w &&& 0x00FFFFFF#32 })
  | 0x008 => writePraise s ep w
  | 0x010 => resumeTeam s ep w
  | 0x040 => set (fun c => { c with spool := w &&& 0x03FF01FF#32 })
  | 0x044 => set (fun c => { c with qdepth := w })
  | 0x04C => set (fun c => { c with allowcfg := w &&& 0x03FF000F#32 })
  | 0x050 => set (fun c => { c with tvec := BitVec.ofNat 64 v &&& 0x00FFFFFFFFFFFFFC#64 })
  | 0x058 => writeDbgctl s ep w
  | 0x060 => writePerfsel s ep w
  | 0x064 => writePerfclr s ep w
  | 0x068 => writeTabort s ep w
  | 0x078 => writeMxclr s ep w
  | 0x080 => set (fun c => { c with fewait := w &&& 0x00FFFFFF#32 })
  | _ => s

/-- Bits of a base register (R122). -/
def baseBits (v : Nat) : DWord := BitVec.ofNat 64 v &&& 0x000FFFFFFFFFF000#64

/-- A register of a slice's window; while EN is 1 only DSIZE, FQHEAD and REPAGE take writes (R120). -/
def writeSlice (s : State) (i off v : Nat) : State :=
  let w := BitVec.ofNat 32 v
  let set (f : Slice → Slice) : State := if (s.slice i).dsize.getLsbD 31 then s else s.updSlice i f
  match off with
  | 0x00 => set (fun x => { x with dctl := w })
  | 0x04 => writeDsize s i w
  | 0x08 => set (fun x => { x with ttbase := baseBits v })
  | 0x10 => set (fun x => { x with plbase := baseBits v })
  | 0x18 => set (fun x => { x with fqbase := baseBits v })
  | 0x20 => s.updSlice i (fun x => { x with fqhead := w })
  | 0x30 => set (fun x => { x with pkbase := baseBits v })
  | 0x40 => repage s i w.toNat
  | _ => s

/-- Packets held at a gateway for want of a port go to one that leads there now (R155). -/
def sendHeld (s : State) : State :=
  (s.packets.filter (fun p => epPackage p.2.dst != Config.package)).foldl (fun s p =>
    match portOnward s p.2 with
    | some n => queueAtPort { s with packets := s.packets.drop p.1 } n p.2
    | none => s) s

/-- PORTCFG of a port: its RW fields; a port whose EN is cleared is not up, and one whose EN is set takes what is held for it, ahead of what
comes later (R149). -/
def setPortcfg (s : State) (p : Nat) (v : Word) : State :=
  sendHeld <| s.updPkg (fun k => { k with ports := k.ports.modify p (fun q => { q with cfg := v &&& 0x800101FF#32, up := q.up && v.getLsbD 31 }) })

/-- PROUTE of a gateway toward a package. -/
def setProute (s : State) (gw n v : Nat) : State :=
  s.updPkg (fun k => { k with
    proute := (gw, n, v % 65536) :: k.proute.filter (fun r => !(r.1 == gw && r.2.1 == n)) })

/-- A register of a die controller's window. -/
def writeController (s : State) (die off v : Nat) : State :=
  if off = 0x200 ∧ 16 ≤ die ∧ die < 22 then s.updDie die (fun d => { d with fewait := BitVec.ofNat 32 v &&& 0x00FFFFFF#32 })
  else if 22 ≤ die ∧ 0x100 ≤ off ∧ off < 0x120 then setPortcfg s ((die - 22) * 8 + (off - 0x100) / 4) (BitVec.ofNat 32 v)
  else if 22 ≤ die ∧ 0x1000 ≤ off ∧ off < 0x1400 then setProute s die ((off - 0x1000) / 4) v
  else s

/-- A register of the host port agent's window. -/
def writeHost (s : State) (off v : Nat) : State :=
  if off = 0x080 then s.updHost (fun h => { h with evbase := BitVec.ofNat 64 v &&& 0x000FFFFFFFFFF11F#64 })
  else if off = 0x08C then writeEvhead s (BitVec.ofNat 32 v)
  else if 0x100 ≤ off ∧ off < 0x200 ∧ off % 16 = 0 then writeCrbase s ((off - 0x100) / 16) (BitVec.ofNat 64 v)
  else if 0x100 ≤ off ∧ off < 0x200 ∧ off % 16 = 8 then
    s.updHost (fun h => { h with rings := h.rings.modify ((off - 0x100) / 16) (fun r => { r with tail := BitVec.ofNat 32 v }) })
  else s

/-- Who writes a register: an address space with its root table, and the scope of a store-release (R93). -/
structure Writer where
  asid : Nat
  root : Nat
  scope : Nat
  deriving DecidableEq, Repr

/-- The host and its firmware, in address space 0 and at system scope. -/
def hostWriter (s : State) : Writer := { asid := 0, root := rootOf s 0, scope := 7 }

/-- The thread whose store a packet carries: its team's address space, and the scope of a release (R93). -/
def threadWriter (s : State) (p : Packet) (thread op : Nat) : Writer where
  asid := (s.team p.team).asid
  root := (s.team p.team).root
  scope := (((s.thread thread).bind (fun t => t.ops.find op)).bind (·.release)).getD 7

/-- Writes one register whole; a kick that finds sixteen queued waits (none). -/
def writeReg (s : State) (ep : Nat) (who : Writer) (off v : Nat) : Option State :=
  let kick : Option State := queueKick s ep who.asid who.root who.scope (BitVec.ofNat 64 v)
  match windowOf s ep with
  | .core => if off = 0x800 then (if kickable s ep then kick else some s) else some (writeCore s ep off v)
  | .hart => if off = 0x800 then kick else some s
  | .tlb => some (if off = 4 then s.updDie (epDie ep) (fun d => { d with ftmo := BitVec.ofNat 32 v &&& 0x00FFFFFF#32 }) else s)
  | .slice => some (writeSlice s (epDie ep - 16) off v)
  | .controller => some (writeController s (epDie ep) off v)
  | .host => some (writeHost s off v)
  | .none => some s

/-- Writes bytes of a window, register by register: bytes of a register that are not written keep the value it reads as (log 41). -/
def windowWrite (s : State) (ep : Nat) (who : Writer) (off : Nat) (bs : List Byte) : Option State :=
  let regs := ((List.range bs.length).map (fun i => regAt (windowOf s ep) (off + i))).eraseDups
  regs.foldl (fun r x =>
    r.bind (fun s1 =>
      let old := leBytes x.2 (readReg s1 ep x.1)
      let new := (List.range x.2).map (fun i =>
        if off ≤ x.1 + i ∧ x.1 + i < off + bs.length then bs.getD (x.1 + i - off) 0#8 else old.getD i 0#8)
      writeReg s1 ep who x.1 (leNat new))) (some s)

/-- REGISTER_WRITE. -/
def execRegisterWrite (ep offset : Nat) (data : List Byte) (s : State) : Host.Outcome State Fault Refusal :=
  .next ((windowWrite s ep (hostWriter s) offset data).getD s)

/-! ## Requests at homes (R67) -/

/-- A home performs a read or write request: of memory, of a register window, of a cluster member's scratch. -/
def homeRequest (s : State) (p : Packet) : Option State :=
  match p.body with
  | .request _ pc thread op _ =>
    if regionOf pc.pa == .agent then
      let off := pc.pa % 0x10000
      if (windowAt pc.pa).isNone then
        some (if pc.access.writes then s.reply p 0x21 (.acknowledgment thread op)
          else s.reply p 0x20 (.data (List.replicate pc.access.size 0#8) thread op))
      else match pc.access with
      | .store bs => (windowWrite s p.dst (threadWriter s p thread op) off bs).map (fun s1 => s1.reply p 0x21 (.acknowledgment thread op))
      | a => some (s.reply p 0x20 (.data (windowRead s p.dst off a.size) thread op))
    else match performHome s pc.pa pc.access pc.hint with
      | none => some (refuse s p 0x2A 0#64 thread op)
      | some (s1, bs) =>
        if pc.access.writes then some (s1.reply p 0x21 (.acknowledgment thread op))
        else some (s1.reply p 0x20 (.data bs thread op))
  | .member off a thread op =>
    let s0 := sink s p.dst p.src p.flits
    let whole := match a with
      | .store _ => true
      | _ => false
    if hitsError s (scratchLoc p.dst off) a.size whole then some (loseAt (refuse s0 p 0x2A 0#64 thread op) p.dst (scratchLoc p.dst off) thread)
    else match a with
      | .store bs => some ((writeLoc s0 (scratchLoc p.dst off) bs).reply p 0x21 (.acknowledgment thread op))
      | _ => some (s0.reply p 0x20 (.data (readScratch s p.dst off a.size) thread op))
  | _ => none

/-- An access to a core's scratch may not overtake an earlier one of its thread (R55); others have no such owner. -/
def ownTurn (s : State) (k : Nat) (p : Packet) : Bool :=
  match p.body with
  | .member _ _ thread _ => !threadEarlier s p k thread
  | _ => true

/-- REQ_READ. -/
def execReqRead (s : State) : Host.Outcome State Fault Refusal :=
  .next (arrive s (isRequest 0x10) (fun s k p => if ownTurn s k p then homeRequest s p else none))
/-- REQ_WRITE. -/
def execReqWrite (s : State) : Host.Outcome State Fault Refusal :=
  .next (arrive s (isRequest 0x11) (fun s k p => if ownTurn s k p then homeRequest s p else none))

/-- REQ_SPILL_WRITE: the slot of the backing ring is written and the queue acknowledged; a slot whose entry has been taken or retired
meanwhile keeps its state (R439). -/
def execReqSpillWrite (s : State) : Host.Outcome State Fault Refusal :=
  .next (arrive s (fun p => p.typ == 0x1A) (fun s _ p =>
    match p.body with
    | .spill pa bs q => some ((if field (s.read (pa + 96) 1) 0 1 < 2 then agentPut s pa bs else visitLines s pa bs.length).reply p 0x21 (.acknowledgment 0 q))
    | _ => none))

end Sys2Proof.Machine
end

