-- ==== Sys2Proof/Machine/Views.lean ====
section
/-! DEFINITION. View domains (R158 to R160, R446 to R449): proposing, accepting and installing a view, joins, loss reports and the
heartbeats between Chalumeaux. -/

namespace Sys2Proof.Machine

/-! ## Chalumeaux and members (R158, R159) -/

/-- The Chalumeau of a package: this package's leading one, the one on link gateway 22 of another. -/
def chalumeauOf (s : State) (pkg : Nat) : Nat :=
  pkg * 4096 + (if pkg = Config.package then s.pkg.chalumeau else 22) * 128 + 125

/-- The packages that hold members of a set, once each. -/
def packagesOf (d : Domain) (set : List Bool) : List Nat :=
  (((d.members.zip set).filter (·.2)).map (·.1.1)).eraseDups

/-- A member is known to be lost: its loss is wanted, or its package is unreachable. -/
def knownLost (s : State) (d : Domain) (i : Nat) : Bool :=
  d.wanted.contains (i, false) || s.pkg.unreachable.contains (d.members.getD i (0, 0)).1

/-- The member of lowest index that is live and not known to be lost: its package's Chalumeau coordinates (R159, R446). -/
def coordinator (s : State) (d : Domain) : Option Nat :=
  (List.range d.members.length).find? (fun i => d.set.getD i false && !knownLost s d i)

/-- Package of a member. -/
def memberPackage (d : Domain) (i : Nat) : Nat := (d.members.getD i (0, 0)).1

/-- This package's Chalumeau coordinates the domain. -/
def coordinates (s : State) (d : Domain) : Bool := (coordinator s d).map (memberPackage d) == some Config.package

/-- Member index by which a package's Chalumeau coordinates: its lowest live one. -/
def coordinatorIndex (d : Domain) (pkg : Nat) : Nat :=
  ((List.range d.members.length).find? (fun i => d.set.getD i false && memberPackage d i == pkg)).getD 256

/-- Sends a view-protocol message to a package's Chalumeau. -/
def sendView (s : State) (pkg message dom view : Nat) (set : List Bool) (member : Nat) : State :=
  s.ctl (chalumeauOf s Config.package) (chalumeauOf s pkg) 0x0A (.viewProtocol message dom view set member)

/-! ## Installing (R159, R160, R446 to R448) -/

/-- The threads of a die that are armed at a view the die has left and Parked in CWAIT take the membership-change trap. -/
def trapArmed (s : State) (die : Nat) : State :=
  (s.threads.filter (fun p => epDie p.2.core == die && p.2.ops.any (fun x => x.2.token == 6 && x.2.held))).foldl (fun s p => pollTry s p.1) s

/-- Installs a view and its set: in every die controller of the package, with event 0x69; blocks of the old view are discarded, assignments
cleared, changes that it makes no longer wanted. -/
def installView (s : State) (dom view : Nat) (set : List Bool) : State :=
  match domainOf s dom with
  | none => s
  | some _ =>
    let dies := (List.range 24).filter (fun i => (s.die i).present)
    let s1 := updDomain s dom (fun d => { d with
      view := view
      set := set
      phase := .installing
      accepts := []
      installs := dies
      wanted := d.wanted.filter (fun w => set.getD w.1 false != w.2)
      blocks := []
      assigned := [] })
    let s2 := dies.foldl (fun s i => s.updDie i (fun x => { x with views := x.views.put dom view })) s1
    let s3 := (s2.event (chalumeauOf s2 Config.package) 0 0x69 1 false view (liveMembers s2 dom)).count (lifeKey 9 dom 0) 1
    dies.foldl trapArmed s3

/-- The coordinator commits its proposal, to the packages of the old and of the new set. -/
def commitView (s : State) (dom : Nat) : State :=
  match domainOf s dom with
  | none => s
  | some d =>
    let dest := (packagesOf d d.set ++ packagesOf d d.propSet).eraseDups.filter (fun p =>
      p != Config.package && !s.pkg.unreachable.contains p)
    installView (dest.foldl (fun s p => sendView s p 3 dom d.propView d.propSet 0) s) dom d.propView d.propSet

/-- The set with every wanted change made. -/
def wantedSet (d : Domain) : List Bool := d.wanted.foldl (fun l w => l.set w.1 w.2) d.set

/-- The coordinator of a stable domain proposes the next view where a change is wanted. -/
def proposeView (s : State) (dom : Nat) : State :=
  match domainOf s dom with
  | none => s
  | some d =>
    if d.wanted.isEmpty || d.phase != .stable || !coordinates s d then s
    else
      let set := wantedSet d
      let view := (d.view + 1) % 2 ^ 24
      let dest := (packagesOf d set).filter (fun p => p != Config.package && !s.pkg.unreachable.contains p)
      let s1 := updDomain s dom (fun d => { d with
        phase := .proposing, propView := view, propSet := set, propFrom := coordinatorIndex d Config.package, accepts := dest })
      if dest.isEmpty then commitView s1 dom else dest.foldl (fun s p => sendView s p 0 dom view set 0) s1

/-- A change of a member's place in the set is wanted: noted, proposed where this package coordinates and the domain is stable, else
reported to the coordinator (R446, R449). -/
def wantChange (s : State) (dom i : Nat) (join report : Bool) : State :=
  match domainOf s dom with
  | none => s
  | some d =>
    if d.members.length ≤ i ∨ d.set.getD i false = join ∨ d.wanted.contains (i, join) then s
    else
      let s1 := updDomain s dom (fun d => { d with wanted := d.wanted.filter (fun w => w.1 != i) ++ [(i, join)] })
      match domainOf s1 dom with
      | none => s1
      | some e =>
        if coordinates s1 e then proposeView s1 dom
        else match coordinator s1 e with
          | some c => if report then sendView s1 (memberPackage e c) (if join then 4 else 5) dom e.view [] i else s1
          | none => s1

/-- VIEW_INSTALL_ACKNOWLEDGMENT: a die controller has acknowledged; after the last the domain is stable, and a further change is
proposed. -/
def acknowledgeInstall (s : State) (dom die : Nat) : State :=
  match domainOf s dom with
  | none => s
  | some d =>
    if d.phase != .installing || !d.installs.contains die then s
    else
      let left := d.installs.filter (fun x => x != die)
      let s1 := updDomain s dom (fun d => { d with installs := left, phase := if left.isEmpty then .stable else .installing })
      if left.isEmpty then proposeView s1 dom else s1

/-- VIEW_INSTALL_ACKNOWLEDGMENT. -/
def execViewInstallAcknowledgment (domain die : Nat) (s : State) : Host.Outcome State Fault Refusal :=
  .next (acknowledgeInstall s domain die)

/-! ## Messages arriving (R159, R446, R449) -/

/-- The packet is a view-protocol message. -/
def isView (n : Nat) (p : Packet) : Bool :=
  match p.body with
  | .viewProtocol m _ _ _ _ => m == n
  | _ => false

/-- A proposal arrives: accepted where none is open or its coordinator has the lower index, else rejected. -/
def proposalArrives (s : State) (p : Packet) (dom view : Nat) (set : List Bool) : State :=
  match domainOf s dom with
  | none => s
  | some d =>
    let pkg := epPackage p.src
    let from_ := coordinatorIndex d pkg
    let prepare (s : State) : State :=
      sendView (updDomain s dom (fun d => { d with
        phase := .prepared, propView := view, propSet := set, propFrom := from_, accepts := [] })) pkg 1 dom view [] 0
    if view ≠ (d.view + 1) % 2 ^ 24 then s
    else match d.phase with
      | .stable => prepare s
      | .prepared | .proposing => if from_ ≤ d.propFrom then prepare s else sendView s pkg 2 dom view [] 0
      | .installing => s

/-- VIEW_PROPOSE. -/
def execViewPropose (s : State) : Host.Outcome State Fault Refusal :=
  .next (arrive s (isView 0) (fun s _ p =>
    match p.body with
    | .viewProtocol _ dom view set _ => some (proposalArrives s p dom view set)
    | _ => none))

/-- An ACCEPT arrives: once all have accepted, the coordinator commits. -/
def acceptArrives (s : State) (p : Packet) (dom view : Nat) : State :=
  match domainOf s dom with
  | none => s
  | some d =>
    if d.phase != .proposing || d.propView != view then s
    else
      let left := d.accepts.filter (fun x => x != epPackage p.src)
      let s1 := updDomain s dom (fun d => { d with accepts := left })
      if left.isEmpty then commitView s1 dom else s1

/-- VIEW_ACCEPT. -/
def execViewAccept (s : State) : Host.Outcome State Fault Refusal :=
  .next (arrive s (isView 1) (fun s _ p =>
    match p.body with
    | .viewProtocol _ dom view _ _ => some (acceptArrives s p dom view)
    | _ => none))

/-- VIEW_REJECT: the proposal is withdrawn; its coordinator waits for the other proposal's COMMIT. -/
def execViewReject (s : State) : Host.Outcome State Fault Refusal :=
  .next (arrive s (isView 2) (fun s _ p =>
    match p.body with
    | .viewProtocol _ dom view _ _ => some (match domainOf s dom with
      | none => s
      | some d =>
        if d.phase != .proposing || d.propView != view then s
        else updDomain s dom (fun d => { d with phase := .prepared, accepts := [] }))
    | _ => none))

/-- VIEW_COMMIT: the next view is installed. -/
def execViewCommit (s : State) : Host.Outcome State Fault Refusal :=
  .next (arrive s (isView 3) (fun s _ p =>
    match p.body with
    | .viewProtocol _ dom view set _ => some (match domainOf s dom with
      | none => s
      | some d => if view = (d.view + 1) % 2 ^ 24 then installView s dom view set else s)
    | _ => none))

/-- VIEW_JOIN: a member asks to join. -/
def execViewJoin (s : State) : Host.Outcome State Fault Refusal :=
  .next (arrive s (isView 4) (fun s _ p =>
    match p.body with
    | .viewProtocol _ dom _ _ i => some (wantChange s dom i true false)
    | _ => none))

/-- LOSS_REPORT: a member is reported lost. -/
def execLossReport (s : State) : Host.Outcome State Fault Refusal :=
  .next (arrive s (isView 5) (fun s _ p =>
    match p.body with
    | .viewProtocol _ dom _ _ i => some (wantChange s dom i false false)
    | _ => none))

/-! ## Heartbeats (R446) -/

/-- The other packages that hold members of a domain held here. -/
def peers (s : State) : List Nat :=
  ((s.pkg.domains.flatMap (fun p => packagesOf p.2 (p.2.members.map (fun _ => true)))).eraseDups).filter (fun p => p != Config.package)

/-- CHALUMEAU_HEARTBEAT: every 10 microseconds a heartbeat goes to each of them; the wait for a package's first one begins then. -/
def sendBeats (s : State) : State :=
  if s.time < s.pkg.beatAt + 10000 ∨ (peers s).isEmpty then s
  else (peers s).foldl (fun s p =>
      sendView (s.updPkg (fun k => { k with
        beats := if (k.beats.find p).isSome || k.unreachable.contains p then k.beats else k.beats.put p s.time })) p 6 0 0 [] 0)
    (s.updPkg (fun k => { k with beatAt := s.time }))

/-- CHALUMEAU_HEARTBEAT. -/
def execChalumeauHeartbeat (s : State) : Host.Outcome State Fault Refusal := .next (sendBeats s)

/-- CHALUMEAU_HEARTBEAT_ARRIVAL. -/
def execChalumeauHeartbeatArrival (s : State) : Host.Outcome State Fault Refusal :=
  .next (arrive s (isView 6) (fun s _ p =>
    some (s.updPkg (fun k => { k with beats := k.beats.put (epPackage p.src) s.time }))))

/-- The members of a package, or of one die of it, are reported lost to every domain that lists them. -/
def reportMembers (s : State) (hit : Nat × Nat → Bool) : State :=
  s.pkg.domains.foldl (fun s p =>
    (List.range p.2.members.length).foldl (fun s i =>
      if hit (p.2.members.getD i (0, 0)) then wantChange s p.1 i false true else s) s) s

/-- The heartbeats of a package have been absent for 50 microseconds. -/
def beatsAbsent (s : State) (pkg : Nat) : Bool :=
  match s.pkg.beats.find pkg with
  | some t => decide (t + 50000 ≤ s.time)
  | none => false

/-- CHALUMEAU_HEARTBEAT_LOSS: the package named by State.obj is lost to its domains, and unreachable next (R432). -/
def loseBeats (s : State) (pkg : Nat) : State :=
  if !beatsAbsent s pkg then s
  else
    let s1 := s.updPkg (fun k => { k with beats := k.beats.drop pkg })
    let s2 := reportMembers s1 (fun m => m.1 == pkg)
    { s2 with agenda := .event .packageUnreachable pkg :: s2.agenda }

/-- CHALUMEAU_HEARTBEAT_LOSS. -/
def execChalumeauHeartbeatLoss (s : State) : Host.Outcome State Fault Refusal := .next (loseBeats s s.obj)

end Sys2Proof.Machine
end

