-- ==== Sys2Proof/Machine/Links.lean ====
section
/-! DEFINITION. Drinyx ports (R153 to R155, R430, R431): packing and sending units, receiving them, replay, locking, re-attestation,
keys and training. -/

namespace Sys2Proof.Machine

/-! ## Ports -/

/-- A port. -/
def portOf (s : State) (p : Nat) : Port := s.pkg.ports.getD p Port.reset
/-- Changes a port. -/
def updPort (s : State) (p : Nat) (f : Port → Port) : State := s.updPkg (fun k => { k with ports := k.ports.modify p f })
/-- EN of a port. -/
def portOn (q : Port) : Bool := q.cfg.getLsbD 31
/-- The fault unit of a port's gateway. -/
def portUnit (p : Nat) : Nat := faultUnit (22 + p / 8)
/-- An event of a port, from its gateway's fault unit; of a port on a lost gateway from the serving one's. -/
def portEvent (s : State) (p code sev n : Nat) : State :=
  s.event (if (s.die (22 + p / 8)).present then portUnit p else faultUnit s.host.serving) 9 code sev false p n

/-! ## Sending (R153 to R155) -/

/-- Number of an input buffer: 2c + v, of class c and DVC v (R153). -/
def bufferOf (cls dvc : Nat) : Nat := 2 * cls + dvc % 2

/-- The waiting packets that leave, in order, and those that stay: room flits fit into the units a port may still send, and a packet leaves
when the far end's buffer of its class and DVC has a slot for each of its flits; none passes another of its buffer. -/
def pickPackets : Nat → List Nat → List Packet → List Packet × List Packet
  | _, _, [] => ([], [])
  | room, credits, p :: rest =>
    let b := bufferOf p.cls p.dvc
    if room < p.flits then
      let r := pickPackets 0 credits rest
      (r.1, p :: r.2)
    else if credits.getD b 0 < p.flits then
      let r := pickPackets room (credits.set b 0) rest
      (r.1, p :: r.2)
    else
      let r := pickPackets (room - p.flits) (credits.modify b (· - p.flits)) rest
      (p :: r.1, r.2)

/-- The link control that a port has to send: credit returns of up to 31 slots for each buffer, the highest unit accepted in order, and a replay
request. -/
def controlDue (q : Port) : List DrinyxSlot :=
  if q.answer || q.freed.any (fun n => n != 0) then
    [.control (q.freed.map (min 31)) (if q.acceptSeq = 0 then none else some (q.acceptSeq - 1)) q.replayFrom []]
  else []

/-- Packs link control and packets into units of four slots, from a sequence number on, the last unit filled up with empty slots (R154); a
packet counts in the unit of its last flit. -/
def packUnits (seq : Nat) (head : List DrinyxSlot) (l : List Packet) : List SentUnit :=
  let ends := l.foldl (fun (a : Nat × List (Nat × Packet)) p => (a.1 + p.flits, a.2 ++ [((a.1 + p.flits - 1) / 4, p)])) (head.length, [])
  let slots := head ++ l.flatMap (fun p => List.replicate p.flits (.flit p.cls p.dvc none))
  (List.range ((ends.1 + 3) / 4)).map (fun i =>
    { seq := (seq + i) % 2 ^ 48
      slots := (List.range 4).map (fun j => slots.getD (4 * i + j) .empty)
      packets := (ends.2.filter (fun x => x.1 == i)).map (·.2) })

/-- A new session key is due: the sequence number comes near 2^47, and the key was not agreed just now (R153). -/
def rekeyDue (q : Port) : Bool := decide (q.sendSeq < 2 ^ 47) && decide (2 ^ 47 ≤ q.sendSeq + 256) && decide (256 < q.keyUnits)

/-- A locked port's re-attestation message: a report of 272 bytes in the form of R174, whose contents are free, in seven fragments over two
units of link control (R153, R431; DESIGN CHOICE, log 163). -/
def sendReport (s : State) (p : Nat) : State :=
  let q := portOf s p
  let b := freeBytes s 10 280
  let slot (i : Nat) : DrinyxSlot := .control (List.replicate 12 0) none none ((b.1.drop (40 * i)).take (min 40 (272 - 40 * i)))
  let us : List SentUnit := [0, 1].map (fun i =>
    { seq := (q.sendSeq + i) % 2 ^ 48, slots := (List.range 4).map (fun j => if 4 * i + j < 7 then slot (4 * i + j) else .empty), packets := [] })
  updPort b.2 p (fun q => { q with
    unacked := q.unacked ++ us, sendSeq := (q.sendSeq + 2) % 2 ^ 48, keyUnits := q.keyUnits + 2, reported := true })

/-- DRINYX_PARTIAL_UNIT: what waits at a port leaves, as far as the far end's buffers and the 128 units that the port keeps (R430) have
room, the last unit partly filled; a locked port sends its re-attestation message instead, once. -/
def sendUnits (s : State) (p : Nat) : State :=
  let q := portOf s p
  let head := controlDue q
  let go := pickPackets ((128 - q.unacked.length) * 4 - head.length) q.credits q.waiting
  if portOn q && q.locked && !q.reported && decide (q.unacked.length ≤ 126) then sendReport s p
  else if !portOn q || !q.up || q.locked || rekeyDue q || decide (128 ≤ q.unacked.length) || (head.isEmpty && go.1.isEmpty) then s
  else
    let us := packUnits q.sendSeq head go.1
    updPort s p (fun q => { q with
      waiting := go.2, unacked := q.unacked ++ us, sendSeq := (q.sendSeq + us.length) % 2 ^ 48, keyUnits := q.keyUnits + us.length
      credits := go.1.foldl (fun l x => l.modify (bufferOf x.cls x.dvc) (· - x.flits)) q.credits
      freed := q.freed.map (· - 31), answer := false })

/-- DRINYX_PARTIAL_UNIT. -/
def execDrinyxPartialUnit (s : State) : Host.Outcome State Fault Refusal := .next (sendUnits s s.obj)

/-- A replay is requested: the units from that number on are sent again, and counted. -/
def replayUnits (s : State) (p seq : Nat) : State :=
  let n := ((portOf s p).unacked.filter (fun u => decide (seq ≤ u.seq))).length
  if n = 0 then s else (portEvent s p 0x60 1 n).count (lifeKey 5 p 0) n

/-- DRINYX_REPLAY_REQUEST. -/
def execDrinyxReplayRequest (port seq : Nat) (s : State) : Host.Outcome State Fault Refusal := .next (replayUnits s port seq)

/-! ## Locking and failure (R431) -/

/-- A port locks. -/
def lockPort (s : State) (p : Nat) : State :=
  portEvent (updPort s p (fun q => { q with up := false, locked := true, reported := false, lockedAt := s.time })) p 0x61 2 0

/-- A port fails: it is disabled, and its packets go over the ports that remain, before any later one. -/
def failPort (s : State) (p : Nat) : State :=
  let q := portOf s p
  let held := q.unacked.flatMap (·.packets) ++ q.waiting
  let s1 := portEvent (updPort s p (fun q => { q with
    cfg := q.cfg &&& 0x7FFFFFFF#32, up := false, locked := false, unacked := [], waiting := [] })) p 0x63 2 0
  held.foldl (fun s x =>
    match portOnward s x with
    | some n => queueAtPort s n x
    | none => { s with packets := s.packets.put s.fresh x, fresh := s.fresh + 1 }) s1

/-- REATTESTATION_COMPLETE: both ends agree new keys and the port goes on from the last acknowledged unit, or it fails. -/
def endAttestation (s : State) (p : Nat) (ok : Bool) : State :=
  if !(portOf s p).locked then s
  else if ok then
    portEvent (updPort s p (fun q => { q with
      up := portOn q, locked := false, keys := q.keys + 1, keyUnits := 0, failures := [], fails := [], replayFrom := none
      fragments := [] })) p 0x62 1 0
  else failPort s p

/-- REATTESTATION_COMPLETE. -/
def execReattestationComplete (port : Nat) (ok : Bool) (s : State) : Host.Outcome State Fault Refusal := .next (endAttestation s port ok)

/-- REATTESTATION_TIMEOUT: it has taken longer than 10 ms. -/
def attestationTimeout (s : State) (p : Nat) : State :=
  let q := portOf s p
  if q.locked && decide (q.lockedAt + 10000000 ≤ s.time) then failPort s p else s

/-- REATTESTATION_TIMEOUT. -/
def execReattestationTimeout (s : State) : Host.Outcome State Fault Refusal := .next (attestationTimeout s s.obj)

/-- SESSION_REKEY: before the sequence number reaches 2^47 the link agrees a new key and salt; numbers go on modulo 2^48. -/
def rekey (s : State) (p : Nat) : State :=
  if (portOf s p).up then updPort s p (fun q => { q with keys := q.keys + 1, keyUnits := 0 }) else s

/-- SESSION_REKEY. -/
def execSessionRekey (s : State) : Host.Outcome State Fault Refusal := .next (rekey s s.obj)

/-- PORT_TRAINING: the link trains and is keyed; the port comes up where the far package is its PEER, and otherwise stays down, with event
0x88 where training failed. -/
def trainPort (s : State) (p farPackage farPort : Nat) (ok : Bool) : State :=
  let q := portOf s p
  if !portOn q || q.up || q.locked then s
  else if !ok then portEvent s p 0x88 2 0
  else
    let match_ : Bool := farPackage == bits q.cfg.toNat 7 0
    sendHeld <| updPort s p (fun q => { q with
      up := match_, farPackage := farPackage, farPort := farPort % 16, keys := if match_ then q.keys + 1 else q.keys
      sendSeq := if match_ then 0 else q.sendSeq, acceptSeq := if match_ then 0 else q.acceptSeq
      keyUnits := if match_ then 0 else q.keyUnits, credits := if match_ then Port.reset.credits else q.credits
      freed := if match_ then Port.reset.freed else q.freed, answer := q.answer && !match_ })

/-- PORT_TRAINING. -/
def execPortTraining (port farPackage farPort : Nat) (ok : Bool) (s : State) : Host.Outcome State Fault Refusal :=
  .next (trainPort s port farPackage farPort ok)

/-! ## Packets from another package (R143 to R145) -/

/-- The thread and operation of a core that a reply from another package answers, by its SEQ (R143). -/
def opBySeq (s : State) (ep seq : Nat) : Nat × Nat :=
  if (s.die (epDie ep)).farWrites.any (fun w => w.1 == ep && w.2.1 == seq) then (farThread, seq)
  else if ((s.core ep).reads.find seq).isSome then (agentReader, seq)
  else match (s.threads.flatMap (fun p => if p.2.core = ep then (p.2.ops.filter (fun x => x.2.seq == seq && x.2.sent)).map (fun x => (p.1, x.1)) else [])) with
  | [] => (farThread, seq)
  | x :: _ => x

/-- A bit of a payload. -/
def payloadSet (bs : List Byte) : List Bool := (List.range 256).map (fun i => (field bs (i / 8) 1).testBit (i % 8))

/-- An atomic's fields in a payload: operation, kind, size, operand, swap (log 53). -/
def payloadAtomic (bs : List Byte) : Access :=
  .atomic (field bs 0 1) (field bs 1 1) (field bs 2 1) (BitVec.ofNat 64 (field bs 8 8)) (BitVec.ofNat 64 (field bs 16 8))

/-- What a packet from another package says.  Where R143 to R145 give a field no place, log 53 says where it is read. -/
def farBody (s : State) (f : FarPacket) : Option Body :=
  let a := f.addr.toNat
  let bs := f.payload
  let me := farThread
  let ix := field bs 24 4
  let answered := opBySeq s f.dst f.seq
  let step := f.counted.map (fun x => (x.1, x.2.1))
  let req (x : Access) : Option Body := some (.request f.typ { pa := a, home := true, access := x } me f.seq ix)
  match f.typ with
  | 0x01 => some (.creditReturn (a % 1024))
  | 0x02 => some (.routeFill (a % 2 ^ 32) ((List.range (bs.length / 4)).map (fun i => field bs (4 * i) 4 % 2 ^ 20)))
  | 0x03 => some (.routeUpdate (a % 2 ^ 32) ((List.range (bs.length / 4)).map (fun i => field bs (4 * i) 4 % 2 ^ 20)))
  | 0x09 => some (.incarnationUpdate (a % 32) (bits a 15 8))
  | 0x0A => some (.viewProtocol (a % 16) (bits a 7 4) (bits a 31 8) (payloadSet bs) (field bs 0 1))
  | 0x0D => some (.residency (a % 2 ^ 32) (f.addr.getLsbD 32) none me f.seq)
  | 0x0E => some (.residencyReply (a % 2 ^ 32) (BitVec.ofNat 32 (field bs 0 4)) answered.1 answered.2)
  | 0x0C => if a % 16 = 0 then some (.systemControl 0 []) else none
  | 0x0F => some (.retireNotice none)
  | 0x10 => req (.load (field bs 0 1))
  | 0x11 => req (.store bs)
  | 0x12 => req (match field bs 0 1 with
    | 0x80 => .arrive
    | 0x81 => .pending true (field bs 8 8) (field bs 16 4)
    | 0x82 => .pending false (field bs 8 8) (field bs 16 4)
    | _ => payloadAtomic bs)
  | 0x13 => req (.reduce (field bs 0 1) (field bs 1 1) (field bs 2 1) (BitVec.ofNat 64 (field bs 8 8)))
  | 0x14 => some (.get (a % 2 ^ 32) (field bs 0 1) (f.addr.getLsbD 32) me f.seq)
  | 0x15 | 0x16 => some (.put f.typ (a % 2 ^ 32) (f.addr.getLsbD 32) bs step me f.seq)
  | 0x17 => some (.signal (a % 2 ^ 32) (f.addr.getLsbD 32) (BitVec.ofNat 32 (field bs 0 4)) step ((f.counted.map (·.2.2)).getD 0) me f.seq)
  | 0x18 => some (.ratom (a % 2 ^ 32) (payloadAtomic bs) me f.seq ix)
  | 0x19 => req (match field bs 0 1 with
    | 0 => .take (field bs 1 1) ((field bs 2 1).testBit 0)
    | 1 => .fill (field bs 2 1) ((bs.drop 8).take (field bs 1 1))
    | _ => .setFe ((field bs 1 1).testBit 0))
  | 0x20 => some (.data bs answered.1 answered.2)
  | 0x21 => some (.acknowledgment answered.1 answered.2)
  | 0x22 => some (.refusal (field bs 0 1) (BitVec.ofNat 64 (field bs 8 8)) answered.1 answered.2)
  | 0x30 => some (.ray bs (bits a 1 0) me f.seq)
  | 0x40 | 0x41 => some (.hit f.typ bs (bits a 1 0) me f.seq)
  | 0x42 => if f.addr.getLsbD 63 then some (.join (a % 2 ^ 32) (bits a 47 32) me f.seq) else some (.hit f.typ bs (recPrio bs) me f.seq)
  | 0x43 => some (.block bs me f.seq)
  | _ => none

/-- Class of a TYPE (R144). -/
def classOf (typ : Nat) : Nat := typ / 16

/-- A packet from another package, as the mesh carries it. -/
def farPacket (s : State) (f : FarPacket) : Option Packet :=
  (farBody s f).map (farHeader s f)
where
  /-- Its header as it came (R143), with a body. -/
  farHeader (s : State) (f : FarPacket) (b : Body) : Packet :=
    { mkPacket (classOf f.typ) f.typ f.src f.dst (flitsOf f.payload.length) b with
      inc := f.inc, seq := f.seq, addr := f.addr, deriv := f.deriv, dvc := f.dvc, priv := f.priv, far := true, sent := s.ticks
      ord := f.ord, esc := f.esc, dn := f.dn, age := f.age, parent := f.parent }

/-- A packet delivered by a port: on to another package by its gateway's PROUTE, dropped for a stale incarnation (R152, R433), or onto the mesh:
of an enqueue for a lost home's queue, to the adopter (R440). -/
def deliverFar (s : State) (port : Nat) (f : FarPacket) : State :=
  let gw := 22 + port / 8
  if epPackage f.dst ≠ Config.package then
    let x := { farPacket.farHeader s f (.transit f.payload) with via := some (port, f.dvc) }
    match portOnward s x with
    | some n => queueAtPort s n x
    | none => { s with packets := s.packets.put s.fresh x, fresh := s.fresh + 1 }
  else match farPacket s f with
  | none => s
  | some p =>
    if f.typ ≠ 0x09 ∧ ((s.die gw).known.find (epPackage f.src * 32 + epDie f.src)).getD 0 ≠ f.inc then
      dropCounted s gw f.src
    else
      let x := if classOf f.typ = 4 then { p with dst := adopterOf s f.dst (queueOfType f.typ) } else p
      { s with packets := s.packets.put s.fresh x, fresh := s.fresh + 1 }

/-! ## Receiving (R430, R431) -/

/-- The whole packets that a unit's slots complete. -/
def unitPackets (u : DrinyxUnit) : List FarPacket :=
  u.slots.filterMap (fun x => match x with
    | .flit _ _ p => p
    | _ => none)

/-- One slot of a unit that has passed: a flit's place in its input buffer is free again, since the packet goes on at once; link control
brings credits back, the acknowledged units are forgotten, a requested replay is made, a fragment is kept. -/
def takeSlot (port : Nat) (s : State) (x : DrinyxSlot) : State :=
  match x with
  | .flit cls dvc _ => updPort s port (fun q => { q with freed := q.freed.modify (bufferOf cls dvc) (· + 1), answer := true })
  | .control returns acked replay fragment =>
    let s1 := updPort s port (fun q => { q with
      credits := q.credits.zipIdx.map (fun c => min 16 (c.1 + returns.getD c.2 0))
      unacked := match acked with
        | some n => q.unacked.filter (fun x => decide (n < x.seq))
        | none => q.unacked
      fragments := if fragment.isEmpty then q.fragments else q.fragments ++ [fragment] })
    match replay with
    | some n => replayUnits s1 port n
    | none => s1
  | .empty => s

/-- The fragments of a re-attestation message that a unit brings to a locked port (R431). -/
def takeFragments (s : State) (port : Nat) (u : DrinyxUnit) : State :=
  updPort s port (fun q => { q with fragments := q.fragments ++ u.slots.filterMap (fun x => match x with
    | .control _ _ _ f => if f.isEmpty then none else some f
    | _ => none) })

/-- A unit fails: it is discarded and its replay is asked for; four failures of one sequence number, or 64 within a millisecond,
lock the port. -/
def unitFails (s : State) (port : Nat) (u : DrinyxUnit) : State :=
  let q := portOf s port
  let fails := (s.time :: q.fails).filter (fun t => decide (s.time < t + 1000000))
  let n := (q.failures.find u.seq).getD 0 + 1
  let s0 := if u.tagOk then s else s.count (lifeKey 6 port 0) 1
  let s1 := updPort s0 port (fun q => { q with failures := q.failures.put u.seq n, fails := fails, replayFrom := some q.acceptSeq, answer := true })
  if 4 ≤ n ∨ 64 ≤ fails.length then lockPort s1 port else s1

/-- DRINYX_UNIT_RECEIVE. -/
def receiveUnit (s : State) (port : Nat) (u : DrinyxUnit) : State :=
  let q := portOf s port
  if portOn q && q.locked && u.tagOk then takeFragments s port u
  else if !portOn q || !q.up || q.locked then s
  else if !u.tagOk || u.seq != q.acceptSeq then unitFails s port u
  else
    let s1 := updPort s port (fun q => { q with acceptSeq := (q.acceptSeq + 1) % 2 ^ 48, failures := q.failures.drop q.acceptSeq, replayFrom := none })
    (unitPackets u).foldl (fun s f => deliverFar s port f) (u.slots.foldl (takeSlot port) s1)

/-- DRINYX_UNIT_RECEIVE. -/
def execDrinyxUnitReceive (port : Nat) (unit : DrinyxUnit) (s : State) : Host.Outcome State Fault Refusal :=
  .next (receiveUnit s port unit)

end Sys2Proof.Machine
end

