-- ==== Sys2Proof/Machine/Loss.lean ====
section
/-! DEFINITION. Losing a die or a package and taking it back (R424, R427, R429, R432 to R440, R445, R446, R449, R450): heartbeats,
fencing, draining, adoption of queues, re-runs, rejoining, and incarnation updates (R152). -/

namespace Sys2Proof.Machine

/-! ## Messages to the host (R162, R369) -/

/-- The host's link is trained. -/
def hostLinkUp (s : State) : Bool := s.host.links.contains s.host.gateway

/-- A message goes to the host, or is held in order while its link is down. -/
def toHost (s : State) (m : HostMessage) : State :=
  s.updHost (fun h => if h.links.contains h.gateway then { h with toHost := m :: h.toHost } else { h with held := h.held ++ [m] })

/-- What is held goes out in order. -/
def hostRelease (s : State) : State :=
  if hostLinkUp s then s.updHost (fun h => { h with toHost := h.held.reverse ++ h.toHost, held := [] }) else s

/-! ## Incarnations (R152) -/

/-- The present dies of the package. -/
def presentDies (s : State) : List Nat := (List.range 24).filter (fun d => (s.die d).present)

/-- The other packages that a PROUTE entry leads to. -/
def farPackages (s : State) : List Nat :=
  (((s.pkg.proute.filter (fun r => r.2.2 != 0)).map (fun r => r.2.1)).eraseDups).filter (fun n => n != Config.package)

/-- A die's incarnation is published: to every die of the package, for all its endpoints, and to the link gateways of the domain. -/
def publish (s : State) (src die inc : Nat) : State :=
  let near := (presentDies s).foldl (fun s d => s.ctl src (endpoint d 127) 0x09 (.incarnationUpdate die inc)) s
  (farPackages s).foldl (fun s p => [22, 23].foldl (fun s g =>
    s.ctl src (p * 4096 + g * 128 + 127) 0x09 (.incarnationUpdate die inc)) s) near

/-- The fault unit that decides losses: of the serving link gateway. -/
def lossUnit (s : State) : Nat := faultUnit s.host.serving

/-! ## Requests to a lost die (R436) -/

/-- Resolves an outstanding operation as refused with 0x67: counted down, its PUT bytes taken from PENDING; a slice's read of an image fails. -/
def refuseOp (s : State) (k op : Nat) : State :=
  if k = agentReader then s
  else if farThread < k then imageRefused s (k - imageReader 0) op
  else refusalArrives s (mkPacket 2 0x22 0 0 1 (.refusal 0x67 0#64 k op))

/-- The endpoint lies on the lost die. -/
def onLost (pkg die ep : Nat) : Bool := epPackage ep == pkg && epDie ep == die

/-- A thread and operation that a response answers. -/
def answered (p : Packet) : Option (Nat × Nat) :=
  match p.body with
  | .data _ t o | .acknowledgment t o | .refusal _ _ t o => some (t, o)
  | _ => none

/-- The operation is an enqueue: it has no piece to perform at a home and is not counted in RPEND. -/
def isEnqueue (s : State) (k op : Nat) : Bool :=
  match (s.thread k).bind (fun t => t.ops.find op) with
  | some p => p.pieces.isEmpty && !p.remote
  | none => false

/-- A packet on its way to a lost die: rays go to their slices, a slice's traffic to its partner, enqueues to the adopter of their queue, or stay
until it is bound again (R440); of every other its sender is told. -/
def resolveSent (pkg die : Nat) (s : State) (x : Nat × Packet) : State :=
  let p := x.2
  let gone := { s with packets := s.packets.drop x.1 }
  if pkg = Config.package ∧ epLocal p.dst = 125 ∧ die < 22 then
    { s with packets := s.packets.put x.1 { p with dst := endpoint (mirrorGateway die) 125 } }
  else match p.body with
  | .ray bs _ _ _ =>
    if pkg = Config.package then
      let s1 := if epLocal p.dst = 125 then s else rayRedirected s p.src p.dst bs
      { s1 with packets := s1.packets.put x.1 { p with dst := servingSlice s1 (rayTreelet bs), body := clearRay p.body } }
    else refuseOwner gone p
  | .hit _ _ _ _ _ | .join _ _ _ _ =>
    let q := queueOfType p.typ
    let home := adopterOf s p.dst q
    if pkg = Config.package ∧ home ≠ p.dst then { s with packets := s.packets.put x.1 { p with dst := home } }
    else if pkg = Config.package ∧ orphaned s p.dst q then s
    else refuseOwner gone p
  | _ => refuseOwner gone p
where
  /-- A ray's body without FWD. -/
  clearRay : Body → Body
    | .ray bs prio t o => .ray (clearFwd bs) prio t o
    | b => b
  /-- Refuses what a packet's sender waits for. -/
  refuseOwner (s : State) (p : Packet) : State :=
    match packetOwner p with
    | some (t, o) => refuseOp s t o
    | none => s

/-- A queue's ring holds a derived id: of an entry, of a held record, or in its doubt set (R436, R442). -/
def ringHolds (u : Queue) (d : DWord) : Bool :=
  doubtful u d || (NMap.vals u.entries).any (fun e => e.deriv == d) || (NMap.vals u.held).any (fun h => recDeriv h.bytes == d || h.applied.contains d)

/-- The rings of a lost home hold a derived id: of its adopted queues, or of those that wait for its die. -/
def homeHolds (s : State) (home : Nat) (d : DWord) : Bool :=
  s.pkg.adopted.any (fun a => a.1 == home && ringHolds ((s.core a.2.2).queue a.2.1) d) || s.pkg.orphans.any (fun x => x.1 == home && ringHolds x.2.2 d)

/-- A response from a lost die: dropped at its receiver.  An enqueue that it acknowledged is complete where the home's rings hold its derived id;
every other request is refused. -/
def resolveAnswer (s : State) (x : Nat × Packet) : State :=
  let gone := { s with packets := s.packets.drop x.1 }
  match answered x.2 with
  | none => gone
  | some (t, o) =>
    if isEnqueue s t o && homeHolds s x.2.src x.2.deriv then dataOr gone x.2 t o else refuseOp gone t o
where
  /-- The enqueue completes as its reply says. -/
  dataOr (s : State) (p : Packet) (t o : Nat) : State :=
    match p.body with
    | .data bs _ _ => answerPiece s t o bs
    | .acknowledgment _ _ => answerPiece s t o []
    | _ => refusalArrives s p

/-- An operation still waits for a home on the lost die, with no packet of it under way. -/
def waitsAtHome (pkg die : Nat) (p : Op) : Bool :=
  p.sent && (match p.pieces with
    | pc :: _ => pc.home && pc.pa / 2 ^ 44 == pkg && homeDie pc.pa == die
    | [] => false)

/-- Walks that read a table on the lost die are refused: a thread's with 0x67, an agent's as a malformed one. -/
def resolveWalks (s : State) (die : Nat) : State :=
  (presentDies s).foldl (fun s d =>
    ((s.die d).walks.filter (fun p => p.2.status == .reading && homeDie p.2.table == die)).foldl (fun s p =>
      if p.2.thread = 0 then
        s.updDie d (fun x => { x with walks := x.walks.adjust p.1 (fun w => { w with status := .bad }) })
      else
        let gone := s.updDie d (fun x => { x with walks := x.walks.drop p.1 })
        match gone.thread p.2.thread with
        | none => gone
        | some t => takeTrap gone p.2.thread { trapAt 0x67 (BitVec.ofNat 64 p.2.va) t.pc with cls := 8 }) s) s

/-- The reads of cores' agents at homes that are lost are refused, and the writes on their way there are over. -/
def resolveAgents (s : State) (lost : Nat → Bool) : State :=
  let s1 := { s with cores := s.cores.map (fun p => (p.1, { p.2 with
    reads := p.2.reads.map (fun x => (x.1, if x.2.got.isNone && lost x.2.pa then { x.2 with code := some 0x67 } else x.2)) })) }
  ((NMap.vals s1.dies).flatMap (fun d => d.farWrites.filter (fun w => lost w.2.2))).foldl (fun s w => farDone s w.1 w.2.1) s1

/-- Operations at endpoints of another package's lost die, whose packets have left the package (R432, R436). -/
def farOps (s : State) (lost : Nat → Bool) : List (Nat × Nat) :=
  s.threads.flatMap (fun p => (p.2.ops.filter (fun x => x.2.sent && (x.2.remote || x.2.token == 15) && lost (x.2.info.toNat / 2 ^ 32 % 2 ^ 20))).map
    (fun x => (p.1, x.1)))

/-- The rest of the part resolves what it has outstanding at a lost die, and homes withdraw the die's retry-list entries (R435, R436). -/
def resolveRequests (s : State) (pkg die : Nat) : State :=
  let lost := onLost pkg die
  let s1 := (s.packets.filter (fun p => lost p.2.dst)).foldl (resolveSent pkg die) s
  let s2 := (s1.packets.filter (fun p => lost p.2.src && p.2.cls == 2)).foldl resolveAnswer s1
  let waiting := s2.threads.flatMap (fun p => (p.2.ops.filter (fun x => waitsAtHome pkg die x.2)).map (fun x => (p.1, x.1)))
  let s3a := waiting.foldl (fun s x => refuseOp s x.1 x.2) s2
  let s3 := if pkg = Config.package then s3a
    else (farOps s3a lost).foldl (fun s x => refuseOp s x.1 x.2)
      (s3a.updPkg (fun k => { k with ports := k.ports.map (fun q => { q with waiting := q.waiting.filter (fun p => !lost p.dst) }) }))
  let s4 := resolveAgents (if pkg = Config.package then resolveWalks s3 die else s3) (fun pa => lost (homeEndpoint pa))
  let keep (l : List Retry) : List Retry := l.filter (fun r => !lost r.src)
  { s4 with
    cores := s4.cores.map (fun p => (p.1, { p.2 with retry := keep p.2.retry }))
    dies := s4.dies.map (fun p => (p.1, { p.2 with retry := keep p.2.retry })) }

/-! ## Supersteps (R450) -/

/-- A waiter's step has a scope of package or wider: as its operation says, or it comes from another package. -/
def wideWaiter (s : State) (w : Nat × Nat × Nat × Nat) : Bool :=
  match (s.thread w.2.2.1).bind (fun t => t.ops.find w.2.2.2) with
  | some p => wideScope (p.acquire.getD 7)
  | none => true

/-- The descriptors that a loss breaks: those with a waiter of such a scope, and bound ones with arrivals and no waiter. -/
def brokenSteps (s : State) : List Nat :=
  let ws := s.dies.flatMap (fun p => p.2.waiters)
  let bound := (boundDescriptors s).filter (fun d => !ws.any (fun w => w.1 == d) && field (s.read d 32) 12 4 != 0)
  ((ws.filter (wideWaiter s)).map (·.1) ++ bound).eraseDups

/-- A waiting thread takes the trap of a broken superstep. -/
def breakWaiter (step : Nat) (s : State) (w : Nat × Nat × Nat × Nat) : State :=
  match s.thread w.2.2.1 with
  | none => s
  | some t =>
    match t.ops.find w.2.2.2 with
    | none => s
    | some p =>
      takeTrap (s.updThread w.2.2.1 (fun u => { u with ops := u.ops.drop w.2.2.2 })) w.2.2.1
        { code := 0x6A, info0 := p.info, info1 := p.at_, late := false, seq := 0, low3 := some (BitVec.ofNat 32 step), cls := 0 }

/-- Breaks a superstep: ARRIVED and PENDING are 0, STEP rises by 1, every waiter traps. -/
def breakStep (s : State) (d : Nat) : State :=
  let step := (field (s.read d 32) 16 4 + 1) % 2 ^ 32
  let s1 := ((s.write d (leBytes 7 0)).write (d + 12) (leBytes 4 0)).write (d + 16) (leBytes 4 step)
  let mine := (s1.die (homeDie d)).waiters.filter (fun w => w.1 == d)
  let s2 := s1.updDie (homeDie d) (fun x => { x with waiters := x.waiters.filter (fun w => w.1 != d) })
  mine.foldl (breakWaiter step) s2

/-! ## Adoption (R440) -/

/-- A queue's entry as it is delivered again: one that was taken has ATTEMPT raised by 1, saturating at 255. -/
def redelivered (q : Nat) (e : Entry) : Entry :=
  let n := if e.live then min 255 (e.attempt + 1) else e.attempt
  { e with attempt := n, bytes := if q = 3 then patch e.bytes 26 [BitVec.ofNat 8 n] else e.bytes, live := false, slot := none, bin := none }

/-- Room for a queue's record team on a core: a slot and a place for its scratch; a queue without code needs none. -/
def teamPlace (s : State) (ep : Nat) (b : Binding) : Option (Option (Nat × Nat)) :=
  if b.code = 0#64 then some none
  else match slotFit s ep, scratchFit s ep b.scratch with
    | some slot, some place => some (some (slot, place))
    | _, _ => none

/-- Binds a queue that stood elsewhere to a core, with its rings, held records and doubt set, and delivers its entries in acceptance
order: of a ray queue, to the slices of their treelets. -/
def rebind (s : State) (ep q : Nat) (u : Queue) (room : Option (Nat × Nat)) : State :=
  let b := bindingOf u.image
  let s1 := match room with
    | some (slot, place) => recordTeam s ep b slot place
    | none => s
  let team : Option Nat := if room.isSome then some s.fresh else none
  let s2 := s1.updQueue ep q (fun _ => { u with team := team, entries := [], next := 0 })
  let s3 := u.entries.foldl (fun s x =>
    let e := redelivered q x.2
    if q = 0 then s.inject { mkPacket 3 0x30 ep (servingSlice s (rayTreelet e.bytes)) 2 (.ray (clearFwd e.bytes) e.prio 0 0) with
                             deriv := e.deriv, attempt := e.attempt }
    else acceptEntry s ep q e) s2
  s3.event (lossUnit s3) 0 0x6B 1 false ep u.entries.length

/-- The core that adopts a queue: of the enabled cores of the present dies of its affinity mask whose queue of that kind is unbound and that
have room for its record team, the lowest. -/
def adopter (s : State) (q : Nat) (u : Queue) : Option (Nat × Option (Nat × Nat)) :=
  ((maskCores s (field u.image 8 4 % 2 ^ 24)).filter (fun ep => !((s.core ep).queue q).bound)).foldl (fun r ep =>
    match r with
    | some x => some x
    | none => (teamPlace s ep (bindingOf u.image)).map (fun room => (ep, room))) none

/-- A lost home's queue is adopted whole, or waits for its die. -/
def adoptQueue (s : State) (home q : Nat) (u : Queue) : State :=
  match adopter s q u with
  | some (ep, room) =>
    let s1 := rebind s ep q u room
    s1.updPkg (fun k => { k with
      adopted := (home, q, ep) :: k.adopted.map (fun x => if x.2.1 = q ∧ x.2.2 = home then (x.1, q, ep) else x) })
  | none => s.updPkg (fun k => { k with orphans := k.orphans ++ [(home, q, u)] })

/-! ## Removing a die (R414, R424, R427, R435, R437, R445) -/

/-- The M and U lines of a core are lost, each with event 0x2C. -/
def loseLines (s : State) (ep : Nat) : State :=
  (s.core ep).lines.foldl (fun s x =>
    match x.2.state with
    | .m | .u _ _ _ => s.event (faultUnit (s.host.serving)) 2 0x2C 2 false x.1 ep
    | _ => s) s

/-- A grid's team that stood on a lost die, as one of the teams there, is to run again; of a cluster the members that had not retired, together.
The event names the die that is lost, and counts one team. -/
def rerun (all : List Team) (s : State) (m : Team) : State :=
  match m.grid with
  | none => s
  | some g =>
    let unit := match m.cluster with
      | some (c, _) => c
      | none => m.teamid
    let lost := (all.filter (fun x => x.grid == m.grid && x.cluster.map (·.1) == m.cluster.map (·.1))).map (·.teamid)
    let retired (x : Grid) : List Nat :=
      if m.cluster.isNone then []
      else ((List.range (x.cw * x.ch)).map (fun i => unit * (x.cw * x.ch) + i)).filter (fun i => !lost.contains i && !x.skip.contains i)
    let add (l : List Nat) : List Nat := if l.contains unit then l else insertWord l unit
    { s with grids := s.grids.adjust g (fun x => { x with again := add x.again, skip := x.skip ++ retired x }) }.event (lossUnit s) 0 0x6D 1 false
      (epDie m.core) 1

/-- Everything that stood on a die is gone: its threads, groups, teams and cores; its TLB, walks, fault buffer and lists. -/
def emptyDie (s : State) (die : Nat) : State :=
  let here (ep : Nat) : Bool := epDie ep == die
  let s1 := { s with
    threads := s.threads.filter (fun p => !here p.2.core)
    groups := s.groups.filter (fun p => !here (s.team p.2.team).core)
    teams := s.teams.filter (fun p => !here p.2.core)
    cores := s.cores.filter (fun p => !here p.1) }
  (s1.updDie die (fun d => { d with
    tlb := [], walks := [], faults := List.replicate 8 none, dropped := false, drops := 0, wrote21 := false, retry := []
    waiters := [], views := [], dark := d.dark || decide (16 ≤ die) }))

/-- Each slice drops the owners that a die held, and abandons attempts to page to it; where the die held a slice, its partner serves. -/
def slicesAfter (s : State) (die : Nat) : State :=
  let ids := s.slices.flatMap (fun p => NMap.keys p.2.entries)
  let s1 := ids.foldl (fun s id =>
    let a := (entryAt s id).attempt.bind (·.core)
    let s0 := if (a.map epDie) == some die || (a.isSome && decide (id % 6 + 16 = die)) then abandonAttempt s id else s
    match (entryAt s0 id).owners.filter (fun ep => epDie ep == die) with
    | [] => s0
    | gone => removeOwners s0 id gone) s
  if 16 ≤ die ∧ die < 22 then s1.event (endpoint (mirrorGateway die) 125) 6 0x57 1 false 0 0 else s1

/-- The loss of a link gateway: its ports fail, and the other's Chalumeau and service cores take over, with the host port and all that is held
at it where that link is trained (R171). -/
def linkGatewayLost (s : State) (die : Nat) : State :=
  if die < 22 then s
  else
    let other := 45 - die
    let s1 := s.updPkg (fun k => { k with chalumeau := if k.chalumeau = die then other else k.chalumeau })
    let moved := s.host.gateway == die && s.host.links.contains other
    let s2 := s1.updHost (fun h => { h with
      links := h.links.filter (fun x => x != die)
      gateway := if moved then other else h.gateway })
    let s2 := if moved then hostRelease s2 else s2
    ((List.range 16).filter (fun p => p / 8 + 22 == die && portOn (portOf s p))).foldl failPort s2

/-! ## The rows (R429, R434, R435) -/

/-- The service cores that take over settle the command in progress next (R371). -/
def settleNext (s : State) : State :=
  if s.host.command.isSome then { s with agenda := .event .serviceCoreTakeover 1 :: s.agenda } else s

/-- A die is lost: event 0x66, and the fence goes out. -/
def loseDie (s : State) (die : Nat) (tryReset : Bool) : State :=
  let d := s.die die
  if 24 ≤ die ∨ !d.present ∨ d.loss ≠ .serving then s
  else
    let s0 := s.updDie die (fun x => { x with present := false, loss := .fence, tryReset := tryReset })
    let s1 := if s.host.serving = die then settleNext <|
        (s0.updHost (fun h => { h with serving := 45 - die })).event (faultUnit (45 - die)) 11 0x85 1 false die 0
      else s0
    publish (s1.event (lossUnit s1) 8 0x66 3 false die 0) (lossUnit s1) die 0

/-- DIE_LOST: a fault of SEV 3 is reported on the die named by State.obj. -/
def execDieLost (s : State) : Host.Outcome State Fault Refusal := .next (loseDie s s.obj true)

/-- Every present die has the fence of a lost one. -/
def fenced (s : State) (die : Nat) : Bool :=
  (presentDies s).all (fun d => ((s.die d).known.find (Config.package * 32 + die)).getD 0 == 0)

/-- DIE_DRAINED: the fence has reached every die; requests to the lost die are resolved, its queues adopted, its teams re-run, its owners
dropped, views changed and supersteps broken. -/
def drainDie (s : State) (die : Nat) : State :=
  if (s.die die).loss ≠ .fence ∨ !fenced s die then s
  else
    let homes := s.cores.filter (fun p => epDie p.1 == die)
    let queues := homes.flatMap (fun p => ([0, 1, 2, 3].filter (fun q => (p.2.queue q).bound)).map (fun q => (p.1, q, p.2.queue q)))
    let teams := (s.teams.filter (fun p => epDie p.2.core == die && !p.2.engine)).map (·.2)
    let broken := brokenSteps s
    let s1 := homes.foldl (fun s p => loseLines s p.1) s
    let s2 := broken.foldl breakStep s1
    let s3 := linkGatewayLost (emptyDie s2 die) die
    let s4 := queues.foldl (fun s x => adoptQueue s x.1 x.2.1 x.2.2) s3
    let s5 := resolveRequests s4 Config.package die
    let s6 := slicesAfter (teams.foldl (rerun teams) s5) die
    let s7 := reportMembers s6 (fun m => m.1 == Config.package && m.2 == die)
    s7.updDie die (fun d => { d with loss := if d.tryReset then .resetting else .absent })

/-- DIE_DRAINED. -/
def execDieDrained (s : State) : Host.Outcome State Fault Refusal := .next (drainDie s s.obj)

/-! ## Rejoining (R438, R449) -/

/-- The next incarnation number: 0 is skipped. -/
def nextInc (n : Nat) : Nat := if n % 256 = 255 then 1 else n % 256 + 1

/-- Queues that waited for their die are bound again where they stood. -/
def rebindOrphans (s : State) (die : Nat) : State :=
  let mine := s.pkg.orphans.filter (fun x => epDie x.1 == die)
  mine.foldl (fun s x =>
    match teamPlace s x.1 (bindingOf x.2.2.image) with
    | some room => rebind s x.1 x.2.1 x.2.2 room
    | none => s) (s.updPkg (fun k => { k with orphans := k.orphans.filter (fun x => epDie x.1 != die) }))

/-- Event 0x89: a die has been reset, with its new incarnation. -/
def rejoinEvent (s : State) (die : Nat) : State := s.event (lossUnit s) 0 0x89 1 false (die + (s.die die).inc * 256) 0

/-- A RESET of the die is in progress: its completion comes before event 0x89 (R375). -/
def resetUnderWay (s : State) (die : Nat) : Bool :=
  match s.host.command with
  | some c => field c.bytes 0 2 == 8 && field c.bytes 17 1 == die
  | none => false

/-- DIE_REJOIN: a die that passes its test takes its next incarnation, publishes it and asks to join its views; one that fails is absent.  The
router that boot attached it to stays (R462), and a link gateway holds the domain's numbers again, as the other one has them (R152). -/
def rejoinDie (s : State) (die : Nat) (passed : Bool) : State :=
  let d := s.die die
  if d.loss ≠ .resetting then s
  else if !passed then s.updDie die (fun d => { d with loss := .absent })
  else
    let inc := nextInc d.inc
    let numbers := (List.range 24).foldl (fun (m : NMap Nat) i =>
      m.put (Config.package * 32 + i) (if i = die then inc else if (s.die i).present then (s.die i).inc else 0))
        (if die < 22 then [] else ((s.die (45 - die)).known.filter (fun x => x.1 / 32 != Config.package)))
    let s1 := s.updDie die (fun d => { Die.reset die with
      inc := inc, enabled := d.enabled, attach := d.attach, known := numbers, dark := d.dark, alog := d.alog, reports := d.reports
      views := s.pkg.domains.foldl (fun (m : NMap Nat) p => m.put p.1 p.2.view) [] })
    let s2 := publish s1 (endpoint die 127) die inc
    let s3 := if resetUnderWay s2 die then s2 else rejoinEvent s2 die
    let s4 := s3.pkg.domains.foldl (fun s p =>
      match p.2.members.idxOf? (Config.package, die) with
      | some i => wantChange s p.1 i true true
      | none => s) s3
    rebindOrphans s4 die

/-- DIE_REJOIN. -/
def execDieRejoin (die : Nat) (passed : Bool) (s : State) : Host.Outcome State Fault Refusal := .next (rejoinDie s die passed)

/-! ## Heartbeats of dies (R434) -/

/-- DIE_HEARTBEAT: every 10 microseconds the serving fault unit sends a heartbeat to each die controller. -/
def beatDies (s : State) : State :=
  if s.time < s.pkg.dieBeatAt + 10000 then s
  else (presentDies s).foldl (fun s d =>
      (s.updDie d (fun x => { x with missed := x.missed + 1 })).ctl (lossUnit s) (endpoint d 127) 0x0C (.systemControl 1 []))
    (s.updPkg (fun k => { k with dieBeatAt := s.time }))

/-- A heartbeat reaches a die controller, which answers it. -/
def beatArrives (s : State) : State :=
  arrive s (fun p => match p.body with
    | .systemControl 1 _ => true
    | _ => false) (fun s _ p => some (s.ctl p.dst p.src 0x0C (.systemControl 2 [])))

/-- DIE_HEARTBEAT: of the packet named by State.obj the arrival, else the sending. -/
def execDieHeartbeat (s : State) : Host.Outcome State Fault Refusal := .next (if s.obj = 0 then beatDies s else beatArrives s)

/-- HEARTBEAT_ANSWER. -/
def execHeartbeatAnswer (s : State) : Host.Outcome State Fault Refusal :=
  .next (arrive s (fun p => match p.body with
    | .systemControl 2 _ => true
    | _ => false) (fun s _ p => some (s.updDie (epDie p.src) (fun d => { d with missed := 0 }))))

/-- DIE_HEARTBEAT_MISSED: the controller of the die named by State.obj has missed 5 heartbeats in a row. -/
def execDieHeartbeatMissed (s : State) : Host.Outcome State Fault Refusal :=
  .next (if (s.die s.obj).missed < 5 then s else loseDie s s.obj true)

/-! ## Links inside the package (R429) -/

/-- A number for a link. -/
def linkKey : Link → Nat
  | .inside d => d
  | .edge a b => 1024 + a * 32 + b
  | .attachment g => 4096 + g

/-- The die that a dead link costs. -/
def linkDie : Link → Nat
  | .inside d => d
  | .edge a b => max a b
  | .attachment g => g

/-- MESH_FLIT_CRC_FAIL: a flit is resent, and counted; a link on which sixteen resends of the flit have failed in a row is dead.  Failures less than a microsecond
apart are taken as in a row (log 54). -/
def crcFails (s : State) (l : Link) : State :=
  let key := linkKey l
  let n := match s.pkg.crc.find key with
    | some (n, t) => if s.time < t + 1000 then n + 1 else 1
    | none => 1
  let s1 := (s.updPkg (fun k => { k with crc := k.crc.put key (n, s.time) })).corrected (faultUnit (linkDie l)) 8 0x64 (linkDie l) 1
  if n < 17 then s1 else loseDie (s1.updPkg (fun k => { k with crc := k.crc.drop key })) (linkDie l) false

/-- MESH_FLIT_CRC_FAIL. -/
def execMeshFlitCrcFail (link : Link) (s : State) : Host.Outcome State Fault Refusal := .next (crcFails s link)

/-! ## Other packages (R152, R432) -/

/-- A die of another package is lost as far as this package's endpoints, homes and views are concerned. -/
def farDieLost (s : State) (pkg die : Nat) : State :=
  reportMembers (resolveRequests ((brokenSteps s).foldl breakStep s) pkg die) (fun m => m.1 == pkg && m.2 == die)

/-- INCARNATION_UPDATE: the receiving die's endpoints hold the new number; a die of another package that is marked lost is treated so, and
one that answers again makes its package reachable. -/
def incarnationArrives (s : State) (p : Packet) : State :=
  match p.body with
  | .incarnationUpdate die inc =>
    let pkg := epPackage p.src
    let key := pkg * 32 + die
    let old := ((s.die (epDie p.dst)).known.find key).getD 0
    let s1 := s.updDie (epDie p.dst) (fun d => { d with known := d.known.put key inc })
    if pkg = Config.package then s1
    else if inc = 0 then (if old = 0 then s1 else farDieLost s1 pkg die)
    else s1.updPkg (fun k => { k with unreachable := k.unreachable.filter (fun n => n != pkg) })
  | _ => s

/-- INCARNATION_UPDATE. -/
def execIncarnationUpdate (s : State) : Host.Outcome State Fault Refusal :=
  .next (arrive s (fun p => p.typ == 0x09) (fun s _ p => some (incarnationArrives s p)))

/-- PACKAGE_UNREACHABLE: event 0x6E; every die of the package is treated as lost. -/
def losePackage (s : State) (pkg : Nat) : State :=
  if pkg = Config.package ∨ s.pkg.unreachable.contains pkg then s
  else
    let s1 := (s.updPkg (fun k => { k with unreachable := pkg :: k.unreachable, beats := k.beats.drop pkg })).event (lossUnit s) 9 0x6E 3
      false pkg 0
    let clear (m : NMap Nat) : NMap Nat := m.map (fun p => if p.1 / 32 = pkg then (p.1, 0) else p)
    let s2 := [22, 23].foldl (fun s g => s.updDie g (fun d => { d with known := clear d.known })) s1
    let s3 := (List.range 24).foldl (fun s d => resolveRequests s pkg d) ((brokenSteps s2).foldl breakStep s2)
    reportMembers s3 (fun m => m.1 == pkg)

/-- PACKAGE_UNREACHABLE. -/
def execPackageUnreachable (s : State) : Host.Outcome State Fault Refusal := .next (losePackage s s.obj)

end Sys2Proof.Machine
end

