-- ==== Sys2Proof/Machine/Plaod.lean ====
section
/-! DEFINITION. Plaod: the command rings (R165, R166), completions and their status (R167, R367, R368), and the commands (R168 to R171,
R174, R176, R373 to R375). -/

namespace Sys2Proof.Machine

/-! ## Memory as firmware reads and writes it -/

/-- Cuts n bytes at an address into pieces within one line of 128 bytes each. -/
def linePieces (a n : Nat) : List (Nat × Nat) :=
  ((List.range (n / 128 + 2)).map (fun i =>
    let lo := max a (a / 128 * 128 + 128 * i)
    let hi := min (a + n) (a / 128 * 128 + 128 * i + 128)
    (lo, hi - lo))).filter (fun p => p.2 != 0)

/-- The bytes lie in memory of this package that serves (log 56). -/
def plainMemory (s : State) (a n : Nat) : Bool :=
  (linePieces a n).all (fun p =>
    p.1 / 2 ^ 44 == Config.package && (regionOf p.1 == .hbm || regionOf p.1 == .lpddr) && memoryOn s p.1)

/-- Firmware reads memory, at its homes; none where it is not memory, or meets an uncorrectable error. -/
def memoryRead (s : State) (a n : Nat) : Option (State × List Byte) :=
  if !plainMemory s a n then none
  else (linePieces a n).foldl (fun r p =>
    r.bind (fun x => (performHome x.1 p.1 (.load p.2)).map (fun y => (y.1, x.2 ++ y.2)))) (some (s, []))

/-- Firmware writes memory, at its homes; none where it is not memory, or a part of a damaged granule is to be written. -/
def memoryWrite (s : State) (a : Nat) (bs : List Byte) : Option State :=
  if !plainMemory s a bs.length then none
  else (linePieces a bs.length).foldl (fun r p =>
    r.bind (fun x => (performHome x p.1 (.store ((bs.drop (p.1 - a)).take p.2))).map (·.1))) (some s)

/-! ## Rings (R165, R166, R368) -/

/-- EN of a ring. -/
def Ring.on (r : Ring) : Bool := r.base.getLsbD 8
/-- Commands that a ring holds; outside 6 to 12 LOG2 is taken as written (DESIGN CHOICE, log 154). -/
def Ring.slots (r : Ring) : Nat := 2 ^ (r.base.extractLsb' 0 5).toNat
/-- Base address of a ring. -/
def Ring.address (r : Ring) : Nat := (r.base.extractLsb' 12 40).toNat * 4096
/-- Address of command n. -/
def Ring.command (r : Ring) (n : Nat) : Nat := r.address + n % r.slots * 64
/-- Address of the completion of command n. -/
def Ring.completion (r : Ring) (n : Nat) : Nat := r.address + r.slots * 64 + n % r.slots * 16

/-- A ring. -/
def ringOf (s : State) (q : Nat) : Ring := s.host.rings.getD q default
/-- Changes a ring. -/
def updRing (s : State) (q : Nat) (f : Ring → Ring) : State := s.updHost (fun h => { h with rings := h.rings.modify q f })

/-- A ring that cannot be read or written: EN is cleared, CRHEAD stays, event 0x84. -/
def stopRing (s : State) (q n : Nat) : State :=
  (updRing s q (fun r => { r with base := r.base &&& ~~~0x100#64 })).event (faultUnit s.host.serving) 11 0x84 2 false q n

/-- Firmware serves commands: boot is complete and the serving gateway's die is in service. -/
def firmwareUp (s : State) : Bool := s.host.bootstat.getLsbD 31 && (s.die s.host.serving).present

/-- The ring whose turn is next among those with a command to read: round-robin, one command a turn. -/
def nextCommandRing (s : State) : Option Nat :=
  ((List.range 16).map (fun i => (s.host.nextRing + i) % 16)).find? (fun q =>
    let r := ringOf s q
    r.on && r.head != r.tail)

/-- The command in hand: the one in progress, else the one that firmware reads next. -/
inductive Hand where
  | none
  | unreadable (ring seq : Nat)
  | some (s : State) (c : Command)

/-- Reads the command in hand. -/
def inHand (s : State) : Hand :=
  if !firmwareUp s then .none
  else match s.host.command with
  | .some c => .some s c
  | .none =>
    match nextCommandRing s with
    | .none => .none
    | .some q =>
      let n := (ringOf s q).head.toNat
      match memoryRead s ((ringOf s q).command n) 64 with
      | .none => .unreadable q n
      | .some (s1, bs) => .some s1 { ring := q, seq := n, bytes := bs, waits := [], undo := Option.none }

/-! ## Completions (R166, R167) -/

/-- Opcode of a command. -/
def Command.opcode (c : Command) : Nat := field c.bytes 0 2

/-- Bytes of a completion. -/
def completionBytes (s : State) (tag status op : Nat) : List Byte := leBytes 4 tag ++ leBytes 2 status ++ leBytes 2 op ++ leBytes 8 s.time

/-- Writes a completion and signals its vector; none where it cannot be written. -/
def writeCompletion (s : State) (q n tag status op : Nat) : Option State :=
  (memoryWrite s ((ringOf s q).completion n) (completionBytes s tag status op)).map (fun s1 => toHost s1 (.vector q))

/-- Firmware's turn with a ring is over. -/
def endTurn (s : State) (q : Nat) : State := s.updHost (fun h => { h with command := none, nextRing := (q + 1) % 16 })

/-- Firmware is done with a command: CRHEAD passes it. -/
def passCommand (s : State) (c : Command) : State :=
  endTurn (updRing s c.ring (fun r => { r with head := BitVec.ofNat 32 (c.seq + 1) })) c.ring

/-- A command completes with a status: its completion is written, and firmware goes on to the next. -/
def finish (s : State) (c : Command) (status : Nat) : State :=
  match writeCompletion s c.ring c.seq (field c.bytes 4 4) status c.opcode with
  | none => endTurn (stopRing s c.ring c.seq) c.ring
  | some s1 => passCommand s1 c

/-! ## Commands -/

/-- What a command comes to. -/
inductive Done where
  /-- a status of R367: no effect but for status 0 -/
  | status (s : State) (n : Nat)
  /-- it goes on -/
  | stays (s : State)

/-- Affinity mask of a command. -/
def Command.mask (c : Command) : Nat := field c.bytes 8 4 % 2 ^ 24

/-- Flags, mask word and the bytes that no field of the command covers are zero (R167, R367). -/
def fieldsClear (c : Command) (free : List (Nat × Nat)) : Bool :=
  field c.bytes 2 2 == 0 && decide (field c.bytes 8 4 < 2 ^ 26) && free.all (fun p => field c.bytes p.1 p.2 == 0)

/-- Firmware's turn for commands that a row stands for: the row acts where the command in hand is one of them. -/
def plaod (s : State) (mine : Command → Bool) (act : State → Command → Done) : State :=
  match inHand s with
  | .none => s
  | .unreadable q n => endTurn (stopRing s q n) q
  | .some s1 c =>
    if !mine c then s
    else match act s1 c with
      | .status s2 n => finish s2 c n
      | .stays s2 => s2

/-- PLAOD_UNASSIGNED_OPCODE. -/
def execPlaodUnassignedOpcode (s : State) : Host.Outcome State Fault Refusal :=
  .next (plaod s (fun c => c.opcode == 0 || decide (13 < c.opcode)) (fun s _ => .status s 1))

/-! ## LAUNCH (R169, R170, R456) -/

/-- The grid that a LAUNCH describes. -/
def gridOf (c : Command) : Grid :=
  let b := c.bytes
  let cw := field b 46 1 % 16
  let ch := field b 46 1 / 16
  { ring := c.ring, seq := c.seq, code := BitVec.ofNat 64 (field b 24 8), arg := BitVec.ofNat 64 (field b 32 8)
    root := field b 16 8, asid := field b 12 2, prio := field b 8 4 / 2 ^ 24 % 4, dies := c.mask
    groups := field b 14 1, regs := 16 * field b 15 1, scratch := 4096 * field b 48 2, columns := 4096 * field b 50 1
    tiles := field b 47 1, dimx := field b 40 2, dimy := field b 42 2, dimz := field b 44 2, cw := cw, ch := ch
    save := BitVec.ofNat 64 (field b 56 8), tag := field b 4 4, nextTeam := 0, again := [], skip := []
    left := field b 40 2 * field b 42 2 * field b 44 2 * max 1 (cw * ch) }

/-- A LAUNCH's fields are within their ranges. -/
def launchOk (c : Command) : Bool :=
  let g := gridOf c
  fieldsClear c [(51, 5)] && decide (1 ≤ g.groups) && decide (g.groups ≤ 64) && decide (16 ≤ g.regs) && decide (g.regs ≤ 512) &&
    decide (1 ≤ g.dimx) && decide (1 ≤ g.dimy) && decide (1 ≤ g.dimz) && decide (g.tiles ≤ 8) && decide (g.columns ≤ 0x20000) &&
    ((g.cw == 0 && g.ch == 0) || (decide (0 < g.cw * g.ch) && decide (g.cw * g.ch ≤ 12))) &&
    decide (g.code.toNat < 2 ^ 56) && decide (g.save.toNat < 2 ^ 56) && g.save.toNat % 4096 == 0

/-- A core of a die could admit a team of the grid, were nothing else there (R15, R57, R456); a cluster stands on a core die (R31). -/
def couldAdmit (g : Grid) (die : Nat) : Bool :=
  decide (g.scratch ≤ 0x1F0000) &&
    (if die < 16 then decide (g.groups * g.regs ≤ 4096)
     else g.cw == 0 && g.tiles == 0 && g.columns == 0 && decide (g.groups ≤ 63) && decide (g.groups * g.regs ≤ 4032))

/-- A launch is accepted: its grid waits for room, the instruction caches of its dies are invalidated (R199), and the ring's next command may
follow. -/
def acceptLaunch (s : State) (c : Command) : Done :=
  let g := gridOf c
  let dies := (maskDies c.mask).filter (fun d => (s.die d).present)
  if !launchOk c then .status s 2
  else if maskAbsent s c.mask then .status s 5
  else if !dies.any (couldAdmit g) then .status s 2
  else .stays (passCommand (clearIcaches { s with grids := s.grids.put s.fresh g, fresh := s.fresh + 1 } dies) c)

/-- A grid all of whose teams have retired completes. -/
def completeLaunch (s : State) (key : Nat) : State :=
  match s.grids.find key with
  | none => s
  | some g =>
    if g.left ≠ 0 ∨ !firmwareUp s then s
    else
      let s1 := { s with grids := s.grids.drop key }
      (writeCompletion s1 g.ring g.seq g.tag 0 1).getD (stopRing s1 g.ring g.seq)

/-- LAUNCH: of the grid named by State.obj the completion, else the acceptance of the next command. -/
def execLaunch (s : State) : Host.Outcome State Fault Refusal :=
  .next (if s.obj = 0 then plaod s (fun c => c.opcode == 1) acceptLaunch else completeLaunch s s.obj)

/-! ## MAP, UNMAP, REPLAY_ALL, QUEUE_SETUP (R77, R168, R403) -/

/-- Address of the entry of a virtual address at a level of its walk, where that level's table exists. -/
def walkTo (s : State) (va : Nat) : Nat → Nat → Nat → Option (State × Nat)
  | 0, level, table => if tableOk s table level then some (s, entryAddress table level va) else none
  | n + 1, level, table =>
    if !tableOk s table level then none
    else match memoryRead s (entryAddress table level va) 8 with
      | none => none
      | some (s1, bs) =>
        match readEntry s1 level (BitVec.ofNat 64 (leNat bs)) with
        | .next t => walkTo s1 va n (level + 1) t
        | _ => none

/-- The entry that a MAP or UNMAP names. -/
def namedEntry (s : State) (c : Command) : Option (State × Nat) := walkTo s (field c.bytes 24 8) (field c.bytes 40 1) 0 (field c.bytes 16 8)

/-- A MAP's or UNMAP's fields are within their ranges. -/
def mapOk (c : Command) (free : List (Nat × Nat)) : Bool :=
  fieldsClear c (free ++ [(14, 2), (41, 23)]) && decide (field c.bytes 24 8 < 2 ^ 56) && decide (1 ≤ field c.bytes 40 1) &&
    decide (field c.bytes 40 1 ≤ 4)

/-- MAP. -/
def runMap (s : State) (c : Command) : Done :=
  if !mapOk c [] then .status s 2
  else match namedEntry s c with
    | none => .status s 4
    | some (s1, a) =>
      match memoryWrite s1 a (leBytes 8 (field c.bytes 32 8)) with
      | none => .status s 4
      | some s2 => .status s2 0

/-- MAP. -/
def execMap (s : State) : Host.Outcome State Fault Refusal := .next (plaod s (fun c => c.opcode == 2) runMap)

/-- The translations that an UNMAP removes: of its address space, or global, within what its entry covers. -/
def unmapHits (c : Command) (x : Tlb) : Bool :=
  let size := 2 ^ levelShift (field c.bytes 40 1)
  let va := field c.bytes 24 8 / size * size
  (x.asid == field c.bytes 12 2 || pteGlobal x.entry) && decide (x.va < va + size) && decide (va < x.va + x.size)

/-- UNMAP: V is cleared, then the translations leave the masked dies' TLBs; it completes when the accesses translated before are performed. -/
def runUnmap (s : State) (c : Command) : Done :=
  if s.host.command.isSome then (if stillUsed s c.waits then .stays s else .status s 0)
  else if !mapOk c [(32, 8)] then .status s 2
  else if maskAbsent s c.mask then .status s 5
  else match namedEntry s c with
    | none => .status s 4
    | some (s1, a) =>
      match memoryRead s1 a 8 with
      | none => .status s 4
      | some (s2, old) =>
        match memoryWrite s2 a (leBytes 8 (leNat old / 2 * 2)) with
        | none => .status s 4
        | some s3 =>
          let r := invalidate s3 ((maskDies c.mask).filter (fun d => (s.die d).present)) (unmapHits c)
          if stillUsed r.1 r.2 then .stays (r.1.updHost (fun h => { h with
              command := some { c with waits := r.2, undo := some (a, leNat old) } }))
          else .status r.1 0

/-- UNMAP. -/
def execUnmap (s : State) : Host.Outcome State Fault Refusal := .next (plaod s (fun c => c.opcode == 3) runUnmap)

/-- REPLAY_ALL, on each present die of its mask. -/
def runReplay (s : State) (c : Command) : Done :=
  if !fieldsClear c [(12, 52)] then .status s 2
  else if maskAbsent s c.mask then .status s 5
  else .status (((maskDies c.mask).filter (fun d => (s.die d).present)).foldl replayDie s) 0

/-- REPLAY_ALL. -/
def execReplayAll (s : State) : Host.Outcome State Fault Refusal := .next (plaod s (fun c => c.opcode == 4) runReplay)

/-- QUEUE_SETUP. -/
def runQueueSetup (s : State) (c : Command) : Done :=
  match bindQueue s c.bytes with
  | .ok s1 => .status s1 0
  | .status n => .status s n

/-- QUEUE_SETUP. -/
def execQueueSetup (s : State) : Host.Outcome State Fault Refusal := .next (plaod s (fun c => c.opcode == 5) runQueueSetup)

/-! ## VIEW_SETUP, VIEW_CHANGE (R158, R159) -/

/-- A member of a domain's list: package in bits 12:5, die in bits 4:0. -/
def memberOf (e : Nat) : Nat × Nat := (e / 32 % 256, e % 32)

/-- Sets up a view domain: every member is live and the domain is stable in the initial view. -/
def setDomain (s : State) (dom view : Nat) (members : List (Nat × Nat)) : State :=
  let d : Domain :=
    { members := members, set := members.map (fun _ => true), view := view, phase := .stable, propView := 0, propSet := [], propFrom := 0
      wanted := [], accepts := [], installs := [], blocks := [], latest := [], assigned := [] }
  let s1 := s.updPkg (fun k => { k with domains := (dom, d) :: k.domains.filter (fun p => p.1 != dom) })
  (presentDies s1).foldl (fun s i => s.updDie i (fun x => { x with views := x.views.put dom view })) s1

/-- VIEW_SETUP: a list that names an absent die of this package completes with ABSENT (R373). -/
def runViewSetup (s : State) (c : Command) : Done :=
  let n := field c.bytes 20 2
  if !fieldsClear c [(12, 4), (22, 2), (32, 32)] || decide (15 < field c.bytes 16 1) || n == 0 || decide (256 < n) then .status s 2
  else match memoryRead s (field c.bytes 24 8) (2 * n) with
    | none => .status s 4
    | some (s1, bs) =>
      let members := (List.range n).map (fun i => memberOf (field bs (2 * i) 2))
      if members.any (fun m => decide (24 ≤ m.2)) then .status s 2
      else if members.any (fun m => m.1 == Config.package && !(s.die m.2).present) then .status s 5
      else .status (setDomain s1 (field c.bytes 16 1) (field c.bytes 17 3) members) 0

/-- VIEW_SETUP. -/
def execViewSetup (s : State) : Host.Outcome State Fault Refusal := .next (plaod s (fun c => c.opcode == 6) runViewSetup)

/-- VIEW_CHANGE: it starts the change, of a member of a domain that is set up. -/
def runViewChange (s : State) (c : Command) : Done :=
  let dom := field c.bytes 16 1
  let kind := field c.bytes 17 1
  let i := field c.bytes 18 1
  if !fieldsClear c [(12, 4), (19, 45)] || decide (15 < dom) || decide (1 < kind) then .status s 2
  else match domainOf s dom with
    | none => .status s 2
    | some d => if d.members.length ≤ i then .status s 2 else .status (wantChange s dom i (kind == 1) true) 0

/-- VIEW_CHANGE. -/
def execViewChange (s : State) : Host.Outcome State Fault Refusal := .next (plaod s (fun c => c.opcode == 7) runViewChange)

/-! ## ATTEST, CONFIG_READ, LIFETIME_READ (R168, R174, R176, R374) -/

/-- The map of a core die's enabled positions. -/
def enabledMap (s : State) (die : Nat) : Nat :=
  let d := s.die die
  if d.present then (d.enabled.map (fun c => 2 ^ c)).sum else 0

/-- The CONFIG_READ image: enabled maps, incarnations, personality (log 57). -/
def configImage (s : State) : List Byte :=
  (List.range 16).flatMap (fun d => leBytes 10 (enabledMap s d)) ++
    (List.range 24).flatMap (fun d => leBytes 1 (if (s.die d).present then (s.die d).inc else 0)) ++
    leBytes 1 (if s.host.cxl then 1 else 0) ++ List.replicate 71 0#8

/-- CONFIG_READ. -/
def runConfigRead (s : State) (c : Command) : Done :=
  if !fieldsClear c [(12, 4), (24, 40)] then .status s 2
  else match memoryWrite s (field c.bytes 16 8) (configImage s) with
    | none => .status s 4
    | some s1 => .status s1 0

/-- CONFIG_READ. -/
def execConfigRead (s : State) : Host.Outcome State Fault Refusal := .next (plaod s (fun c => c.opcode == 10) runConfigRead)

/-- The attestation report over a nonce, signed. -/
def attestReport (s : State) (nonce : List Byte) : List Byte :=
  let body := nonce ++ (List.range 64).map Config.firmwareByte ++ sha512 (configImage s) ++
    leBytes 8 s.time ++ leBytes 4 ((s.pkg.lifetime.find 0).getD 0) ++ List.replicate 36 0#8
  body ++ (List.range 64).map (Config.signatureByte body)

/-- ATTEST. -/
def runAttest (s : State) (c : Command) : Done :=
  if !fieldsClear c [(12, 4), (32, 32)] then .status s 2
  else match memoryRead s (field c.bytes 16 8) 32 with
    | none => .status s 4
    | some (s1, nonce) =>
      if !s.host.keyOk then .status (s.event (faultUnit s.host.serving) 11 0x8A 2 false 0 0) 8
      else match memoryWrite s1 (field c.bytes 24 8) (attestReport s1 nonce) with
        | none => .status s 4
        | some s2 => .status s2 0

/-- ATTEST. -/
def execAttest (s : State) : Host.Outcome State Fault Refusal := .next (plaod s (fun c => c.opcode == 9) runAttest)

/-- LIFETIME_READ: both gateways hold the same contents. -/
def runLifetimeRead (s : State) (c : Command) : Done :=
  let g := field c.bytes 16 1
  if !fieldsClear c [(12, 4), (17, 7), (32, 32)] || (g != 22 && g != 23) then .status s 2
  else if !(s.die g).present then .status s 5
  else match memoryWrite s (field c.bytes 24 8) ((List.range 0x40000).map (Config.lifetimeByte s.pkg.lifetime)) with
    | none => .status s 4
    | some s1 => .status s1 0

/-- LIFETIME_READ. -/
def execLifetimeRead (s : State) : Host.Outcome State Fault Refusal := .next (plaod s (fun c => c.opcode == 13) runLifetimeRead)

/-! ## PORT_SETUP, HOST_SWITCH (R155, R171) -/

/-- A gateway's PROUTE entries become those of a 1 KiB image; zero entries are not listed. -/
def setProutes (s : State) (gw : Nat) (image : List Byte) : State :=
  let new := ((List.range 256).map (fun n => (gw, n, field image (4 * n) 2))).filter (fun r => r.2.2 != 0)
  s.updPkg (fun k => { k with proute := new ++ k.proute.filter (fun r => r.1 != gw) })

/-- PORT_SETUP: PORTCFG of a port that is not enabled, its gateway's PROUTE and every GWSEL copy. -/
def runPortSetup (s : State) (c : Command) : Done :=
  let p := field c.bytes 16 1
  if !fieldsClear c [(12, 4), (17, 3)] || decide (15 < p) then .status s 2
  else if !(s.die (22 + p / 8)).present then .status s 5
  else if portOn (portOf s p) then .status s 3
  else match memoryRead s (field c.bytes 24 8) 1024 with
    | none => .status s 4
    | some (s1, image) =>
      let s2 := setPortcfg (setProutes s1 (22 + p / 8) image) p (BitVec.ofNat 32 (field c.bytes 20 4))
      .status (sendHeld (s2.updPkg (fun k => { k with
        gwsel := (List.range 256).map (fun n => (field c.bytes (32 + n / 8) 1).testBit (n % 8)) }))) 0

/-- PORT_SETUP. -/
def execPortSetup (s : State) : Host.Outcome State Fault Refusal := .next (plaod s (fun c => c.opcode == 11) runPortSetup)

/-- HOST_SWITCH: posted writes received before it have been performed (R96); what is held goes out on the new port. -/
def runHostSwitch (s : State) (c : Command) : Done :=
  if !fieldsClear c [(12, 52)] then .status s 2
  else if !s.host.links.contains 23 then .status s 7
  else .status (hostRelease (s.updHost (fun h => { h with gateway := 23 }))) 0

/-- HOST_SWITCH. -/
def execHostSwitch (s : State) : Host.Outcome State Fault Refusal := .next (plaod s (fun c => c.opcode == 12) runHostSwitch)

/-! ## RESET of a die (R375) -/

/-- RESET of a die: the die is lost and reset; the command completes when it has rejoined, and event 0x89 follows; where its reset fails it
completes with ABSENT (log 59).  The lifetime store is not folded: the package goes on (DESIGN CHOICE, log 156). -/
def runResetDie (s : State) (c : Command) : Done :=
  let d := field c.bytes 17 1
  if s.host.command.isSome then
    (match (s.die d).loss with
    | .serving => .stays (rejoinEvent (finish s c 0) d)
    | .absent => .status s 5
    | _ => .stays s)
  else if !fieldsClear c [(12, 4), (18, 46)] || field c.bytes 16 1 != 0 || decide (24 ≤ d) || d == s.host.gateway then .status s 2
  else if !(s.die d).present || (s.die d).loss != .serving then .status s 5
  else .stays (loseDie (s.updHost (fun h => { h with command := some c })) d true)

/-- RESET_DIE. -/
def execResetDie (s : State) : Host.Outcome State Fault Refusal :=
  .next (plaod s (fun c => c.opcode == 8 && field c.bytes 16 1 != 1) runResetDie)

end Sys2Proof.Machine
end

