-- ==== Sys2Proof/Machine/Host.lean ====
section
/-! DEFINITION. The host port (R96, R163, R369), event records (R363 to R366), the lifetime store's fold (R176), service-core takeover (R371),
temperature and supply (R7, R370), memory and L1 errors that no access meets (R412, R414), and the boot of a package (R172, R173, R372,
R373, R375). -/

namespace Sys2Proof.Machine

/-! ## Host writes and reads (R96, R163, R369) -/

/-- The fault unit of the gateway that holds the host port. -/
def hostUnit (s : State) : Nat := faultUnit s.host.gateway

/-- What a host address reaches through the two BARs. -/
inductive HostTarget where
  | memory
  | register (ep off : Nat)
  /-- a part of BAR0 that is no endpoint's window -/
  | hole
  | nothing
  deriving DecidableEq, Repr

/-- BAR0 shows the windows of link gateways 22 and 23, BAR2 the low 1 TiB (R163). -/
def hostTarget (s : State) (pa n : Nat) : HostTarget :=
  if 0xF0016000000 ≤ pa ∧ pa + n ≤ 0xF0018000000 ∧ pa / 0x10000 = (pa + n - 1) / 0x10000 then
    match windowAt pa with
    | some w => .register (endpoint w.1 w.2) (pa % 0x10000)
    | none => .hole
  else if pa + n ≤ 2 ^ 40 ∧ plainMemory s pa n then .memory
  else .nothing

/-- Boot has stopped: only BOOTSTAT answers (R372). -/
def bootHalted (s : State) : Bool := s.host.bootstat.getLsbD 30

/-- A posted write is performed in arrival order: it waits (none) only where a kick queue is full.  Poisoned data and unassigned ranges are
discarded. -/
def postedWrite (s : State) (pa : Nat) (data : List Byte) (poisoned : Bool) : Option State :=
  if bootHalted s then some s
  else if poisoned then some (s.event (hostUnit s) 10 0x82 2 false pa 0)
  else match hostTarget s pa data.length with
    | .nothing => some (s.event (hostUnit s) 10 0x82 2 false pa 0)
    | .hole => some s
    | .register ep off => windowWrite s ep (hostWriter s) off data
    | .memory =>
      match memoryWrite s pa data with
      | some s1 => some s1
      | none => some (s.event (faultUnit (homeDie pa)) (memoryClass s pa) 0x2A 2 false pa 1)

/-- Bytes of a window while boot has stopped. -/
def haltedBytes (s : State) (ep off n : Nat) : List Byte :=
  (List.range n).map (fun i =>
    if windowOf s ep = .host ∧ 0x40 ≤ off + i ∧ off + i < 0x44 then windowByte s ep (off + i) else 0#8)

/-- A host read: every earlier posted write has been performed; what cannot be read returns an Unsupported Request, or poison of refused
data in the CXL personality, with event 0x83. -/
def readForHost (s : State) (pa n : Nat) : State :=
  let refused (m : HostMessage) : State := toHost (s.event (hostUnit s) 10 0x83 2 false pa 0) m
  if bootHalted s then
    match hostTarget s pa n with
    | .register ep off => toHost s (.completion pa (haltedBytes s ep off n))
    | .hole => toHost s (.completion pa (List.replicate n 0#8))
    | _ => toHost s (.unsupported pa)
  else match hostTarget s pa n with
    | .nothing => refused (.unsupported pa)
    | .hole => toHost s (.completion pa (List.replicate n 0#8))
    | .register ep off => toHost s (.completion pa (windowRead s ep off n))
    | .memory =>
      match memoryRead s pa n with
      | some (s1, bs) => toHost s1 (.completion pa bs)
      | none => refused (if s.host.cxl then .poison pa else .unsupported pa)

/-- Performs the host's requests in arrival order, up to a posted write that must wait; it and those behind it are held (R96, R369). -/
def performPosted (s : State) : List HostRequest → State
  | [] => s.updHost (fun h => { h with posted := [] })
  | .write pa data poisoned :: rest =>
    match postedWrite s pa data poisoned with
    | some s1 => performPosted s1 rest
    | none => s.updHost (fun h => { h with posted := .write pa data poisoned :: rest })
  | .read pa len :: rest => performPosted (readForHost s pa len) rest

/-- A request of the host arrives behind those that wait; over a link that is down none arrives. -/
def hostAsks (s : State) (r : HostRequest) : State := if hostLinkUp s then performPosted s (s.host.posted ++ [r]) else s

/-- HOST_POSTED_WRITE. -/
def execHostPostedWrite (pa : Nat) (data : List Byte) (poisoned : Bool) (s : State) : Host.Outcome State Fault Refusal :=
  .next (hostAsks s (.write pa data poisoned))

/-- HOST_READ. -/
def execHostRead (pa len : Nat) (s : State) : Host.Outcome State Fault Refusal :=
  .next (hostAsks s (.read pa len))

/-- HART_JOB_START: with a kick taken, a posted write to its KICK register may go on. -/
def execHartJobStart (s : State) : Host.Outcome State Fault Refusal :=
  let s1 := startJob s s.obj
  .next (performPosted s1 s1.host.posted)

/-! ## The host link (R369) -/

/-- The gateway whose link a link row is about: that named by State.obj, else the host port's. -/
def linkNamed (s : State) : Nat := if s.obj = 22 ∨ s.obj = 23 then s.obj else s.host.gateway

/-- HOST_LINK_DOWN: for the host port's link, event 0x80. -/
def linkDown (s : State) (g : Nat) : State :=
  if !s.host.links.contains g then s
  else
    let s1 := s.updHost (fun h => { h with links := h.links.filter (fun x => x != g) })
    if g ≠ s.host.gateway then s1
    else (s1.updHost (fun h => { h with downAt := s.time })).event (hostUnit s) 10 0x80 2 false 0 0

/-- HOST_LINK_DOWN. -/
def execHostLinkDown (s : State) : Host.Outcome State Fault Refusal := .next (linkDown s (linkNamed s))

/-- The SEV 0 record of a retrained link, with the outage in its count field; within a millisecond of the last one of its class it is
counted instead (R364). -/
def retrainEvent (s : State) (outage : Nat) : State :=
  let d := s.host.gateway
  let soon (p : Nat × Nat) : Bool := decide (s.time < p.1 + 1000000)
  match (s.die d).reports.find 10 with
  | some p =>
    if soon p then s.corrected (hostUnit s) 10 0x81 0 1
    else (s.updDie d (fun x => { x with reports := x.reports.put 10 (s.time, p.2) })).event (hostUnit s) 10 0x81 0 false 0 outage
  | none => (s.updDie d (fun x => { x with reports := x.reports.put 10 (s.time, 0) })).event (hostUnit s) 10 0x81 0 false 0 outage

/-- HOST_LINK_RETRAINED: for the host port's link, event 0x81 and the release of what is held. -/
def linkUp (s : State) (g : Nat) : State :=
  if s.host.links.contains g || !(s.die g).present then s
  else
    let s1 := s.updHost (fun h => { h with links := g :: h.links })
    if g ≠ s.host.gateway then s1 else hostRelease (retrainEvent s1 (s.time - s.host.downAt))

/-- HOST_LINK_RETRAINED. -/
def execHostLinkRetrained (s : State) : Host.Outcome State Fault Refusal := .next (linkUp s (linkNamed s))

/-- HOST_LINK_CORRECTED_ERROR. -/
def execHostLinkCorrectedError (s : State) : Host.Outcome State Fault Refusal := .next (s.corrected (hostUnit s) 10 0x81 0 1)

/-! ## The event ring (R365, R366) -/

/-- Records that the event ring holds. -/
def eventSlots (h : HostPort) : Nat := 2 ^ (h.evbase.extractLsb' 0 5).toNat
/-- The event ring takes no record. -/
def eventRingFull (h : HostPort) : Bool := !h.evbase.getLsbD 8 || decide (eventSlots h ≤ (h.evtail - h.evhead).toNat)
/-- SEV of a record. -/
def recordSev (r : List Byte) : Nat := field r 14 1
/-- SRC of a record. -/
def recordSrc (r : List Byte) : Nat := field r 8 4 % 2 ^ 20
/-- The MSI-X vector of a record. -/
def recordVector (r : List Byte) : Nat :=
  match recordSev r with
  | 3 => 40
  | 4 => 41
  | _ => 16 + epDie (recordSrc r)

/-- Writes a record to its slot, with LOST where records of its source were lost, advances EVTAIL and signals its vector.  A slot that cannot
be written drops the record (log 58). -/
def writeRecord (s : State) (r : List Byte) : State :=
  let h := s.host
  let lost : Bool := h.lost.contains (recordSrc r)
  let bytes := if lost then patch r 15 [BitVec.ofNat 8 (field r 15 1) ||| 1#8] else r
  let slot := (h.evbase.extractLsb' 12 40).toNat * 4096 + h.evtail.toNat % eventSlots h * 32
  match memoryWrite s slot bytes with
  | none => s.updHost (fun h => { h with evdrop := h.evdrop + 1#32 })
  | some s1 =>
    toHost (s1.updHost (fun h => { h with
      evtail := h.evtail + 1#32, lost := h.lost.filter (fun x => x != recordSrc r) })) (.vector (recordVector r))

/-- A record that finds the ring full, or older records waiting for it. -/
def holdRecord (s : State) (r : List Byte) : State :=
  let drop (s : State) : State := s.updHost (fun h => { h with evdrop := h.evdrop + 1#32 })
  if recordSev r < 2 then drop s
  else if s.host.holding.length < 64 then s.updHost (fun h => { h with holding := h.holding ++ [r] })
  else (drop s).updHost (fun h => { h with lost := if h.lost.contains (recordSrc r) then h.lost else recordSrc r :: h.lost })

/-- INC of a record, that of the packet it travels in. -/
def recordInc (r : List Byte) : Nat := bits (field r 8 4) 27 20

/-- The record in flight that reaches the fault unit next: the one at the place that State.obj names, unless an earlier one of its die is still
on its way (R149); and those that stay in flight. -/
def arriving (s : State) : Option (Event × List Event) :=
  match s.events[s.obj]? with
  | none => none
  | some e =>
    if (s.events.take s.obj).any (fun x => epDie (recordSrc x.bytes) == epDie (recordSrc e.bytes)) then none
    else some (e, s.events.eraseIdx s.obj)

/-- A record reaches the fault unit of the gateway that holds the host port: dropped for a stale incarnation (R152, R433), else given over. -/
def takeRecord (s : State) (e : Event) (take : State → List Byte → State) : State :=
  let d := s.host.gateway
  let src := epDie (recordSrc e.bytes)
  if ((s.die d).known.find (Config.package * 32 + src)).getD 0 != recordInc e.bytes then
    dropCounted s d (endpoint src 0)
  else take s e.bytes

/-- EVENT_RECORD_WRITE: a held record for which a slot is free is written, else the next record that reaches the fault unit is written, held
or dropped. -/
def nextRecord (s : State) : State :=
  match s.host.holding with
  | r :: rest =>
    if !eventRingFull s.host then writeRecord (s.updHost (fun h => { h with holding := rest })) r
    else (match arriving s with
      | none => s
      | some (e, es) => takeRecord { s with events := es } e holdRecord)
  | [] =>
    match arriving s with
    | none => s
    | some (e, es) => takeRecord { s with events := es } e (fun s r => if eventRingFull s.host then holdRecord s r else writeRecord s r)

/-- EVENT_RECORD_WRITE. -/
def execEventRecordWrite (s : State) : Host.Outcome State Fault Refusal := .next (nextRecord s)

/-! ## Firmware (R176, R371) -/

/-- Puts back what a command in progress has done. -/
def undoCommand (s : State) (c : Command) : State :=
  match c.undo with
  | none => s
  | some (a, old) => (memoryWrite s a (leBytes 8 old)).getD s

/-- The command in progress as the service cores that take over find it in the journal (R371): an UNMAP whose translations are gone has had its
effect, and goes on to complete with DONE; so does the RESET of a die, whose loss cannot be taken back: it completes when the die has rejoined
(log 59).  Another one completes with INTERRUPTED and without effect. -/
def settleCommand (s : State) : State :=
  match s.host.command with
  | none => s
  | some c =>
    if c.opcode = 3 then s
    else if c.opcode = 8 then
      (if (s.die (field c.bytes 17 1)).loss = .serving then rejoinEvent (finish s c 0) (field c.bytes 17 1) else s)
    else finish (undoCommand s c) c 6

/-- SERVICE_CORE_TAKEOVER: the other gateway's service cores serve, event 0x85, and settle the command in progress. -/
def takeOver (s : State) : State :=
  let other := 45 - s.host.serving
  if !(s.die other).present then s
  else settleCommand ((s.updHost (fun h => { h with serving := other })).event (faultUnit other) 11 0x85 1 false s.host.serving 0)

/-- SERVICE_CORE_TAKEOVER: where the serving die has been lost the other's cores serve already, and the command is settled. -/
def execServiceCoreTakeover (s : State) : Host.Outcome State Fault Refusal := .next (if s.obj = 1 then settleCommand s else takeOver s)

/-- Adds to a counter of the lifetime store, which saturates (log 60). -/
def addLifetime (m : NMap Nat) (key n : Nat) : NMap Nat := m.put key (min (2 ^ 32 - 1) ((m.find key).getD 0 + n))

/-- Folds what has been counted, and the hours passed since the last fold, into the lifetime store; each present die adds one sample to its
temperature histogram, in a free bin (log 61). -/
def fold (s : State) : State :=
  let hours := s.time / 3600000000000 - s.pkg.foldAt / 3600000000000
  let bin (d : Nat) : Nat := (Config.freeValue 6 (s.free + d)).toNat % 16
  let samples := (presentDies s).map (fun d => (lifeKey 2 d (bin d), 1))
  { s.updPkg (fun k => { k with
      lifetime := (k.counts ++ [(lifeKey 1 0 0, hours)] ++ samples).foldl (fun m p => addLifetime m p.1 p.2) k.lifetime
      counts := []
      foldAt := s.time }) with free := s.free + 24 }

/-- LIFETIME_FOLD: every 60 s of device time. -/
def execLifetimeFold (s : State) : Host.Outcome State Fault Refusal :=
  .next (if s.time < s.pkg.foldAt + 60000000000 then s else fold s)

/-! ## Temperature and supply (R7, R370) -/

/-- Every core of a die is listed, with the cycles it has counted so far. -/
def listCores (s : State) (die : Nat) : State :=
  (List.range 128).foldl (fun s l =>
    let ep := endpoint die l
    if s.isCore ep || isHart ep then s.updCore ep (fun c => c) else s) s

/-- TEMPERATURE_THROTTLE: the die named by State.obj is at 105 degrees or above. -/
def throttle (s : State) (die : Nat) : State :=
  if 24 ≤ die ∨ !(s.die die).present ∨ (s.die die).throttled then s
  else ((listCores s die).updDie die (fun d => { d with throttled := true })).event (faultUnit die) 0 0x8B 1 false 0 0

/-- TEMPERATURE_THROTTLE. -/
def execTemperatureThrottle (s : State) : Host.Outcome State Fault Refusal := .next (throttle s s.obj)

/-- TEMPERATURE_RECOVER: it has fallen below 95 degrees. -/
def execTemperatureRecover (s : State) : Host.Outcome State Fault Refusal :=
  .next (if (s.die s.obj).throttled then s.updDie s.obj (fun d => { d with throttled := false }) else s)

/-- Every record on its way is written, held or dropped, at most n of them. -/
def flushRecords : Nat → State → State
  | 0, s => s
  | n + 1, s => if s.events.isEmpty then s else flushRecords n (nextRecord s)

/-- TEMPERATURE_SHUTDOWN: a die is at 115 degrees; the event is written and the supply goes. -/
def shutDown (s : State) : State :=
  let s1 := s.event (faultUnit s.obj) 0 0x8B 4 false 0 0
  { flushRecords (s1.events.length + 65) { s1 with obj := 0 } with powered := false, obj := s.obj }

/-- TEMPERATURE_SHUTDOWN. -/
def execTemperatureShutdown (s : State) : Host.Outcome State Fault Refusal := .next (shutDown s)

/-- SUPPLY_DROOP, on the die named by State.obj. -/
def execSupplyDroop (s : State) : Host.Outcome State Fault Refusal :=
  .next ((s.corrected (faultUnit s.obj) 0 0x8C 0 1).count (lifeKey 3 s.obj 0) 1)

/-! ## Errors that no access meets (R412 to R414) -/

/-- SCRUB: a corrected line is reported; an uncorrectable one too, and nothing is changed.  The word in error of a line that lists none is a
free choice (log 55). -/
def scrubLine (s : State) (line : Nat) (found : ScrubFinding) : State :=
  let a := line / 128 * 128
  let unit := faultUnit (homeDie a)
  match found with
  | .clean => s
  | .corrected => s.corrected unit (memoryClass s a) 0x2B a 1
  | .uncorrectable =>
    let s1 := s.event unit (memoryClass s a) 0x2A 2 false a 1
    if s.damaged a 128 then s1
    else
      let w := a + 8 * ((Config.freeValue 7 s.free).toNat % 16)
      { s1 with bad := insertWord s1.bad w, free := s1.free + 1 }

/-- SCRUB. -/
def execScrub (line : Nat) (found : ScrubFinding) (s : State) : Host.Outcome State Fault Refusal := .next (scrubLine s line found)

/-- UNCORRECTABLE_L1_LINE_LOSS: an M or U line is lost with event 0x2C; a clean one is invalidated, a corrected event (R413). -/
def loseLine (s : State) (ep line : Nat) : State :=
  match (s.core ep).lines.find? (fun x => x.1 == line) with
  | none => s
  | some x =>
    let s1 := s.updCore ep (fun c => { c with lines := c.lines.filter (fun y => y.1 != line) })
    match x.2.state with
    | .m | .u _ _ _ => s1.event (faultUnit (epDie ep)) 2 0x2C 2 false line ep
    | .s | .e => s1.corrected (faultUnit (epDie ep)) 2 0x2B line 1

/-- UNCORRECTABLE_L1_LINE_LOSS. -/
def execUncorrectableL1LineLoss (core line : Nat) (s : State) : Host.Outcome State Fault Refusal := .next (loseLine s core line)

/-! ## Boot (R172, R173, R372, R373, R375) -/

/-- The positions of a core die whose cores pass. -/
def passing (b : BootOutcome) (die : Nat) : List Nat := (List.range 80).filter (fun c => !b.failing.contains (die, c))

/-- A core die is present after harvesting. -/
def harvested (b : BootOutcome) (die : Nat) : Bool := decide (72 ≤ (passing b die).length) && !b.cutOff.contains die

/-- Leakage of a position as firmware measured it. -/
def leakageOf (b : BootOutcome) (die c : Nat) : Nat := ((b.leakage.find? (fun p => p.1 == die && p.2.1 == c)).map (·.2.2)).getD 0

/-- The 72 positions that stay enabled: others leave in decreasing order of leakage, the lower position on ties. -/
def enabledAfter (b : BootOutcome) (die : Nat) : List Nat :=
  let ok := passing b die
  let before (c d : Nat) : Bool :=
    decide (leakageOf b die d < leakageOf b die c) || (leakageOf b die c == leakageOf b die d && decide (c ≤ d))
  let off := (ok.mergeSort before).take (ok.length - 72)
  ok.filter (fun c => !off.contains c)

/-- The router that the agents of a core die attach to: at position 34, or the working one nearest it, the lower row and then the lower column
on ties (R462). -/
def attachedRouter (b : BootOutcome) (die : Nat) : Nat :=
  let far (c : Nat) : Nat := gap (c % 10, c % 10) (4, 4) + gap (c / 10, c / 10) (3, 3)
  ((List.range 80).filter (fun c => !b.badRouters.contains (die, c))).foldl (fun best c => if far c < far best ∨ b.badRouters.contains (die, best) then c else best) 34

/-- A die after boot. -/
def bootDie (b : BootOutcome) (die : Nat) : Die :=
  let present : Bool := decide (16 ≤ die) || harvested b die
  let numbers : NMap Nat := (List.range 24).map (fun d =>
    (Config.package * 32 + d, if 16 ≤ d ∨ harvested b d then 1 else 0))
  { Die.reset die with
    inc := if present then 1 else 0
    present := present
    enabled := if die < 16 then (if present then enabledAfter b die else []) else List.range 16
    loss := if present then .serving else .absent
    known := numbers
    attach := attachedRouter b die
    dark := decide (22 ≤ die) && b.badLpddr.contains die }

/-- BOOTSTAT of a boot that has stopped at a step. -/
def haltWord (step code detail : Nat) : Word := BitVec.ofNat 32 (0x40000000 + step * 65536 + code * 256 + detail % 256)

/-- The state in which boot begins: as after reset, with the lifetime store, the strap and the key kept; device time, the model's own counters
and what the agenda holds go on (R8). -/
def bootStart (s : State) (b : BootOutcome) : State :=
  { State.reset with
    fresh := s.fresh
    free := s.free
    time := s.time
    agenda := s.agenda
    host := { HostPort.reset with keyOk := s.host.keyOk, cxl := s.host.cxl, boot := some b }
    pkg := { Package.reset with lifetime := s.pkg.lifetime, foldAt := s.time, beatAt := s.time, dieBeatAt := s.time } }

/-- BOOTSTAT while a step of R172 is run. -/
def atBootStep (s : State) (n : Nat) : State := s.updHost (fun h => { h with bootstat := BitVec.ofNat 32 (n * 65536) })

/-- Boot stops at a step: the host port trains with BAR0 alone, and the halt stands in the lifetime store. -/
def haltBoot (s : State) (step code detail : Nat) : State :=
  (s.updHost (fun h => { h with bootstat := haltWord step code detail, boot := none, links := [h.gateway] })).updPkg (fun k => { k with
    lifetime := addLifetime k.lifetime (lifeKey 11 0 0) 1 })

/-- The host port is trained, the boot is counted, and commands are accepted. -/
def bootDone (s : State) (b : BootOutcome) : State :=
  let s1 := (s.updHost (fun h => { h with bootstat := 0x80080000#32, boot := none, links := [h.gateway] })).updPkg (fun k => { k with
    lifetime := addLifetime k.lifetime (lifeKey 0 0 0) 1 })
  ((List.range 16).filter (fun d => !harvested b d)).foldl (fun s d => s.event (lossUnit s) 8 0x87 3 false d 0) s1

/-- Boot goes on by one step of R172: the step that BOOTSTAT shows ends, by its failure (R372) or with its effect, and the next begins. -/
def bootStep (s : State) (b : BootOutcome) : State :=
  let n := (s.host.bootstat.extractLsb' 16 4).toNat
  let next (s : State) : State := atBootStep s (n + 1)
  match n with
  | 0 => next s
  | 1 => if b.imageOk then next s else haltBoot s 1 0x86 0
  | 2 =>
    match b.badStack with
    | some k => haltBoot s 2 0x86 k
    | none => next (b.badLpddr.foldl (fun s d => s.event (lossUnit s) 7 0x86 2 false d 0) s)
  | 3 => next s
  | 4 =>
    if !(List.range 16).any (harvested b) then haltBoot s 4 0x87 0
    else next { s with dies := (List.range 24).map (fun d => (d, bootDie b d)) }
  | 5 => if b.connected then next s else haltBoot s 5 0x86 0
  | 6 => next s
  | 7 => next (b.badPorts.foldl (fun s p => portEvent s p 0x88 2 0) s)
  | _ => if b.hostPortOk then bootDone s b else s.updHost (fun h => { h with boot := none })

/-- PACKAGE_RESET: from outside, boot begins; what was not folded into the lifetime store is lost.  Of the boot under way, its next step. -/
def execPackageReset (b : BootOutcome) (s : State) : Host.Outcome State Fault Refusal :=
  .next (if s.obj = 0 then bootStart s b
    else match s.host.boot with
      | some x => bootStep s x
      | none => s)

/-- RESET_PACKAGE: the command in hand of a ring resets the package, without a completion and after a fold. -/
def execResetPackage (ring : Nat) (b : BootOutcome) (s : State) : Host.Outcome State Fault Refusal :=
  .next (plaod s (fun c => c.opcode == 8 && field c.bytes 16 1 == 1 && c.ring == ring) (fun s c =>
    if !fieldsClear c [(12, 4), (18, 46)] then .status s 2 else .stays (bootStart (fold s) b)))

end Sys2Proof.Machine
end

