-- ==== Sys2Proof/Machine/Dispatch.lean ====
section
/-! DEFINITION. The dispatch of instructions to their meanings: one arm per constructor. -/

namespace Sys2Proof.Machine

/-- Runs one instruction, or one event of an agent, in a state. -/
def exec (i : Instr) (s : State) : Host.Outcome State Fault Refusal :=
  match i with
  | .nop o => Sys2Proof.Machine.execNop o s
  | .mov o => Sys2Proof.Machine.execMov o s
  | .lit o => Sys2Proof.Machine.execLit o s
  | .add o => Sys2Proof.Machine.execAdd o s
  | .sub o => Sys2Proof.Machine.execSub o s
  | .mul o => Sys2Proof.Machine.execMul o s
  | .mulh o => Sys2Proof.Machine.execMulh o s
  | .mad o => Sys2Proof.Machine.execMad o s
  | .div o => Sys2Proof.Machine.execDiv o s
  | .rem o => Sys2Proof.Machine.execRem o s
  | .min o => Sys2Proof.Machine.execMin o s
  | .max o => Sys2Proof.Machine.execMax o s
  | .abs o => Sys2Proof.Machine.execAbs o s
  | .neg o => Sys2Proof.Machine.execNeg o s
  | .and o => Sys2Proof.Machine.execAnd o s
  | .or o => Sys2Proof.Machine.execOr o s
  | .xor o => Sys2Proof.Machine.execXor o s
  | .not o => Sys2Proof.Machine.execNot o s
  | .shl o => Sys2Proof.Machine.execShl o s
  | .shr o => Sys2Proof.Machine.execShr o s
  | .sar o => Sys2Proof.Machine.execSar o s
  | .rot o => Sys2Proof.Machine.execRot o s
  | .bfx o => Sys2Proof.Machine.execBfx o s
  | .bfi o => Sys2Proof.Machine.execBfi o s
  | .popc o => Sys2Proof.Machine.execPopc o s
  | .clz o => Sys2Proof.Machine.execClz o s
  | .brev o => Sys2Proof.Machine.execBrev o s
  | .sel o => Sys2Proof.Machine.execSel o s
  | .setp o => Sys2Proof.Machine.execSetp o s
  | .plop o => Sys2Proof.Machine.execPlop o s
  | .lea o => Sys2Proof.Machine.execLea o s
  | .gaddr o => Sys2Proof.Machine.execGaddr o s
  | .bra o => Sys2Proof.Machine.execBra o s
  | .brx o => Sys2Proof.Machine.execBrx o s
  | .call o => Sys2Proof.Machine.execCall o s
  | .ret o => Sys2Proof.Machine.execRet o s
  | .join o => Sys2Proof.Machine.execJoin o s
  | .leave o => Sys2Proof.Machine.execLeave o s
  | .waitk o => Sys2Proof.Machine.execWaitk o s
  | .kmov o => Sys2Proof.Machine.execKmov o s
  | .vote o => Sys2Proof.Machine.execVote o s
  | .shfl o => Sys2Proof.Machine.execShfl o s
  | .scan o => Sys2Proof.Machine.execScan o s
  | .redg o => Sys2Proof.Machine.execRedg o s
  | .yield o => Sys2Proof.Machine.execYield o s
  | .exit o => Sys2Proof.Machine.execExit o s
  | .getsr o => Sys2Proof.Machine.execGetsr o s
  | .setsr o => Sys2Proof.Machine.execSetsr o s
  | .fadd o => Sys2Proof.Machine.execFadd o s
  | .fsub o => Sys2Proof.Machine.execFsub o s
  | .fmul o => Sys2Proof.Machine.execFmul o s
  | .ffma o => Sys2Proof.Machine.execFfma o s
  | .fmin o => Sys2Proof.Machine.execFmin o s
  | .fmax o => Sys2Proof.Machine.execFmax o s
  | .fsetp o => Sys2Proof.Machine.execFsetp o s
  | .frcp o => Sys2Proof.Machine.execFrcp o s
  | .fdiv o => Sys2Proof.Machine.execFdiv o s
  | .fsqrt o => Sys2Proof.Machine.execFsqrt o s
  | .frsq o => Sys2Proof.Machine.execFrsq o s
  | .fex2 o => Sys2Proof.Machine.execFex2 o s
  | .flg2 o => Sys2Proof.Machine.execFlg2 o s
  | .fsin o => Sys2Proof.Machine.execFsin o s
  | .fcos o => Sys2Proof.Machine.execFcos o s
  | .ftanh o => Sys2Proof.Machine.execFtanh o s
  | .frnd o => Sys2Proof.Machine.execFrnd o s
  | .cvt o => Sys2Proof.Machine.execCvt o s
  | .f2i o => Sys2Proof.Machine.execF2i o s
  | .i2f o => Sys2Proof.Machine.execI2f o s
  | .pack o => Sys2Proof.Machine.execPack o s
  | .unpk o => Sys2Proof.Machine.execUnpk o s
  | .hfma2 o => Sys2Proof.Machine.execHfma2 o s
  | .dot4 o => Sys2Proof.Machine.execDot4 o s
  | .fcls o => Sys2Proof.Machine.execFcls o s
  | .fclsTest o => Sys2Proof.Machine.execFclsTest o s
  | .fscale o => Sys2Proof.Machine.execFscale o s
  | .ld o => Sys2Proof.Machine.execLd o s
  | .st o => Sys2Proof.Machine.execSt o s
  | .lds o => Sys2Proof.Machine.execLds o s
  | .sts o => Sys2Proof.Machine.execSts o s
  | .ldc o => Sys2Proof.Machine.execLdc o s
  | .stc o => Sys2Proof.Machine.execStc o s
  | .ldx o => Sys2Proof.Machine.execLdx o s
  | .stx o => Sys2Proof.Machine.execStx o s
  | .setfe o => Sys2Proof.Machine.execSetfe o s
  | .atom o => Sys2Proof.Machine.execAtom o s
  | .red o => Sys2Proof.Machine.execRed o s
  | .pref o => Sys2Proof.Machine.execPref o s
  | .flush o => Sys2Proof.Machine.execFlush o s
  | .flushAll o => Sys2Proof.Machine.execFlushAll o s
  | .fence o => Sys2Proof.Machine.execFence o s
  | .get o => Sys2Proof.Machine.execGet o s
  | .put o => Sys2Proof.Machine.execPut o s
  | .puts o => Sys2Proof.Machine.execPuts o s
  | .ratom o => Sys2Proof.Machine.execRatom o s
  | .bara o => Sys2Proof.Machine.execBara o s
  | .barw o => Sys2Proof.Machine.execBarw o s
  | .sstep o => Sys2Proof.Machine.execSstep o s
  | .sstepBind o => Sys2Proof.Machine.execSstepBind o s
  | .engk o => Sys2Proof.Machine.execEngk o s
  | .engw o => Sys2Proof.Machine.execEngw o s
  | .tmma o => Sys2Proof.Machine.execTmma o s
  | .tmmas o => Sys2Proof.Machine.execTmmas o s
  | .twmma o => Sys2Proof.Machine.execTwmma o s
  | .titer o => Sys2Proof.Machine.execTiter o s
  | .tpoly o => Sys2Proof.Machine.execTpoly o s
  | .twait o => Sys2Proof.Machine.execTwait o s
  | .tver o => Sys2Proof.Machine.execTver o s
  | .tlda o => Sys2Proof.Machine.execTlda o s
  | .tsta o => Sys2Proof.Machine.execTsta o s
  | .tzero o => Sys2Proof.Machine.execTzero o s
  | .tenq o => Sys2Proof.Machine.execTenq o s
  | .tcoef o => Sys2Proof.Machine.execTcoef o s
  | .tcoefGet o => Sys2Proof.Machine.execTcoefGet o s
  | .tcb o => Sys2Proof.Machine.execTcb o s
  | .tbld o => Sys2Proof.Machine.execTbld o s
  | .ttrn o => Sys2Proof.Machine.execTtrn o s
  | .tfeed o => Sys2Proof.Machine.execTfeed o s
  | .vadd o => Sys2Proof.Machine.execVadd o s
  | .vmul o => Sys2Proof.Machine.execVmul o s
  | .vfma o => Sys2Proof.Machine.execVfma o s
  | .vmax o => Sys2Proof.Machine.execVmax o s
  | .vmin o => Sys2Proof.Machine.execVmin o s
  | .vexp o => Sys2Proof.Machine.execVexp o s
  | .vred o => Sys2Proof.Machine.execVred o s
  | .vbcast o => Sys2Proof.Machine.execVbcast o s
  | .vmovRow o => Sys2Proof.Machine.execVmovRow o s
  | .vmovGet o => Sys2Proof.Machine.execVmovGet o s
  | .vmovPut o => Sys2Proof.Machine.execVmovPut o s
  | .vcvt o => Sys2Proof.Machine.execVcvt o s
  | .raysend o => Sys2Proof.Machine.execRaysend o s
  | .boxt o => Sys2Proof.Machine.execBoxt o s
  | .trit o => Sys2Proof.Machine.execTrit o s
  | .tlook o => Sys2Proof.Machine.execTlook o s
  | .hitq o => Sys2Proof.Machine.execHitq o s
  | .rque o => Sys2Proof.Machine.execRque o s
  | .recq o => Sys2Proof.Machine.execRecq o s
  | .recqHeld o => Sys2Proof.Machine.execRecqHeld o s
  | .recj o => Sys2Proof.Machine.execRecj o s
  | .send o => Sys2Proof.Machine.execSend o s
  | .recv o => Sys2Proof.Machine.execRecv o s
  | .abind o => Sys2Proof.Machine.execAbind o s
  | .abindUn o => Sys2Proof.Machine.execAbindUn o s
  | .balw o => Sys2Proof.Machine.execBalw o s
  | .cinit o => Sys2Proof.Machine.execCinit o s
  | .cred o => Sys2Proof.Machine.execCred o s
  | .cwait o => Sys2Proof.Machine.execCwait o s
  | .baddq o => Sys2Proof.Machine.execBaddq o s
  | .blkq o => Sys2Proof.Machine.execBlkq o s
  | .view o => Sys2Proof.Machine.execView o s
  | .viewSet o => Sys2Proof.Machine.execViewSet o s
  | .resid o => Sys2Proof.Machine.execResid o s
  | .residReq o => Sys2Proof.Machine.execResidReq o s
  | .trap o => Sys2Proof.Machine.execTrap o s
  | .rte o => Sys2Proof.Machine.execRte o s
  | .brk o => Sys2Proof.Machine.execBrk o s
  | .cswap o => Sys2Proof.Machine.execCswap o s
  | .tlbi o => Sys2Proof.Machine.execTlbi o s
  | .eschedLoad o => Sys2Proof.Machine.execEschedLoad o s
  | .eschedStep o => Sys2Proof.Machine.execEschedStep o s
  | .eschedAdv o => Sys2Proof.Machine.execEschedAdv o s
  | .eschedClr o => Sys2Proof.Machine.execEschedClr o s
  | .clkSync o => Sys2Proof.Machine.execClkSync o s
  | .clkCyc o => Sys2Proof.Machine.execClkCyc o s
  | .clkWait o => Sys2Proof.Machine.execClkWait o s
  | .perf o => Sys2Proof.Machine.execPerf o s
  | .mapq o => Sys2Proof.Machine.execMapq o s
  | .clauseStart kind length setb seta wait => Sys2Proof.Machine.execClauseStart kind length setb seta wait s
  | .movShort a d => Sys2Proof.Machine.execMovShort a d s
  | .addShort a d => Sys2Proof.Machine.execAddShort a d s
  | .subShort a d => Sys2Proof.Machine.execSubShort a d s
  | .addi imm a d => Sys2Proof.Machine.execAddi imm a d s
  | .shli imm a d => Sys2Proof.Machine.execShli imm a d s
  | .shri imm a d => Sys2Proof.Machine.execShri imm a d s
  | .sari imm a d => Sys2Proof.Machine.execSari imm a d s
  | .andi imm a d => Sys2Proof.Machine.execAndi imm a d s
  | .lis lo hi d => Sys2Proof.Machine.execLis lo hi d s
  | .faddShort a d => Sys2Proof.Machine.execFaddShort a d s
  | .fmulShort a d => Sys2Proof.Machine.execFmulShort a d s
  | .ldw imm a d => Sys2Proof.Machine.execLdw imm a d s
  | .stw imm a d => Sys2Proof.Machine.execStw imm a d s
  | .ldsw imm a d => Sys2Proof.Machine.execLdsw imm a d s
  | .stsw imm a d => Sys2Proof.Machine.execStsw imm a d s
  | .joinShort k => Sys2Proof.Machine.execJoinShort k s
  | .leaveShort k => Sys2Proof.Machine.execLeaveShort k s
  | .waitkShort k => Sys2Proof.Machine.execWaitkShort k s
  | .braShort off neg gp => Sys2Proof.Machine.execBraShort off neg gp s
  | .callShort off neg gp => Sys2Proof.Machine.execCallShort off neg gp s
  | .nopShort => Sys2Proof.Machine.execNopShort s
  | .retShort => Sys2Proof.Machine.execRetShort s
  | .exitShort => Sys2Proof.Machine.execExitShort s
  | .yieldShort => Sys2Proof.Machine.execYieldShort s
  | .operationComplete thread op => Sys2Proof.Machine.execOperationComplete thread op s
  | .l1MissFill core line => Sys2Proof.Machine.execL1MissFill core line s
  | .tableWalkEnd die walk => Sys2Proof.Machine.execTableWalkEnd die walk s
  | .translationTimeout die walk => Sys2Proof.Machine.execTranslationTimeout die walk s
  | .scrub line found => Sys2Proof.Machine.execScrub line found s
  | .uncorrectableL1LineLoss core line => Sys2Proof.Machine.execUncorrectableL1LineLoss core line s
  | .evhead value => Sys2Proof.Machine.execEvhead value s
  | .placementRetry slice treelet => Sys2Proof.Machine.execPlacementRetry slice treelet s
  | .creditReturnTimeout core src => Sys2Proof.Machine.execCreditReturnTimeout core src s
  | .meshFlitCrcFail link => Sys2Proof.Machine.execMeshFlitCrcFail link s
  | .drinyxUnitReceive port unit => Sys2Proof.Machine.execDrinyxUnitReceive port unit s
  | .drinyxReplayRequest port seq => Sys2Proof.Machine.execDrinyxReplayRequest port seq s
  | .reattestationComplete port ok => Sys2Proof.Machine.execReattestationComplete port ok s
  | .portTraining port farPackage farPort ok => Sys2Proof.Machine.execPortTraining port farPackage farPort ok s
  | .dieRejoin die passed => Sys2Proof.Machine.execDieRejoin die passed s
  | .packageReset boot => Sys2Proof.Machine.execPackageReset boot s
  | .hostPostedWrite pa data poisoned => Sys2Proof.Machine.execHostPostedWrite pa data poisoned s
  | .hostRead pa len => Sys2Proof.Machine.execHostRead pa len s
  | .resetPackage ring boot => Sys2Proof.Machine.execResetPackage ring boot s
  | .crbase ring value => Sys2Proof.Machine.execCrbase ring value s
  | .presume core value => Sys2Proof.Machine.execPresume core value s
  | .praiseTeam core slot => Sys2Proof.Machine.execPraiseTeam core slot s
  | .dbgctlResume core slot => Sys2Proof.Machine.execDbgctlResume core slot s
  | .tabort core slot => Sys2Proof.Machine.execTabort core slot s
  | .perfsel core value => Sys2Proof.Machine.execPerfsel core value s
  | .perfclr core value => Sys2Proof.Machine.execPerfclr core value s
  | .mxclr core value => Sys2Proof.Machine.execMxclr core value s
  | .dsize slice value => Sys2Proof.Machine.execDsize slice value s
  | .repage slice treelet => Sys2Proof.Machine.execRepage slice treelet s
  | .registerWrite ep offset data => Sys2Proof.Machine.execRegisterWrite ep offset data s
  | .kick hart asid desc => Sys2Proof.Machine.execKick hart asid desc s
  | .viewInstallAcknowledgment domain die => Sys2Proof.Machine.execViewInstallAcknowledgment domain die s
  | .fairnessWindowExpiry => Sys2Proof.Machine.execFairnessWindowExpiry s
  | .lateRefusalTrap => Sys2Proof.Machine.execLateRefusalTrap s
  | .teamAdmit => Sys2Proof.Machine.execTeamAdmit s
  | .clusterStart => Sys2Proof.Machine.execClusterStart s
  | .teamRetire => Sys2Proof.Machine.execTeamRetire s
  | .recordThreadStart => Sys2Proof.Machine.execRecordThreadStart s
  | .waveForm => Sys2Proof.Machine.execWaveForm s
  | .waveWaitExpiry => Sys2Proof.Machine.execWaveWaitExpiry s
  | .tileTaskRecordDispatch => Sys2Proof.Machine.execTileTaskRecordDispatch s
  | .preemptForced => Sys2Proof.Machine.execPreemptForced s
  | .preemptSaveComplete => Sys2Proof.Machine.execPreemptSaveComplete s
  | .teamRestore => Sys2Proof.Machine.execTeamRestore s
  | .priority0Preemption => Sys2Proof.Machine.execPriority0Preemption s
  | .contextSwapDecision => Sys2Proof.Machine.execContextSwapDecision s
  | .contextSwapComplete => Sys2Proof.Machine.execContextSwapComplete s
  | .tileTaskStart => Sys2Proof.Machine.execTileTaskStart s
  | .shawmStep => Sys2Proof.Machine.execShawmStep s
  | .tileTaskComplete => Sys2Proof.Machine.execTileTaskComplete s
  | .twmmaRun => Sys2Proof.Machine.execTwmmaRun s
  | .versionUnreachable => Sys2Proof.Machine.execVersionUnreachable s
  | .hartJobStart => Sys2Proof.Machine.execHartJobStart s
  | .mailboxPollTry => Sys2Proof.Machine.execMailboxPollTry s
  | .clockWaitExpiry => Sys2Proof.Machine.execClockWaitExpiry s
  | .reqRead => Sys2Proof.Machine.execReqRead s
  | .reqWrite => Sys2Proof.Machine.execReqWrite s
  | .reqAtomic => Sys2Proof.Machine.execReqAtomic s
  | .reqReduction => Sys2Proof.Machine.execReqReduction s
  | .reqGet => Sys2Proof.Machine.execReqGet s
  | .reqPutPayload => Sys2Proof.Machine.execReqPutPayload s
  | .reqPutsPayload => Sys2Proof.Machine.execReqPutsPayload s
  | .reqPutsSignal => Sys2Proof.Machine.execReqPutsSignal s
  | .reqRatom => Sys2Proof.Machine.execReqRatom s
  | .reqFullEmptyAccess => Sys2Proof.Machine.execReqFullEmptyAccess s
  | .reqSpillWrite => Sys2Proof.Machine.execReqSpillWrite s
  | .reqTableWalkRead => Sys2Proof.Machine.execReqTableWalkRead s
  | .sstepArrivalAtHome => Sys2Proof.Machine.execSstepArrivalAtHome s
  | .rspData => Sys2Proof.Machine.execRspData s
  | .rspAcknowledgment => Sys2Proof.Machine.execRspAcknowledgment s
  | .rspRefusal => Sys2Proof.Machine.execRspRefusal s
  | .feRetryResend => Sys2Proof.Machine.execFeRetryResend s
  | .feWaitTimeout => Sys2Proof.Machine.execFeWaitTimeout s
  | .eventRecordWrite => Sys2Proof.Machine.execEventRecordWrite s
  | .rayArrivalAtCore => Sys2Proof.Machine.execRayArrivalAtCore s
  | .rayArrivalAtSlice => Sys2Proof.Machine.execRayArrivalAtSlice s
  | .routeFill => Sys2Proof.Machine.execRouteFill s
  | .routeUpdate => Sys2Proof.Machine.execRouteUpdate s
  | .grantRequest => Sys2Proof.Machine.execGrantRequest s
  | .reservationRelease => Sys2Proof.Machine.execReservationRelease s
  | .grantReply => Sys2Proof.Machine.execGrantReply s
  | .pageFlit => Sys2Proof.Machine.execPageFlit s
  | .install => Sys2Proof.Machine.execInstall s
  | .counterIncrement => Sys2Proof.Machine.execCounterIncrement s
  | .evictionReport => Sys2Proof.Machine.execEvictionReport s
  | .counterDecay => Sys2Proof.Machine.execCounterDecay s
  | .residencyQueryOrRequest => Sys2Proof.Machine.execResidencyQueryOrRequest s
  | .residencyReply => Sys2Proof.Machine.execResidencyReply s
  | .retireNotice => Sys2Proof.Machine.execRetireNotice s
  | .hitArrival => Sys2Proof.Machine.execHitArrival s
  | .messageArrival => Sys2Proof.Machine.execMessageArrival s
  | .remoteRecordArrival => Sys2Proof.Machine.execRemoteRecordArrival s
  | .recjArrival => Sys2Proof.Machine.execRecjArrival s
  | .collectiveBlockArrival => Sys2Proof.Machine.execCollectiveBlockArrival s
  | .creditReturn => Sys2Proof.Machine.execCreditReturn s
  | .broadcast => Sys2Proof.Machine.execBroadcast s
  | .preemptionRequestMessage => Sys2Proof.Machine.execPreemptionRequestMessage s
  | .incarnationUpdate => Sys2Proof.Machine.execIncarnationUpdate s
  | .drinyxPartialUnit => Sys2Proof.Machine.execDrinyxPartialUnit s
  | .reattestationTimeout => Sys2Proof.Machine.execReattestationTimeout s
  | .sessionRekey => Sys2Proof.Machine.execSessionRekey s
  | .dieHeartbeat => Sys2Proof.Machine.execDieHeartbeat s
  | .heartbeatAnswer => Sys2Proof.Machine.execHeartbeatAnswer s
  | .dieHeartbeatMissed => Sys2Proof.Machine.execDieHeartbeatMissed s
  | .dieLost => Sys2Proof.Machine.execDieLost s
  | .dieDrained => Sys2Proof.Machine.execDieDrained s
  | .packageUnreachable => Sys2Proof.Machine.execPackageUnreachable s
  | .viewPropose => Sys2Proof.Machine.execViewPropose s
  | .viewAccept => Sys2Proof.Machine.execViewAccept s
  | .viewReject => Sys2Proof.Machine.execViewReject s
  | .viewCommit => Sys2Proof.Machine.execViewCommit s
  | .viewJoin => Sys2Proof.Machine.execViewJoin s
  | .lossReport => Sys2Proof.Machine.execLossReport s
  | .chalumeauHeartbeat => Sys2Proof.Machine.execChalumeauHeartbeat s
  | .chalumeauHeartbeatLoss => Sys2Proof.Machine.execChalumeauHeartbeatLoss s
  | .hostLinkDown => Sys2Proof.Machine.execHostLinkDown s
  | .hostLinkRetrained => Sys2Proof.Machine.execHostLinkRetrained s
  | .hostLinkCorrectedError => Sys2Proof.Machine.execHostLinkCorrectedError s
  | .serviceCoreTakeover => Sys2Proof.Machine.execServiceCoreTakeover s
  | .lifetimeFold => Sys2Proof.Machine.execLifetimeFold s
  | .temperatureThrottle => Sys2Proof.Machine.execTemperatureThrottle s
  | .temperatureRecover => Sys2Proof.Machine.execTemperatureRecover s
  | .temperatureShutdown => Sys2Proof.Machine.execTemperatureShutdown s
  | .supplyDroop => Sys2Proof.Machine.execSupplyDroop s
  | .launch => Sys2Proof.Machine.execLaunch s
  | .map => Sys2Proof.Machine.execMap s
  | .unmap => Sys2Proof.Machine.execUnmap s
  | .replayAll => Sys2Proof.Machine.execReplayAll s
  | .queueSetup => Sys2Proof.Machine.execQueueSetup s
  | .viewSetup => Sys2Proof.Machine.execViewSetup s
  | .viewChange => Sys2Proof.Machine.execViewChange s
  | .resetDie => Sys2Proof.Machine.execResetDie s
  | .attest => Sys2Proof.Machine.execAttest s
  | .configRead => Sys2Proof.Machine.execConfigRead s
  | .portSetup => Sys2Proof.Machine.execPortSetup s
  | .hostSwitch => Sys2Proof.Machine.execHostSwitch s
  | .lifetimeRead => Sys2Proof.Machine.execLifetimeRead s
  | .plaodUnassignedOpcode => Sys2Proof.Machine.execPlaodUnassignedOpcode s
  | .praiseAll => Sys2Proof.Machine.execPraiseAll s
  | .pendingUpdateAtHome => Sys2Proof.Machine.execPendingUpdateAtHome s
  | .chalumeauHeartbeatArrival => Sys2Proof.Machine.execChalumeauHeartbeatArrival s

end Sys2Proof.Machine
end

