-- ==== Sys2Proof/Machine/Schedule.lean ====
section
/-! DEFINITION. The choice of the issue group (R19 to R23), what an issue leaves behind, and the row that a packet's arrival is. -/

namespace Sys2Proof.Machine

/-! ## Issue groups (R17, R19, R20) -/

/-- The thread belongs to the active context of a core that issues, and nothing stops it: it has not yielded, and its team is not
saved. -/
def inContext (s : State) (t : Thread) : Bool :=
  let m := s.team t.team
  let c := s.core t.core
  !t.yielded && !c.swapping && (s.die (epDie t.core)).present && (m.pre == .running || m.pre == .requested) &&
    (if m.engine then t.job.isSome else (s.group t.group).context == c.active)

/-- An operation owes a register that an executing instruction of the thread needs. -/
def interlocked (t : Thread) : Bool :=
  (match standingAt t with
  | some (_, o) => guardHolds t o
  | none => true) && (NMap.vals t.ops).any (waitsFor t)

/-- The lanes with which a thread issues as one group have all the registers that they need (R25, R26; log 128). -/
def joinedReady (s : State) (t : Thread) : Bool :=
  t.joined.isNone || !s.threads.any (fun p => p.2.joined == t.joined && p.2.pc == t.pc && !p.2.yielded && interlocked p.2)

/-- Every enrolled lane of the mask on which a thread waits at a group-wide instruction has arrived there (R26). -/
def wideReady (s : State) (t : Thread) (k : Nat) : Bool :=
  let m := (s.group t.group).mask k
  m.arrived == m.enrolled && (lanesOf s t.group m.arrived).all (fun p => p.2.state == .maskWait k true && p.2.pc == t.pc)

/-- The thread is one that the choice of an issue group looks at. -/
def mayIssue (s : State) (t : Thread) : Bool :=
  inContext s t && !(s.core t.core).issued && (match t.state with
    | .runnable => joinedReady s t
    | .maskWait k true => wideReady s t k
    | _ => false)

/-- Two threads stand in one entry of the issue table: one address, one address space, the same words. -/
def sameEntry (s : State) (t u : Thread) : Bool :=
  t.core == u.core && t.pc == u.pc && (s.team t.team).asid == (s.team u.team).asid && wordsHere t == wordsHere u

/-- Puts a thread into its entry of the issue table. -/
def addToEntry (s : State) (p : Nat × Thread) : List (List (Nat × Thread)) → List (List (Nat × Thread))
  | [] => [[p]]
  | e :: es =>
    match e with
    | q :: _ => if sameEntry s q.2 p.2 then (e ++ [p]) :: es else e :: addToEntry s p es
    | [] => addToEntry s p es

/-- The smallest of a list of numbers, or a number above all of them. -/
def least (l : List Nat) : Nat := l.foldl min (2 ^ 70)

/-- The keys of R19 and R23 in order, smaller being better. -/
def entryKey (s : State) (e : List (Nat × Thread)) : List Nat :=
  let marks := e.filterMap (fun p => p.2.overdue)
  [if marks.isEmpty then 1 else 0, least marks, least (e.map (fun p => taskPrio s p.2)),
    32 - (e.map (fun p => p.2.lane)).eraseDups.length, least (e.map (fun p => p.2.arrival)),
    least (e.map (fun p => p.2.pc.toNat))]

/-- Age of a group: that of its team, then its GID (R19, R20). -/
def groupAge (s : State) (g : Nat) : List Nat := [(s.team (s.group g).team).age, (s.group g).gid]

/-- One thread of each lane: of the oldest team, then of the lowest GID (R19).  Lanes that issue as one group stay behind together where
one of them is passed over (log 128). -/
def onePerLane (s : State) (e : List (Nat × Thread)) : List Nat :=
  let taken := (List.range 32).filterMap (fun l =>
    match e.filter (fun p => p.2.lane == l) with
    | [] => none
    | x :: xs => some (xs.foldl (fun b y => if keyBefore (groupAge s y.2.group) (groupAge s b.2.group) then y else b) x))
  let passed (p : Nat × Thread) : Bool :=
    p.2.joined.isSome && e.any (fun q => q.2.joined == p.2.joined && !taken.any (fun r => r.1 == q.1))
  (taken.filter (fun p => !passed p)).map (·.1)

/-! ## One group at a group-wide instruction (R20) -/

/-- The mask of a group-wide instruction, and whether it is a WAITK, whose lanes of several groups may arrive together. -/
def wideMask : Instr → Option (Nat × Bool)
  | .vote o | .shfl o | .scan o | .redg o | .twmma o => some (o.c.toNat, false)
  | .waitk o => some (o.c.toNat, true)
  | .waitkShort k => some (k.toNat, true)
  | _ => none

/-- The instruction that a thread stands at. -/
def instrAt (t : Thread) : Option Instr :=
  match (wordsHere t).map decode with
  | some (.ok (i, _)) => some i
  | _ => none

/-- With these threads' arrivals every enrolled lane of a group's mask has arrived. -/
def completes (s : State) (ks : List Nat) (k g : Nat) : Bool :=
  let m := (s.group g).mask k
  let more := ks.foldl (fun w j => match s.thread j with
    | some t => if t.group = g then w ||| laneBit t.lane else w
    | none => w) m.arrived
  m.enrolled != 0#32 && m.enrolled &&& more == m.enrolled

/-- The oldest of some groups. -/
def oldestGroup (s : State) (gs : List Nat) : Option Nat :=
  gs.foldl (fun b g => match b with
    | none => some g
    | some h => if keyBefore (groupAge s g) (groupAge s h) then some g else some h) none

/-- The groups among some threads. -/
def groupsOf (s : State) (ks : List Nat) : List Nat := (ks.filterMap (fun k => (s.thread k).map (·.group))).eraseDups

/-- The threads of one group. -/
def ofGroup (s : State) (ks : List Nat) (g : Nat) : List Nat := ks.filter (fun j => (s.thread j).map (·.group) == some g)

/-- The mask, if the threads stand at a group-wide instruction. -/
def wideHere (s : State) (ks : List Nat) : Option (Nat × Bool) := ((ks.head?.bind s.thread).bind instrAt).bind wideMask

/-- The oldest group among some threads whose enrolled lanes of the named mask have with them all arrived (R20). -/
def fullGroup (s : State) (ks : List Nat) : Option Nat :=
  (wideHere s ks).bind (fun w => oldestGroup s ((groupsOf s ks).filter (completes s ks w.1)))

/-- The threads of an issue group that issue: at a group-wide instruction those of one group, the oldest that it lets execute, else the
oldest. -/
def oneGroup (s : State) (ks : List Nat) : List Nat :=
  match wideHere s ks, fullGroup s ks with
  | none, _ => ks
  | some _, some g => ofGroup s ks g
  | some (_, waits), none => if waits then ks else ((oldestGroup s (groupsOf s ks)).map (ofGroup s ks)).getD ks

/-- The issue group that an entry gives: at a group-wide instruction the threads of the oldest group that it lets execute, whichever of them
stand behind another group's in their lanes (R20); else one thread of each lane (R19). -/
def entryGroup (s : State) (e : List (Nat × Thread)) : List Nat :=
  let all := e.map (·.1)
  match fullGroup s all with
  | some g => ofGroup s all g
  | none => onePerLane s e

/-- The next issue group: of the first core that may issue, by the keys of R19. -/
def nextGroup (s : State) : Option (List Nat) :=
  match s.threads.find? (fun p => mayIssue s p.2) with
  | none => none
  | some (_, t0) =>
    let here := s.threads.filter (fun p => p.2.core == t0.core && mayIssue s p.2)
    let table := here.foldl (fun es p => addToEntry s p es) []
    let best := table.foldl (fun b e =>
      let k := entryKey s e
      match b with
      | none => some (k, e)
      | some (k', e') => if keyBefore k k' then some (k, e) else some (k', e')) (none : Option (List Nat × List (Nat × Thread)))
    best.map (fun b => entryGroup s b.2)

/-! ## After an issue -/

/-- The thread did more than be turned away. -/
def progressed (before after : State) (k : Nat) : Bool :=
  match before.thread k, after.thread k with
  | some t, some u => u.pc != t.pc || (match u.state with
    | .waiting | .parked true | .descheduled => false
    | _ => true)
  | _, _ => true

/-- The threads that have started a clause: they issue its first instruction next (R211). -/
def entered (before after : State) (ks : List Nat) : List Nat :=
  ks.filter (fun k => match before.thread k, after.thread k with
    | some t, some u => t.clause.isNone && u.clause.isSome && u.state == .runnable && !u.yielded
    | _, _ => false)

/-- The thread as it stood at the header, whose first instruction has been turned away: the header issues only together with it (R211). -/
def backToHeader (t : Thread) : Thread :=
  match t.clause, t.atHeader with
  | some c, some (region, rcount, sx, ax) =>
    { t with pc := c.base, clause := none, sr := { t.sr with region := region, rcount := rcount }, sendixAt := sx, atomIxAt := ax, atHeader := none }
  | _, _ => t

/-- After the first instruction of a clause: it has issued, and with it the header, or the thread is back at the header (R211). -/
def settleHeader (moved : List Nat) (s : State) (k : Nat) : State :=
  s.updThread k (fun t => if moved.contains k then { t with atHeader := none } else backToHeader t)

/-- Threads that this issue has put into Descheduled, counted as event 13 (R346). -/
def countDescheduled (before : State) (ks : List Nat) (s : State) : State :=
  ks.foldl (fun s k => match before.thread k, s.thread k with
    | some t, some u => if u.state == .descheduled && t.state != .descheduled then perfCount s u.core 13 1 else s
    | _, _ => s) s

/-- After an issue: the threads that issued are no longer overdue (R22), and their core has issued in this cycle.  A header takes no
cycle of its own: the threads that start its clause issue the first instruction at once, and stand at the header again where that is turned
away (R211). -/
def afterIssue (before : State) (ks : List Nat) (header : Bool) (s : State) : State :=
  let moved := if header then [] else ks.filter (progressed before s)
  let s1 := moved.foldl (fun s k => s.updThread k (fun t => { t with lastIssue := s.now t, overdue := none })) s
  let s2 := match moved.head?.bind before.thread with
    | some t =>
      let s2 := s1.updCore t.core (fun c => { c with issued := true })
      perfCount (perfCount s2 t.core 1 1) t.core 2 moved.length
    | none => s1
  let s3 := countDescheduled before ks (if header then s2 else ks.foldl (settleHeader moved) s2)
  let next := entered before s ks
  { s3 with cur := [], agenda := if next.isEmpty then s2.agenda else .issue next :: s2.agenda }

/-! ## Threads that wait (R17) -/

/-- A thread's instruction tried alone, a header together with its clause's first instruction (R211): the state after it. -/
def tryAlone (run : State → List Nat → Host.Outcome State Fault Refusal) (s : State) (k : Nat) (t : Thread) : Option State :=
  match run { s with agenda := [] } [k] with
  | .next u =>
    if u.agenda == [.issue [k]] then
      (match run ({ u with agenda := [] }.updThread k (fun v => { v with state := t.state })) [k] with
      | .next v => some v
      | _ => none)
    else some u
  | _ => none

/-- A thread's wait is at an end, or a Runnable thread's instruction cannot go on: its state after its instruction has been tried alone.
The try itself has no effect where the thread could go on. -/
def settleThread (run : State → List Nat → Host.Outcome State Fault Refusal) (s : State) (k : Nat) (t : Thread) : State :=
  let tries : Bool := match t.state with
    | .waiting | .parked true | .descheduled => true
    | .runnable => !t.ops.isEmpty || t.clause.isNone
    | _ => false
  if !inContext s t || !tries then s
  else match tryAlone run s k t with
    | some u =>
      if progressed s u k then
        (if t.state = .runnable then s else s.updThread k (fun t => { t with state := .runnable, arrival := s.now t }))
      else { u with agenda := s.agenda }
    | none => s

/-- Every thread of an active context is Runnable exactly where its instruction can go on. -/
def settleAll (run : State → List Nat → Host.Outcome State Fault Refusal) (s : State) : State :=
  s.threads.foldl (fun u p => match u.thread p.1 with
    | some t => settleThread run u p.1 t
    | none => u) s

/-! ## Arrivals -/

/-- The row of the opcode table that a packet's arrival is. -/
def arrivalRow (p : Packet) : Option Instr :=
  match p.body with
  | .creditReturn _ => some .creditReturn
  | .routeFill _ _ => some .routeFill
  | .routeUpdate _ _ => some .routeUpdate
  | .grantRequest _ _ => some .grantRequest
  | .reservationRelease _ => some .reservationRelease
  | .grantReply _ _ _ => some .grantReply
  | .install _ => some .install
  | .counterIncrement _ _ _ => some .counterIncrement
  | .evictionReport _ _ => some .evictionReport
  | .incarnationUpdate _ _ => some .incarnationUpdate
  | .viewProtocol m _ _ _ _ =>
    (match m with
    | 0 => some .viewPropose
    | 1 => some .viewAccept
    | 2 => some .viewReject
    | 3 => some .viewCommit
    | 4 => some .viewJoin
    | 5 => some .lossReport
    | _ => some .chalumeauHeartbeatArrival)
  | .broadcast _ _ => some .broadcast
  | .systemControl c _ =>
    (match c with
    | 0 => some .preemptionRequestMessage
    | 1 => some .dieHeartbeat
    | 2 => some .heartbeatAnswer
    | _ => some .eventRecordWrite)
  | .residency _ _ _ _ _ => some .residencyQueryOrRequest
  | .residencyReply _ _ _ _ => some .residencyReply
  | .retireNotice _ => some .retireNotice
  | .request typ pc _ _ _ =>
    (match pc.access with
    | .arrive => some .sstepArrivalAtHome
    | .pending _ _ _ => some .pendingUpdateAtHome
    | _ => match typ with
      | 0x10 => some .reqRead
      | 0x11 => some .reqWrite
      | 0x12 => some .reqAtomic
      | 0x13 => some .reqReduction
      | _ => some .reqFullEmptyAccess)
  | .get _ _ _ _ _ => some .reqGet
  | .put typ _ _ _ _ _ _ => if typ = 0x15 then some .reqPutPayload else some .reqPutsPayload
  | .signal _ _ _ _ _ _ _ => some .reqPutsSignal
  | .ratom _ _ _ _ _ => some .reqRatom
  | .member _ _ _ _ => if p.typ = 0x10 then some .reqRead else some .reqWrite
  | .spill _ _ _ => some .reqSpillWrite
  | .walkRead _ _ => some .reqTableWalkRead
  | .data _ _ _ => some .rspData
  | .acknowledgment _ _ => some .rspAcknowledgment
  | .refusal _ _ _ _ => some .rspRefusal
  | .ray _ _ _ _ => if 125 ≤ epLocal p.dst then some .rayArrivalAtSlice else some .rayArrivalAtCore
  | .hit typ _ _ _ _ => if typ = 0x40 then some .hitArrival else if typ = 0x41 then some .messageArrival else some .remoteRecordArrival
  | .join _ _ _ _ => some .recjArrival
  | .block _ _ _ => some .collectiveBlockArrival
  | .page _ _ _ _ => some .pageFlit
  | .transit _ => none

end Sys2Proof.Machine
end

