-- ==== Sys2Proof/Machine/Events.lean ====
section
/-! DEFINITION. The events that the part's agents make of themselves, in the order in which a step tries them (log 15).  An event that changes
nothing is passed over.  What comes from outside (other packages' units, the host, failures) is no event of this list. -/

namespace Sys2Proof.Machine

/-- An event of a list where a condition holds. -/
def evWhen (c : Bool) (i : Instr) (key : Nat) : List (Instr × Nat) := if c then [(i, key)] else []

/-! ## Threads -/

/-- Cycles from the issue of an operation to the earliest end of one that needs no packet (log 120). -/
def localCycles : Nat := 8

/-- Cycles of a packet on the mesh (log 120). -/
def flightCycles : Nat := 24

/-- Events of one operation. -/
def opEvents (s : State) (k : Nat) (t : Thread) (key : Nat) (p : Op) : List (Instr × Nat) :=
  evWhen ((!p.sent || p.token == 10) && decide (p.issued + localCycles ≤ s.ticks)) (.operationComplete k key) k ++
  (match p.line with
  | some l => evWhen (decide (p.issued + localCycles ≤ s.ticks)) (Instr.l1MissFill t.core l) k
  | none => []) ++
  (match p.status with
  | .again since => evWhen (decide (since + 256 ≤ s.time)) .feRetryResend k
  | _ => []) ++
  evWhen (p.token == 6) .mailboxPollTry k

/-- Events of threads: late traps, waits for the clock, their operations. -/
def threadEvents (s : State) : List (Instr × Nat) :=
  s.threads.flatMap (fun p =>
    evWhen (!p.2.lateTrap.isEmpty) .lateRefusalTrap p.1 ++ evWhen (p.2.state == .waiting) .clockWaitExpiry p.1 ++
    p.2.ops.flatMap (fun x => opEvents s p.1 p.2 x.1 x.2))

/-- Packets that arrive, oldest first. -/
def packetEvents (s : State) : List (Instr × Nat) :=
  s.packets.filterMap (fun p =>
    if p.2.sent + flightCycles ≤ s.ticks then (arrivalRow p.2).map (fun i => (i, p.1)) else none)

/-! ## Cores -/

/-- Events of a core's tasks and jobs. -/
def workEvents (ep : Nat) (c : Core) : List (Instr × Nat) :=
  (if c.tasks.isEmpty then [] else [(Instr.tileTaskStart, ep), (.shawmStep, ep), (.tileTaskComplete, ep)]) ++
  evWhen (!c.waves.isEmpty) .twmmaRun ep ++
  evWhen (!c.kicks.isEmpty || c.engine.isSome) .hartJobStart ep ++
  c.retry.map (fun r => (Instr.feWaitTimeout, r.thread)) ++
  c.sunk.map (fun x => (Instr.creditReturnTimeout ep x.1, ep))

/-- Events of a core's queues. -/
def queueEvents (ep : Nat) (c : Core) : List (Instr × Nat) :=
  if c.rays.entries.isEmpty && c.hits.entries.isEmpty && c.msgs.entries.isEmpty && c.recs.entries.isEmpty then []
  else [(Instr.recordThreadStart, ep), (.waveForm, ep), (.waveWaitExpiry, ep), (.tileTaskRecordDispatch, ep), (.priority0Preemption, ep)]

/-- Events of cores. -/
def coreEvents (s : State) : List (Instr × Nat) :=
  s.cores.flatMap (fun p => workEvents p.1 p.2 ++ queueEvents p.1 p.2 ++ evWhen p.2.swapping .contextSwapComplete p.1)

/-- The decisions of cores to swap their contexts: of those on which some team stands, or a queue holds an entry. -/
def swapEvents (s : State) : List (Instr × Nat) :=
  s.cores.flatMap (fun p => evWhen (!(coreTeams s p.1).isEmpty) .contextSwapDecision p.1)

/-! ## Teams, groups, grids -/

/-- Events of a team. -/
def teamEvents (s : State) : List (Instr × Nat) :=
  s.teams.flatMap (fun p =>
    evWhen (p.2.grid.isSome) .teamRetire p.1 ++
    (match p.2.pre with
    | .running => []
    | .requested => evWhen (p.2.pdead == 0) .preemptForced p.1
    | .saved => [(Instr.teamRestore, p.1)]
    | _ => [(Instr.preemptSaveComplete, p.1)]) ++
    evWhen (!p.2.engine) .versionUnreachable p.1)

/-- Events of groups. -/
def groupEvents (s : State) : List (Instr × Nat) :=
  s.groups.flatMap (fun p => evWhen (decide (64 ≤ p.2.fair)) .fairnessWindowExpiry p.1)

/-- Events of grids. -/
def gridEvents (s : State) : List (Instr × Nat) :=
  s.grids.flatMap (fun p =>
    evWhen (p.2.left == 0) .launch p.1 ++
    evWhen (!p.2.again.isEmpty || decide (p.2.nextTeam < p.2.dimx * p.2.dimy * p.2.dimz)) (if p.2.cw = 0 then .teamAdmit else .clusterStart)
      p.1)

/-! ## Dies, slices, ports, views -/

/-- Events of dies. -/
def dieEvents (s : State) : List (Instr × Nat) :=
  s.dies.flatMap (fun p =>
    p.2.walks.flatMap (fun w =>
      evWhen (w.2.status != .reading) (.tableWalkEnd p.1 w.1) 0 ++ evWhen w.2.waits (.translationTimeout p.1 w.1) 0) ++
    p.2.retry.map (fun r => (Instr.feWaitTimeout, r.thread)) ++
    evWhen (decide (5 ≤ p.2.missed)) .dieHeartbeatMissed p.1 ++ evWhen (p.2.loss == .fence) .dieDrained p.1)

/-- Events of slices. -/
def sliceEvents (s : State) : List (Instr × Nat) :=
  s.slices.flatMap (fun p =>
    evWhen (!p.2.entries.isEmpty) .counterDecay p.1 ++
    p.2.entries.flatMap (fun e => evWhen e.2.attempt.isSome (.placementRetry p.1 e.1) 0))

/-- Events of Drinyx ports. -/
def portEvents (s : State) : List (Instr × Nat) :=
  s.pkg.ports.zipIdx.flatMap (fun p => evWhen (!p.1.waiting.isEmpty || !(controlDue p.1).isEmpty || (p.1.locked && !p.1.reported)) .drinyxPartialUnit p.2 ++
    evWhen (p.1.up && rekeyDue p.1) .sessionRekey p.2 ++ evWhen p.1.locked .reattestationTimeout p.2)

/-- No working port leads to a package (R432): none from the gateway that its packets go to. -/
def cutOff (s : State) (n : Nat) : Bool := (portFor s (endpoint 22 127) (n * 4096)).isNone

/-- Other packages of which this one holds incarnations of serving dies. -/
def knownPackages (s : State) : List Nat :=
  (([22, 23].flatMap (fun g => ((s.die g).known.filter (fun p => p.2 != 0)).map (fun p => p.1 / 32))).eraseDups).filter
    (fun n => n != Config.package)

/-- Events of views and heartbeats. -/
def viewEvents (s : State) : List (Instr × Nat) :=
  s.pkg.domains.flatMap (fun p => p.2.installs.map (fun d => (Instr.viewInstallAcknowledgment p.1 d, 0))) ++
  evWhen (decide (s.pkg.beatAt + 10000 ≤ s.time)) .chalumeauHeartbeat 0 ++
  s.pkg.beats.flatMap (fun p => evWhen (beatsAbsent s p.1) .chalumeauHeartbeatLoss p.1) ++
  evWhen (decide (s.pkg.dieBeatAt + 10000 ≤ s.time)) .dieHeartbeat 0 ++
  (knownPackages s).flatMap (fun n => evWhen (cutOff s n) .packageUnreachable n)

/-! ## The host port -/

/-- The row of a Plaod command; a reset of the package waits for what its boot finds, which comes from outside. -/
def commandRow (c : Command) : Option Instr :=
  match c.opcode with
  | 1 => some .launch
  | 2 => some .map
  | 3 => some .unmap
  | 4 => some .replayAll
  | 5 => some .queueSetup
  | 6 => some .viewSetup
  | 7 => some .viewChange
  | 8 => if field c.bytes 16 1 = 1 then none else some .resetDie
  | 9 => some .attest
  | 10 => some .configRead
  | 11 => some .portSetup
  | 12 => some .hostSwitch
  | 13 => some .lifetimeRead
  | _ => some .plaodUnassignedOpcode

/-- Events of the host port agent and the firmware. -/
def hostEvents (s : State) : List (Instr × Nat) :=
  (match s.host.boot with
  | some b => [(Instr.packageReset b, 1)]
  | none => []) ++
  evWhen (!s.events.isEmpty || !s.host.holding.isEmpty) .eventRecordWrite 0 ++
  (match inHand s with
  | .none => []
  | .unreadable _ _ => [(Instr.plaodUnassignedOpcode, 0)]
  | .some _ c =>
    (match commandRow c with
    | some i => [(i, 0)]
    | none => [])) ++
  evWhen (decide (s.pkg.foldAt + 60000000000 ≤ s.time)) .lifetimeFold 0

/-- The events that may happen of themselves in a state, in the order in which they are tried. -/
def autoEvents (s : State) : List (Instr × Nat) :=
  threadEvents s ++ packetEvents s ++ dieEvents s ++ coreEvents s ++ groupEvents s ++ teamEvents s ++ gridEvents s ++ sliceEvents s ++
    portEvents s ++ viewEvents s ++ hostEvents s ++ swapEvents s

end Sys2Proof.Machine
end

