-- ==== Sys2Proof/Machine/Step.lean ====
section
/-! DEFINITION. One step of the package, and placing an instruction where the next step fetches it. -/

namespace Sys2Proof.Machine

/-- The outcome with its next state changed. -/
def thenState (r : Host.Outcome State Fault Refusal) (f : State → State) : Host.Outcome State Fault Refusal :=
  match r with
  | .next s => .next (f s)
  | .fault x => .fault x
  | .refused x => .refused x

/-- The row is the clause header's. -/
def isHeader : Instr → Bool
  | .clauseStart _ _ _ _ _ => true
  | _ => false

/-- Threads issue as one group, at a group-wide instruction those of one group only (R20): the instruction they stand at is fetched,
decoded and executed. -/
def issueGroup (s : State) (all : List Nat) : Host.Outcome State Fault Refusal :=
  let ks := oneGroup s all
  match chosen { s with cur := ks } with
  | .run s1 i => thenState (exec i s1) (afterIssue s ks (isHeader i))
  | .ended s1 => .next (afterIssue s ks true s1)

/-- An event happens on the object with a key. -/
def runEvent (s : State) (i : Instr) (key : Nat) : Host.Outcome State Fault Refusal :=
  thenState (exec i { s with obj := key }) (fun t => { t with obj := 0 })

/-- The first of some events that changes the state, and its outcome. -/
def firstEvent (s : State) : List (Instr × Nat) → Option (Host.Outcome State Fault Refusal)
  | [] => none
  | (i, k) :: rest =>
    match runEvent s i k with
    | .next t => if t = s then firstEvent s rest else some (.next t)
    | r => some r

/-- Nothing happens of itself: the issue of one group, else a cycle passes. -/
def issueNext (s : State) : Host.Outcome State Fault Refusal :=
  match nextGroup s with
  | some ks => issueGroup s ks
  | none => .next (tick s)

/-- A step while the supply is off (R370): a package reset that the agenda names begins; nothing else happens until then (R364). -/
def idleStep (s : State) : Host.Outcome State Fault Refusal :=
  match s.agenda with
  | .event (.packageReset b) 0 :: rest => runEvent { s with agenda := rest } (.packageReset b) 0
  | _ :: rest => .next { s with agenda := rest }
  | [] => .next s

/-- One step: what the agenda names; else the first event that happens of itself; else, once the threads' waits are settled, the
issue of one group; else a cycle passes. -/
def step (s : State) : Host.Outcome State Fault Refusal :=
  if !s.powered then idleStep s
  else match s.agenda with
    | .issue ks :: rest => issueGroup { s with agenda := rest } ks
    | .event i k :: rest => runEvent { s with agenda := rest } i k
    | [] =>
      match firstEvent s (autoEvents s) with
      | some r => r
      | none => issueNext (settleAll issueGroup s)

/-! ## Placing an instruction -/

/-- Virtual and physical address of the placed code. -/
def placedAt : Nat := 0x10000

/-- The words of a placed instruction: those of its bits, and zeros after them. -/
def placedWords (nbits w : Nat) : List Word :=
  let v := w % 2 ^ nbits
  (List.range 5).map (fun i => BitVec.ofNat 32 (v / 2 ^ (32 * i)))

/-- A page of code: kind C, RD, W and X set, at the address it maps. -/
def placedPage : Tlb where
  asid := 0
  va := placedAt
  size := 0x10000
  pa := placedAt
  entry := BitVec.ofNat 64 (placedAt + 0x7B)

/-- The state with an instruction placed where the next step fetches it: a thread on core 0 of die 0 stands at it, and the agenda
has this thread issue next.  A clause header lies in memory, its page translated in the core's TLB; any other instruction is the
first of a clause that the thread has fetched. -/
def State.withFetchWord (s : State) (nbits w : Nat) : State :=
  let ws := placedWords nbits w
  let header : Bool := (ws.headD 0#32).extractLsb' 0 2 == 3#2
  let team := s.fresh
  let g := s.fresh + 1
  let k := s.fresh + 2
  let base : DWord := BitVec.ofNat 64 placedAt
  let t0 := mkThread 0 0 g team 512 0 base 0#64 (startSpecials true 0#64 0#64 0) (s.core 0).cycles
  let t := if header then t0 else
    { t0 with
      pc := base + 4#64
      clause := some { base := base, header := 0x017FC003#32, words := ws } }
  let s1 : State :=
    { s with
      fresh := s.fresh + 3
      teams := s.teams.put team (mkTeam 0 0 0 0 0 1 512 team)
      groups := s.groups.put g (mkGroup team 0 (s.core 0).active 1)
      threads := s.threads.put k t
      powered := true
      agenda := [.issue [k]] }
  if header then
    (s1.write placedAt (ws.flatMap bytesOfWord)).updCore 0 (fun c => { c with tlb := placedPage :: c.tlb, icache := [] })
  else s1

end Sys2Proof.Machine
end

