-- ==== Sys2Proof/Safety.lean ====
section
/-! DEFINITION. The words in which the statements speak: the invariant of the memory, a group that executes, a lane that executes, what
stays unchanged. -/

namespace Sys2Proof.Machine

/-! ## The invariant -/

/-- The memory is in its one canonical form, so that equal memories are equal data. -/
def State.Inv (s : State) : Prop := Memory.wf s.mem = true

/-! ## Threads, less what an instruction's course changes -/

/-- A thread without its course: address, clause, state, times, and with whom it issues. -/
def Thread.still (t : Thread) : Thread :=
  { t with
    pc := 0#64
    after := 0#64
    last := 0#64
    clause := none
    ranOn := false
    atHeader := none
    stopping := false
    state := .runnable
    arrival := 0
    joined := none
    alone := false
    touch := false }

/-- A thread without the time of its arrival, which YH of another lane sets (R208). -/
def Thread.untimed (t : Thread) : Thread := { t with arrival := 0, touch := false }

/-! ## An issue group executes -/

/-- The instruction executes in every lane of the issue group: no skip, no misused field, the guard true, no register owed. -/
def GroupRuns (op : LongOp) (o : Long) (s : State) : Prop := s.cur.Nodup ∧ ∀ k ∈ s.cur, laneRuns op o s k = true

/-- Each lane of the group has executed an instruction that computes f in its own thread and moves on by len bytes: registers, predicates,
flags, special registers and all else of the thread are as f leaves them, the operand buffer as RET says (R204); every other thread is as it was,
but for the arrival times that YH sets; everything that is no thread is unchanged. -/
def LanesDid (op : LongOp) (o : Long) (len : Nat) (f : Thread → Thread) (s s' : State) : Prop :=
  { s' with threads := s.threads } = s ∧
  (∀ k ∈ s.cur, ∀ t, s.thread k = some t → ∃ u, s'.thread k = some u ∧
    u.still = ((f t).kept op o t).still ∧ u.pc = t.pc + BitVec.ofNat 64 len) ∧
  ∀ j, j ∉ s.cur → (s'.thread j).map Thread.untimed = (s.thread j).map Thread.untimed

/-- One thread issues alone and the instruction executes in it. -/
def Lone (op : LongOp) (o : Long) (s : State) (k : Nat) (t : Thread) : Prop :=
  s.cur = [k] ∧ s.thread k = some t ∧ laneRuns op o s k = true

/-- The state in which the effect of an instruction of len bytes begins in thread k. -/
def State.began (s : State) (k : Nat) (t : Thread) (len : Nat) : State := s.updThread k (fun _ => t.begun len)

/-- The outcome of an instruction in thread k, settled: the thread goes on, waits or traps, the operand buffer as RET says, and threads of a
halted team stop. -/
def settled (op : LongOp) (o : Long) (t : Thread) (len k : Nat) (r : Out) : State := restop (settle op o (t.begun len) k r)

/-! ## Memory unchanged -/

/-- Every byte outside n bytes at an address reads as before. -/
def SameMemoryOutside (s s' : State) (a n : Nat) : Prop := ∀ b, (b < a ∨ a + n ≤ b) → memRead s'.mem b = memRead s.mem b

end Sys2Proof.Machine
end

