-- ==== Sys2Proof/WellFormed.lean ====
section
/-! DEFINITION. Which terms of Instr are the meaning of a word: the fields pick the row, and a short mask operand is one of
the twelve masks (R214).  A row that no word encodes is not well formed as a word.  A word whose fields are misused (R379) is well
formed: it decodes, and the machine traps on it. -/

namespace Sys2Proof

/-- The instruction is the meaning of some word. -/
def Instr.wellFormed (i : Instr) : Bool :=
  match i.long? with
  | some (op, o) => op.selects o
  | none =>
    match i with
    | .joinShort k | .leaveShort k | .waitkShort k => decide (k.toNat ≤ 11)
    | _ => !(encode i).isEmpty

end Sys2Proof
end

