-- ==== Sys2Proof/Certificates/Slice0/Obligations.lean ====
section
/-! DEFINITION. The statements: what the rules of the manual say of the machine, for the provers.  The definitions in
Sys2Proof.Claims are the statements' own words. -/

namespace Sys2Proof.Claims
end Sys2Proof.Claims

open Sys2Proof Sys2Proof.Machine Sys2Proof.Claims

/-! ## Encoding -/

namespace Sys2Proof.Claims

/-- Words written out from the manual's own encodings, and the instruction each stands for: the loop of chapter 9 (R209, R214, R202), REDG (chapter
10), DOT4 (chapter 11), PUTS (chapter 12), TMMA (chapter 13), RECQ.HELD (chapter 14), RAYSEND (15), WAITK and TWMMA (16), TWAIT (17), SSTEP.BIND
(18), CWAIT (26). -/
def specWords : List (List Word × Instr) :=
  [([0x02BC400B#32], .clauseStart 0#2 10#8 15#4 1#4 0x002#12),
   ([0x0808052C#32], .ldw 2#6 4#9 5#9),
   ([0x00081CCD#32, 0x00000602#32, 0x0040000C#32], .ffma { longZero with a := 1#9, d := 7#9, c := 3#9, b := 2#9, sub := 8#13, g1 := 3#4 }),
   ([0x0048240E#32, 0x30000000#32, 0#32, 100#32, 0#32], .add { longZero with a := 9#9, d := 9#9, kb := 3#2, lit := some 100#64 }),
   ([0xFFFED240#32], .braShort 0x7FFF6#19 1#1 2#4),
   ([0x00181CAD#32, 0x00000400#32, 0x00000004#32], .redg { longZero with a := 3#9, d := 7#9, c := 2#9, g1 := 1#4 }),
   ([0x00081D1D#32, 0x00000602#32, 0x58580000#32], .dot4 { longZero with a := 1#9, d := 7#9, b := 2#9, c := 3#9, sub := 0xB0B#13 }),
   ([0x70200181#32, 0x00200C05#32, 0x15600000#32], .puts { longZero with m4 := 7#4, a := 4#9, b := 5#9, c := 6#9, e := 8#9, sub := 0x2AC#13 }),
   ([0x10000201#32, 0x0040120A#32, 0x50500000#32], .tmma { longZero with m4 := 1#4, b := 10#9, c := 9#9, e := 16#9, sub := 0xA0A#13 }),
   ([0x20005299#32, 0x00000008#32, 0#32], .recqHeld { longZero with m4 := 2#4, d := 20#9, b := 8#9 }),
   ([0x00380281#32, 0x00000008#32, 0#32], .raysend { longZero with a := 7#9, b := 8#9 }),
   ([0x8000003C#32], .waitkShort 0#4),
   ([0x0080820A#32, 0x30000200#32, 0x50500000#32, 0x40#32, 0#32],
     .twmma { longZero with a := 16#9, d := 32#9, kb := 3#2, c := 1#9, sub := 0xA0A#13, lit := some 64#64 }),
   ([0x00000216#32, 0#32, 3#32, 2#32, 0#32], .twait { longZero with ka := 3#2, lit := some 2#64 }),
   ([0x01302D91#32, 0#32, 0x09400000#32], .sstepBind { longZero with a := 38#9, d := 11#9, sub := 0x128#13 }),
   ([0x00604ABA#32, 0xC0000000#32, 0x01800000#32, 8#32, 0#32],
     .cwait { longZero with a := 12#9, d := 18#9, kc := 3#2, sub := 0x30#13, lit := some 8#64 })]

/-- The codes of the long map that R215 leaves blank. -/
def blankCode (c : Nat) : Bool :=
  (decide (0x4A ≤ c) && decide (c ≤ 0x4F)) || (decide (0x67 ≤ c) && decide (c ≤ 0x7F)) || (decide (0x9A ≤ c) && decide (c ≤ 0x9F)) ||
    (decide (0xB3 ≤ c) && decide (c ≤ 0xBF)) || decide (0xC9 ≤ c)

/-- The words a thread stands at read as an instruction. -/
def standsAt (s : State) (k : Nat) (i : Instr) : Prop :=
  ∃ t ws rest, s.thread k = some t ∧ wordsHere t = some ws ∧ decode ws = .ok (i, rest)

end Sys2Proof.Claims

/-- R198 to R202, R209, R214, R215: every instruction that a word encodes comes back from its words, whatever words follow. -/
def Obligations.DecodingUndoesEncoding : Prop :=
  ∀ (i : Instr) (rest : List Word), i.wellFormed = true → decode (encode i ++ rest) = .ok (i, rest)

/-- The manual's own encodings decode to the instructions they stand for. -/
def Obligations.PublishedWordsDecodeToTheirInstructions : Prop :=
  ∀ p ∈ specWords, decode p.1 = .ok (p.2, []) ∧ encode p.2 = p.1

/-! ## Reset -/

namespace Sys2Proof.Claims

/-- The registers of a core after package reset that the manual gives. -/
def coreAtReset (c : Core) : Prop :=
  c.xctl = 0x10C00003#32 ∧ c.pdline = 0x00040000#32 ∧ c.spool = 0#32 ∧ c.qdepth = 0xFFFFFFFF#32 ∧ c.allowcfg = 0x00400003#32 ∧ c.tvec = 0#64 ∧
    c.perfsel = 0#32 ∧ c.perf = List.replicate 8 0#64 ∧ c.mxexc = 0#64 ∧ c.fewait = 0#32 ∧ c.cycles = 0 ∧ c.rpend = 0 ∧ c.tasks = [] ∧
    (∀ q ∈ [c.rays, c.hits, c.msgs, c.recs], q.bound = false ∧ q.entries = [])

/-- The registers of a slice after package reset. -/
def sliceAtReset (x : Slice) : Prop :=
  x.dctl = 0x0000000A#32 ∧ x.dsize = 0#32 ∧ x.ttbase = 0#64 ∧ x.plbase = 0#64 ∧ x.fqbase = 0#64 ∧ x.pkbase = 0#64 ∧ x.fqhead = 0#32 ∧
    x.fqtail = 0#32 ∧ x.fqdrop = 0#32

end Sys2Proof.Claims

/-- After package reset: no thread, no packet, the registers of cores, dies, slices and the host port agent at the values of their reset columns, full/empty
bits full, incarnation 1, and the memory in its canonical form. -/
def Obligations.ResetLeavesTheStatedRegisters : Prop :=
  State.reset.threads = [] ∧ State.reset.packets = [] ∧ State.reset.time = 0 ∧
  (∀ ep, coreAtReset (State.reset.core ep)) ∧ (∀ i, sliceAtReset (State.reset.slice i)) ∧
  (∀ d, (State.reset.die d).inc = 1 ∧ (State.reset.die d).ftmo = 0#32 ∧ (State.reset.die d).drops = 0) ∧
  (∀ a, State.reset.full a = true) ∧ State.reset.host.bootstat = 0#32 ∧ State.reset.host.evbase = 0xA#64 ∧
  State.reset.host.evhead = 0#32 ∧ State.reset.host.evtail = 0#32 ∧ State.reset.host.rings = List.replicate 16 { base := 0x6#64, tail := 0#32, head := 0#32 } ∧
  State.reset.Inv

/-! ## Memory -/

/-- Memory is bytes: a byte reads as it was last written, every other byte is unchanged, and the canonical form is kept.
R70: a full/empty bit reads as it was last set, for every byte of its aligned 8-byte word, and the bits of other words are unchanged. -/
def Obligations.MemoryHoldsWhatIsWritten : Prop :=
  (
    ∀ (s : State) (a b : Nat) (bs : List Byte), s.Inv →
      (s.write a bs).Inv ∧ (s.write a bs).read a bs.length = bs ∧ (b < a ∨ a + bs.length ≤ b → memRead (s.write a bs).mem b = memRead s.mem b) ∧
      { s.write a bs with mem := s.mem } = s) ∧
  (
    ∀ (s : State) (a b : Nat) (f : Bool),
      (a / 8 = b / 8 → (s.setFull a f).full b = f) ∧ (a / 8 ≠ b / 8 → (s.setFull a f).full b = s.full b))

/-! ## The step -/

/-- A step runs what the agenda names, else the first event that happens of itself, else, once the threads' waits are settled, the instruction that
the next issue group stands at (at a group-wide instruction those of one group, R20), else a cycle passes; an instruction so run is the one its words
decode to, and the issue is recorded after it.  Without the supply only a package reset runs (R364, R370). -/
def Obligations.StepRunsTheDecodedInstruction : Prop :=
  ∀ (s : State) (all : List Nat) (k : Nat) (ks : List Nat) (i : Instr) (more : List Turn),
    (s.powered = true →
      (s.agenda = .issue all :: more → oneGroup { s with agenda := more } all = k :: ks → standsAt s k i →
        step s = thenState (exec i { s with agenda := more, cur := k :: ks }) (afterIssue { s with agenda := more } (k :: ks) (isHeader i))) ∧
      (s.agenda = [] → firstEvent s (autoEvents s) = none → let s1 := settleAll issueGroup s
        (nextGroup s1 = some all → oneGroup s1 all = k :: ks → standsAt s1 k i →
          step s = thenState (exec i { s1 with cur := k :: ks }) (afterIssue s1 (k :: ks) (isHeader i))) ∧
        (nextGroup s1 = none → step s = .next (tick s1))) ∧
      (∀ key, s.agenda = .event i key :: more →
        step s = thenState (exec i { s with agenda := more, obj := key }) (fun u => { u with obj := 0 })) ∧
      (∀ r, s.agenda = [] → firstEvent s (autoEvents s) = some r → step s = r)) ∧
    (s.powered = false →
      (s.agenda = [] → step s = .next s) ∧
      (∀ b, s.agenda = .event (.packageReset b) 0 :: more →
        step s = thenState (exec (.packageReset b) { s with agenda := more, obj := 0 }) (fun u => { u with obj := 0 })))

namespace Sys2Proof.Claims

/-- A thread but for the record of its last issue. -/
def unissued (t : Thread) : Thread := { t with lastIssue := 0, overdue := none }

/-- A thread that has started a clause, back at its header. -/
def backAtHeader (t : Thread) : Thread :=
  match t.clause, t.atHeader with
  | some c, some (region, rcount, sx, ax) =>
    { t with pc := c.base, clause := none, sr := { t.sr with region := region, rcount := rcount }, sendixAt := sx, atomIxAt := ax, atHeader := none }
  | _, _ => t

end Sys2Proof.Claims

/-- The memory keeps its one canonical form in every step. -/
def Obligations.StepKeepsMemoryCanonical : Prop :=
  ∀ s s' : State, s.Inv → step s = .next s' → s'.Inv

/-! ## Clauses -/

namespace Sys2Proof.Claims

/-- A word is fetched from memory: its page is readable as code, it lies in no line of the instruction cache and holds no error. -/
def fetchesFromMemory (s : State) (t : Thread) (va : Nat) (s1 : State) (pa : Nat) (e : DWord) : Prop :=
  translate s t.core (s.team t.team).asid t.sr.priv 2 va = .ok s1 pa e ∧ pteKind e = 1 ∧
    (s1.core t.core).icache.find? (fun x => x.1 == pa) = none ∧ hitsError s1 pa 4 false = false

/-- A thread that has started a clause (R211, R213); how it stood at the header is kept until the first instruction has issued. -/
def clauseBegun (t : Thread) (kind : BitVec 2) (header : Word) (ws : List Word) : Thread :=
  let t1 := { t with pc := t.pc + 4#64, state := .runnable, clause := some { base := t.pc, header := header, words := ws },
                     atHeader := some (t.sr.region, t.sr.rcount, t.sendixAt, t.atomIxAt) }
  if kind = 1#2 ∨ kind = 3#2 then
    { t1 with sr := { t.sr with region := t.pc, rcount := t.sr.rcount + 1#32 }, sendixAt := t.sr.sendix, atomIxAt := t.atomIx }
  else t1

end Sys2Proof.Claims

/-- R198, R199, R406: an instruction word is read from memory, lowest byte first, and kept in the core's instruction
cache, which holds 16,384 words (R5); that a full one loses the word fetched longest ago is the model's choice (log 77). -/
def Obligations.InstructionWordsComeFromMemory : Prop :=
  ∀ (s s1 : State) (k : Nat) (t : Thread) (va pa : Nat) (e : DWord), fetchesFromMemory s t va s1 pa e →
    let b := fun i => memRead s1.mem (pa + i)
    let w : Word := b 3 ++ b 2 ++ b 1 ++ b 0
    fetchWord s k t va = .ok (s1.updCore t.core (fun c => { c with icache := ((pa, w) :: c.icache).take icacheWords })) [w]

/-- R209 to R213, R247: a thread at a header whose clause can be fetched and is well formed yields at a yield point under a request, else waits while a
named flag counts, else starts the clause; a malformed clause traps with 0x08. -/
def Obligations.ClauseHeadersStartTheirClause : Prop :=
  ∀ (kind : BitVec 2) (length : BitVec 8) (setb seta : BitVec 4) (wait : BitVec 12) (s s1 : State) (k : Nat) (t : Thread) (ws : List Word),
    let header : Word := kind ++ length ++ setb ++ seta ++ wait ++ 3#2
    let t1 := { t with state := .runnable }
    let yields := kind.getLsbD 1 && (s1.team t.team).preq
    let waits := (List.range 12).any (fun i => wait.getLsbD i && t.flags.getD i 0 != 0)
    s.cur = [k] → s.thread k = some t → fetchWords (s.updThread k (fun _ => t1)) k t1 (t.pc.toNat + 4) length.toNat = .ok s1 ws →
    exec (.clauseStart kind length setb seta wait) s = .next (restop
      (match badClause setb seta ws with
      | some i => takeTrap s1 k (trapAt 0x08 (BitVec.ofNat 64 (header.toNat + i * 2 ^ 32)) t.pc)
      | none =>
        if yields then yieldAt s1 k else if waits then waitIn (s1.updThread k (fun u => { u with named := wait })) k .waiting
        else s1.updThread k (fun u => clauseBegun u kind header ws)))

/-! ## How a lane executes -/

namespace Sys2Proof.Claims

/-- The long opcodes that every lane executes for itself; the others are group-wide. -/
def laneOp (op : LongOp) : Prop := op ∉ [LongOp.vote, .shfl, .scan, .redg, .twmma]

/-- One thread issues alone and is not at its skip address. -/
def Issues (s : State) (k : Nat) (t : Thread) : Prop := s.cur = [k] ∧ s.thread k = some t ∧ t.skip ≠ some t.pc

/-- The first word of a long instruction. -/
def word0 (op : LongOp) (o : Long) : Word := (encodeLong op o).headD 0#32

end Sys2Proof.Claims

/-- R21, R271: a group executes an instruction lane by lane, in the order of its lanes, each as it would alone.
What an issue leaves behind touches no register, predicate, flag or byte of memory: it clears the record of the issue group, marks cores and threads
as having issued, and has the threads that started a clause issue next; a thread whose clause's first instruction has been turned away stands at its
header again, with REGION and RCOUNT as they were there (R211). -/
def Obligations.IssueGroupsExecuteLaneByLane : Prop :=
  (
    ∀ (op : LongOp) (o : Long), laneOp op → ∃ eff : State → Nat → Thread → Out,
      ∀ s, exec (op.instr o) s = .next (restop (s.cur.foldl (laneStep op o o.bytes (word0 op o) eff) s))) ∧
  (
    ∀ (b s : State) (ks : List Nat) (h : Bool), let s' := afterIssue b ks h s
      s'.cur = [] ∧ s'.agenda = (if (entered b s ks).isEmpty then s.agenda else .issue (entered b s ks) :: s.agenda) ∧ s'.mem = s.mem ∧ s'.empty = s.empty ∧ s'.groups = s.groups ∧ s'.teams = s.teams ∧ s'.packets = s.packets ∧ s'.events = s.events ∧
      s'.dies = s.dies ∧ s'.slices = s.slices ∧ s'.pkg = s.pkg ∧ s'.host = s.host ∧
      (∀ j, (s'.thread j).map unissued = (s.thread j).map (fun t => unissued (
        if h ∨ j ∉ ks then t else if progressed b s j then { t with atHeader := none } else backAtHeader t))) ∧
      ∀ ep, { s'.core ep with issued := (s.core ep).issued, perf := (s.core ep).perf } = s.core ep)

/-- R381, R379, R205, R212, R415: the checks before an instruction: at its skip address a thread only goes on; a misused field, or member index, traps with
its code; a false guard leaves only the advance; a register or predicate still owed holds the thread; a source that holds an error traps with 0x2D. -/
def Obligations.ChecksPrecedeExecution : Prop :=
  ∀ (op : LongOp) (o : Long) (s : State) (k : Nat) (t : Thread), laneOp op → s.cur = [k] → s.thread k = some t →
    let t' := t.begun o.bytes
    let s' := s.began k t o.bytes
    let trapped := (fieldTrap op o (word0 op o) (t.sr.priv || !guardHolds t o) (s.team t.team).regs).or
      (if memberFault s t op o then some (0x05, BitVec.ofNat 64 o.m4.toNat) else none)
    (t.skip = some t.pc → exec (op.instr o) s = .next (restop (s'.updThread k (fun u => { u.advance (s'.now t') with skip := none })))) ∧
    (t.skip ≠ some t.pc → ∀ code info, trapped = some (code, info) →
      exec (op.instr o) s = .next (restop (takeTrap s' k (trapAt code info t.pc)))) ∧
    (t.skip ≠ some t.pc → trapped = none → owedPred t op o = true → exec (op.instr o) s = .next (restop (waitIn s' k .waiting))) ∧
    (t.skip ≠ some t.pc → trapped = none → owedPred t op o = false → guardHolds t o = false →
      exec (op.instr o) s = .next (settled op { o with ret := 0#2 } t o.bytes k (.go s'))) ∧
    (t.skip ≠ some t.pc → trapped = none → owedPred t op o = false → guardHolds t o = true → owed t (usedRegs op o) ≠ [] →
      exec (op.instr o) s = .next (restop (waitIn s' k (owedState (owed t (usedRegs op o)))))) ∧
    (t.skip ≠ some t.pc → trapped = none → owedPred t op o = false → guardHolds t o = true → owed t (usedRegs op o) = [] → ∀ r, badRead t op o = some r →
      exec (op.instr o) s = .next (restop (takeTrap s' k (badReadTrap t r))))

/-- R379: a thread at a code that is no instruction traps with 0x03 and the word.
R214, R215, R379: unassigned codes are no instruction. -/
def Obligations.UnassignedCodesTrap : Prop :=
  (
    ∀ (s : State) (k : Nat) (t : Thread) (ws : List Word) (e : DecodeError), s.thread k = some t → t.skip ≠ some t.pc → wordsHere t = some ws →
      decode ws = .error e → (∀ w, e ≠ .unusedField w) →
      issueGroup s [k] = .next (afterIssue s [k] true
        (takeTrap { s with cur := [k] } k (trapAt 0x03 ((ws.headD 0#32).setWidth 64) t.pc)))) ∧
  (
    ∀ (w0 w1 w2 : Word) (lit : Option (BitVec 64)) (rest : List Word),
      (blankCode (w0.extractLsb' 2 8).toNat = true → decodeLong w0 w1 w2 lit = .error (.unassignedOp8 (w0.extractLsb' 2 8))) ∧
      (w0.extractLsb' 0 2 = 0#2 →
        (0x13 ≤ (w0.extractLsb' 2 6).toNat → decode (w0 :: rest) = .error (.unassignedOp6 (w0.extractLsb' 2 6))) ∧
        (w0.extractLsb' 2 6 = 0x12#6 → 4 ≤ (w0.extractLsb' 26 6).toNat → decode (w0 :: rest) = .error (.unassignedX6 (w0.extractLsb' 26 6))) ∧
        (w0.extractLsb' 2 6 = 0x0F#6 → (48 ≤ (w0.extractLsb' 26 6).toNat ∨ 11 < (w0.extractLsb' 26 4).toNat) →
          decode (w0 :: rest) = .error (.unassignedX6 (w0.extractLsb' 26 6)))))

/-- R204, R208, R238, R28: how the outcome of an instruction sets its thread's course: it goes on, or jumps to a header, with the operand buffer that RET
names, or stops there where a halt asked for it; it waits; or it traps.  With YH set a thread that waits renews its entry when it goes on. -/
def Obligations.OutcomesSetTheThreadsCourse : Prop :=
  ∀ (op : LongOp) (o : Long) (t u : Thread) (len k : Nat) (s : State), s.cur = [k] → s.thread k = some u → u.team = t.team → (s.team t.team).halted = false →
    let kept := u.kept op o (t.begun len)
    let on := if u.stopping then ThreadState.stopped else .runnable
    (∃ v, (settled op o t len k (.go s)).thread k = some v ∧ v.still = kept.still ∧ v.pc = u.after ∧ v.state = on ∧ v.last = u.pc ∧ v.ranOn = true) ∧
    (∀ a, ∃ v, (settled op o t len k (.jump s a)).thread k = some v ∧ v.still = kept.still ∧ v.pc = a ∧ v.state = on ∧
      v.clause = none ∧ v.last = u.pc ∧ v.ranOn = false) ∧
    (o.yh = 0#1 → (settled op o t len k (.done s)).thread k = some kept) ∧
    (o.yh = 1#1 → u.pc = t.pc → (settled op o t len k (.done s)).thread k = some { kept with touch := true }) ∧
    (∀ j, j ≠ k → ((settled op o t len k (.go s)).thread j).map Thread.untimed = (s.thread j).map Thread.untimed) ∧
    { settled op o t len k (.go s) with threads := s.threads } = s ∧
    ((s.team t.team).preq = false → ∀ st, ∃ v, (settled op o t len k (.wait s st)).thread k = some v ∧ v.state = st ∧ v.pc = u.pc ∧ v.regs = u.regs) ∧
    (∀ x, settled op o t len k (.trap s x) = restop (takeTrap s k x))

/-! ## Traps -/

/-- R337, R376, R377: a delivered trap saves the resumption address, the status and the cause, sets PRIV and INTRAP, and goes on at the handler;
registers, predicates, flags, the operand buffer, FPSR, the call stack and the generator stay.
R386: a trap while INTRAP is 1, or TVEC is 0, is not delivered: the thread stops with cause 0x0E and the undelivered code, its team is halted and stays
as it is, and event 0x0E reports it. -/
def Obligations.TrapsSaveStatusAndEnterTheHandler : Prop :=
  (
    ∀ (s : State) (k : Nat) (t : Thread) (x : Trap), s.thread k = some t → t.sr.intrap = false → handler (s.core t.core) ≠ 0#64 →
      ∃ u, (takeTrap s k x).thread k = some u ∧
        u.pc = handler (s.core t.core) ∧ u.clause = none ∧ u.state = (if t.stopping then .stopped else .runnable) ∧
        u.sr = { t.sr with
          epc := if x.code = 1 then t.after else t.sr.region
          ppriv := t.sr.priv
          priv := true
          intrap := true
          trapCause := BitVec.ofNat 32 (x.code + (if x.late then 256 else 0) + (if x.code ≠ 1 ∧ t.sr.region = 0#64 then 512 else 0))
          info0 := x.info0
          info1 := x.info1
          info2 := t.sr.region
          info3 := BitVec.ofNat 64 ((x.low3.getD t.sr.rcount).toNat + x.seq % 65536 * 2 ^ 32) } ∧
        u.regs = t.regs ∧ u.preds = t.preds ∧ u.flags = t.flags ∧ u.buf = t.buf ∧ u.stack = t.stack ∧ u.gen = t.gen ∧ u.ops = t.ops ∧
        u.atTrap = some (t.sr.region, t.sendixAt, t.atomIxAt) ∧ u.ranOn = false ∧
        (∀ j, j ≠ k → (takeTrap s k x).thread j = s.thread j) ∧ (takeTrap s k x).mem = s.mem ∧ (takeTrap s k x).teams = s.teams) ∧
  (
    ∀ (s : State) (k : Nat) (t : Thread) (x : Trap), s.thread k = some t → (t.sr.intrap = true ∨ handler (s.core t.core) = 0#64) →
      (∃ u, (takeTrap s k x).thread k = some u ∧ u.state = .stopped ∧ u.sr.trapCause = 0x0E#32 ∧ u.sr.info0 = BitVec.ofNat 64 x.code ∧
        u.pc = t.pc ∧ u.regs = t.regs) ∧
      ((s.teams.find t.team).isSome → ((takeTrap s k x).team t.team).halted = true) ∧
      (∀ j v, j ≠ k → s.thread j = some v → v.team = t.team → (takeTrap s k x).thread j = some v.stop) ∧
      (∀ m, s.teams.find t.team = some m → (takeTrap s k x).teams.find t.team = some { m with halted := true }) ∧
      (takeTrap s k x).mem = s.mem ∧ ∃ e, (takeTrap s k x).events = s.events ++ [e] ∧ field e.bytes 12 1 = 0x0E ∧ field e.bytes 14 1 = 2 ∧ field e.bytes 15 1 = 2 ∧
        field e.bytes 16 8 = x.info1.toNat)

/-! ## Lanes that compute in their own registers -/

namespace Sys2Proof.Claims

/-- Row i of the table runs as op with the fields o in len bytes: wherever the whole issue group executes it, it answers a next state in which
each lane holds what f computes from the lane as it stood, and nothing else is changed. -/
def Computes (i : Instr) (op : LongOp) (o : Long) (len : Nat) (f : State → Thread → Thread) : Prop :=
  ∀ s, GroupRuns op o s → ∃ s', exec i s = .next s' ∧ LanesDid op o len (f s) s s'

/-- The value of a w-bit code: signed for I types. -/
def num (sg : Bool) {w : Nat} (x : BitVec w) : Int := if sg then x.toInt else x.toNat

/-- The code stored for an exact result (R178, R227): the nearest end of the type's range with SAT, else the low w bits. -/
def stored (w : Nat) (sg sat : Bool) (x : Int) : BitVec w :=
  let lo : Int := if sg then -(2 ^ (w - 1)) else 0
  let hi : Int := if sg then 2 ^ (w - 1) - 1 else 2 ^ w - 1
  BitVec.ofInt w (if sat then max lo (min hi x) else x)

/-- What an integer opcode stores (R227 to R232): w is the type's width, x, y and z the wide operands, n the narrow b, c the narrow c, p the
predicate that M4 names. -/
def intWord (op : LongOp) (w : Nat) (sg sat : Bool) (x y z : BitVec w) (n c : Word) (p : Bool) : BitVec w :=
  let q := min (c.toNat % 256) w
  let len := min (c.toNat / 256 % 256) (w - q)
  let mask : BitVec w := ((1#w <<< len) - 1#w) <<< q
  match op with
  | .add => stored w sg sat (num sg x + num sg y)
  | .sub => stored w sg sat (num sg x - num sg y)
  | .mul => stored w sg sat (num sg x * num sg y)
  | .mad => stored w sg sat (num sg x * num sg y + num sg z)
  | .mulh => BitVec.ofInt w (num sg x * num sg y / 2 ^ w)
  | .div =>
    if y = 0#w then (if !sg then BitVec.allOnes w else if x.msb then BitVec.intMin w else ~~~(BitVec.intMin w))
    else if sg then (if x = BitVec.intMin w ∧ y = BitVec.allOnes w ∧ sat then ~~~(BitVec.intMin w) else x.sdiv y)
    else x / y
  | .rem => if y = 0#w then x else if sg then x.srem y else x % y
  | .min => if num sg x < num sg y then x else y
  | .max => if num sg x < num sg y then y else x
  | .abs => stored w sg sat ((num sg x).natAbs)
  | .neg => stored w sg sat (-(num sg x))
  | .and => x &&& y
  | .or => x ||| y
  | .xor => x ^^^ y
  | .not => ~~~x
  | .shl => if sat then stored w sg sat (num sg x * 2 ^ (n.toNat % 256)) else x <<< (n.toNat % 256)
  | .shr => x >>> (n.toNat % 256)
  | .sar => x.sshiftRight (n.toNat % 256)
  | .rot => x.rotateLeft (n.toNat % 256 % w)
  | .bfx =>
    if len = 0 then 0#w
    else if sg then ((x >>> q).setWidth len).signExtend w else ((x >>> q).setWidth len).setWidth w
  | .bfi => (x &&& ~~~mask) ||| ((y <<< q) &&& mask)
  | .brev => x.reverse
  | .sel => if p then x else y
  | _ => x

/-- The effect of an integer opcode in one thread: MOV and LIT store the operand, NOP does nothing, POPC and CLZ count into one register (R231),
the others store intWord. -/
def intDid (op : LongOp) (o : Long) (t : Thread) : Thread :=
  let w := intWidth o.ty
  let x := BitVec.ofNat w (srcInt t o .a)
  let y := BitVec.ofNat w (srcInt t o .b)
  let z := BitVec.ofNat w (srcInt t o .c)
  match op with
  | .nop => t
  | .popc => t.setRegs o.d.toNat [BitVec.ofNat 32 ((List.range w).countP (fun i => x.getLsbD i))]
  | .clz => t.setRegs o.d.toNat [BitVec.ofNat 32 (((List.range w).takeWhile (fun i => !x.getMsbD i)).length)]
  | _ => t.setCode (isWide o.ty) o.d.toNat
      (intWord op w (intSigned o.ty) o.sat x y z (src32 t o .b) (src32 t o .c) (t.pred o.m4.toNat)).toNat

/-- The opcodes that move, add, multiply, divide, compare to choose, complement and negate (R227, R228). -/
def arithmeticOps : List LongOp :=
  [.nop, .mov, .lit, .add, .sub, .mul, .mulh, .mad, .div, .rem, .min, .max, .abs, .neg]
/-- The bitwise opcodes, the shifts, the bit fields, the counts and SEL (R227, R229 to R232). -/
def bitOps : List LongOp :=
  [.and, .or, .xor, .not, .shl, .shr, .sar, .rot, .bfx, .bfi, .popc, .clz, .brev, .sel]

/-- A comparison of SETP (R233). -/
def compares (m : Nat) (sg : Bool) {w : Nat} (x y : BitVec w) : Bool :=
  match m with
  | 0 => x == y
  | 1 => x != y
  | 2 => decide (num sg x < num sg y)
  | 3 => decide (num sg x ≤ num sg y)
  | 4 => decide (num sg y < num sg x)
  | 5 => decide (num sg y ≤ num sg x)
  | 6 => x &&& y != 0#w
  | _ => x &&& y == 0#w

/-- A result combined with predicate c as P5 says (R233): stored, and, or, exclusive or. -/
def combined (p5 : Nat) (res old : Bool) : Bool :=
  match p5 with
  | 1 => res && old
  | 2 => res || old
  | 3 => res ^^ old
  | _ => res

/-- SETP, PLOP, LEA and GADDR (R233 to R237). -/
def addressDid (op : LongOp) (o : Long) (t : Thread) : Thread :=
  let w := intWidth o.ty
  match op with
  | .setp =>
    t.setPred o.d.toNat (combined o.p5.toNat
      (compares o.m4.toNat (intSigned o.ty) (BitVec.ofNat w (srcInt t o .a)) (BitVec.ofNat w (srcInt t o .b))) (t.pred o.c.toNat))
  | .plop =>
    let lut : BitVec 8 := o.m4 ++ o.p5.setWidth 4
    t.setPred o.d.toNat (lut.getLsbD ((t.pred o.a.toNat).toNat * 4 + (t.pred o.b.toNat).toNat * 2 + (t.pred o.c.toNat).toNat))
  | .lea =>
    let e : DWord := if o.ty = 0#4 then (src32 t o .b).signExtend 64 else (src32 t o .b).setWidth 64
    let r := src64 t o .a + (e <<< o.p5.toNat) + src64 t o .c
    t.setRegs o.d.toNat [r.setWidth 32, r.extractLsb' 32 32]
  | .gaddr =>
    let dt := (t.sr.dt.getD o.m4.toNat 0#64).toNat
    let i := (src32 t o .a).toNat
    let j := (src32 t o .b).toNat
    let br := 2 ^ (dt / 2 ^ 60 % 16)
    let bc := 2 ^ (dt / 2 ^ 56 % 16)
    let gr := dt / 2 ^ 52 % 16 + 1
    let gc := dt / 2 ^ 48 % 16 + 1
    let li := i / br / gr * br + i % br
    let lj := j / bc / gc * bc + j % bc
    let off := dt % 2 ^ 20 * 16 + (li * (dt / 2 ^ 20 % 2 ^ 20) + lj) * 2 ^ (dt / 2 ^ 44 % 16)
    (t.setRegs o.e.toNat [BitVec.ofNat 32 (i / br % gr * gc + j / bc % gc)]).setRegs o.d.toNat [BitVec.ofNat 32 off]
  | _ => t

end Sys2Proof.Claims

/-- R227, R228: the arithmetic opcodes run in every lane and store the exact result, clamped with SAT, else its low bits. -/
def Obligations.IntegerArithmeticStoresExactResults : Prop :=
  ∀ op ∈ arithmeticOps, ∀ o, Computes (op.instr o) op o o.bytes (fun _ => intDid op o)

/-- R227, R229 to R232: the bitwise opcodes, shifts, bit fields, counts and SEL. -/
def Obligations.BitOpcodesStoreBitVectorResults : Prop :=
  ∀ op ∈ bitOps, ∀ o, Computes (op.instr o) op o o.bytes (fun _ => intDid op o)

/-- R233 to R237: SETP, PLOP, LEA and GADDR. -/
def Obligations.PredicateAndAddressOpcodesCompute : Prop :=
  ∀ op ∈ [LongOp.setp, .plop, .lea, .gaddr], ∀ o, Computes (op.instr o) op o o.bytes (fun _ => addressDid op o)

/-- R214: the short arithmetic forms execute as their long forms, in four bytes. -/
def Obligations.ShortArithmeticRunsAsItsLongForm : Prop :=
  ∀ (x : BitVec 6) (a d : BitVec 9),
    Computes (.movShort a d) .mov { longZero with d := d, a := a } 4 (fun _ t => t.setRegs d.toNat [t.reg a.toNat]) ∧
    Computes (.addShort a d) .add (aliasDda a d) 4 (fun _ t => t.setRegs d.toNat [t.reg d.toNat + t.reg a.toNat]) ∧
    Computes (.subShort a d) .sub (aliasDda a d) 4 (fun _ t => t.setRegs d.toNat [t.reg d.toNat - t.reg a.toNat]) ∧
    Computes (.addi x a d) .add (aliasImm a d (x.signExtend 64)) 4 (fun _ t => t.setRegs d.toNat [t.reg a.toNat + x.signExtend 32]) ∧
    Computes (.shli x a d) .shl (aliasImm a d (x.setWidth 64)) 4 (fun _ t => t.setRegs d.toNat [t.reg a.toNat <<< x.toNat]) ∧
    Computes (.shri x a d) .shr (aliasImm a d (x.setWidth 64)) 4 (fun _ t => t.setRegs d.toNat [t.reg a.toNat >>> x.toNat]) ∧
    Computes (.sari x a d) .sar (aliasImm a d (x.setWidth 64)) 4 (fun _ t => t.setRegs d.toNat [(t.reg a.toNat).sshiftRight x.toNat]) ∧
    Computes (.andi x a d) .and (aliasImm a d (x.setWidth 64)) 4 (fun _ t => t.setRegs d.toNat [t.reg a.toNat &&& x.setWidth 32]) ∧
    Computes (.lis x a d) .lit { longZero with d := d, ka := 3#2, lit := some ((a ++ x).signExtend 64) } 4
      (fun _ t => t.setRegs d.toNat [(a ++ x).signExtend 32]) ∧
    Computes (.faddShort a d) .fadd (aliasF32 a d) 4 (fun _ t =>
      finishLane (aliasF32 a d) t (faddOp f32 ⟨0, false, t.ftz⟩ t.gen false (t.reg d.toNat).toNat (t.reg a.toNat).toNat)) ∧
    Computes (.fmulShort a d) .fmul (aliasF32 a d) 4 (fun _ t =>
      finishLane (aliasF32 a d) t (fmulOp f32 ⟨0, false, t.ftz⟩ t.gen (t.reg d.toNat).toNat (t.reg a.toNat).toNat))

/-! ## Floating-point lanes -/

namespace Sys2Proof.Claims

/-- An operand of the instruction's float type as an exact value (R188, R250). -/
def value (o : Long) (t : Thread) (w : Src) : XVal := decodeF (fmt o) t.ftz (elem t o w o.ty)

/-- IV when one of these operands is a signalling NaN (R180). -/
def signals (o : Long) (t : Thread) (ws : List Src) : Nat := signalFlag (fmt o) (ws.map (fun w => elem t o w o.ty))

/-- The exact value v, with its flags, rounded once into TYPE under RM and SAT, is written to d with flags and generator (R185, R252). -/
def rounded (o : Long) (t : Thread) (flags : Nat) (v : XVal × Nat) : Thread := finishLane o t (finishF (fmt o) (modeOf o t) t.gen flags v)

/-- A comparison of FSETP (R256): the result, and whether IV is set. -/
def floatCompares (m : Nat) (sig : Bool) (a b : XVal) : Bool × Bool :=
  if a.isNan || b.isNan then (m == 1 || decide (7 ≤ m), sig || (decide (2 ≤ m) && decide (m ≤ 5)))
  else
    let lt := cmpX a b == .lt
    let eq := cmpX a b == .eq
    (match m with
      | 0 | 8 => eq
      | 1 => !eq
      | 2 | 9 => lt
      | 3 | 10 => lt || eq
      | 4 | 11 => !lt && !eq
      | 5 | 12 => !lt
      | 6 => true
      | _ => false, false)

/-- FADD, FSUB, FMUL, FFMA, FSCALE, FDIV, FSQRT, FMIN, FMAX and FSETP (R254 to R257). -/
def floatDid (op : LongOp) (o : Long) (t : Thread) : Thread :=
  let a := value o t .a
  let b := value o t .b
  let c := value o t .c
  match op with
  | .fadd => rounded o t (signals o t [.a, .b]) (addX o.rm.toNat a b)
  | .fsub => rounded o t (signals o t [.a, .b]) (addX o.rm.toNat a b.neg)
  | .fmul => rounded o t (signals o t [.a, .b]) (mulX a b)
  | .fdiv => rounded o t (signals o t [.a, .b]) (divX a b)
  | .fsqrt => rounded o t (signals o t [.a]) (sqrtX a)
  | .ffma =>
    let p := if o.m4.getLsbD 0 then (mulX a b).1.neg else (mulX a b).1
    let z := if o.m4.getLsbD 1 then c.neg else c
    rounded o t (signals o t [.a, .b, .c]) ((addX o.rm.toNat p z).1, (mulX a b).2 ||| (addX o.rm.toNat p z).2)
  | .fscale =>
    let v : XVal := match a with
      | .num n m e x => .num n m (max (min (e + (src32 t o .b).toInt) 2000) (-2000)) x
      | v => v
    rounded o t (signals o t [.a]) (v, 0)
  | .fmin | .fmax =>
    let r := fminmaxOp (fmt o) t.ftz (op == .fmax) (o.m4.getLsbD 0) (elem t o .a o.ty) (elem t o .b o.ty)
    finishLane o t (r.1, r.2, t.gen)
  | .fsetp =>
    let r := floatCompares o.m4.toNat (signals o t [.a, .b] != 0) a b
    (t.setPred o.d.toNat (combined o.p5.toNat r.1 (t.pred o.c.toNat))).raiseFlags (if r.2 then flagIV else 0)
  | _ => t

/-- The functions of R197 and FRND: code and flags of the operand as read. -/
def functionDid (op : LongOp) (o : Long) (t : Thread) : Thread :=
  let md : Mode := ⟨0, o.sat, t.ftz⟩
  let x := src32 t o .a
  let give (r : Nat × Nat) : Thread := finishLane o t (r.1, r.2, t.gen)
  match op with
  | .frcp => give (frcpOp md x)
  | .frsq => give (frsqOp md x)
  | .fex2 => give (fex2Op md x)
  | .flg2 => give (flg2Op md x)
  | .fsin => give (fsinOp false md x)
  | .fcos => give (fsinOp true md x)
  | .ftanh => give (ftanhOp md x)
  | .frnd => finishLane o t (frndOp (fmt o) (modeOf o t) (o.m4.getLsbD 0) t.gen (elem t o .a o.ty))
  | _ => t

/-- An 8-bit or 16-bit part of a 32-bit operand. -/
def part (t : Thread) (o : Long) (w : Src) (n i : Nat) : Nat := (src32 t o w).toNat / 2 ^ (n * i) % 2 ^ n

/-- PACK's destination (R263): two elements of n bits at element position i over the other bits of base. -/
def packed (n i : Nat) (base : Word) (x y : Nat) : Word :=
  let mask : Word := BitVec.ofNat 32 ((2 ^ (2 * n) - 1) * 2 ^ (n * i))
  (base &&& ~~~mask) ||| (BitVec.ofNat 32 ((x % 2 ^ n + y % 2 ^ n * 2 ^ n) * 2 ^ (n * i)) &&& mask)

/-- CVT, F2I, I2F, PACK, UNPK, HFMA2, DOT4, FCLS and FCLS.TEST (R260 to R267); codebooks are the team's. -/
def convertDid (op : LongOp) (o : Long) (s : State) (t : Thread) : Thread :=
  let p := o.p5.toNat
  let n := typeBits o.ty
  match op with
  | .cvt =>
    let r := if p = 14 then cvtOp 10 o.ty.toNat (modeOf o t) t.gen (bookEntry ((s.team t.team).books.getD o.m4.toNat 0#256) (part t o .a 4 0))
      else cvtOp p o.ty.toNat (modeOf o t) t.gen (elem t o .a (o.p5.setWidth 4))
    finishLane o t r
  | .f2i =>
    let f := fmtOf p
    let c := elem t o .a (o.p5.setWidth 4)
    let w := [32, 64, 16, 8].getD (o.ty.toNat / 2) 0
    let r := roundInt w (o.ty.toNat % 2 = 0) (modeOf o t) t.gen (decodeF f (t.ftz && f.signals) c)
    { (t.setCode (isWide o.ty) o.d.toNat (BitVec.ofInt 64 r.1).toNat).raiseFlags (r.2.1 ||| signalFlag f [c]) with gen := r.2.2 }
  | .i2f =>
    let w := [32, 64, 16, 8].getD (p / 2) 0
    let v := BitVec.ofNat w (if w = 64 then (src64 t o .a).toNat else (src32 t o .a).toNat)
    finishLane o t (roundTo (fmt o) (modeOf o t) t.gen (ofInt (num (p % 2 = 0) v)))
  | .pack =>
    let base : Word := if n = 16 then 0#32 else src32 t o .c
    let a := (src32 t o .a).toNat
    let b := (src32 t o .b).toNat
    let x := cvtOp 8 o.ty.toNat (modeOf o t) t.gen a
    let y := cvtOp 8 o.ty.toNat (modeOf o t) x.2.2 b
    if p = 1 then finishLane o t ((packed n (2 * o.m4.toNat) base a b).toNat, 0, t.gen)
    else finishLane o t ((packed n (2 * o.m4.toNat) base x.1 y.1).toNat, x.2.1 ||| y.2.1, y.2.2)
  | .unpk =>
    let c := part t o .a n o.m4.toNat
    let r := if o.ty = 14#4 then cvtOp 10 8 ⟨0, false, t.ftz⟩ t.gen (bookEntry ((s.team t.team).books.getD (p / 2) 0#256) c)
      else cvtOp o.ty.toNat 8 ⟨0, false, t.ftz⟩ t.gen c
    finishLane o t (if p % 2 = 1 then (c, 0, t.gen) else r)
  | .hfma2 =>
    let one (gen : Word) (i : Nat) := ffmaOp (fmt o) (modeOf o t) gen false false (part t o .a 16 i) (part t o .b 16 i) (part t o .c 16 i)
    let r0 := one t.gen 0
    let r1 := one r0.2.2 1
    finishLane o t (r0.1 + r1.1 * 65536, r0.2.1 ||| r1.2.1, r1.2.2)
  | .dot4 =>
    if o.ty = 6#4 ∨ o.ty = 7#4 then
      let term (i : Nat) : Int := num (o.ty = 6#4) (BitVec.ofNat 8 (part t o .a 8 i)) * num (p = 6) (BitVec.ofNat 8 (part t o .b 8 i))
      finishLane o t ((stored 32 true o.sat (num true (src32 t o .c) + (term 0 + term 1 + term 2 + term 3))).toNat, 0, t.gen)
    else finishLane o t (dot4Op o t)
  | .fcls => t.setRegs o.d.toNat [BitVec.ofNat 32 (classBits o.ty.toNat (elem t o .a o.ty))]
  | .fclsTest => t.setPred o.d.toNat (BitVec.ofNat 32 (classBits o.ty.toNat (elem t o .a o.ty)) &&& src32 t o .b != 0#32)
  | _ => t

/-- How far apart two numbers are. -/
def apart (a b : Nat) : Nat := (b - a) + (a - b)

/-- The magnitude m lies nearer to st than to other grid steps of 2^sh (R185). -/
def nearerThan (m sh st other : Nat) : Prop := apart m (st * 2 ^ sh) < apart m (other * 2 ^ sh)

end Sys2Proof.Claims

/-- R254 to R257: the float arithmetic opcodes compute an exact value and round it once; FMIN, FMAX and FSETP compare. -/
def Obligations.FloatArithmeticRoundsTheExactValueOnce : Prop :=
  ∀ op ∈ [LongOp.fadd, .fsub, .fmul, .ffma, .fdiv, .fsqrt, .fscale, .fmin, .fmax, .fsetp], ∀ o,
    Computes (op.instr o) op o o.bytes (fun _ => floatDid op o)

/-- R197, R258, R259: the functions and FRND write their code and flags. -/
def Obligations.FloatFunctionsWriteTheirResult : Prop :=
  ∀ op ∈ [LongOp.frcp, .frsq, .fex2, .flg2, .fsin, .fcos, .ftanh, .frnd], ∀ o,
    Computes (op.instr o) op o o.bytes (fun _ => functionDid op o)

/-- R260 to R267: conversions, packing, HFMA2, DOT4 and classes. -/
def Obligations.ConversionsAndPackedOpcodesCompute : Prop :=
  ∀ op ∈ [LongOp.cvt, .f2i, .i2f, .pack, .unpk, .hfma2, .dot4, .fcls, .fclsTest], ∀ o,
    Computes (op.instr o) op o o.bytes (convertDid op o)

/-- R185, R186: of the two neighbors on the grid each mode takes the one it names; a value on the grid is kept.
R179, R185: a code that stands for a number comes back from its value unchanged, under every mode without FTZ, and raises no flag. -/
def Obligations.RoundingModesTakeTheNamedNeighbor : Prop :=
  (
    ∀ (neg : Bool) (m sh u : Nat),
      let lo := m / 2 ^ sh
      let r := fun rm => (roundSteps rm neg m sh false u).1
      (m % 2 ^ sh = 0 → ∀ rm, r rm = lo) ∧
      (m % 2 ^ sh ≠ 0 →
        r 1 = lo ∧ r 2 = (if neg then lo + 1 else lo) ∧ r 3 = (if neg then lo else lo + 1) ∧
        (nearerThan m sh lo (lo + 1) → r 0 = lo ∧ r 4 = lo) ∧ (nearerThan m sh (lo + 1) lo → r 0 = lo + 1 ∧ r 4 = lo + 1) ∧
        (apart m (lo * 2 ^ sh) = apart m ((lo + 1) * 2 ^ sh) → r 0 % 2 = 0 ∧ (r 0 = lo ∨ r 0 = lo + 1) ∧ r 4 = lo + 1) ∧
        r 6 % 2 = 1 ∧ (r 6 = lo ∨ r 6 = lo + 1) ∧
        r 5 = (if u < m % 2 ^ sh * 2 ^ 24 / 2 ^ sh then lo + 1 else lo))) ∧
  (
    ∀ f ∈ [f32, f16, bf16, e4m3, e5m2, e2m1], ∀ c < 2 ^ (f.m + f.e + 1), ∀ rm sat gen,
      (∀ n, decodeF f false c ≠ .inf n) → decodeF f false c ≠ .nan →
      (roundTo f ⟨rm, sat, false⟩ gen (decodeF f false c)).1 = c ∧ (roundTo f ⟨rm, sat, false⟩ gen (decodeF f false c)).2.1 = 0)

/-! ## Control, masks, groups and special registers -/

namespace Sys2Proof.Claims

/-- Row i of the table runs as op with the fields o in len bytes: where one thread issues alone, executes it and meets a condition, the row answers
a next state, in which the effect has happened and the thread's course is settled by it. -/
def Alone (i : Instr) (op : LongOp) (o : Long) (len : Nat) (cond : State → Nat → Thread → Prop) (eff : State → Nat → Thread → Out) : Prop :=
  ∀ s k t, Lone op o s k t → cond s k t → exec i s = .next (settled op o t len k (eff (s.began k t len) k (t.begun len)))

/-- No condition. -/
def always : State → Nat → Thread → Prop := fun _ _ _ => True

/-- The address of a relative branch: the address of its first word plus four times the offset (R238). -/
def branchTo (t : Thread) (off : Int) : DWord := t.pc + BitVec.ofInt 64 (4 * off)

/-- CALL in one lane (R240, R378): the return address goes to a register pair or onto the call stack of 32 entries, whose overflow traps. -/
def callDid (toRegs : Bool) (d : Nat) (target : Thread → DWord) : State → Nat → Thread → Out := fun s k t =>
  if toRegs then .jump (s.updThread k (fun u => u.setRegs d [t.after.setWidth 32, t.after.extractLsb' 32 32])) (target t)
  else if t.stack.length < 32 then
    .jump (s.updThread k (fun u => { u with stack := (t.after &&& 0x00FFFFFFFFFFFFFF#64) :: t.stack })) (target t)
  else .trap s (trapAt 0x0A 32#64 t.pc)

/-- RET in one lane (R240, R378): to the newest address of the stack; an empty one traps. -/
def retDid : State → Nat → Thread → Out := fun s k t =>
  match t.stack with
  | a :: rest => .jump (s.updThread k (fun u => { u with stack := rest })) a
  | [] => .trap s (trapAt 0x0B 0#64 t.pc)

/-- Every arrived lane is enrolled and every enrolled lane has arrived. -/
def allArrived (m : Mask) : Bool := m.arrived != 0#32 && m.arrived == m.enrolled

/-- Sets a mask of a group. -/
def withMask (s : State) (g k : Nat) (m : Mask) : State := s.updGroup g (fun x => { x with masks := x.masks.set k m })

/-- The mask with a lane enrolled. -/
def with_ (m : Mask) (l : Nat) : Mask := { enrolled := m.enrolled ||| (1#32 <<< l), arrived := m.arrived }

/-- JOIN k in one lane (R25). -/
def joinDid (k : Nat) : State → Nat → Thread → Out := fun s _ t =>
  .go (s.updGroup t.group (fun x => { x with masks := x.masks.set k (with_ (x.masks.getD k default) t.lane) }))

/-- The mask without a lane. -/
def without (m : Mask) (l : Nat) : Mask := { enrolled := m.enrolled &&& ~~~(1#32 <<< l), arrived := m.arrived &&& ~~~(1#32 <<< l) }

/-- LEAVE k in one lane (R25): the lane is neither enrolled nor arrived; a mask that is now complete acts. -/
def leaveDid (k : Nat) : State → Nat → Thread → Out := fun s _ t =>
  .go (maskCheck (withMask s t.group k (without ((s.group t.group).masks.getD k default) t.lane)) t.group k)

/-- WAITK k in one lane (R25): a lane that is not enrolled goes on; an enrolled one arrives and waits; a mask that is now complete acts. -/
def waitkDid (k : Nat) : State → Nat → Thread → Out := fun s j t =>
  let m := (s.group t.group).masks.getD k default
  if m.enrolled.getLsbD t.lane then
    .done (maskCheck (waitIn (withMask s t.group k { m with arrived := m.arrived ||| (1#32 <<< t.lane) }) j (.maskWait k false)) t.group k)
  else .go s

/-- KMOV in one lane that issues alone (R242): mask to register, register to mask, arrived set to register, mask to mask. -/
def kmovDid (o : Long) : State → Nat → Thread → Out := fun s k t =>
  let mask := fun i => (s.group t.group).masks.getD i default
  match o.m4.toNat with
  | 0 => .go (s.updThread k (fun u => u.setRegs o.d.toNat [(mask o.c.toNat).enrolled]))
  | 1 => .go (writeMask s t.group o.c.toNat (src32 t o .a))
  | 2 => .go (s.updThread k (fun u => u.setRegs o.d.toNat [(mask o.c.toNat).arrived]))
  | _ => .go (writeMask s t.group o.c.toNat (mask o.a.toNat).enrolled)

/-- YIELD in one lane (R42, R247): without a pre-emption request it does nothing; under one the thread goes on and has yielded there. -/
def yieldDid : State → Nat → Thread → Out := fun s k t =>
  if (s.team t.team).preq then .done (yieldAt (s.updThread k (fun u => u.advance (s.now t))) k) else .go s

/-- EXIT in one lane (R18, R247): with no register owed and no job, the thread exits. -/
def exitCond : State → Nat → Thread → Prop := fun _ _ t => owesRegister t = false ∧ t.job = none

/-! ### Group-wide operations (R26, R27, R243 to R246) -/

/-- The participants' values folded in lane order: the value so far and the flags raised so far. -/
def folded (o : Long) : Nat × Nat → List Thread → Nat × Nat
  | acc, [] => acc
  | acc, t :: ts =>
    if o.ty = 8#4 then
      let r := foldF32 o t acc.1 (foldOperand o t)
      folded o (r.1, acc.2 ||| r.2.1) ts
    else folded o (foldInt o acc.1 (foldOperand o t), 0) ts

/-- The fold of a list of participants, the first one's value first; the identity when there is none. -/
def foldOf (o : Long) : List Thread → Nat × Nat
  | [] => (foldIdentity o, 0)
  | t :: ts => folded o (foldOperand o t, 0) ts

/-- The generator of a participant after its element of an F32 sum has rounded; before is what is folded ahead of it. -/
def genAfter (o : Long) (before : List Thread) (t : Thread) : Word :=
  if before.isEmpty then t.gen else if o.ty = 8#4 then (foldF32 o t (foldOf o before).1 (foldOperand o t)).2.2 else t.gen

/-- What a group-wide operation leaves in a participant t, where ps are the participants in lane order (R244 to R246). -/
def wideDid (op : LongOp) (o : Long) (ps : List Thread) (t : Thread) : Thread :=
  let before := ps.takeWhile (fun u => u.lane != t.lane)
  match op with
  | .vote =>
    let p := fun u : Thread => u.pred o.a.toNat
    match o.m4.toNat with
    | 0 => t.setPred o.d.toNat (ps.all p)
    | 1 => t.setPred o.d.toNat (ps.any p)
    | 2 => t.setPred o.d.toNat (ps.all p || !ps.any p)
    | _ => t.setRegs o.d.toNat [ps.foldl (fun w u => if p u then w ||| (1#32 <<< u.lane) else w) 0#32]
  | .shfl =>
    let b := (src32 t o .b).toNat
    let from_ : Int := match o.m4.toNat with
      | 0 => (b % 32 : Nat)
      | 1 => (t.lane : Int) - b
      | 2 => (t.lane : Int) + b
      | _ => (t.lane ^^^ (b % 32) : Nat)
    t.setCode (isWide o.ty) o.d.toNat (srcInt ((ps.find? (fun u => (u.lane : Int) == from_)).getD t) o .a)
  | .scan =>
    let r := foldOf o (if o.p5 = 1#5 then before else before ++ [t])
    { (t.setCode (isWide o.ty) o.d.toNat r.1).raiseFlags r.2 with gen := genAfter o before t }
  | .redg =>
    let r := foldOf o ps
    { (t.setCode (isWide o.ty) o.d.toNat r.1).raiseFlags r.2 with gen := genAfter o before t }
  | _ => t

/-- The group-wide opcodes of R244 to R246. -/
def wideOps : List LongOp := [.vote, .shfl, .scan, .redg]

/-- The thread may run a group-wide instruction: it issues alone, nothing stands in its way, its team runs undisturbed. -/
def LoneWide (op : LongOp) (o : Long) (s : State) (k : Nat) (t : Thread) : Prop :=
  s.cur = [k] ∧ s.thread k = some t ∧ t.state ≠ .exited ∧ t.skip ≠ some t.pc ∧ fieldTrap op o 0#32 true (s.team t.team).regs = none ∧
  owedPred t op o = false ∧ owed t (usedRegs op o) = [] ∧ badRead t op o = none ∧ (s.team t.team).preq = false ∧ (s.team t.team).halted = false

/-- A thread has gone past a group-wide instruction of len bytes with the result of a participant, or without one. -/
def Passed (op : LongOp) (o : Long) (len : Nat) (ps : List Thread) (t u : Thread) : Prop :=
  u.pc = t.pc + BitVec.ofNat 64 len ∧ u.state = .runnable ∧
  (guardHolds t o = true → u.still = ((wideDid op o ps t).kept op o t).still) ∧
  (guardHolds t o = false → u.still = t.still)

end Sys2Proof.Claims

/-- R238 to R240, R201: branches, calls and returns, long and short. -/
def Obligations.BranchesCallsAndReturnsTransferControl : Prop :=
  ∀ (o : Long) (off : BitVec 19) (neg : BitVec 1) (gp : BitVec 4),
    Alone (.bra o) .bra o o.bytes always (fun s _ t => .jump s (branchTo t o.off27.toInt)) ∧
    Alone (.brx o) .brx o o.bytes always (fun s _ t => .jump s (src64 t o .a)) ∧
    Alone (.call o) .call o o.bytes always (callDid (o.m4.getLsbD 1) o.d.toNat
      (fun t => if o.m4.getLsbD 0 then src64 t o .a else branchTo t o.off27.toInt)) ∧
    Alone (.ret o) .ret o o.bytes always retDid ∧
    Alone (.braShort off neg gp) .bra (aliasGuard neg gp) 4 always (fun s _ t => .jump s (branchTo t off.toInt)) ∧
    Alone (.callShort off neg gp) .call (aliasGuard neg gp) 4 always (callDid false 0 (fun t => branchTo t off.toInt)) ∧
    Alone .retShort .ret longZero 4 always retDid

/-- R25, R241, R242: rejoin-mask instructions, long and short.
R25, R384: a mask all of whose enrolled lanes have arrived releases lanes that all wait at WAITK, which then issue as one group; lanes that all
wait at one group-wide instruction stay until it executes; lanes of which some wait at WAITK and some at a group-wide instruction, or at several, trap
with 0x0C; an incomplete mask does nothing. -/
def Obligations.MaskInstructionsEnrolLeaveWaitAndMove : Prop :=
  (
    ∀ (o : Long) (m : BitVec 4),
      Alone (.join o) .join o o.bytes always (joinDid o.c.toNat) ∧
      Alone (.leave o) .leave o o.bytes always (leaveDid o.c.toNat) ∧
      Alone (.waitk o) .waitk o o.bytes always (waitkDid o.c.toNat) ∧
      Alone (.kmov o) .kmov o o.bytes always (kmovDid o) ∧
      Alone (.joinShort m) .join (aliasMask m) 4 always (joinDid m.toNat) ∧
      Alone (.leaveShort m) .leave (aliasMask m) 4 always (leaveDid m.toNat) ∧
      Alone (.waitkShort m) .waitk (aliasMask m) 4 always (waitkDid m.toNat)) ∧
  (
    ∀ (s : State) (g k : Nat), let m := (s.group g).mask k; let ls := lanesOf s g m.arrived
      (allArrived m = false → maskCheck s g k = s) ∧
      (allArrived m = true → (∀ p ∈ ls, p.2.state = .maskWait k false) → (ls.map (·.1)).Nodup → (s.groups.find g).isSome → k < (s.group g).masks.length →
        ((maskCheck s g k).group g).mask k = { m with arrived := 0#32 } ∧
        (∀ p ∈ ls, s.thread p.1 = some p.2 →
          ((maskCheck s g k).thread p.1).map Thread.untimed = some { p.2.advance (s.now p.2) with joined := some s.fresh }.untimed) ∧
        ∀ j, j ∉ ls.map (·.1) → ((maskCheck s g k).thread j).map Thread.untimed = (s.thread j).map Thread.untimed) ∧
      (allArrived m = true → ls ≠ [] → (∀ p ∈ ls, p.2.state = .maskWait k true ∧ ∀ q ∈ ls, q.2.pc = p.2.pc) → maskCheck s g k = s) ∧
      (allArrived m = true → (∃ p ∈ ls, p.2.state ≠ .maskWait k false) →
        (∃ p ∈ ls, p.2.state ≠ .maskWait k true ∨ ∃ q ∈ ls, q.2.pc ≠ p.2.pc) →
        maskCheck s g k = ls.foldl (fun s p => takeTrap s p.1 (trapAt 0x0C (BitVec.ofNat 64 (m.enrolled.toNat + k * 2 ^ 32)) p.2.pc))
          (s.updGroup g (fun x => x.setMask k { m with arrived := 0#32 }))))

/-- R26, R243 to R246: where the last enrolled lane arrives at a group-wide instruction, it executes once in every lane that has waited for it: each
participant gets its result, a lane whose guard is false none, and the mask's arrived set empties.  A lane that is not enrolled, or that a KMOV has struck from the mask while it waited there (R242), executes alone. -/
def Obligations.GroupWideOperationsExecuteWhenAllHaveArrived : Prop :=
  ∀ op ∈ wideOps, ∀ (o : Long) (s : State) (k : Nat) (t : Thread), LoneWide op o s k t → let m := (s.group t.group).mask o.c.toNat
    (m.enrolled.getLsbD t.lane = false ∨ t.alone = true → ∃ s' u, exec (op.instr o) s = .next s' ∧ s'.thread k = some u ∧ Passed op o o.bytes [t] t u) ∧
    (m.enrolled.getLsbD t.lane = true → t.alone = false → (s.groups.find t.group).isSome → o.c.toNat < (s.group t.group).masks.length →
      ∀ ls : List (Nat × Thread), ls = (lanesOf s t.group (m.arrived ||| laneBit t.lane)) → (ls.map (·.1)).Nodup → (k, t) ∈ ls →
      m.arrived ||| laneBit t.lane = m.enrolled →
      (∀ p ∈ ls, s.thread p.1 = some p.2 ∧ (p.1 = k ∨ (p.2.state = .maskWait o.c.toNat true ∧ p.2.pc = t.pc ∧ p.2.after = t.pc + BitVec.ofNat 64 o.bytes))) →
      ∃ s', exec (op.instr o) s = .next s' ∧ ((s'.group t.group).mask o.c.toNat).arrived = 0#32 ∧
        ∀ p ∈ ls, ∃ u, s'.thread p.1 = some u ∧
          Passed op o o.bytes ((ls.map (·.2)).filter (fun x => guardHolds x o)) p.2 u) ∧
    (m.enrolled.getLsbD t.lane = true → t.alone = false → m.arrived ||| laneBit t.lane ≠ m.enrolled →
      exec (op.instr o) s = .next (waitIn (withMask (s.began k t o.bytes) t.group o.c.toNat { m with arrived := m.arrived ||| laneBit t.lane }) k
        (.maskWait o.c.toNat true)))

/-- R42, R247, R18: NOP, YIELD and EXIT, long and short. -/
def Obligations.NopYieldAndExitSetTheThreadsCourse : Prop :=
  ∀ o : Long,
    Computes .nopShort .nop longZero 4 (fun _ t => t) ∧
    Alone (.yield o) .yield o o.bytes always yieldDid ∧ Alone .yieldShort .yield longZero 4 always yieldDid ∧
    Alone (.exit o) .exit o o.bytes exitCond (fun s k _ => .done (exitThread s k)) ∧
    Alone .exitShort .exit longZero 4 exitCond (fun s k _ => .done (exitThread s k))

/-- R248: GETSR writes a special register's value to a register or a pair, and SETSR writes one.
R189, R190, R191, R217, R248, R347: what a written special register reads as: FPCR keeps FTZ and SEED and reseeds the generator, FPSR clears the
bits written as 1, the pairs keep all bits but a table's unassigned bits 43:40, which read zero (R12, R236), a narrow write keeps the high half, and a read-only register keeps its value. -/
def Obligations.SpecialRegistersAreReadAndWritten : Prop :=
  (
    ∀ o : Long,
      Computes (.getsr o) .getsr o o.bytes (fun s t => t.setCode (isWide o.ty) o.d.toNat (readSpecial s t o.srIndex)) ∧
      Computes (.setsr o) .setsr o o.bytes (fun s t =>
        writeSpecial t o.srIndex ((s.group t.group).gid * 32 + t.lane)
          (if isWide o.ty then src64 t o .a else (src32 t o .a).setWidth 64) (isWide o.ty))) ∧
  (
    ∀ (s : State) (t : Thread) (tid : Nat) (v : DWord), t.sr.dt.length = 8 →
      readSpecial s (writeSpecial t 0x20 tid v false) 0x20 = (v.setWidth 32 &&& 0xFFFF0001#32).toNat ∧
      (writeSpecial t 0x20 tid v false).gen = (v.setWidth 32 &&& 0xFFFF0000#32) ||| BitVec.ofNat 32 (tid + 1) ∧
      readSpecial s (writeSpecial t 0x21 tid v false) 0x21 = (t.sr.fpsr &&& ~~~(v.setWidth 32)).toNat ∧
      (∀ i ∈ [0x100, 0x102, 0x103],
        readSpecial s (writeSpecial t i tid v true) i = v.toNat ∧
        readSpecial s (writeSpecial t i tid v false) i = readSpecial s t i / 2 ^ 32 * 2 ^ 32 + v.toNat % 2 ^ 32) ∧
      (∀ i ∈ [0x70, 0x71, 0x72, 0x73, 0x74, 0x75, 0x76, 0x77],
        readSpecial s (writeSpecial t i tid v true) i = (v &&& 0xFFFFF0FFFFFFFFFF#64).toNat ∧
        readSpecial s (writeSpecial t i tid v false) i =
          (BitVec.ofNat 64 (readSpecial s t i / 2 ^ 32 * 2 ^ 32 + v.toNat % 2 ^ 32) &&& 0xFFFFF0FFFFFFFFFF#64).toNat) ∧
      (∀ i wide, i ∉ [0x20, 0x21, 0x70, 0x71, 0x72, 0x73, 0x74, 0x75, 0x76, 0x77, 0x100, 0x102, 0x103] → writeSpecial t i tid v wide = t))

/-! ## Memory instructions -/

namespace Sys2Proof.Claims

/-- Nothing of the thread holds its memory event back (R81, R212, R282): no fence is pending, no poll, no acquire, for a release no access but an
enqueue (R323) and for a global access no global access is still to be performed, and the instruction's completion flag has room. -/
def Free (t : Thread) (o : Long) (global release : Bool) : Prop :=
  flagFull t (flagOf t o.fs) = false ∧ t.fence = none ∧ t.polls = false ∧ t.awaits (fun p => p.acquire.isSome) = false ∧
    (release = true → t.awaits (fun p => p.token != 15) = false) ∧ (global = true → t.awaits (·.global) = false)

/-- Nothing holds it back: for a release of a wide scope no write-back to another package is on its way either (R66). -/
def Ready (s : State) (k : Nat) (t : Thread) (o : Long) (len : Nat) (global release : Bool) : Prop :=
  Free t o global release ∧ (release = true → releaseWaits (s.began k t len) t.core o.scope.toNat = false)

/-- The address lies in the issuing team's scratch allocation, below the part's own area, and meets no error. -/
def inScratch (s : State) (t : Thread) (addr n : Nat) : Prop :=
  addr + n ≤ (s.team t.team).scratchSize ∧ hitsError s (scratchLoc t.core ((s.team t.team).scratch + addr)) n false = false ∧
    (s.team t.team).scratch + addr + n ≤ 0x1FE000

/-- The state in which a scratch access is performed: an order with release has written the L1's M lines back (R66). -/
def afterRelease (s : State) (k : Nat) (t : Thread) (o : Long) (len : Nat) : State := releaseFor (s.began k t len) t o

/-- Location of a byte of the issuing team's scratch. -/
def scratchAt (s : State) (t : Thread) (addr : Nat) : Nat := scratchLoc t.core ((s.team t.team).scratch + addr)

/-- Location of a byte of the issuing team's column window: slice in bits 21:17, offset in bits 16:0 (R57). -/
def columnAt (s : State) (t : Thread) (addr : Nat) : Nat :=
  columnLoc t.core (addr / 0x20000 * 0x20000 + (s.team t.team).column + addr % 0x20000)

/-- The address lies in the team's column window, and the team is a launched one. -/
def inColumns (s : State) (t : Thread) (addr n : Nat) : Prop :=
  (s.team t.team).grid.isSome = true ∧ addr < 0x400000 ∧ addr % 0x20000 + n ≤ (s.team t.team).columnSize ∧ hitsError s (columnAt s t addr) n false = false

/-- The thread has gone past an instruction of len bytes and holds the operation p, which stands at the given status, with its flag raised; its registers and
predicates are as they were. -/
def Opened (s : State) (k : Nat) (t : Thread) (len : Nat) (p : Op) (status : OpStatus) (s' : State) : Prop :=
  ∃ u q, s'.thread k = some u ∧ u.ops.find s.fresh = some q ∧ q.status = status ∧ q.dst = p.dst ∧ q.ext = p.ext ∧ q.size = p.size ∧ q.flag = p.flag ∧
    u.flags = (t.raise p.flag).flags ∧ u.pc = t.pc + BitVec.ofNat 64 len ∧ u.state = .runnable ∧ u.regs = t.regs ∧ u.preds = t.preds

/-- Size in bytes of an instruction's datum. -/
def datum (o : Long) : Nat := 2 ^ o.size.toNat

/-- The address of a scratch or column access: the sum of two narrow operands (R269). -/
def sumAddress (t : Thread) (o : Long) : Nat := (src32 t o .a + src32 t o .b).toNat

/-- LDS and LDSW of the issuing team's scratch (R53, R274). -/
def ScratchLoad (i : Instr) (o : Long) (len : Nat) : Prop :=
  ∀ s k t, Lone .lds o s k t → (s.team t.team).halted = false → o.mode.getLsbD 1 = false → Ready s k t o len false (ordRel o) →
    let w := afterRelease s k t o len
    inScratch w t (sumAddress t o) (datum o) →
    ∃ s', exec i s = .next s' ∧
      Opened s k t len (loadOp t o (o.mode.getLsbD 0) 0#64) (.ready (w.read (scratchAt s t (sumAddress t o)) (datum o))) s' ∧ s'.mem = w.mem

/-- STS and STSW of the issuing team's scratch (R53, R274). -/
def ScratchStore (i : Instr) (o : Long) (len : Nat) : Prop :=
  ∀ s k t, Lone .sts o s k t → (s.team t.team).halted = false → o.mode.getLsbD 1 = false → Ready s k t o len false (ordRel o) →
    let w := afterRelease s k t o len
    inScratch w t (sumAddress t o) (datum o) →
    ∃ s', exec i s = .next s' ∧ Opened s k t len (mkOp t o) (.ready []) s' ∧
      s'.read (scratchAt s t (sumAddress t o)) (datum o) = storeBytes t o ∧ SameMemoryOutside w s' (scratchAt s t (sumAddress t o)) (datum o)

/-- A load from global memory: the operation is issued on the pieces of the access (R274, R78). -/
def globalLoad (o : Long) : State → Nat → Thread → Out := fun s k t =>
  match placeGlobal s k t 0 false false (globalAddress t o) (datum o) 1 with
  | .out r => r
  | .ok s1 l => .go (startPieces (releaseFor s1 t o) k { loadOp t o (o.mode.getLsbD 0) (globalAddress t o) with global := true } (loadPieces o.hint.toNat l))

/-- A store to global memory. -/
def globalStore (o : Long) : State → Nat → Thread → Out := fun s k t =>
  match placeGlobal s k t 1 false false (globalAddress t o) (datum o) 1 with
  | .out r => r
  | .ok s1 l =>
    let p := { mkOp t o with
      global := true
      acquire := acquireFor o
      release := if ordRel o then some o.scope.toNat else none
      info := globalAddress t o }
    .go (startPieces (releaseFor s1 t o) k p (storePieces o.hint.toNat l (storeBytes t o)))

/-- Nothing holds an instruction of len bytes back; rel says whether its order includes a release. -/
def freeFor (global : Bool) (rel : Long → Bool) (o : Long) (len : Nat) : State → Nat → Thread → Prop :=
  fun s k t => Ready s k t o len global (rel o)

/-- The order of a full/empty access is acquire and release always, so that it is a release for what holds it back. -/
def yes : Long → Bool := fun _ => true
/-- No release. -/
def no : Long → Bool := fun _ => false

/-- A FLUSH ends with the last write-back of its die that another package has not acknowledged; without one it is ready at once (R281). -/
def flushed (s : State) (k : Nat) (t : Thread) (p : Op) : State :=
  if (s.die (epDie t.core)).farWrites.isEmpty then (addOp s k { p with status := .ready [] }).1 else (addOp s k { p with token := 13 }).1

/-- One piece at one home or in one line: LDX, STX, SETFE, ATOM and RED never cross a line. -/
def onePiece (s : State) (k : Nat) (t : Thread) (cls : Nat) (fe : Bool) (va : DWord) (n : Nat) (go : State → Nat → DWord → Out) : Out :=
  match placeGlobal s k t cls fe false va n n with
  | .out r => r
  | .ok s1 [] => .go s1
  | .ok s1 ((pa, _, e) :: _) => go s1 pa e

/-- A full/empty access to global memory (R275, R276, R406): an HBM page whose FE bit is set, at its home, the thread parked while it holds. -/
def feGlobal (o : Long) (p : Op) (a : Access) (n : Nat) : State → Nat → Thread → Out := fun s k t =>
  onePiece s k t 3 true (globalAddress t o) n (fun s1 pa e =>
    if pteFe e = true ∧ regionOf pa = .hbm then
      let s2 := startPieces (releaseAction s1 t.core o.scope.toNat) k { p with global := true, info := globalAddress t o }
        [{ pa := pa, home := true, access := a, hint := o.hint.toNat }]
      if p.held then .done (waitIn s2 k (.parked false)) else .go s2
    else memTrap s1 0x23 2 (globalAddress t o) t)

/-- A full/empty access to scratch that finds its state as required is performed at once (R71, R275): the bit, the bytes and the answer are as the access says. -/
def FeScratch (i : Instr) (op : LongOp) (o : Long) (a : Thread → Access) : Prop :=
  ∀ s k t, Lone op o s k t → (s.team t.team).halted = false → o.mode.getLsbD 2 = true → Ready s k t o o.bytes false true →
    let w := releaseAction (s.began k t o.bytes) t.core o.scope.toNat
    let loc := scratchAt s t (sumAddress t o)
    sumAddress t o % datum o = 0 → sumAddress t o + datum o ≤ (s.team t.team).scratchSize → (s.team t.team).scratch + sumAddress t o + datum o ≤ 0x1FE000 →
    hitsError w (loc - loc % 8) 8 false = false → feHolds (a t) (w.full loc) = true → (w.core t.core).retry = [] →
    ∃ s' u q, exec i s = .next s' ∧ s'.thread k = some u ∧ u.ops.find s.fresh = some q ∧ u.regs = t.regs ∧
      (match a t with
      | .take n copy => s'.full loc = copy ∧ q.status = .ready (w.read loc n)
      | .fill _ d => s'.full loc = true ∧ s'.read loc d.length = d ∧ q.status = .ready []
      | .setFe f => s'.full loc = f ∧ q.status = .ready [if w.full loc then 1#8 else 0#8]
      | _ => True)

end Sys2Proof.Claims

/-- R214, R269, R274, R78: loads and stores, long and short, issue one operation on the lines they touch, or trap or wait as their address says. -/
def Obligations.LoadsAndStoresIssueTheirAccess : Prop :=
  ∀ (o : Long) (i : BitVec 6) (a d : BitVec 9),
    Alone (.ld o) .ld o o.bytes (freeFor true ordRel o o.bytes) (globalLoad o) ∧
    Alone (.st o) .st o o.bytes (freeFor true ordRel o o.bytes) (globalStore o) ∧
    Alone (.ldw i a d) .ld { aliasMem i a with d := d } 4 (freeFor true no { aliasMem i a with d := d } 4) (globalLoad { aliasMem i a with d := d }) ∧
    Alone (.stw i a d) .st { aliasMem i a with c := d } 4 (freeFor true no { aliasMem i a with c := d } 4) (globalStore { aliasMem i a with c := d })

/-- R53, R57, R214, R274: loads and stores of scratch and of the column store are performed at once: the operation holds the bytes read, or the bytes
stored lie at the team's place and nothing else changed. -/
def Obligations.ScratchAndColumnAccessesArePerformedAtOnce : Prop :=
  ∀ (o : Long) (i : BitVec 6) (a d : BitVec 9),
    ScratchLoad (.lds o) o o.bytes ∧ ScratchStore (.sts o) o o.bytes ∧
    ScratchLoad (.ldsw i a d) { aliasMem i a with d := d } 4 ∧ ScratchStore (.stsw i a d) { aliasMem i a with c := d } 4 ∧
    (∀ s k t, Lone .ldc o s k t → (s.team t.team).halted = false → Free t o false false → columnPending t = false → wavePending s k t = false →
      inColumns s t (sumAddress t o) (datum o) →
      ∃ s', exec (.ldc o) s = .next s' ∧
        Opened s k t o.bytes (loadOp t o (o.mode.getLsbD 0) 0#64) (.ready (s.read (columnAt s t (sumAddress t o)) (datum o))) s' ∧ s'.mem = s.mem) ∧
    (∀ s k t, Lone .stc o s k t → (s.team t.team).halted = false → Free t o false false → columnPending t = false → wavePending s k t = false →
      inColumns s t (sumAddress t o) (datum o) →
      ∃ s', exec (.stc o) s = .next s' ∧ Opened s k t o.bytes (mkOp t o) (.ready []) s' ∧
        s'.read (columnAt s t (sumAddress t o)) (datum o) = storeBytes t o ∧ SameMemoryOutside s s' (columnAt s t (sumAddress t o)) (datum o))

/-- R70, R71, R275, R276, R406: full/empty accesses.  In global memory they are sent to the home of a page that has full/empty bits; in scratch one that
finds the state it needs is performed: LDX takes the word or copies it, STX fills it, SETFE sets the bit. -/
def Obligations.FullEmptyAccessesSetAndUseTheBit : Prop :=
  ∀ o : Long,
    (o.mode.getLsbD 2 = false →
      Alone (.ldx o) .ldx o o.bytes (freeFor true yes o o.bytes) (fun s k t =>
        feGlobal o { loadOp t o false 0#64 with held := true, acquire := some o.scope.toNat } (.take (datum o) (o.mode.getLsbD 0)) (datum o) s k t) ∧
      Alone (.stx o) .stx o o.bytes (freeFor true yes o o.bytes) (fun s k t =>
        feGlobal o { mkOp t o with held := true, acquire := some o.scope.toNat } (.fill (o.mode.toNat % 4) (storeBytes t o)) (datum o) s k t) ∧
      Alone (.setfe o) .setfe o o.bytes (freeFor true yes o o.bytes) (fun s k t =>
        feGlobal o { mkOp t o with dst := some (o.d.toNat, 1), ext := .predicate, reads := true } (.setFe (o.mode.getLsbD 0)) 8 s k t)) ∧
    FeScratch (.ldx o) .ldx o (fun _ => .take (datum o) (o.mode.getLsbD 0)) ∧
    FeScratch (.stx o) .stx o (fun t => .fill (o.mode.toNat % 4) (storeBytes t o)) ∧
    (o.size = 3#3 → FeScratch (.setfe o) .setfe o (fun _ => .setFe (o.mode.getLsbD 0)))

/-- R277, R278, R279, R72: atomics and reductions.  In scratch a launched thread's atomic is performed at once and returns the old value; in global memory
it is issued in the L1 or to its home; a reduction that stays in the core folds into an update-only line and completes at once. -/
def Obligations.AtomicsAndReductionsCombineTheirOperand : Prop :=
  ∀ o : Long,
    (∀ s k t, Lone .atom o s k t → (s.team t.team).halted = false → t.prio = none → o.mode.getLsbD 2 = true →
      Ready s k t o o.bytes false (ordRel o) →
      let w := afterRelease s k t o o.bytes
      let loc := scratchAt s t (sumAddress t o)
      sumAddress t o % datum o = 0 → inScratch w t (sumAddress t o) (datum o) →
      ∃ s' u q, exec (.atom o) s = .next s' ∧ s'.thread k = some u ∧ u.ops.find s.fresh = some q ∧ u.regs = t.regs ∧
        q.status = .ready (if o.m4.toNat < 10 then w.read loc (datum o) else []) ∧
        s'.read loc (datum o) = leBytes (datum o) (atomNew o.m4.toNat (o.mode.toNat % 4) (datum o) (leNat (w.read loc (datum o)))
          (if o.size = 3#3 then src64 t o .c else (src32 t o .c).setWidth 64).toNat
          (if o.size = 3#3 then t.reg (o.e.toNat + 1) ++ t.reg o.e.toNat else (t.reg o.e.toNat).setWidth 64).toNat) ∧
        SameMemoryOutside w s' loc (datum o)) ∧
    (o.mode.getLsbD 2 = false → Alone (.atom o) .atom o o.bytes (freeFor true ordRel o o.bytes) (fun s k t =>
      onePiece s k t 3 false (globalAddress t o) (datum o) (fun s1 pa e =>
        if regionOf pa = .agent then memTrap s1 0x23 2 (globalAddress t o) t
        else .go (startPieces (releaseFor s1 t o) k { atomOp t o (globalAddress t o) with global := true }
          [{ pa := pa, home := goesHome e (t.prio.isSome || decide (5 ≤ o.scope.toNat)), access := atomAccess t o, hint := o.hint.toNat }])))) ∧
    Alone (.red o) .red o o.bytes (freeFor true ordRel o o.bytes) (fun s k t =>
      onePiece s k t 1 false (globalAddress t o) (datum o) (fun s1 pa e =>
        let c := if o.size = 3#3 then src64 t o .c else (src32 t o .c).setWidth 64
        if regionOf pa = .agent then memTrap s1 0x23 2 (globalAddress t o) t
        else if goesHome e t.prio.isSome then
          .go (startPieces (releaseFor s1 t o) k { mkOp t o with flag := none, global := true, info := globalAddress t o }
            [{ pa := pa, home := true, access := .reduce o.m4.toNat (o.mode.toNat % 4) (datum o) c, hint := o.hint.toNat }])
        else
          let s2 := reduceL1 (releaseFor s1 t o) t.core pa o.hint.toNat o.m4.toNat (o.mode.toNat % 4) (datum o) c
          .go (dropHint (nextHint s2 t.core pa o.hint.toNat) t.core pa o.hint.toNat)))

/-- R66, R81, R282: what holds a memory event back: a pending fence until the accesses before it are performed (for an acquire fence, the reads), when its
cache actions are taken, and until what they have sent to another package is acknowledged; a poll and an acquire that is not performed; for a release
every access but an enqueue; a global access of the thread for the next one.
R207, R280 to R282: PREF brings a readable line into the L1, or under hints 3, 4 and 7 into the L2, where hint and page allow, one of another package by a
read of its home; FLUSH writes a line back and FLUSH.INV drops it; FLUSH.ALL does so for every line; FENCE is pending until its action is complete. -/
def Obligations.FencesAndOrdersHoldMemoryEventsBack : Prop :=
  (
    ∀ (s : State) (k : Nat) (t : Thread) (global release : Bool),
      (∀ ord scope, t.fence = some (ord, scope) → t.polls = true ∨ t.awaits (fun p => ord != 1 || p.reads) = true →
        memGate s k t global release = .hold s .waiting) ∧
      (∀ ord scope, t.fence = some (ord, scope) → t.polls = false → t.awaits (fun _ => true) = false →
        let s1 := if ord = 1 then s else releaseAction s t.core scope
        memGate s k t global release =
          if ord ≠ 1 ∧ wideScope scope = true ∧ farPending s1 t.core = true then .hold s1 .waiting
          else .pass ((if ord = 2 then s1 else acquireAction s1 t.core scope).updThread k (fun u => { u with fence := none }))) ∧
      (t.fence = none → memGate s k t global release =
        if t.polls = true ∨ t.awaits (fun p => p.acquire.isSome) = true ∨ (release = true ∧ t.awaits (fun p => p.token != 15) = true) ∨
          (global = true ∧ t.awaits (·.global) = true)
        then .hold s .waiting else .pass s)) ∧
  (
    ∀ o : Long,
      Alone (.pref o) .pref o o.bytes (fun _ _ t => t.fence = none ∧ t.polls = false ∧ t.awaits (fun p => p.acquire.isSome) = false) (fun s k t =>
        match placeGlobal s k t 4 false true (globalAddress t o) 1 1 with
        | .out r => r
        | .ok s1 [] => .go s1
        | .ok s1 ((pa, _, e) :: _) =>
          if pteRead e = false ∨ (isFar pa = false ∧ memoryOn s1 pa = false) then .go s1
          else if o.hint ∈ [3#3, 4#3, 7#3] then .go (touchL2 s1 pa o.hint.toNat)
          else if pteFe e = true ∨ goesHome e false = true ∨ lineReady s1 t.core pa false = true then .go s1
          else if isFar pa = true then
            .go (startPieces s1 k { mkOp t o with flag := none, info := globalAddress t o }
              [{ pa := pa, home := false, access := .load 1, hint := o.hint.toNat }])
          else .go (nextHint (fillLine s1 t.core (lineOf pa) o.hint.toNat none) t.core pa o.hint.toNat)) ∧
      Alone (.flush o) .flush o o.bytes (freeFor true no o o.bytes) (fun s k t =>
        match placeGlobal s k t 4 false true (globalAddress t o) 1 1 with
        | .out r => r
        | .ok s1 [] => .go s1
        | .ok s1 ((pa, _, e) :: _) =>
          .go (flushed (if goesHome e false then s1 else flushLine s1 t.core (lineOf pa) (o.m4.getLsbD 0)) k t
            { mkOp t o with info := globalAddress t o })) ∧
      Alone (.flushAll o) .flushAll o o.bytes (freeFor true no o o.bytes) (fun s k t =>
        .go (flushed ((NMap.keys (s.core t.core).lines).foldl (fun s l => flushLine s t.core l (o.m4.getLsbD 0)) s) k t (mkOp t o))) ∧
      Alone (.fence o) .fence o o.bytes (fun _ _ t => t.fence = none ∧ t.polls = false ∧ t.awaits (fun p => p.acquire.isSome) = false) (fun s k _ =>
        .go (s.updThread k (fun u => { u with fence := some (o.ord.toNat, o.scope.toNat) }))))

/-! ## Remote access and synchronization -/

namespace Sys2Proof.Claims

/-- A packet with a property is on its way: on the mesh, or at a port. -/
def InFlight (s : State) (has : Packet → Prop) : Prop := ∃ pk, (pk ∈ NMap.vals s.packets ∨ ∃ q ∈ s.pkg.ports, pk ∈ q.waiting) ∧ has pk

/-- The thread's core may send f flits to a destination now: it holds the allowance, nobody waits before it, and the destination can be reached (R157). -/
def MaySend (s : State) (t : Thread) (ep f : Nat) : Prop :=
  reachable s t.core ep = true ∧ (s.core t.core).senders = [] ∧ ∃ a, (s.core t.core).allow.find ep = some a ∧ f ≤ a.flits

/-- The request of a remote instruction has left: a packet of the type and body, and an operation of the thread that waits for its answer, counted in RPEND and in the
team (R287); the thread has gone on with its registers unchanged. -/
def Requested (s s' : State) (k : Nat) (t : Thread) (len ep typ : Nat) (body : Nat → Body) : Prop :=
  ∃ u key q, s'.thread k = some u ∧ u.ops.find key = some q ∧ q.status = .sent ∧ q.remote = true ∧ u.pc = t.pc + BitVec.ofNat 64 len ∧ u.regs = t.regs ∧
    u.preds = t.preds ∧ (s'.core t.core).rpend = (s.core t.core).rpend + 1 ∧ (s'.team t.team).remote = (s.team t.team).remote + 1 ∧
    InFlight s' (fun pk => pk.cls = 1 ∧ pk.typ = typ ∧ pk.src = t.core ∧ pk.dst = ep ∧ pk.team = t.team ∧ pk.priv = t.sr.priv ∧ pk.body = body key)

/-- One thread issues alone, executes, nothing holds its memory event back, and its team is resident and runs. -/
def LoneFree (op : LongOp) (o : Long) (s : State) (k : Nat) (t : Thread) (global release : Bool) : Prop :=
  Lone op o s k t ∧ Ready s k t o o.bytes global release ∧ (s.team t.team).halted = false ∧ (s.teams.find t.team).isSome = true

/-- The target endpoint of a remote instruction (R269). -/
def targetOf (t : Thread) (o : Long) : Nat := (src32 t o .a).toNat % 2 ^ 20

/-- A remote access of this alignment passes the checks at issue (R79, R283 to R286, R400). -/
def RemoteFits (s : State) (t : Thread) (o : Long) (column : Bool) (addr align : Nat) : Prop :=
  addr % align = 0 ∧ scopeHolds s t o.scope.toNat (targetOf t o) = true ∧ (column = true → onGateway (targetOf t o) = false)

/-- Bytes a PUT carries. -/
def putBytes (o : Long) : Nat := (o.m4.toNat + 1) * 16

/-- The source of a PUT lies in the team's scratch, aligned, without an error, and its bytes may be counted in the bound superstep. -/
def PutSource (s : State) (t : Thread) (o : Long) : Prop :=
  (src32 t o .c).toNat % 16 = 0 ∧ (src32 t o .c).toNat + putBytes o ≤ (s.team t.team).scratchSize ∧
    hitsError s (scratchLoc t.core ((s.team t.team).scratch + (src32 t o .c).toNat)) (putBytes o) false = false ∧
    ∀ d step, t.sstep = some (d, step) → field (s.read d 8) 0 7 + putBytes o < 2 ^ 56

/-- The superstep and step in which a bound thread's PUT counts: the step that the descriptor stands at, or, for a descriptor of another package, the one that
the thread has seen last (R91, R284). -/
def countsIn (s : State) (t : Thread) : Option (Nat × Nat) :=
  t.sstep.map (fun x => (x.1, if isFar x.1 then x.2 else field (s.read (x.1 + 16) 4) 0 4))

/-- The bytes that a PUT sends. -/
def putData (s : State) (t : Thread) (o : Long) : List Byte := readScratch s t.core ((s.team t.team).scratch + (src32 t o .c).toNat) (putBytes o)

/-- Nothing holds a barrier or superstep instruction back. -/
def Clear (t : Thread) (global release : Bool) : Prop :=
  t.fence = none ∧ t.polls = false ∧ t.awaits (fun p => p.acquire.isSome) = false ∧ (release = true → t.awaits (fun p => p.token != 15) = false) ∧
    (global = true → t.awaits (·.global) = false)

/-- A barrier after one more arrival of n expected. -/
def arrived (b : Barrier) (n : Nat) : Barrier :=
  let count := if b.arrived = 0 then n else b.count
  if b.arrived + 1 = count then { phase := b.phase + 1#32, count := count, arrived := 0 } else { phase := b.phase, count := count, arrived := b.arrived + 1 }

/-- A superstep descriptor that may be used is placed (R289, R406): a page of kind S in HBM. -/
def onStep (s : State) (k : Nat) (t : Thread) (cls : Nat) (va : DWord) (go : State → Nat → Out) : Out :=
  onePiece s k t cls false va 32 (fun s1 pa e => if pteKind e = 0 ∧ regionOf pa = .hbm then go s1 pa else memTrap s1 0x23 2 va t)

/-- What a held read of a descriptor or a mailbox is while it is outstanding. -/
def heldRead (t : Thread) (o : Long) (n : Nat) (va : DWord) : Op :=
  { mkOp t o with flag := none, dst := some (o.d.toNat, n), size := 4 * n, global := true, reads := true, held := true, info := va }

end Sys2Proof.Claims

/-- R89, R269, R283, R284, R286, R287: GET, PUT and RATOM to another core send their request to it; GET and PUT to the issuer's own core are performed at once.
R90, R285: PUTS sends its payload and then its signal; both go to the target, the signal last. -/
def Obligations.RemoteAccessesSendTheirRequest : Prop :=
  (
    ∀ (o : Long) (s : State) (k : Nat) (t : Thread),
      (LoneFree .get o s k t false (ordRel o) → targetOf t o ≠ t.core → MaySend s t (targetOf t o) 1 →
        let addr := (src32 t o .b + src32 t o .c).toNat
        RemoteFits s t o (o.mode.getLsbD 0) addr (datum o) →
        ∃ s', exec (.get o) s = .next s' ∧
          Requested s s' k t o.bytes (targetOf t o) 0x14 (fun key => .get addr (datum o) (o.mode.getLsbD 0) k key) ∧ s'.mem = s.mem) ∧
      (LoneFree .put o s k t false (ordRel o) → targetOf t o ≠ t.core → MaySend s t (targetOf t o) (flitsOf (putBytes o)) → PutSource s t o →
        RemoteFits s t o (o.mode.getLsbD 0) (src32 t o .b).toNat 16 →
        ∃ s', exec (.put o) s = .next s' ∧
          Requested s s' k t o.bytes (targetOf t o) 0x15 (fun key =>
            .put 0x15 (src32 t o .b).toNat (o.mode.getLsbD 0) (putData s t o) (countsIn s t) k key)) ∧
      (LoneFree .ratom o s k t false (ordRel o) → targetOf t o ≠ t.core → MaySend s t (targetOf t o) 1 →
        RemoteFits s t o false (src32 t o .b).toNat (datum o) →
        ∃ s', exec (.ratom o) s = .next s' ∧
          Requested s s' k t o.bytes (targetOf t o) 0x18 (fun key => .ratom (src32 t o .b).toNat (atomAccess t o) k key t.atomIx)) ∧
      (LoneFree .get o s k t false (ordRel o) → targetOf t o = t.core →
        let addr := (src32 t o .b + src32 t o .c).toNat
        RemoteFits s t o (o.mode.getLsbD 0) addr (datum o) →
        ∀ loc, remoteLoc s t.core t.team t.sr.priv (o.mode.getLsbD 0) false addr (datum o) = some loc → hitsError s loc (datum o) false = false →
        ∃ s', exec (.get o) s = .next s' ∧
          Opened s k t o.bytes (loadOp t o (o.mode.getLsbD 1) 0#64) (.ready (readLoc s loc (datum o))) s' ∧ s'.mem = s.mem) ∧
      (LoneFree .put o s k t false false → targetOf t o = t.core → PutSource s t o → RemoteFits s t o (o.mode.getLsbD 0) (src32 t o .b).toNat 16 →
        ordRel o = false →
        ∀ loc, remoteLoc s t.core t.team t.sr.priv (o.mode.getLsbD 0) true (src32 t o .b).toNat (putBytes o) = some loc →
        (loc < 2 ^ 61 → (loc - 2 ^ 60) % 2 ^ 32 + putBytes o ≤ 0x1FE000) →
        ∃ s', exec (.put o) s = .next s' ∧ Opened s k t o.bytes (mkOp t o) (.ready []) s' ∧ s'.read loc (putBytes o) = putData s t o ∧
          SameMemoryOutside s s' loc (putBytes o))) ∧
  (
    ∀ (o : Long) (s : State) (k : Nat) (t : Thread), LoneFree .puts o s k t false (ordRel o) → targetOf t o ≠ t.core →
      MaySend s t (targetOf t o) (flitsOf (putBytes o) + 1) → PutSource s t o → RemoteFits s t o (o.mode.getLsbD 0) (src32 t o .b).toNat 16 →
      signalDue t = none → (t.reg o.e.toNat).toNat % 4 = 0 → (∀ p ∈ NMap.vals t.ops, p.token ≠ 3) →
      ∃ s', exec (.puts o) s = .next s' ∧
        Requested s s' k t o.bytes (targetOf t o) 0x16 (fun key =>
          .put 0x16 (src32 t o .b).toNat (o.mode.getLsbD 0) (putData s t o) (countsIn s t) k key) ∧
        InFlight s' (fun pk => pk.typ = 0x17 ∧ pk.src = t.core ∧ pk.dst = targetOf t o ∧ ∃ key,
          pk.body = .signal (t.reg o.e.toNat).toNat (o.mode.getLsbD 1) (t.reg (o.e.toNat + 1)) (countsIn s t) (lastFlit (putBytes o)) k key))

/-- R288, R385: BARA arrives at its barrier, returns the phase it found and completes the phase as the last arrival; a count of 0, or another than the phase's,
traps with 0x0D; BARW goes on once the phase has moved past its operand, and waits until then. -/
def Obligations.BarriersCountArrivalsAndHoldWaiters : Prop :=
  ∀ o : Long,
    Alone (.bara o) .bara o o.bytes (fun _ _ t => Clear t false true) (fun s k t =>
      let place := barrierAt s t.team o
      let b := (s.team place.1).bars.getD place.2 default
      let n := (src32 t o .a).toNat
      if n = 0 ∨ (b.arrived ≠ 0 ∧ n ≠ b.count) then
        .trap s (trapAt 0x0D (BitVec.ofNat 64 (n % 65536 + b.count % 65536 * 2 ^ 16 + o.m4.toNat * 2 ^ 32)) t.pc)
      else
        let s1 := (s.updTeam place.1 (fun m => { m with bars := m.bars.set place.2 (arrived b n) })).updThread k (fun u => u.setRegs o.d.toNat [b.phase])
        .go (if b.arrived + 1 = (if b.arrived = 0 then n else b.count) then wakeBarrier s1 else s1)) ∧
    Alone (.barw o) .barw o o.bytes (fun _ _ t => Clear t false false) (fun s _ t =>
      let place := barrierAt s t.team o
      let ahead := (((s.team place.1).bars.getD place.2 default).phase - src32 t o .a).toNat
      if 1 ≤ ahead ∧ ahead < 2 ^ 31 then .go s else .wait s .barWait)

/-- R289, R290, R411: SSTEP of a bound thread sends its arrival to the descriptor's home and waits; unbound, or at another descriptor, which its address tells at issue, it traps with 0x29; SSTEP.BIND
binds the thread and reads STEP. -/
def Obligations.SuperstepsArriveAtTheirDescriptor : Prop :=
  ∀ o : Long,
    Alone (.sstep o) .sstep o o.bytes (fun _ _ t => Clear t true true) (fun s k t =>
      let va := src64 t o .a
      if va.toNat + 32 > 2 ^ 56 ∨ va.toNat % 32 ≠ 0 then memTrap s 0x24 0 va t
      else match t.sstep with
        | none => memTrap s 0x29 5 va t
        | some (d, _) => if va ≠ t.sstepVa then memTrap s 0x29 5 va t else onStep s k t 3 va (fun s1 pa =>
          if pa = d then
            .done (waitIn (startPieces (releaseAction s1 t.core o.scope.toNat) k
              { heldRead t o 1 va with acquire := some o.scope.toNat, token := 1 } [{ pa := pa, home := true, access := .arrive }]) k .barWait)
          else memTrap s1 0x29 5 va t)) ∧
    Alone (.sstepBind o) .sstepBind o o.bytes (fun _ _ t => Clear t true false) (fun s k t =>
      let va := src64 t o .a
      onStep s k t 0 va (fun s1 pa =>
        .done (waitIn (startPieces ((clearPolled s1 t.core pa).updThread k (fun u => { u with sstep := some (pa, 0), sstepVa := va })) k
          { heldRead t o 1 va with token := 1 } [{ pa := pa + 16, home := true, access := .load 4 }]) k (.parked false))))

/-- R93, R212, R291 to R293: ENGK queues its kick with its scope at a hart of the package, waits while 16 are queued and traps on a misaligned descriptor; ENGW starts
polling its mailbox and goes on, its completion flag raised and its destination owed until the mailbox has reached the target. -/
def Obligations.EngineKicksAreQueuedAndMailboxesPolled : Prop :=
  ∀ o : Long,
    Alone (.engk o) .engk o o.bytes (fun s k t => Ready s k t o o.bytes false true ∧ reachable s t.core (targetOf t o) = true) (fun s k t =>
      let ep := targetOf t o
      let desc := src64 t o .b
      if desc.toNat + 32 > 2 ^ 56 ∨ desc.toNat % 32 ≠ 0 then memTrap s 0x24 0 desc t
      else if epPackage ep ≠ Config.package then memTrap s 0x27 3 (BitVec.ofNat 64 (0x800 + ep * 2 ^ 32)) t
      else
        let s1 := releaseAction s t.core o.scope.toNat
        if kickable s ep = false then .go (addReady s k { mkOp t o with info := desc } [])
        else if 16 ≤ (s1.core ep).kicks.length then .wait s .waiting
        else .go (addReady (s1.updCore ep (fun c => { c with kicks := c.kicks ++ [((s.team t.team).asid, (s.team t.team).root, o.scope.toNat, desc &&& 0x00FFFFFFFFFFFFE0#64)] })) k
          { mkOp t o with info := desc } [])) ∧
    Alone (.engw o) .engw o o.bytes (freeFor true no o o.bytes) (fun s k t =>
      match placeGlobal s k t 0 false false (globalAddress t o) 8 8 with
      | .out r => r
      | .ok s1 [] => .go s1
      | .ok s1 ((pa, _, _) :: _) =>
        .go (startPieces (clearPolled s1 t.core pa) k
          { mkOp t o with
            dst := some (o.d.toNat, 2)
            size := 8
            global := true
            reads := true
            info := globalAddress t o
            token := 6
            extra := [(src64 t o .c).toNat, o.scope.toNat, 0] }
          [{ pa := pa, home := true, access := .load 8 }]))

/-! ## Tile and row instructions -/

namespace Sys2Proof.Claims

/-- Bit b of a number that is set when a Boolean holds. -/
def flagBit (v : Bool) (b : Nat) : Nat := if v then 2 ^ b else 0

/-- Bits hi to lo of register i of the group that E names (R296). -/
def groupBits (t : Thread) (o : Long) (i hi lo : Nat) : Nat := (t.reg (o.e.toNat + i)).toNat / 2 ^ lo % 2 ^ (hi + 1 - lo)

/-- The register pair at i of the group. -/
def groupWide (t : Thread) (o : Long) (i : Nat) : Nat := (t.reg (o.e.toNat + i + 1) ++ t.reg (o.e.toNat + i)).toNat

/-- The 64 bytes of the record that an instruction builds (R128, R296, R297). -/
def builtRecord (op : LongOp) (o : Long) (t : Thread) : List Byte :=
  let m := o.m4.toNat
  let mma := op == .tmma || op == .tmmas
  let rows := op == .tsta || op == .tlda
  let kind := ([LongOp.tmma, .tmmas, .titer, .tpoly, .tfeed, .ttrn, .tsta, .tlda, .tzero].idxOf op)
  let mode := match op with
    | .tmma | .tfeed => m % 2
    | .tmmas => m % 2 + 2 * (m / 4)
    | .ttrn => 0
    | .tsta | .tlda => o.ty.toNat
    | _ => m
  let scr := (mma || rows) && o.m4.getLsbD 1
  let atype := if mma || op == .tfeed || op == .tpoly then o.ty.toNat else 0
  let btype := if mma || op == .tfeed || op == .ttrn then o.p5.toNat % 16 else 0
  let ct := groupBits t o 0 16 16 = 1
  let asc := mma && decide (groupBits t o 0 24 24 = 1)
  let bsc := mma && decide (groupBits t o 0 25 25 = 1)
  let a := src32 t o .a
  let addr := if mma || rows then (if o.m4.getLsbD 1 then a.toNat else (src64 t o .a).toNat)
    else if op == .titer then a.toNat
    else if op == .tfeed then o.a.toNat + groupBits t o 1 15 0 * 2 ^ 16 else 0
  let stride := if mma || rows then (t.reg (o.e.toNat + 1)).toNat else if op == .titer then (src32 t o .b).toNat % 256 else 0
  let k := if mma then (src32 t o .c).toNat else if op == .tfeed then 32 else 0
  let boff := if mma || op == .tfeed then (src32 t o .b).toNat else if op == .titer || op == .ttrn then (src32 t o .c).toNat else 0
  let acb := if mma then groupBits t o 0 20 18 else 0
  let bcb := if mma || op == .tfeed then groupBits t o 0 23 21 else 0
  leBytes 2 (kind + 2 ^ 4 * mode) ++ leBytes 2 (o.d.toNat + 2 ^ 4 * atype + 2 ^ 8 * btype) ++ leBytes 2 (groupBits t o 0 15 0) ++
    leBytes 2 (flagBit scr 2 + groupBits t o 0 17 17 * 2 + groupBits t o 0 16 16) ++ leBytes 8 addr ++ leBytes 4 stride ++ leBytes 4 k ++ leBytes 4 boff ++
    leBytes 4 (flagBit bsc 9 + flagBit asc 8 + 2 ^ 4 * bcb + acb) ++ leBytes 8 (if asc then groupWide t o 4 else 0) ++
    leBytes 8 (if op == .tmmas then groupWide t o 6 else 0) ++ leBytes 8 (if ct then groupWide t o 2 else 0) ++
    leBytes 8 (if t.prio.isSome then t.sr.deriv.toNat else 0)

/-- The task-building instructions (R295). -/
def builders : List LongOp := [.tmma, .tmmas, .titer, .tpoly, .tfeed, .ttrn, .tsta, .tlda, .tzero]

/-- Tile i of a team: its W16, false when the team has no such tile. -/
def wideTile (s : State) (m : Team) (i : Nat) : Bool := decide (i < m.tiles.length) && (teamTile s m i).w16

/-- The trap of a tile that an instruction may not name (R378, R379). -/
def badTile (s : State) (m : Team) (i : Nat) (t : Thread) : Out :=
  .trap s (trapAt 0x40 (BitVec.ofNat 64 (i % 8 + flagBit (wideTile s m i) 3)) t.pc)

/-- The team's tile resources are resident at lender lk. -/
def Lends (s : State) (t : Thread) (lk : Nat) : Prop := lendingTeam s t.team = some lk

/-- A task as it is accepted (R131, R184, R298): the record with the codebooks and coefficients of that moment, and the atomic index that its completion
target's write takes (R133). -/
def taskOf (s : State) (lk space : Nat) (r : List Byte) (prio : Nat) (priv : Bool) (source : DWord) (index : Nat) (hint : Nat := 0) : Task :=
  { team := lk, entry := none, space := space, record := r, prio := prio, order := s.fresh
    bookA := (s.team lk).books.getD (trAcb r) 0#256, bookB := (s.team lk).books.getD (trBcb r) 0#256, coef := (s.team lk).coef
    priv := priv, source := source, started := false, step := 0, second := false, staging := [], work := [], done := false, due := none, index := index, hint := hint
    excs := 0#4, fault := none }

/-- The state with a task accepted at lender lk. -/
def withTask (s : State) (lk : Nat) (x : Task) : State :=
  { s with fresh := s.fresh + 1 }.updCore (s.team lk).core (fun c => { c with tasks := c.tasks.put s.fresh x })

/-- The thread's core has 64 tasks that are not complete, those included whose TENQ has issued and not ended: that a TENQ holds its place from its issue on is
the model's choice (log 138). -/
def tasksFull (s : State) (t : Thread) : Bool :=
  decide (64 ≤ ((s.core t.core).tasks.filter (fun p => p.2.due.isNone)).length +
    ((NMap.vals s.threads).map (fun u => if u.core = t.core then ((NMap.vals u.ops).filter (fun p => p.token == 7)).length else 0)).sum)

/-- The state in which a thread's record has been accepted: one with a completion target takes the next of the thread's atomic indices. -/
def withRecord (s : State) (k : Nat) (t : Thread) (lk : Nat) (r : List Byte) (source : DWord) (hint : Nat) : State :=
  let s1 := if field r 6 2 % 2 = 1 then s.updThread k (fun u => { u with atomIx := u.atomIx + 1 }) else s
  withTask s1 lk (taskOf s1 lk t.team r (t.prio.getD (s.team t.team).prio) t.sr.priv source t.atomIx hint)

/-- What a task-building instruction does (R295 to R298, R379): a control word whose bits 31:26 are not zero traps with 0x04, a tile that the team lacks or of the wrong W16 traps with 0x40, a record outside its
limits with 0x41; a full queue holds the thread; else the record is accepted, and the operation is performed. -/
def buildDid (op : LongOp) (o : Long) (lk : Nat) : State → Nat → Thread → Out := fun s k t =>
  let m := s.team lk
  let d := o.d.toNat
  let n := m.tiles.length
  let r := builtRecord op o t
  if groupBits t o 0 31 26 ≠ 0 then .trap s (trapAt 0x04 ((word0 op o).setWidth 64) t.pc)
  else if n ≤ d then badTile s m d t
  else if op = .tfeed ∧ n ≤ (o.a.toNat + groupBits t o 1 15 0 * 2 ^ 16) % 8 then badTile s m ((o.a.toNat + groupBits t o 1 15 0 * 2 ^ 16) % 8) t
  else if (op = .tsta ∨ op = .tlda) ∧ (o.ty = 0#4 ∨ o.ty = 8#4) ∧ (teamTile s m d).w16 = true then badTile s m d t
  else if recordOk m.columnSize r = false then .trap s (trapAt 0x41 ((word0 op o).setWidth 64) t.pc)
  else if tasksFull s t then .wait s .waiting
  else .go (addReady (withRecord s k t lk r ((word0 op o).setWidth 64) o.hint.toNat) k (mkOp t o) [])

/-- No write of the column store and no read of a record of the thread is outstanding (R298, R305). -/
def noBuilds (t : Thread) : Prop := ∀ p ∈ NMap.vals t.ops, p.token ≠ 7 ∧ p.token ≠ 9

/-- A read of bytes at an aligned place in memory that ends in more than a register, once nothing holds it back (R300, R304, R305). -/
def readDid (o : Long) (token : Nat) (extra : List Nat) (addr align : Nat) (ranges : List (Nat × Nat)) : State → Nat → Thread → Out := fun s k t =>
  let p := { mkOp t o with token := token, extra := extra, reads := true, info := BitVec.ofNat 64 addr }
  if addr % align ≠ 0 then memTrap s 0x24 0 (BitVec.ofNat 64 addr) t
  else if o.m4.getLsbD 1 then
    match ranges.find? (fun r => (scratchOffset s t.core (s.team t.team) t.sr.priv false r.1 r.2).isNone) with
    | some r => memTrap s 0x26 3 (BitVec.ofNat 64 r.1) t
    | none =>
      let at_ := ranges.map (fun r => ((scratchOffset s t.core (s.team t.team) t.sr.priv false r.1 r.2).getD 0, r.2))
      match at_.find? (fun x => hitsError s (scratchLoc t.core x.1) x.2 false) with
      | some x => .go (loseTreelet (opRefused (addOp s k p).1 k s.fresh 0x2A p.info) t.core x.1 (threadRay s t))
      | none => .go (opReady (addOp s k p).1 k s.fresh (at_.flatMap (fun x => readScratch s t.core x.1 x.2)))
  else if ranges.any (fun r => decide (2 ^ 56 < r.1 + r.2)) then memTrap s 0x24 0 (BitVec.ofNat 64 addr) t
  else match placePieces s k t 0 false false (ranges.flatMap (fun r => cutLines r.1 r.2)) with
    | .out r => r
    | .ok s1 l => .go (startPieces s1 k { p with global := true } (loadPieces o.hint.toNat l))

/-- The address operand of a tile instruction: narrow in scratch, else wide (R295). -/
def tileAddr (t : Thread) (o : Long) : Nat := if o.m4.getLsbD 1 then (src32 t o .a).toNat else (src64 t o .a).toNat

/-- A version counter has reached a version (R301). -/
def reached (x : Tile) (v : Nat) : Bool := decide (((x.version : Int) - v) % 2 ^ 16 < 2 ^ 15)

/-- Rows r.1 of tiles of the team, each of the width r.2 where one is asked, which no task holds on the array (R309, R132). -/
def RowsFit (s : State) (t : Thread) (rows : List (BitVec 9 × Option Bool)) : Prop :=
  ∀ r ∈ rows, r.1.toNat / 32 < (s.team t.team).tiles.length ∧ (∀ w, r.2 = some w → (teamTile s (s.team t.team) (r.1.toNat / 32)).w16 = w) ∧
    tileHeld s (s.team t.team) t.team (r.1.toNat / 32) = false

/-- The 16-bit types of rows. -/
def half (ty : BitVec 4) : Bool := ty = 9#4 ∨ ty = 10#4

/-- The words of a row (R138). -/
def rowWordsOf (s : State) (t : Thread) (v : BitVec 9) : List Word :=
  ((teamTile s (s.team t.team) (v.toNat / 32)).elems.drop (v.toNat % 32 * 32)).take 32

/-- Element e of a row of a type. -/
def element (ty : BitVec 4) (ws : List Word) (e : Nat) : Nat :=
  if half ty then (ws.getD (e / 2) 0#32).toNat / 2 ^ (16 * (e % 2)) % 2 ^ 16 else (ws.getD e 0#32).toNat

/-- The elements of a row of a type, in order. -/
def elements (ty : BitVec 4) (ws : List Word) : List Nat := (List.range (if half ty then 2 * ws.length else ws.length)).map (element ty ws)

/-- The words of a row from a list of its elements. -/
def wordsFrom (ty : BitVec 4) (l : List Nat) : List Word :=
  (List.range (if half ty then l.length / 2 else l.length)).map (fun i =>
    BitVec.ofNat 32 (if half ty then l.getD (2 * i) 0 + l.getD (2 * i + 1) 0 * 2 ^ 16 else l.getD i 0))

/-- A row written whole. -/
def withRow (s : State) (t : Thread) (v : BitVec 9) (ws : List Word) : State :=
  let m := s.team t.team
  s.updCore m.core (fun c => { c with tiles := c.tiles.modify (m.tiles.getD (v.toNat / 32) 8) (fun y =>
    { y with elems := setWords y.elems (32 * (v.toNat % 32)) ws }) })

/-- One element of a row instruction, from the elements a, b and c at its index: code, flags and generator (R309). -/
def elementDid (op : LongOp) (o : Long) (t : Thread) (gen : Word) (a b c : Nat) : Nat × Nat × Word :=
  let sg := intSigned o.ty
  let n := fun v : Nat => num sg (BitVec.ofNat 32 v)
  let x := fun v : Nat => decodeF (fmt o) t.ftz v
  let int := decide (o.ty.toNat ≤ 1)
  match op with
  | .vadd => if int then ((stored 32 sg o.sat (n a + n b)).toNat, 0, gen)
      else finishF (fmt o) (modeOf o t) gen (signalFlag (fmt o) [a, b]) (addX o.rm.toNat (x a) (x b))
  | .vmul => if int then ((stored 32 sg o.sat (n a * n b)).toNat, 0, gen)
      else finishF (fmt o) (modeOf o t) gen (signalFlag (fmt o) [a, b]) (mulX (x a) (x b))
  | .vfma => finishF (fmt o) (modeOf o t) gen (signalFlag (fmt o) [a, b, c])
      ((addX o.rm.toNat (mulX (x a) (x b)).1 (x c)).1, (mulX (x a) (x b)).2 ||| (addX o.rm.toNat (mulX (x a) (x b)).1 (x c)).2)
  | .vmax => if int then (if n a ≤ n b then b else a, 0, gen)
      else ((fminmaxOp (fmt o) t.ftz true (o.m4.getLsbD 0) a b).1, (fminmaxOp (fmt o) t.ftz true (o.m4.getLsbD 0) a b).2, gen)
  | .vmin => if int then (if n a ≤ n b then a else b, 0, gen)
      else ((fminmaxOp (fmt o) t.ftz false (o.m4.getLsbD 0) a b).1, (fminmaxOp (fmt o) t.ftz false (o.m4.getLsbD 0) a b).2, gen)
  | _ =>
    if o.ty = 8#4 then ((fex2Op ⟨0, o.sat, t.ftz⟩ (BitVec.ofNat 32 a)).1, (fex2Op ⟨0, o.sat, t.ftz⟩ (BitVec.ofNat 32 a)).2, gen)
    else
      let w := cvtOp o.ty.toNat 8 ⟨0, false, t.ftz⟩ gen a
      let r := fex2Op ⟨0, false, t.ftz⟩ (BitVec.ofNat 32 w.1)
      let z := cvtOp 8 o.ty.toNat (modeOf o t) gen r.1
      (z.1, w.2.1 ||| r.2 ||| z.2.1, z.2.2)

/-- The elements 0 to n − 1 in turn, with the flags so far and the generator after them (R189, R310). -/
def elementsDid (f : Word → Nat → Nat × Nat × Word) (gen : Word) : Nat → List Nat × Nat × Word
  | 0 => ([], 0, gen)
  | n + 1 =>
    let before := elementsDid f gen n
    let r := f before.2.2 n
    (before.1 ++ [r.1], before.2.1 ||| r.2.1, r.2.2)

/-- Flags and generator committed. -/
def withFlags (s : State) (k : Nat) (flags : Nat) (gen : Word) : State := s.updThread k (fun u => { u.raiseFlags flags with gen := gen })

/-- The rows that an elementwise instruction names after d. -/
def rowSources (op : LongOp) (o : Long) : List (BitVec 9) :=
  match op with
  | .vexp => [o.a]
  | .vfma => [o.a, o.b, o.c]
  | _ => [o.a, o.b]

/-- A row instruction on each element (R309, R310). -/
def rowDid (op : LongOp) (o : Long) : State → Nat → Thread → Out := fun s k t =>
  let e := fun v i => element o.ty (rowWordsOf s t v) i
  let r := elementsDid (fun gen i => elementDid op o t gen (e o.a i) (e o.b i) (e o.c i)) t.gen (if half o.ty then 64 else 32)
  .go (withFlags (withRow s t o.d (wordsFrom o.ty r.1)) k r.2.1 r.2.2)

/-- Each named row has the type's width. -/
def typed (o : Long) (vs : List (BitVec 9)) : List (BitVec 9 × Option Bool) := vs.map (fun v => (v, some (half o.ty)))

/-- VRED folds the elements in increasing order, 16-bit ones widened first (R311). -/
def foldRow (o : Long) (t : Thread) (l : List Nat) : Nat × Nat × Word :=
  let widen := fun c => if half o.ty then ((cvtOp o.ty.toNat 8 ⟨0, false, t.ftz⟩ t.gen c).1, (cvtOp o.ty.toNat 8 ⟨0, false, t.ftz⟩ t.gen c).2.1) else (c, 0)
  let one := fun (acc : Nat × Nat × Word) (c : Nat) =>
    let n := fun v : Nat => num (intSigned o.ty) (BitVec.ofNat 32 v)
    let r : Nat × Nat × Word := match o.m4.toNat, decide (o.ty.toNat ≤ 1) with
      | 0, true => ((stored 32 (intSigned o.ty) o.sat (n acc.1 + n c)).toNat, 0, acc.2.2)
      | 0, false => faddOp f32 (modeOf o t) acc.2.2 false acc.1 c
      | 1, true => (if n acc.1 ≤ n c then c else acc.1, 0, acc.2.2)
      | _, true => (if n acc.1 ≤ n c then acc.1 else c, 0, acc.2.2)
      | m, false => ((fminmaxOp f32 t.ftz (m == 1) false acc.1 c).1, (fminmaxOp f32 t.ftz (m == 1) false acc.1 c).2, acc.2.2)
    (r.1, acc.2.1 ||| r.2.1, r.2.2)
  match l.map widen with
  | [] => (0, 0, t.gen)
  | x :: xs => (xs.map (·.1)).foldl one (x.1, (x :: xs).foldl (fun f p => f ||| p.2) 0, t.gen)

/-- VCVT: 32 or 64 elements, from half h of a 16-bit source and into half h of a 16-bit destination (R313). -/
def convertRow (o : Long) : State → Nat → Thread → Out := fun s k t =>
  let src : BitVec 4 := o.p5.setWidth 4
  let h := o.p5.toNat / 16
  let from_ := fun i => element src (rowWordsOf s t o.a) i
  let one := fun (gen : Word) (c : Nat) =>
    if src = 0#4 ∧ o.ty = 0#4 then (c, 0, gen)
    else if src = 0#4 then roundTo (fmt o) (modeOf o t) gen (ofInt (BitVec.ofNat 32 c).toInt)
    else if o.ty = 0#4 then
      let r := roundInt 32 true (modeOf o t) gen (decodeF f32 t.ftz c)
      ((BitVec.ofInt 32 r.1).toNat, r.2.1 ||| signalFlag f32 [c], r.2.2)
    else cvtOp src.toNat o.ty.toNat (modeOf o t) gen c
  let both : Bool := half src && half o.ty
  let r := elementsDid (fun gen i => one gen (from_ (if half src && !half o.ty then 32 * h + i else i))) t.gen (if both then 64 else 32)
  let old := elements o.ty (rowWordsOf s t o.d)
  let out := if half o.ty && !half src then old.take (32 * h) ++ r.1 ++ old.drop (32 * h + 32) else r.1
  .go (withFlags (withRow s t o.d (wordsFrom o.ty out)) k r.2.1 r.2.2)

/-- The value of a narrow operand as one element. -/
def scalar (o : Long) (t : Thread) : Nat := (src32 t o .a).toNat % 2 ^ (if half o.ty then 16 else 32)

end Sys2Proof.Claims

/-- R128, R295 to R298, R379: each task-building instruction builds the record of its operands, checks it and has it accepted.
R131, R184, R298: an accepted task stands in its core's queue with its record, the codebooks and coefficients of that moment. -/
def Obligations.TaskBuildersEnqueueTheirRecord : Prop :=
  (
    ∀ op ∈ builders, ∀ (o : Long) (lk : Nat), Alone (op.instr o) op o o.bytes
      (fun s _ t => Lends s t lk ∧ Free t o false true ∧ noBuilds t) (buildDid op o lk)) ∧
  (
    ∀ (s : State) (lk space : Nat) (r : List Byte) (prio : Nat) (priv : Bool) (source : DWord) (index hint : Nat),
      acceptTask s lk space r prio priv source index none hint = withTask s lk (taskOf s lk space r prio priv source index hint))

/-- R300, R304, R305: TENQ, TCB and TBLD read their record, codebook entries or rows as one operation whose end accepts or writes them; a TBLD outside its limits
traps with 0x41.
R136, R301 to R303, R393: TWAIT waits for a version, then takes its tile's report; TVER reads the state word; TCOEF and TCOEF.GET write and read a coefficient
register. -/
def Obligations.TileReadsIssueTheirOperation : Prop :=
  (
    ∀ (o : Long) (lk : Nat),
      Alone (.tenq o) .tenq o o.bytes (fun s _ t => Lends s t lk ∧ Free t o (!o.m4.getLsbD 1) true ∧ noBuilds t) (fun s k t =>
        if tasksFull s t then .wait s .waiting else readDid o 7 [lk, 0] (tileAddr t o) 64 [(tileAddr t o, 64)] s k t) ∧
      Alone (.tcb o) .tcb o o.bytes (fun s _ t => Lends s t lk ∧ Free t o (!o.m4.getLsbD 1) false) (fun s k t =>
        readDid o 8 [lk, o.d.toNat] (tileAddr t o) 32 [(tileAddr t o, 32)] s k t) ∧
      Alone (.tbld o) .tbld o o.bytes (fun s k t => Lends s t lk ∧ Free t o (!o.m4.getLsbD 1) false ∧ noBuilds t ∧ wavePending s k t = false) (fun s k t =>
        let w := typeBits o.ty
        let stride := (src32 t o .b).toNat
        let rows := (t.reg o.e.toNat).toNat
        let boff := (src32 t o .c).toNat
        if stride % 16 ≠ 0 ∨ stride < 4 * w ∨ rows = 0 ∨ 65536 < rows ∨ (w = 4 ∧ rows % 2 = 1) ∨ (s.team lk).columnSize < boff + rows * w / 8 then
          .trap s (trapAt 0x41 ((word0 .tbld o).setWidth 64) t.pc)
        else readDid o 9 [lk, w, boff, rows] (tileAddr t o) 1 ((List.range rows).map (fun i => (tileAddr t o + i * stride, 4 * w))) s k t)) ∧
  (
    ∀ (o : Long) (lk : Nat),
      Alone (.twait o) .twait o o.bytes (fun s _ t => Lends s t lk) (fun s k t =>
        let m := s.team lk
        let i := o.d.toNat
        if m.tiles.length ≤ i then badTile s m i t
        else if reached (teamTile s m i) (src32 t o .a).toNat then
          match m.reports.getD i none with
          | none => .go s
          | some (code, info, cls) =>
            .trap (s.updTeam lk (fun x => { x with reports := x.reports.set i none })) { trapLate code info 0 with cls := cls }
        else if (s.team t.team).preq then .done (yieldAt s k) else .wait s .waiting) ∧
      Alone (.tver o) .tver o o.bytes (fun s _ t => Lends s t lk) (fun s k t =>
        let m := s.team lk
        let y := teamTile s m o.a.toNat
        if m.tiles.length ≤ o.a.toNat then badTile s m o.a.toNat t
        else .go (s.updThread k (fun u => u.setRegs o.d.toNat
          [BitVec.ofNat 32 (y.version % 2 ^ 16 + y.iter % 2 ^ 8 * 2 ^ 16 + y.phase % 2 ^ 4 * 2 ^ 24 + y.status % 2 ^ 3 * 2 ^ 28 + flagBit y.w16 31), y.resid]))) ∧
      Alone (.tcoef o) .tcoef o o.bytes (fun s _ t => Lends s t lk) (fun s _ t =>
        .go (s.updTeam lk (fun m => { m with coef := m.coef.set o.d.toNat (src32 t o .a) }))) ∧
      Alone (.tcoefGet o) .tcoefGet o o.bytes (fun s _ t => Lends s t lk) (fun s k _ =>
        .go (s.updThread k (fun u => u.setRegs o.d.toNat [(s.team lk).coef.getD o.a.toNat 0#32]))))

/-- R27, R306, R307, R350: a TWMMA of a lane that is not enrolled takes its register runs to the array; its result is an operation of the lane; a region of the column
store outside the window traps with 0x41. -/
def Obligations.TwmmaTakesItsRunsToTheArray : Prop :=
  ∀ (o : Long) (s : State) (k lk : Nat) (t : Thread), LoneWide .twmma o s k t → guardHolds t o = true → flagFull t (flagOf t o.fs) = false →
    noBuilds t → t.polls = false → t.awaits (fun p => p.acquire.isSome) = false → t.fence = none → Lends s t lk →
    ((s.group t.group).mask o.c.toNat).enrolled.getLsbD t.lane = false →
    let boff := (src32 (t.begun o.bytes) o .b).toNat
    let n := match typeBits o.ty with
      | 16 => 16
      | 8 => 8
      | _ => 4
    ((s.team lk).columnSize < boff + 4 * typeBits (o.p5.setWidth 4) →
      exec (.twmma o) s = .next (restop (takeTrap (s.began k t o.bytes) k (trapAt 0x41 ((word0 .twmma o).setWidth 64) t.pc)))) ∧
    (boff + 4 * typeBits (o.p5.setWidth 4) ≤ (s.team lk).columnSize →
      ∃ s' u q, exec (.twmma o) s = .next s' ∧ s'.thread k = some u ∧ u.pc = t.pc + BitVec.ofNat 64 o.bytes ∧ u.regs = t.regs ∧
        u.ops.find s.fresh = some q ∧ q.status = .sent ∧ q.dst = some (o.d.toNat, if o.m4.toNat % 4 = 0 then 32 else 16) ∧
        (s'.core t.core).waves = (s.core t.core).waves ++
          [{ team := lk, boff := boff, lanes := [(t.lane, k, s.fresh)], o := o, rows := [srcRun (t.begun o.bytes) o .a n],
             accs := if o.m4.getLsbD 2 then [regRun (t.begun o.bytes) o.d.toNat 32] else [], book := (s.team lk).books.getD o.e.toNat 0#256 }])

/-- R309 to R313: row instructions compute every element of their row in increasing order and commit the flags and the generator; VRED folds a row into a register;
VBCAST, VMOV and VCVT write, copy and convert.
R378, R379: a row of a tile that the team lacks traps with 0x40. -/
def Obligations.RowInstructionsComputeEveryElement : Prop :=
  (
    ∀ o : Long,
      (∀ op ∈ [LongOp.vadd, .vmul, .vfma, .vmax, .vmin, .vexp], Alone (op.instr o) op o o.bytes
        (fun s _ t => RowsFit s t (typed o (o.d :: rowSources op o))) (rowDid op o)) ∧
      Alone (.vred o) .vred o o.bytes (fun s _ t => RowsFit s t (typed o [o.a])) (fun s k t =>
        let r := foldRow o t ((List.range (if half o.ty then 64 else 32)).map (element o.ty (rowWordsOf s t o.a)))
        .go (s.updThread k (fun u => { (u.setRegs o.d.toNat [BitVec.ofNat 32 r.1]).raiseFlags r.2.1 with gen := r.2.2 }))) ∧
      Alone (.vbcast o) .vbcast o o.bytes (fun s _ t => RowsFit s t (typed o [o.d])) (fun s _ t =>
        .go (withRow s t o.d (wordsFrom o.ty (List.replicate (if half o.ty then 64 else 32) (scalar o t))))) ∧
      Alone (.vmovRow o) .vmovRow o o.bytes (fun s _ t => RowsFit s t [(o.d, none), (o.a, none)]) (fun s _ t => .go (withRow s t o.d (rowWordsOf s t o.a))) ∧
      Alone (.vmovGet o) .vmovGet o o.bytes (fun s _ t => RowsFit s t (typed o [o.a])) (fun s k t =>
        .go (s.updThread k (fun u => u.setRegs o.d.toNat
          [BitVec.ofNat 32 (element o.ty (rowWordsOf s t o.a) ((src32 t o .b).toNat % (if half o.ty then 64 else 32)))]))) ∧
      Alone (.vmovPut o) .vmovPut o o.bytes (fun s _ t => RowsFit s t (typed o [o.d])) (fun s _ t =>
        .go (withRow s t o.d (wordsFrom o.ty ((elements o.ty (rowWordsOf s t o.d)).set ((src32 t o .b).toNat % (if half o.ty then 64 else 32)) (scalar o t))))) ∧
      Alone (.vcvt o) .vcvt o o.bytes (fun s _ t => RowsFit s t [(o.d, some (half o.ty)), (o.a, some (half (o.p5.setWidth 4)))]) (convertRow o)) ∧
  (
    ∀ op ∈ [LongOp.vadd, .vmul, .vfma, .vmax, .vmin, .vexp, .vbcast, .vmovRow, .vmovPut, .vcvt], ∀ o : Long,
      Alone (op.instr o) op o o.bytes (fun s _ t => (s.team t.team).tiles.length ≤ o.d.toNat / 32)
        (fun s _ t => .trap s (trapAt 0x40 (BitVec.ofNat 64 (o.d.toNat / 32 % 8)) t.pc)))

/-! ## Ray, record, fabric and system instructions -/

namespace Sys2Proof.Claims

/-- The derived id of an enqueue (R322, R441): a record thread keeps its DERIV's origin; a launched one counts its core's enqueues. -/
def derivedId (s : State) (t : Thread) : DWord :=
  if t.prio.isSome then
    BitVec.ofNat 64 (t.sr.deriv.toNat / 2 ^ 44 * 2 ^ 44 + (t.sr.deriv.toNat % 2 ^ 44 * 257 + t.sr.sendix.toNat + 1) % 2 ^ 44)
  else BitVec.ofNat 64 (t.core % 2 ^ 20 * 2 ^ 44 + ((s.core t.core).sendCount + 1) % 2 ^ 44)

/-- The payload of n bytes at operand b (R316): a register run, or aligned scratch without an error. -/
def payloadAt (s : State) (t : Thread) (o : Long) (n : Nat) : Option (List Byte) :=
  let a := (src32 t o .b).toNat
  if o.m4.getLsbD 0 = false then some ((wordsToBytes (srcRun t o .b (n / 4))).take n)
  else if a % 16 ≠ 0 then none
  else (scratchOffset s t.core (s.team t.team) t.sr.priv false a n).bind (fun off =>
    if hitsError s (scratchLoc t.core off) n false then none else some (readScratch s t.core off n))

/-- The core's release has nothing to send to another package, and nothing of its die is on its way there (R66). -/
def NothingFar (s : State) (ep : Nat) : Prop :=
  (s.die (epDie ep)).farWrites = [] ∧ ∀ l x, (s.core ep).lines.find l = some x → x.state = .m → isFar l = false

/-- An enqueue of f flits may leave for an endpoint now: its die serves, no queue has been adopted, its release need not wait, and a metered send has its allowance
(R156, R157, R435). -/
def MayEnqueue (s : State) (t : Thread) (dst f : Nat) (metered : Bool := true) : Prop :=
  s.pkg.adopted = [] ∧ beingLost s dst = false ∧ reachable s t.core dst = true ∧ NothingFar s t.core ∧
    (metered = false ∨ meteredEp dst = false ∨ ((s.core t.core).senders = [] ∧ ∃ a, (s.core t.core).allow.find dst = some a ∧ f ≤ a.flits))

/-- An enqueue has left (R322): its packet carries the derived id and, from a record thread, the parent's; the thread has taken one send index and waits for nothing. -/
def Enqueued (s s' : State) (k : Nat) (t : Thread) (len dst cls typ : Nat) (body : Nat → Body) : Prop :=
  ∃ u key q, s'.thread k = some u ∧ u.ops.find key = some q ∧ q.status = .sent ∧ u.pc = t.pc + BitVec.ofNat 64 len ∧ u.regs = t.regs ∧
    u.sr.sendix = t.sr.sendix + 1#32 ∧
    InFlight s' (fun pk => pk.cls = cls ∧ pk.typ = typ ∧ pk.src = t.core ∧ pk.dst = dst ∧ pk.deriv = derivedId s t ∧
      pk.parent = (if t.prio.isSome then some t.sr.deriv else none) ∧ pk.body = body key)

/-- The endpoint operand of an enqueue (R315). -/
def destination (t : Thread) (o : Long) : Nat := (src32 t o .a).toNat % 2 ^ 20

/-- A record as the part fills it (R12, R321): the derived id in DERIV, ATTEMPT 0, HELD as asked, its unassigned bits zero. -/
def filled (r : List Byte) (did : DWord) (held : Bool) : List Byte :=
  r.take 7 ++ [r.getD 7 0#8 &&& 0x0F#8] ++ (r.drop 8).take 8 ++ leBytes 8 did.toNat ++ (r.drop 24).take 2 ++
    [0#8, (r.getD 27 0#8 &&& 0x0B#8) ||| (if held then 4#8 else 0#8)] ++ r.drop 28

/-- The priority an entry of this thread carries. -/
def prioOf (s : State) (t : Thread) : Nat := t.prio.getD (s.team t.team).prio

/-- The record that RQUE leaves (R326): it resumes at the next instruction, with the thread's frame, key and priority. -/
def queuedSelf (o : Long) (t : Thread) (len prio : Nat) (deriv : DWord) : List Byte :=
  leBytes 8 ((t.pc + BitVec.ofNat 64 len).toNat % 2 ^ 56 + prio * 2 ^ 56) ++ leBytes 8 t.frame.toNat ++ leBytes 8 deriv.toNat ++ leBytes 2 0 ++
    leBytes 1 (t.sr.attempt.toNat % 256) ++ leBytes 1 8 ++ leBytes 4 (t.core % 2 ^ 20 + (src32 t o .a).toNat % 4096 * 2 ^ 20)

/-- The bytes at operand b of a unit instruction can be read: aligned, in scratch, without an error; off is where they lie. -/
def UnitReads (s : State) (t : Thread) (o : Long) (n align off : Nat) : Prop :=
  (src32 t o .b).toNat % align = 0 ∧ scratchOffset s t.core (s.team t.team) t.sr.priv false (src32 t o .b).toNat n = some off ∧
    hitsError s (scratchLoc t.core off) n false = false

/-- The operation of a unit instruction: eight registers from d. -/
def eightRegs (t : Thread) (o : Long) : Op :=
  { mkOp t o with dst := some (o.d.toNat, 8), size := 32, info := BitVec.ofNat 64 (src32 t o .b).toNat }

/-- The nearest of some owners, the lowest endpoint on ties: nobody in the list is nearer, or as near and lower. -/
def Nearest (s : State) (ep x : Nat) (l : List Nat) : Prop :=
  x ∈ l ∧ ∀ y ∈ l, hops s ep x < hops s ep y ∨ (hops s ep x = hops s ep y ∧ x ≤ y)

/-- The blocks of a BADDQ lie in scratch, aligned, of these types and without errors: where a, b and c lie (R334). -/
def BlocksFit (s : State) (t : Thread) (o : Long) (pa pb pc : Nat) : Prop :=
  let st := (o.sub.extractLsb' 8 4).toNat
  let dt := o.sub.toNat % 16
  let m := s.team t.team
  let bytes := fun p => readScratch s t.core p (blockSize st)
  blockType st = true ∧ blockType dt = true ∧ (∀ w ∈ [Src.a, .c], (src32 t o w).toNat % 16 = 0) ∧
    scratchOffset s t.core m t.sr.priv false (src32 t o .a).toNat (blockSize st) = some pa ∧
    scratchOffset s t.core m t.sr.priv true (src32 t o .c).toNat (blockSize dt) = some pc ∧
    hitsError s (scratchLoc t.core pa) (blockSize st) false = false ∧ field (bytes pa) 1 1 = st ∧
    (o.m4.toNat % 4 = 0 → (src32 t o .b).toNat % 16 = 0 ∧
      scratchOffset s t.core m t.sr.priv false (src32 t o .b).toNat (blockSize st) = some pb ∧
      hitsError s (scratchLoc t.core pb) (blockSize st) false = false ∧ field (bytes pb) 1 1 = st) ∧
    (o.m4.toNat % 4 = 1 → field (bytes pa) 2 2 ≠ 0)

/-- A number as a register pair. -/
def pair (v : Nat) : List Word := [BitVec.ofNat 32 v, BitVec.ofNat 32 (v / 2 ^ 32)]

/-- A CWAIT's poll of its mailbox begins (R293, R336): the copy in the L1 is dropped and 8 bytes are read at their home, the thread Parked; its flag is raised and
it keeps the target value and the scope. -/
def pollDid (o : Long) (va : DWord) : State → Nat → Thread → Out := fun s k t =>
  match placeGlobal s k t 0 false false va 8 8 with
  | .out r => r
  | .ok s1 [] => .go s1
  | .ok s1 ((pa, _, _) :: _) =>
    .done (waitIn (startPieces (clearPolled s1 t.core pa) k
      { mkOp t o with
        dst := some (o.d.toNat, 2)
        size := 8
        global := true
        reads := true
        held := true
        info := va
        token := 6
        extra := [(src64 t o .c).toNat, o.scope.toNat, 1] } [{ pa := pa, home := true, access := .load 8 }]) k (.parked false))

/-- BOXT and TRIT on a gateway core, which lacks their units (R5): eight registers of free values are the model's choice (log 146). -/
def freeUnit (s : State) (k : Nat) (t : Thread) (o : Long) : Out :=
  .go (addReady { s with free := s.free + 32 } k (eightRegs t o) ((List.range 32).map (fun i => Config.freeByte 9 (s.free + i))))

/-- SENDIX and the atomic index with which RTE goes on at EPC (R377): those at the start of the region that the trap left, or of the thread's own region, where
EPC is that region's header; else they stay. -/
def indicesAt (t : Thread) : Word × Nat :=
  match t.atTrap.filter (fun x => decide (x.1 = t.sr.epc ∧ x.1 ≠ 0#64)) with
  | some x => x.2
  | none => if t.sr.epc = t.sr.region ∧ t.sr.region ≠ 0#64 then (t.sendixAt, t.atomIxAt) else (t.sr.sendix, t.atomIx)

/-- An ESCHED that acts at once (R343). -/
def schedDid (o : Long) (f : Thread → Package → Package) : State → Nat → Thread → Out := fun s k t =>
  .go (addReady (s.updPkg (f t)) k (mkOp t o) [])

/-- No table load of the thread is outstanding. -/
def noLoads (t : Thread) : Prop := ∀ p ∈ NMap.vals t.ops, p.token ≠ 11

end Sys2Proof.Claims

/-- R104, R105, R107, R317 to R320, R418: BOXT and TRIT read their node or triangle from scratch and their results are an operation that writes eight registers; a
malformed node is refused with 0x50, before the ray is looked at (log 67).  TLOOK answers from the route cache, RESID and RESID.REQ ask the treelet's slice. -/
def Obligations.RayUnitsTestAndLookUp : Prop :=
  ∀ (o : Long) (off : Nat),
    Alone (.boxt o) .boxt o o.bytes (fun s _ t => Free t o false false ∧ UnitReads s t o 128 128 off) (fun s k t =>
      let node := readScratch s t.core off 128
      let r := rayRun t o
      let s1 := perfCount s t.core 7 1
      if onGateway t.core = true then freeUnit s1 k t o
      else if badNode node [] then .go (opRefused (addOp s1 k (eightRegs t o)).1 k s.fresh 0x50 (eightRegs t o).info)
      else if r.degenerate then .go (addReady s1 k (eightRegs t o) (wordsToBytes (List.replicate 7 0#32 ++ [0x7F800000#32])))
      else
        let l := boxList node r (src32 t o .c).toNat (fun i => (Config.freeValue 2 (s.free + i)).getLsbD 0)
        let s2 := { s1 with free := s.free + 6 }
        if badNode node l then .go (opRefused (addOp s2 k (eightRegs t o)).1 k s.fresh 0x50 (eightRegs t o).info)
        else .go (addReady s2 k (eightRegs t o) (wordsToBytes (boxResult node l)))) ∧
    Alone (.trit o) .trit o o.bytes (fun s _ t => Free t o false false ∧ UnitReads s t o 48 16 off) (fun s k t =>
      let tri := readScratch s t.core off 48
      let r := rayRun t o
      let c := srcRun t o .c 4
      let out : List Word := match (if r.degenerate then none else triHit r tri ((c.getD 0 0#32).toNat % 65536) (c.getD 1 0#32) (c.getD 2 0#32).toNat) with
        | some (kind, d, u, v) => [BitVec.ofNat 32 kind, BitVec.ofNat 32 d, BitVec.ofNat 32 u, BitVec.ofNat 32 v, BitVec.ofNat 32 (field tri 36 4), 0#32, 0#32, 0#32]
        | none => List.replicate 8 0#32
      let s1 := perfCount s t.core 8 1
      if onGateway t.core = true then freeUnit s1 k t o else .go (addReady s1 k (eightRegs t o) (wordsToBytes out))) ∧
    (∀ s k t, Lone .tlook o s k t → flagFull t (flagOf t o.fs) = false → (s.team t.team).halted = false →
      let id := (src32 t o .a).toNat
      let p := { mkOp t o with dst := some (o.d.toNat, 1), size := 4 }
      (∀ r, (s.core t.core).routes.find? (fun r => r.treelet == id) = some r → r.owners ≠ [] →
        ∃ x s', Nearest s t.core x r.owners ∧ exec (.tlook o) s = .next s' ∧ Opened s k t o.bytes p (.ready (leBytes 4 (x % 2 ^ 20 + 2 ^ 31))) s') ∧
      ((s.core t.core).routes.find? (fun r => r.treelet == id) = none →
        ∃ s', exec (.tlook o) s = .next s' ∧ Opened s k t o.bytes p (.ready (leBytes 4 (homeSlice id % 2 ^ 20))) s')) ∧
    (∀ (request : Bool) s k t, Lone (if request then .residReq else .resid) o s k t → flagFull t (flagOf t o.fs) = false → (s.team t.team).halted = false →
      let id := (src32 t o .a).toNat
      (s.die (epDie (servingSlice s id))).present = true →
      ∃ s' u q, exec (if request then .residReq o else .resid o) s = .next s' ∧ s'.thread k = some u ∧ u.ops.find s.fresh = some q ∧ q.status = .sent ∧
        q.dst = some (o.d.toNat, 1) ∧ u.pc = t.pc + BitVec.ofNat 64 o.bytes ∧
        InFlight s' (fun pk => pk.typ = 0x0D ∧ pk.src = t.core ∧ pk.dst = servingSlice s id ∧ pk.body = .residency id request (some (freeUnits (s.core t.core))) k s.fresh))

/-- R103, R315, R316, R321, R322, R324, R332, R441: RAYSEND, HITQ, SEND, RECQ, RECQ.HELD, RECJ and CRED send their entry with its derived id to its destination. -/
def Obligations.EnqueuesSendTheirEntry : Prop :=
  ∀ (o : Long) (s : State) (k : Nat) (t : Thread) (bs : List Byte), (s.team t.team).halted = false → Free t o false true →
    let dst := destination t o
    (Lone .raysend o s k t → payloadAt s t o 64 = some bs → dieGone s t.core dst = false → MayEnqueue s t dst 2 →
      ∃ s', exec (.raysend o) s = .next s' ∧ Enqueued s s' k t o.bytes dst 3 0x30 (fun key =>
        .ray ((bs.set 44 (bs.getD 44 0#8 &&& 0x0F#8)).set 45 0#8) (prioOf s t) k key)) ∧
    (∀ hit : Bool, Lone (if hit then .hitq else .send) o s k t → payloadAt s t o 64 = some bs → MayEnqueue s t dst 2 →
      ∃ s', exec (if hit then .hitq o else .send o) s = .next s' ∧ Enqueued s s' k t o.bytes dst 4 (if hit then 0x40 else 0x41) (fun key =>
        .hit (if hit then 0x40 else 0x41) bs (prioOf s t) k key)) ∧
    (∀ held : Bool, Lone (if held then .recqHeld else .recq) o s k t → payloadAt s t o 32 = some bs → recKind bs % 2 = 0 → recQueue bs = 0 →
      recHome bs ≠ t.core → MayEnqueue s t (recHome bs) 1 →
      ∃ s', exec (if held then .recqHeld o else .recq o) s = .next s' ∧ Enqueued s s' k t o.bytes (recHome bs) 4 0x42 (fun key =>
        .hit 0x42 (filled bs (derivedId s t) held) (recPrio bs) k key)) ∧
    (Lone .recj o s k t → let h := (src64 t o .a).toNat; let dec := (src32 t o .b).toNat
      (dec = 0 ∨ 65535 < dec → exec (.recj o) s = .next (settled .recj o t o.bytes k (.trap (s.began k t o.bytes) (trapAt 0x04 ((word0 .recj o).setWidth 64) t.pc)))) ∧
      (1 ≤ dec → dec ≤ 65535 → h / 2 ^ 44 ≠ t.core → MayEnqueue s t (h / 2 ^ 44) 1 false →
        ∃ s', exec (.recj o) s = .next s' ∧ Enqueued s s' k t o.bytes (h / 2 ^ 44) 4 0x42 (fun key => .join (h % 2 ^ 32) dec k key))) ∧
    (Lone .cred o s k t → t.sr.carm.getLsbD 31 = true → viewTrap s t t.pc = none → (src32 t o .b).toNat % 16 = 0 →
      ∀ off, scratchOffset s t.core (s.team t.team) t.sr.priv false (src32 t o .b).toNat 64 = some off → hitsError s (scratchLoc t.core off) 64 false = false →
      let c := (src32 t o .c).toNat % 2 ^ 20
      MayEnqueue s t c 2 false →
      ∃ s', exec (.cred o) s = .next s' ∧ Enqueued s s' k t o.bytes c 4 0x43 (fun key => .block (readScratch s t.core off 64) k key) ∧
        InFlight s' (fun pk => pk.typ = 0x43 ∧ pk.src = t.core ∧ pk.addr =
          BitVec.ofNat 64 (t.sr.carm.toNat / 2 ^ 24 % 2 ^ 4 * 2 ^ 60 + t.sr.carm.toNat % 2 ^ 24 * 2 ^ 36 + (src32 t o .a).toNat / 2 ^ 16 * 2 ^ 20 +
            (src32 t o .a).toNat % 2 ^ 12 * 2 ^ 8 + t.sr.carm.toNat / 2 ^ 32 % 2 ^ 8)))

/-- R34, R35, R321, R324 to R329, R157: a record for the issuing core is accepted by its own queue at once, or held under its ticket; RQUE ends the thread and leaves its
continuation; RECV takes the next message; ABIND, ABIND.UN and BALW set and test allowance slots. -/
def Obligations.RecordsMessagesAndSlotsAreServedAtTheCore : Prop :=
  ∀ (o : Long) (s : State) (k : Nat) (t : Thread), (s.team t.team).halted = false →
    let q := (s.core t.core).recs
    (∀ (held : Bool) (bs : List Byte), Lone (if held then .recqHeld else .recq) o s k t → Free t o false true → payloadAt s t o 32 = some bs →
      recKind bs % 2 = 0 → recQueue bs = 0 → recHome bs = t.core → t.prio = none → q.bound = true → spilling s t.core 3 = false →
      q.entries.length < 2 ^ q.ringLog →
      ∃ s' u key p, exec (if held then .recqHeld o else .recq o) s = .next s' ∧ s'.thread k = some u ∧ s.fresh ≤ key ∧ u.ops.find key = some p ∧
        (s'.core t.core).recs.ticket = (q.ticket + 1) % 2 ^ 32 ∧
        (if held then p.status = .ready (leBytes 8 (t.core % 2 ^ 20 * 2 ^ 44 + (q.ticket + 1) % 2 ^ 32)) ∧
            ∃ h, (s'.core t.core).recs.held.find ((q.ticket + 1) % 2 ^ 32) = some h ∧ h.bytes = filled bs (derivedId s t) true
          else p.status = .ready [] ∧ ∃ e, (s'.core t.core).recs.entries.find q.next = some e ∧ e.bytes = filled bs (derivedId s t) false ∧
            e.prio = recPrio bs ∧ e.deriv = derivedId s t)) ∧
    (Lone .rque o s k t → Clear t false true → owesRegister t = false → q.bound = true → q.entries.length < 2 ^ q.ringLog → t.entry = none → t.treelet = none →
      ∃ s' e, exec (.rque o) s = .next s' ∧ (s'.core t.core).recs.entries.find q.next = some e ∧
        e.bytes = queuedSelf o t o.bytes (if o.m4.getLsbD 2 then o.m4.toNat % 4 else prioOf s t) (if t.prio.isSome then t.sr.deriv else derivedId s t) ∧
        e.key = some ((src32 t o .a).toNat % 4096) ∧ ∀ u, s'.thread k = some u → u.state = .exited) ∧
    (Lone .recv o s k t → Clear t false false →
      (∀ j e, nextEntry (s.core t.core).msgs = some (j, e) → staleBlock s t.core e = false →
        ∃ s' u, exec (.recv o) s = .next s' ∧ s'.thread k = some u ∧ u.pc = t.pc + BitVec.ofNat 64 o.bytes ∧
          u.regs = (((t.setRegs o.d.toNat (bytesToWords 16 e.bytes)).setRegs o.e.toNat
            (if e.typ = 0x43 then pair e.addr.toNat else pair (e.src % 2 ^ 20))).setPred o.c.toNat true).regs ∧
          u.preds = (t.setPred o.c.toNat true).preds ∧ (s'.core t.core).msgs.entries.find j = none) ∧
      (nextEntry (s.core t.core).msgs = none → o.m4.getLsbD 0 = true →
        ∃ s' u, exec (.recv o) s = .next s' ∧ s'.thread k = some u ∧ u.pc = t.pc + BitVec.ofNat 64 o.bytes ∧ u.regs = t.regs ∧
          u.preds = (t.setPred o.c.toNat false).preds) ∧
      (nextEntry (s.core t.core).msgs = none → o.m4.getLsbD 0 = false → (s.team t.team).preq = false →
        ∃ s' u, exec (.recv o) s = .next s' ∧ s'.thread k = some u ∧ u.pc = t.pc ∧ u.state = .waiting ∧ u.regs = t.regs)) ∧
    Alone (.abind o) .abind o o.bytes (fun s _ t => meteredEp (destination t o) = false ∨ ((s.core t.core).allow.find (destination t o)).isSome = true)
      (fun s k t => .go (s.updThread k (fun u => { u with sr := { u.sr with slots := u.sr.slots.set o.d.toNat (some (destination t o)) } }))) ∧
    Computes (.abindUn o) .abindUn o o.bytes (fun _ t => { t with sr := { t.sr with slots := t.sr.slots.set o.d.toNat none } }) ∧
    Alone (.balw o) .balw o o.bytes always (fun s k t =>
      let c := s.core t.core
      .go (s.updThread k (fun u => u.setPred o.d.toNat (match t.sr.slots.getD o.a.toNat none with
        | none => false
        | some dst => !meteredEp dst || decide (o.m4.toNat % 8 ≤ (match c.allow.find dst with
          | some a => a.flits
          | none => c.allowcfg.toNat / 2 ^ 16 % 2 ^ 10))))))

/-- R160, R161, R330 to R336, R448, R457: CINIT arms the thread with its die's view, VIEW and VIEW.SET read it; BADDQ combines two blocks of scratch; BLKQ is assigned the
lowest block index left; CWAIT polls its mailbox, and CRED and CWAIT of a thread that is not armed trap with 0x04. -/
def Obligations.CollectiveInstructionsArmReadCombineAndWait : Prop :=
  ∀ o : Long,
    Alone (.cinit o) .cinit o o.bytes always (fun s k t =>
      let dom := (src32 t o .a).toNat % 16
      let view := viewAt s (epDie t.core) dom % 2 ^ 24
      let member := match domainOf s dom with
        | some d => (d.members.idxOf? (epPackage t.core, epDie t.core)).getD 0xFF
        | none => 0xFF
      .go (s.updThread k (fun u =>
        { u.setRegs o.d.toNat [BitVec.ofNat 32 (member * 2 ^ 24 + view)] with
          sr := { u.sr with carm := BitVec.ofNat 64 (member * 2 ^ 32 + 2 ^ 31 + dom * 2 ^ 24 + view), viewDomain := some dom } }))) ∧
    Alone (.view o) .view o o.bytes always (fun s k t =>
      let dom := (src32 t o .a).toNat % 16
      .go (s.updThread k (fun u => u.setRegs o.d.toNat [BitVec.ofNat 32 (viewAt s (epDie t.core) dom % 2 ^ 24), BitVec.ofNat 32 (liveMembers s dom)]))) ∧
    Alone (.viewSet o) .viewSet o o.bytes always (fun s k t =>
      let v : Nat := match domainOf s ((src32 t o .a).toNat % 16) with
        | some d => ((List.range 32).map (fun i => if d.set.getD (32 * ((src32 t o .b).toNat % 8) + i) false then 2 ^ i else 0)).sum
        | none => 0
      .go (s.updThread k (fun u => u.setRegs o.d.toNat [BitVec.ofNat 32 v]))) ∧
    (∀ pa pb pc, Alone (.baddq o) .baddq o o.bytes (fun s _ t => Clear t false false ∧ BlocksFit s t o pa pb pc) (fun s k t =>
      let st := (o.sub.extractLsb' 8 4).toNat
      let block := fun p => readScratch s t.core p (blockSize st)
      let b := if o.m4.toNat % 4 = 0 then pb else (scratchOffset s t.core (s.team t.team) t.sr.priv false (src32 t o .b).toNat (blockSize st)).getD 0
      let r := combineBlock (o.m4.toNat % 4) (o.sub.toNat % 16) st (o.sub.extractLsb' 4 3).toNat t.gen (block pa) (block b)
      .go ((writeLoc s (scratchLoc t.core pc) r.1).updThread k (fun u => { u.raiseFlags r.2.1 with gen := r.2.2 })))) ∧
    Alone (.blkq o) .blkq o o.bytes (fun s _ t => Free t o false false ∧ (epDie t.core = 22 ∨ epDie t.core = 23) ∧
        ∃ d, domainOf s ((src32 t o .a).toNat % 16) = some d ∧ servesDomain s t.core d = true ∧ (s.core t.core).msgs.bound = true) (fun s k t =>
      let gw := epDie t.core
      let dom := (src32 t o .a).toNat % 16
      let seq := (src32 t o .a).toNat / 2 ^ 16
      let d := (domainOf s dom).getD default
      let mine := d.blocks.filter (fun b => b.gateway == gw && b.seq == seq)
      let left := mine.filter (fun b => !d.assigned.any (fun x => x.1 == gw && x.2.1 == seq && x.2.2.1 == b.index))
      let answer := fun (s : State) v => Out.go (addReady s k { mkOp t o with dst := some (o.d.toNat, 1), size := 4 } (leBytes 4 v))
      match left with
      | [] => answer s 0
      | b :: bs =>
        let i := bs.foldl (fun m x => min m x.index) b.index
        let s1 := updDomain s dom (fun d => { d with
          assigned := d.assigned ++ [(gw, seq, i, t.core)]
          blocks := d.blocks.filter (fun b => !(b.gateway == gw && b.seq == seq && b.index == i)) })
        answer ((mine.filter (fun b => b.index == i)).foldl (fun s b => forwardBlock s gw t.core b) s1) (2 ^ 31 + i)) ∧
    Alone (.cwait o) .cwait o o.bytes (fun s _ t => t.sr.carm.getLsbD 31 = true ∧ viewTrap s t t.pc = none ∧ Free t o true false)
      (fun s k t => pollDid o (src64 t o .a) s k t) ∧
    Alone (.cred o) .cred o o.bytes (fun _ _ t => t.sr.carm.getLsbD 31 = false) (fun s _ t => .trap s (trapAt 0x04 ((word0 .cred o).setWidth 64) t.pc)) ∧
    Alone (.cwait o) .cwait o o.bytes (fun _ _ t => t.sr.carm.getLsbD 31 = false) (fun s _ t => .trap s (trapAt 0x04 ((word0 .cwait o).setWidth 64) t.pc))

/-- R45, R69, R337 to R346, R381: TRAP and BRK trap or stop, RTE returns, CSWAP swaps the contexts (on a gateway core, which has no
second one, it does nothing: the model's choice, log 152), TLBI removes translations, ESCHED sets the eviction schedule, CLK and
PERF read clocks and counters, MAPQ reads the image of a queue's binding. -/
def Obligations.SystemInstructionsActOnTheMachine : Prop :=
  ∀ o : Long,
    Alone (.trap o) .trap o o.bytes always (fun s _ t => .trap s (trapAt 0x01 (BitVec.ofNat 64 (o.sub.toNat % 256)) t.pc)) ∧
    Alone (.rte o) .rte o o.bytes always (fun s k t =>
      .jump (s.updThread k (fun u =>
        { u with
          sr := { u.sr with priv := u.sr.ppriv, intrap := false, sendix := (indicesAt u).1 }
          atomIx := (indicesAt u).2
          atTrap := none })) t.sr.epc) ∧
    Alone (.brk o) .brk o o.bytes always (fun s k t =>
      if (s.core t.core).attach = false then .trap s (trapAt 0x02 0#64 t.pc)
      else
        let s1 := s.updThread k (fun u => (u.advance (s.now t)).stop)
        .done (if (s.core t.core).xctl.getLsbD 8 then
          (s1.teamThreads t.team).foldl (fun s j => s.updThread j Thread.stop) (s1.updTeam t.team (fun m => { m with halted := true }))
          else s1)) ∧
    Alone (.cswap o) .cswap o o.bytes always (fun s _ t =>
      if onGateway t.core = true then .go s
      else if (s.core t.core).swapping then .go (s.updCore t.core (fun c => { c with swapAgain := c.swapAgain + 1 }))
      else .go (s.updCore t.core (fun c => { c with swapping := true, lastSwap := c.cycles }))) ∧
    Alone (.tlbi o) .tlbi o o.bytes (fun _ _ t => Free t o false true) (fun s k t =>
      let mask := (src32 t o .c).toNat % 2 ^ 24
      let dies := if mask = 0 then [epDie t.core] else (List.range 24).filter (fun d => mask.testBit d)
      let hits : Tlb → Bool := fun x => match o.m4.toNat with
        | 0 => x.hits ((src32 t o .b).toNat % 65536) (src64 t o .a).toNat
        | 1 => x.asid == (src32 t o .b).toNat % 65536 && !pteGlobal x.entry
        | _ => true
      let r := invalidate (releaseAction s t.core 7) dies hits
      .go (addOp r.1 k { mkOp t o with token := 10, extra := r.2 }).1) ∧
    Alone (.eschedLoad o) .eschedLoad o o.bytes (fun _ _ t => Free t o true false ∧ noLoads t) (fun s k t =>
      let a := (src64 t o .a).toNat
      let b := (src32 t o .b).toNat
      let c := (src32 t o .c).toNat
      if 1024 < b + c then .trap s (trapAt 0x04 ((word0 .eschedLoad o).setWidth 64) t.pc)
      else readDid o 11 [b] a 1 ((List.range c).map (fun i => (a + 16 * i, 16))) s k t) ∧
    Alone (.eschedStep o) .eschedStep o o.bytes (fun _ _ t => Free t o false false ∧ noLoads t)
      (schedDid o (fun t p => { p with step := (src32 t o .b).toNat % 65536 })) ∧
    Alone (.eschedAdv o) .eschedAdv o o.bytes (fun _ _ t => Free t o false false ∧ noLoads t) (schedDid o (fun _ p => { p with step := min (p.step + 1) 65535 })) ∧
    Alone (.eschedClr o) .eschedClr o o.bytes (fun _ _ t => Free t o false false ∧ noLoads t) (schedDid o (fun _ p => { p with schedule := [], step := 0 })) ∧
    Alone (.clkSync o) .clkSync o o.bytes (fun _ _ t => t.fence = none ∧ t.ops = []) (fun s k _ => .go (s.updThread k (fun u => u.setRegs o.d.toNat (pair s.time)))) ∧
    Alone (.clkCyc o) .clkCyc o o.bytes always (fun s k t => .go (s.updThread k (fun u => u.setRegs o.d.toNat (pair (s.core t.core).cycles)))) ∧
    Alone (.clkWait o) .clkWait o o.bytes always (fun s k t =>
      if (src64 t o .a).toNat ≤ s.time then .go s
      else if (s.team t.team).preq then .done (yieldAt s k)
      else .wait s .waiting) ∧
    Alone (.perf o) .perf o o.bytes always (fun s k t =>
      .go (s.updThread k (fun u => u.setRegs o.d.toNat (pair ((s.core t.core).perf.getD o.m4.toNat 0#64).toNat)))) ∧
    Alone (.mapq o) .mapq o o.bytes (fun _ _ t => Free t o true false) (fun s k t =>
      readDid o 12 [(word0 .mapq o).toNat] (src64 t o .a).toNat 64 [((src64 t o .a).toNat, 64)] s k t)

/-! ## Packets that arrive -/

namespace Sys2Proof.Claims

/-- The state without the packet that arrives. -/
def gone (s : State) : State := { s with packets := s.packets.drop s.obj }

/-- An earlier ordered packet of the same class, source and destination is still under way (R149). -/
def Behind (s : State) (p : Packet) : Prop :=
  p.ord = true ∧ ∃ q ∈ s.packets, q.1 < s.obj ∧ q.2.ord = true ∧ q.2.cls = p.cls ∧ q.2.src = p.src ∧ q.2.dst = p.dst

/-- The packet is at a present die of this package and overtakes nothing. -/
def AtHand (s : State) (p : Packet) : Prop :=
  s.packets.find s.obj = some p ∧ epPackage p.dst = Config.package ∧ (s.die (epDie p.dst)).present = true ∧ ¬ Behind s p

/-- The packet's incarnation is not the one that its receiver holds for its sender (R152). -/
def Stale (s : State) (p : Packet) : Prop :=
  p.far = false ∧ p.typ ≠ 0x09 ∧ ((s.die (epDie p.dst)).known.find (epPackage p.src * 32 + epDie p.src)).getD 0 ≠ p.inc

/-- A packet of a TYPE arrives and is accepted. -/
def Arrives (s : State) (typ : Nat) (p : Packet) : Prop := AtHand s p ∧ ¬ Stale s p ∧ p.typ = typ

/-- The packets' TYPEs and the rows that they are (R144, R145). -/
def arrivalTypes : List (Nat × Instr) :=
  [(0x01, .creditReturn), (0x02, .routeFill), (0x03, .routeUpdate), (0x09, .incarnationUpdate), (0x0B, .broadcast), (0x0D, .residencyQueryOrRequest),
   (0x0E, .residencyReply), (0x0F, .retireNotice), (0x15, .reqPutPayload), (0x16, .reqPutsPayload), (0x1A, .reqSpillWrite), (0x20, .rspData),
   (0x21, .rspAcknowledgment), (0x22, .rspRefusal), (0x40, .hitArrival), (0x41, .messageArrival), (0x43, .collectiveBlockArrival), (0x50, .pageFlit)]

/-- The requester that answers go to, and the reply on its way. -/
def Replied (s' : State) (p : Packet) (typ : Nat) (body : Body) : Prop :=
  InFlight s' (fun r => r.cls = 2 ∧ r.typ = typ ∧ r.src = p.dst ∧ r.dst = p.src ∧ r.seq = p.seq ∧ r.body = body)

/-- A reply can leave: its requester is in this package, or a port leads there. -/
def answers (s : State) (p : Packet) (typ : Nat) (body : Body) : State := (gone s).reply p typ body

/-- No thread is bound to a superstep, no copy of a line is held in the update-only state, and the bytes hold no error. -/
def Plain (s : State) (pa n : Nat) : Prop :=
  boundDescriptors s = [] ∧ hitsError s pa n false = false ∧
    ∀ e ∈ NMap.keys s.cores, ∀ x, s.line e (lineOf pa) = some x → ∀ o k m, x.state ≠ .u o k m

/-- No L1 holds the line of an address. -/
def Uncached (s : State) (pa : Nat) : Prop := ∀ e ∈ NMap.keys s.cores, s.line e (lineOf pa) = none

/-- No earlier request of the same thread to the same core is under way. -/
def InTurn (s : State) (p : Packet) (thread : Nat) : Prop := threadEarlier (gone s) p s.obj thread = false

/-- The payload's bytes leave the descriptor's count. -/
def uncounted (s : State) (ep : Nat) (pend : Option (Nat × Nat)) (n : Nat) : State :=
  match pend with
  | none => s
  | some (d, step) => if n = 0 then s else
    s.inject { mkPacket 1 0x12 ep (homeEndpoint d) 1 (.request 0x12 { pa := d, home := true, access := .pending false n step } 0 0 0) with
               addr := BitVec.ofNat 64 d }

/-- Of the bytes that an operation counts in its superstep so many are left to count off (R408). -/
def leftOver (s : State) (th op n : Nat) : State :=
  s.updThread th (fun t => { t with ops := t.ops.adjust op (fun q => { q with pend := if n = 0 then none else q.pend.map (fun x => (x.1, x.2.1, n)) }) })

/-- A home that an access has reached: the update-only copies of its line have been folded in (R72), and the line is in the L2 (R67). -/
def homeReached (s : State) (pa : Nat) : State := touchL2 (recallLine s (lineOf pa)) pa 0

/-- What an atomic leaves and returns: the bytes there become the combination (R277, R279), the old ones come back where it wants them. -/
def merged (op kind n : Nat) (c swap : DWord) (cur : List Byte) : List Byte := leBytes n (atomNew op kind n (leNat cur) c.toNat swap.toNat)

end Sys2Proof.Claims

/-- R149, R152, R433: a packet behind an earlier ordered one, or for a die that is not present, waits; one with a stale incarnation is dropped and counted as a
corrected error; an incarnation update is accepted whatever its number. -/
def Obligations.ArrivingPacketsAreChecked : Prop :=
  ∀ (s : State) (p : Packet) (typ : Nat) (i : Instr), (typ, i) ∈ arrivalTypes → s.packets.find s.obj = some p → p.typ = typ →
    (Behind s p → exec i s = .next s) ∧
    ((s.die (epDie p.dst)).present = false → exec i s = .next s) ∧
    (epPackage p.dst ≠ Config.package → exec i s = .next s) ∧
    (AtHand s p → Stale s p → exec i s = .next (((gone s).updDie (epDie p.dst) (fun d => { d with
      stale := d.stale.put (epPackage p.src * 32 + epDie p.src) ((d.stale.find (epPackage p.src * 32 + epDie p.src)).getD 0 + 1) })).corrected
      (faultUnit (epDie p.dst)) 8 0x65 (epDie p.src) 1))

/-- R61, R67, R71, R74, R91, R118, R278, R283 to R286, R408, R443, R450: a home performs a request once and answers it; a core performs GET, PUT, PUTS and RATOM in the
view of the issuer's team, or refuses with 0x27; superstep arrivals and byte counts change their descriptor. -/
def Obligations.HomesPerformRequests : Prop :=
  ∀ (s : State) (p : Packet) (pc : Piece) (th op ix n : Nat), let g := gone s
    (Arrives s 0x10 p → p.body = .request 0x10 pc th op ix → pc.access = .load n → Plain g pc.pa n → regionOf pc.pa ≠ .agent →
      exec .reqRead s = .next ((touchL2 g pc.pa pc.hint).reply p 0x20 (.data (g.read pc.pa n) th op))) ∧
    (Arrives s 0x10 p → p.body = .request 0x10 pc th op ix → pc.access = .load n → regionOf pc.pa = .agent → (windowAt pc.pa).isSome = true →
      exec .reqRead s = .next (answers s p 0x20 (.data (windowRead g p.dst (pc.pa % 0x10000) n) th op))) ∧
    (∀ bs, Arrives s 0x11 p → p.body = .request 0x11 pc th op ix → pc.access = .store bs → Plain g pc.pa bs.length → regionOf pc.pa ≠ .agent →
      exec .reqWrite s = .next ((homeWrite (touchL2 g pc.pa pc.hint) pc.pa bs).reply p 0x21 (.acknowledgment th op))) ∧
    (∀ bs s1, Arrives s 0x11 p → p.body = .request 0x11 pc th op ix → pc.access = .store bs → regionOf pc.pa = .agent → (windowAt pc.pa).isSome = true →
      windowWrite g p.dst (threadWriter g p th op) (pc.pa % 0x10000) bs = some s1 →
      exec .reqWrite s = .next (s1.reply p 0x21 (.acknowledgment th op))) ∧
    (∀ o kind c swap, Arrives s 0x12 p → p.body = .request 0x12 pc th op ix → pc.access = .atomic o kind n c swap → o < 10 → 0 < n → p.parent = none → Plain g pc.pa n →
      exec .reqAtomic s = .next ((homeWrite (touchL2 g pc.pa pc.hint) pc.pa (merged o kind n c swap (g.read pc.pa n))).reply p 0x20 (.data (g.read pc.pa n) th op))) ∧
    (∀ o kind c swap e, Arrives s 0x12 p → p.body = .request 0x12 pc th op ix → pc.access = .atomic o kind n c swap → p.parent = some e →
      ∀ old b rest, (g.die (homeDie pc.pa)).alog = { deriv := e, index := ix, place := b, old := old } :: rest → old ≠ [] →
      exec .reqAtomic s = .next (answers s p 0x20 (.data old th op))) ∧
    (∀ o kind c, Arrives s 0x13 p → p.body = .request 0x13 pc th op ix → pc.access = .reduce o kind n c → p.parent = none → Plain g pc.pa n →
      exec .reqReduction s = .next ((homeWrite (touchL2 g pc.pa pc.hint) pc.pa (merged o kind n c 0#64 (g.read pc.pa n))).reply p 0x21 (.acknowledgment th op))) ∧
    (∀ copy, Arrives s 0x19 p → p.body = .request 0x19 pc th op ix → pc.access = .take n copy → 0 < n → Uncached g pc.pa → isLocal pc.pa = false →
      hitsError g (pc.pa - pc.pa % 8) 8 false = false → g.full pc.pa = true → (g.die (homeDie pc.pa)).retry = [] →
      exec .reqFullEmptyAccess s = .next ((if copy then touchL2 g pc.pa 0 else (touchL2 g pc.pa 0).setFull pc.pa false).reply p 0x20 (.data (g.read pc.pa n) th op))) ∧
    (∀ copy, Arrives s 0x19 p → p.body = .request 0x19 pc th op ix → pc.access = .take n copy → Uncached g pc.pa → isLocal pc.pa = false →
      hitsError g (pc.pa - pc.pa % 8) 8 false = false → g.full pc.pa = false → (g.die (homeDie pc.pa)).retry = [] →
      exec .reqFullEmptyAccess s = .next ({ touchL2 g pc.pa 0 with fresh := g.fresh + 1 }.updDie (homeDie pc.pa) (fun d => { d with
        retry := [{ order := g.fresh, src := p.src, thread := th, op := op, loc := pc.pa, access := pc.access, since := g.time }] }))) ∧
    (∀ d (b : Byte), Arrives s 0x19 p → p.body = .request 0x19 pc th op ix → pc.access = .fill 0 (b :: d) → Uncached g pc.pa → isLocal pc.pa = false →
      hitsError g (pc.pa - pc.pa % 8) 8 false = false → g.full pc.pa = false → (g.die (homeDie pc.pa)).retry = [] →
      exec .reqFullEmptyAccess s = .next (((homeWrite (touchL2 g pc.pa 0) pc.pa (b :: d)).setFull pc.pa true).reply p 0x21 (.acknowledgment th op))) ∧
    (∀ addr column, Arrives s 0x14 p → p.body = .get addr n column th op → InTurn s p th → let s0 := sink g p.dst p.src p.flits
      (remoteLoc s0 p.dst p.team p.priv column false addr n = none →
        exec .reqGet s = .next (s0.reply p 0x22 (.refusal 0x27 (BitVec.ofNat 64 (addr % 2 ^ 32 + p.dst * 2 ^ 32)) th op))) ∧
      (∀ loc, remoteLoc s0 p.dst p.team p.priv column false addr n = some loc → hitsError g loc n false = false →
        exec .reqGet s = .next (s0.reply p 0x20 (.data (readLoc s0 loc n) th op)))) ∧
    (∀ addr column bs pend, Arrives s 0x15 p → p.body = .put 0x15 addr column bs pend th op → InTurn s p th →
      laneEarlier g p s.obj addr bs.length column = false → let s0 := sink g p.dst p.src p.flits
      (remoteLoc s0 p.dst p.team p.priv column true addr bs.length = none →
        exec .reqPutPayload s = .next (s0.reply p 0x22 (.refusal 0x27 (BitVec.ofNat 64 (addr % 2 ^ 32 + p.dst * 2 ^ 32)) th op))) ∧
      (∀ loc, remoteLoc s0 p.dst p.team p.priv column true addr bs.length = some loc →
        exec .reqPutPayload s = .next ((leftOver (uncounted (writeLoc s0 loc bs) p.dst pend bs.length) th op 0).reply p 0x21 (.acknowledgment th op)))) ∧
    (∀ addr column bs pend loc, Arrives s 0x16 p → p.body = .put 0x16 addr column bs pend th op → InTurn s p th → let s0 := sink g p.dst p.src p.flits
      remoteLoc s0 p.dst p.team p.priv column true addr bs.length = some loc →
        exec .reqPutsPayload s = .next (leftOver (uncounted (writeLoc s0 loc bs) p.dst pend (if bs.length ≤ 32 then 0 else (bs.length - 1) / 64 * 64)) th op
          (if bs.length ≤ 32 then bs.length else bs.length - (bs.length - 1) / 64 * 64))) ∧
    (∀ addr add v pend last loc, Arrives s 0x17 p → p.body = .signal addr add v pend last th op → InTurn s p th → let s0 := sink g p.dst p.src p.flits
      remoteLoc s0 p.dst p.team p.priv false true addr 4 = some loc →
        exec .reqPutsSignal s = .next ((leftOver (uncounted (writeLoc s0 loc (leBytes 4 (if add then (leNat (readLoc s0 loc 4) + v.toNat) % 2 ^ 32 else v.toNat)))
          p.dst pend last) th op 0).reply p 0x21 (.acknowledgment th op))) ∧
    (∀ addr o kind c swap loc, Arrives s 0x18 p → p.body = .ratom addr (.atomic o kind n c swap) th op ix → InTurn s p th → o < 10 → 0 < n → p.parent = none →
      let s0 := sink g p.dst p.src p.flits
      remoteLoc s0 p.dst p.team p.priv false true addr n = some loc → let off := loc - scratchLoc p.dst 0
      hitsError s0 (scratchLoc p.dst off) n false = false → let cur := readScratch s0 p.dst off n
        exec .reqRatom s = .next ((writeScratch s0 p.dst off (merged o kind n c swap cur)).reply p 0x20 (.data cur th op))) ∧
    (∀ pa bs q, Arrives s 0x1A p → p.body = .spill pa bs q → (∀ e ∈ NMap.keys g.cores, ∀ l x, g.line e l = some x → ∀ o k m, x.state ≠ .u o k m) →
      ∃ s1 : State, exec .reqSpillWrite s = .next (s1.reply p 0x21 (.acknowledgment 0 q)) ∧ s1.mem = (if field (g.read (pa + 96) 1) 0 1 < 2 then g.write pa bs else g).mem) ∧
    (∀ a w, Arrives s 0x1B p → p.body = .walkRead a w → Plain g a 8 → exec .reqTableWalkRead s = .next ((touchL2 g a 0).reply p 0x20 (.data (g.read a 8) w 0))) ∧
    (∀ add k, Arrives s 0x12 p → p.body = .request 0x12 pc th op ix → pc.access = .pending add n k →
      let h := homeReached g pc.pa; let b := h.read pc.pa 32
      (hitsError h pc.pa 32 false = true → exec .pendingUpdateAtHome s = .next (h.event p.dst (memoryClass h pc.pa) 0x2A 2 false pc.pa 1)) ∧
      (hitsError h pc.pa 32 false = false → field b 16 4 ≠ k % 2 ^ 32 → exec .pendingUpdateAtHome s = .next h) ∧
      (hitsError h pc.pa 32 false = false → field b 16 4 = k % 2 ^ 32 → add = true →
        exec .pendingUpdateAtHome s = .next (homeWrite h pc.pa (leBytes 7 ((field b 0 7 + n) % 2 ^ 56)))) ∧
      (hitsError h pc.pa 32 false = false → field b 16 4 = k % 2 ^ 32 → add = false →
        exec .pendingUpdateAtHome s = .next (testStep (homeWrite h pc.pa (leBytes 7 (((field b 0 7 : Int) - n) % 2 ^ 56).toNat)) pc.pa))) ∧
    (Arrives s 0x12 p → p.body = .request 0x12 pc th op ix → pc.access = .arrive → let h := homeReached g pc.pa; let b := h.read pc.pa 32
      (hitsError h pc.pa 32 false = true → exec .sstepArrivalAtHome s = .next (h.reply p 0x22 (.refusal 0x2A 0#64 th op))) ∧
      (hitsError h pc.pa 32 false = false → field b 8 4 = 0 → exec .sstepArrivalAtHome s = .next (h.reply p 0x22 (.refusal 0x29 0#64 th op))) ∧
      (hitsError h pc.pa 32 false = false → field b 8 4 ≠ 0 → exec .sstepArrivalAtHome s = .next (testStep ((h.write (pc.pa + 12) (leBytes 4 (field b 12 4 + 1))).updDie (homeDie pc.pa)
        (fun d => { d with waiters := d.waiters ++ [(pc.pa, p.src, th, op)] })) pc.pa)))

/-- R74, R110, R152, R156, R287, R320, R391, R401, R409, R442, R450: what replies and control packets do where they arrive: data reaches its operation, acknowledgments and refusals
end it, credits come back, ids are purged, walks go on, incarnations are noted. -/
def Obligations.RepliesReachTheirRequester : Prop :=
  ∀ (s : State) (p : Packet) (th op : Nat) (t : Thread) (q : Op), let g := gone s
    s.thread th = some t → t.ops.find op = some q → q.status = .sent → q.failed = none → q.release = none → q.acquire = none →
    q.asked = none → th ≠ farThread → epLocal p.dst ≠ 124 → epLocal p.dst ≠ 125 →
    (∀ bs pc, Arrives s 0x20 p → p.body = .data bs th op → q.pieces = [pc] →
      ∃ s' u x, exec .rspData s = .next s' ∧ s'.thread th = some u ∧ u.ops.find op = some x ∧ x.status = .ready (q.data ++ bs) ∧ x.remote = false ∧
        { u with ops := t.ops } = t ∧
        (q.remote = true → (s'.core t.core).rpend = (s.core t.core).rpend - 1 ∧
          ∀ m, s.teams.find t.team = some m → s'.teams.find t.team = some { m with remote := m.remote - 1 }) ∧
        (q.remote = false → s'.cores = s.cores ∧ s'.teams = s.teams)) ∧
    (Arrives s 0x21 p → p.body = .acknowledgment th op → q.pieces.length ≤ 1 →
      ∃ s' u x, exec .rspAcknowledgment s = .next s' ∧ s'.thread th = some u ∧ u.ops.find op = some x ∧ x.status = .ready q.data ∧ { u with ops := t.ops } = t) ∧
    (∀ code info, Arrives s 0x22 p → p.body = .refusal code info th op →
      (code = 0 → exec .rspRefusal s = .next (g.updThread th (fun u => { u with ops := u.ops.adjust op (fun x => { x with status := .again s.time }) }))) ∧
      (code ≠ 0 → q.pieces.length ≤ 1 → q.pend = none →
        ∃ s' u x, exec .rspRefusal s = .next s' ∧ s'.thread th = some u ∧ u.ops.find op = some x ∧
          x.status = .refused code (if info = 0#64 then q.info else info) ∧ { u with ops := t.ops } = t)) ∧
    (∀ id w, Arrives s 0x0E p → p.body = .residencyReply id w th op → q.pieces = [] →
      ∃ s' u x, exec .residencyReply s = .next s' ∧ s'.thread th = some u ∧ u.ops.find op = some x ∧ x.status = .ready (q.data ++ leBytes 4 w.toNat)) ∧
    (∀ n a, Arrives s 0x01 p → p.body = .creditReturn n → (s.core p.dst).allow.find p.src = some a →
      ∃ s', exec .creditReturn s = .next s' ∧ ((s'.core p.dst).allow.find p.src).map (·.flits) = some (min 1023 (a.flits + n)) ∧ { s' with cores := s.cores, packets := s.packets } = s) ∧
    (∀ core src n at_, (s.core core).sunk.find src = some (n, at_) →
      (s.time < at_ + 256 → exec (.creditReturnTimeout core src) s = .next s) ∧
      (at_ + 256 ≤ s.time → exec (.creditReturnTimeout core src) s = .next
        ((s.updCore core (fun c => { c with sunk := c.sunk.drop src })).inject (mkPacket 0 0x01 core src 1 (.creditReturn n))))) ∧
    (∀ free, Arrives s 0x0F p → p.body = .retireNotice free → epLocal p.dst < 80 →
      ∃ s', exec .retireNotice s = .next s' ∧ (∀ x ∈ (s'.core p.dst).alog, x.deriv ≠ p.deriv) ∧
        (∀ u ∈ [(s'.core p.dst).rays, (s'.core p.dst).hits, (s'.core p.dst).msgs, (s'.core p.dst).recs], ∀ x ∈ u.seen, x.2 ≠ p.deriv) ∧
        { s' with cores := s.cores, packets := s.packets } = s) ∧
    (∀ die inc, Arrives s 0x09 p → p.body = .incarnationUpdate die inc → epPackage p.src = Config.package →
      exec .incarnationUpdate s = .next (g.updDie (epDie p.dst) (fun d => { d with known := d.known.put (Config.package * 32 + die) inc }))) ∧
    (∀ die inc, Arrives s 0x09 p → p.body = .incarnationUpdate die inc → epPackage p.src ≠ Config.package → inc ≠ 0 →
      ∃ s', exec .incarnationUpdate s = .next s' ∧ (s'.die (epDie p.dst)).known.find (epPackage p.src * 32 + die) = some inc ∧
        epPackage p.src ∉ s'.pkg.unreachable)

/-- R22, R66, R78, R212, R275, R291 to R293, R345, R391, R401, R402, R404, R409 to R415: what ends a wait: an operation completes or is refused, a line comes in, a walk ends, a time-out passes, a
memory error is found, a hart takes its job. -/
def Obligations.OperationsMissesAndWaitsEnd : Prop :=
  ∀ (s : State) (k key : Nat) (t : Thread) (q : Op), s.thread k = some t → t.state ≠ .exited →
    let closed := s.updThread k (fun u => ({ u with ops := u.ops.drop key }).lower q.flag)
    (∀ data, t.ops.find key = some q → q.status = .ready data → q.token ∉ [4, 6, 7, 8, 9, 10, 11, 12] →
      ∃ s' u, exec (.operationComplete k key) s = .next s' ∧ { s' with threads := s.threads } = s ∧
        (∀ j, j ≠ k → (s'.thread j).map Thread.untimed = (s.thread j).map Thread.untimed) ∧ s'.thread k = some u ∧ u.ops = t.ops.drop key ∧
        u.flags = (match q.flag with | none => t.flags | some i => t.flags.set i (t.flags.getD i 0 - 1)) ∧
        u.regs = (match q.dst with
          | none => t.regs
          | some (r, n) => if q.ext = .predicate then t.regs else setWords t.regs r ((extendDatum q.ext q.size data).take n)) ∧
        u.preds = (match q.dst with
          | none => t.preds
          | some (r, _) => if q.ext = .predicate then (t.setPred r (leNat data != 0)).preds else t.preds) ∧
        (if q.held = true ∧ (t.state = .parked false ∨ t.state = .barWait) then u.pc = q.next ∧ u.state = (if t.stopping then .stopped else .runnable)
          else u.pc = t.pc ∧ (u.state = t.state ∨ (u.state = .runnable ∧ (t.state = .waiting ∨ t.state = .parked true)))) ∧
        ((t.state = .waiting ∨ t.state = .parked true) → t.clause.isSome = true → waitsFor t q = true →
          (∀ x ∈ NMap.vals (t.ops.drop key), waitsFor t x = false) → u.state = .runnable) ∧
        u.sr = t.sr ∧ u.buf = t.buf ∧ u.stack = t.stack) ∧
    (∀ code info, t.ops.find key = some q → q.status = .refused code info →
      exec (.operationComplete k key) s = .next (endWait (if q.held || waitsFor t q then
          takeTrap closed k { code := code, info0 := info, info1 := q.at_, late := false, seq := 0, low3 := none, cls := refusalClass q.cls code }
        else (if code = 0x50 then closed.event t.core 3 0x50 2 false info.toNat 0 else closed).updThread k (fun u =>
          { u with lateTrap := u.lateTrap ++ [(0x10, BitVec.ofNat 64 code, q.seq)] })) k q)) ∧
    (∀ code info seq rest, s.obj = k → t.lateTrap = (code, info, seq) :: rest → t.state = .runnable → t.yielded = false →
      exec .lateRefusalTrap s = .next (takeTrap (s.updThread k (fun u => { u with lateTrap := rest })) k
        { code := code, info0 := info, info1 := 0#64, late := true, seq := seq, low3 := none, cls := 0 })) ∧
    (∀ pa n, t.ops.find key = some q → q.pieces = [{ pa := pa, home := false, access := .load n }] → q.asked = none → isFar (lineOf pa) = false →
      q.failed = none → q.release = none → q.acquire = none →
      (s.threads.flatMap (fun p => if p.2.core = t.core then (p.2.ops.filter (fun x => x.2.line == some (lineOf pa))).map (fun x => (x.1, p.1)) else [])) = [(key, k)] →
      pa % 128 + n ≤ 128 → Uncached s pa → memoryOn s (lineOf pa) = true → hitsError s pa n false = false → (s.core t.core).lines.length < cacheLines t.core →
      ∃ s' u x, exec (.l1MissFill t.core (lineOf pa)) s = .next s' ∧ s'.thread k = some u ∧ u.ops.find key = some x ∧ x.status = .ready (q.data ++ s.read pa n) ∧
        { u with ops := t.ops } = t ∧ s'.mem = s.mem ∧
        s'.line t.core (lineOf pa) = some { state := .e, bytes := s.read (lineOf pa) 128, valid := [], fillTime := { s with fresh := s.fresh + 1 }.stamp, old := false }) ∧
    (∀ die w e, (s.die die).walks.find key = some w → w.thread = k → epDie w.core = die → w.status = .found e → t.state = .parked false →
      let x : Tlb := { asid := w.asid, va := w.va - w.va % 2 ^ levelShift w.level, size := 2 ^ levelShift w.level, pa := ptePa e, entry := e }
      ∃ s', exec (.tableWalkEnd die key) s = .next s' ∧ (s'.die die).walks = (s.die die).walks.drop key ∧ (s'.die die).tlb.head? = some x ∧
        (s'.core w.core).tlb.head? = some x ∧ s'.thread k = some { t with state := if t.stopping then .stopped else .runnable, stopping := false }) ∧
    (∀ die w, (s.die die).walks.find key = some w → w.thread = k → w.thread ≠ 0 → w.soft = false → w.status = .bad →
      exec (.tableWalkEnd die key) s = .next (takeTrap (s.updDie die (fun d => { d with walks := d.walks.drop key })) k
        { trapAt 0x25 (BitVec.ofNat 64 w.va) t.pc with cls := 2 })) ∧
    (∀ die w, (s.die die).walks.find key = some w → w.soft = false → w.status = .missing → w.waits = false →
      (∀ x ∈ (s.die die).walks, x.1 < key → x.2.status ≠ .reading ∧ x.2.status ≠ .queued) → (s.die die).faults.length = 8 → (none ∈ (s.die die).faults) →
      ∃ s', exec (.tableWalkEnd die key) s = .next s' ∧ (s'.die die).walks.find key = some { w with waits := true, faulted := true, since := if w.faulted then w.since else s.time } ∧
        ∃ f, some f ∈ (s'.die die).faults ∧ f.asid = w.asid ∧ f.va / 0x10000 = w.va / 0x10000) ∧
    (∀ die w, (s.die die).walks.find key = some w → w.thread = k → w.thread ≠ 0 → w.waits = true → (s.die die).ftmo.toNat % 2 ^ 24 ≠ 0 →
      w.since + (s.die die).ftmo.toNat % 2 ^ 24 * 1024 ≤ s.time →
      ∃ s1, exec (.translationTimeout die key) s = .next (takeTrap s1 k { trapAt 0x20 (BitVec.ofNat 64 w.va) t.pc with cls := 2 }) ∧
        (s1.die die).walks = (s.die die).walks.drop key ∧ s1.threads = s.threads ∧ s1.mem = s.mem ∧ s1.cores = s.cores) ∧
    (∀ line, let a := line / 128 * 128
      exec (.scrub line .corrected) s = .next (s.corrected (faultUnit (homeDie a)) (memoryClass s a) 0x2B a 1) ∧
      (∃ s', exec (.scrub line .uncorrectable) s = .next s' ∧ s'.events = (s.event (faultUnit (homeDie a)) (memoryClass s a) 0x2A 2 false a 1).events ∧
        s'.mem = s.mem ∧ s'.damaged a 128 = true)) ∧
    (∀ core line x, (s.core core).lines.find line = some x →
      exec (.uncorrectableL1LineLoss core line) s = .next
        (let s1 := s.updCore core (fun c => { c with lines := c.lines.filter (fun y => y.1 != line) })
        match x.state with
        | .s | .e => s1.corrected (faultUnit (epDie core)) 2 0x2B line 1
        | _ => s1.event (faultUnit (epDie core)) 2 0x2C 2 false line core)) ∧
    (∀ since pc rest, s.obj = k → t.ops = [(key, q)] → q.status = .again since → since + 256 ≤ s.time → q.pieces = pc :: rest → isLocal pc.pa = false →
      epPackage (homeEndpoint pc.pa) = Config.package → pc.access.logged = false →
      ∃ s' u x, exec .feRetryResend s = .next s' ∧ s'.thread k = some u ∧ u.ops = [(key, x)] ∧ x.status = .sent ∧
        InFlight s' (fun r => r.cls = 1 ∧ r.src = t.core ∧ r.dst = homeEndpoint pc.pa ∧ ∃ typ, r.body = .request typ pc k key t.atomIx)) ∧
    (∀ r, s.obj = k → s.cores.flatMap (fun p => p.2.retry) = [] → s.dies.flatMap (fun p => p.2.retry) = [r] → r.thread = k → isLocal r.loc = false → feLimit s r.loc ≠ 0 →
      r.since + feLimit s r.loc ≤ s.time →
      ∃ s' info, exec .feWaitTimeout s = .next s' ∧ s'.dies.flatMap (fun p => p.2.retry) = [] ∧
        ∃ s1 : State, s' = s1.inject (mkPacket 2 0x22 (homeEndpoint r.loc) r.src 1 (.refusal 0x28 info k r.op)) ∧ s1.threads = s.threads ∧ s1.mem = s.mem) ∧
    (∀ o, s.obj = k → standingAt t = some (.clkWait, o) → t.state = .waiting → t.yielded = false → t.ops = [] → (src64 t o .a).toNat ≤ s.time →
      exec .clockWaitExpiry s = .next (settle .clkWait o t k (.go s))) ∧
    (∀ c scope data, s.obj = k → t.ops = [(key, q)] → q.token = 6 → q.status = .ready data → q.extra = [c, scope, 0] →
      (BitVec.ofNat 64 (leNat data) - BitVec.ofNat 64 c).toNat < 2 ^ 63 →
      exec .mailboxPollTry s = .next (updOp (acquireAction s t.core scope) k key (fun p => { p with token := 0 }))) ∧
    (∀ hart asid desc, kickable s hart = true →
      ((s.core hart).kicks.length < 16 →
        exec (.kick hart asid desc) s = .next (s.updCore hart (fun c => { c with kicks := c.kicks ++ [(asid, rootOf s asid, 7, desc &&& 0x00FFFFFFFFFFFFE0#64)] }))) ∧
      (16 ≤ (s.core hart).kicks.length → exec (.kick hart asid desc) s = .next s)) ∧
    (∀ data, (s.core s.obj).engine = some k → t.job = none → t.ops = [(key, q)] → q.token = 4 → q.status = .ready data →
      ∃ s' u, exec .hartJobStart s = .next s' ∧ s'.thread k = some u ∧ u.pc = BitVec.ofNat 64 (field data 0 8) ∧ u.state = .runnable ∧ u.clause = none ∧ u.regs = t.regs ∧
        u.job = some (BitVec.ofNat 64 (field data 8 8), BitVec.ofNat 64 (field data 16 8), field data 24 1 % 8)) ∧
    (∀ asid root scope desc rest, (s.core s.obj).engine = none → (s.core s.obj).kicks = (asid, root, scope, desc) :: rest → kickable s s.obj = true →
      let s1 := makeEngine (acquireAction s s.obj scope) s.obj asid root desc
      ∃ t1, s1.thread (s.fresh + 2) = some t1 ∧ t1.frame = desc ∧ (s1.core s.obj).kicks = rest ∧ (s1.core s.obj).busy = true ∧
        (s1.core s.obj).engine = some (s.fresh + 2) ∧ exec .hartJobStart s = .next (readJob s1 (s.fresh + 2) t1))

/-! ## Starting and stopping teams and threads -/

namespace Sys2Proof.Claims

/-- The states in which a thread yields at once to a request (log 47). -/
def heldState : ThreadState → Bool
  | .maskWait _ _ | .barWait | .parked _ | .descheduled => true
  | _ => false

/-- A pre-emption request has been raised on a Running team (R40, R41). -/
def Called (s s' : State) (k cause : Nat) : Prop :=
  (∃ m x, s.teams.find k = some m ∧ s'.teams.find k = some x ∧ x.preq = true ∧ x.cause = cause ∧ (x.pre = .requested ∨ x.pre = .yielded) ∧
    x.pdead = (let d := (s.core m.core).pdline.toNat % 2 ^ 24; if d = 0 then 2 ^ 24 else d)) ∧
  (∀ j t, s.thread j = some t → s'.thread j = some (if t.team = k then { t with yielded := t.yielded || heldState t.state } else t)) ∧
  s'.mem = s.mem ∧ s'.cores = s.cores ∧ s'.groups = s.groups

/-- A team is Running and no engine's. -/
def Running (s : State) (k : Nat) : Prop := ∃ m, s.teams.find k = some m ∧ m.pre = .running ∧ m.engine = false

/-- The array of a core may make a step of its running task. -/
def Steps (s : State) (ep key : Nat) (x : Task) : Prop :=
  arrayFree s ep = true ∧ (s.core ep).waves = [] ∧ runningTask s ep = some (key, x) ∧ (s.core ep).tasks.find key = some x

/-- The place of a tile of the team whose task it is. -/
def Holds (s : State) (x : Task) (ep i : Nat) : Prop :=
  (s.team x.team).core = ep ∧ tileIndex (s.team x.team) i < (s.core ep).tiles.length

end Sys2Proof.Claims

/-- R16, R22, R29 to R31, R35 to R39, R45, R115, R396, R445: the next team or cluster of a grid starts where the rules place it, a team that is done retires, the entry whose turn it is
starts as a record thread or a wave, a KIND 2 record is handed to the scheduler or discarded, and the threads longest without an issue become overdue. -/
def Obligations.TeamsRecordsAndWavesStart : Prop :=
  ∀ (s : State) (g : Grid) (n ep : Nat),
    (∀ p, s.grids.find s.obj = some g → g.cw = 0 → nextUnit g < g.dimx * g.dimy * g.dimz → chooseCore s g = some (n, ep, p) →
      ∃ s' m, exec .teamAdmit s = .next s' ∧ s'.grids.find s.obj = some (unitTaken g) ∧ s'.teams.find s.fresh = some m ∧ m.core = ep ∧ m.slot = p.slot ∧
        m.teamid = nextUnit g ∧ m.gx = nextUnit g % g.dimx ∧ m.gy = nextUnit g / g.dimx % g.dimy ∧ m.gz = nextUnit g / (g.dimx * g.dimy) ∧ m.pre = .running ∧
        m.asid = g.asid ∧ m.regs = g.regs ∧ m.scratch = p.scratch ∧ m.scratchSize = g.scratch ∧ m.tiles = p.tiles ∧ m.grid = some s.obj ∧
        ∀ i l, i < g.groups → l < 32 → ∃ t, s'.thread (s.fresh + 2 + 33 * i + l) = some t ∧ t.core = ep ∧ t.lane = l ∧ t.team = s.fresh ∧ t.pc = g.code ∧
          t.state = .runnable ∧ t.frame = g.arg ∧ t.sr.priv = (g.asid == 0)) ∧
    (s.grids.find s.obj = some g → g.cw = 0 → chooseCore s g = none → exec .teamAdmit s = .next s) ∧
    (∀ l, s.grids.find s.obj = some g → g.cw ≠ 0 → nextUnit g < g.dimx * g.dimy * g.dimz → chooseRect s g = some (n, ep, l) →
      ∃ s', exec .clusterStart s = .next s' ∧ s'.grids.find s.obj = some (unitTaken g) ∧
        ∀ i q, l[i]? = some q → ∃ k m, s'.teams.find k = some m ∧ m.core = q.1 ∧ m.slot = q.2.slot ∧ m.grid = some s.obj ∧ m.cluster = some (nextUnit g, i) ∧
          m.teamid = nextUnit g * (g.cw * g.ch) + i) ∧
    (∀ m gk, s.teams.find s.obj = some m → m.grid = some gk → m.engine = false → m.cluster = none → teamDone s s.obj = true → s.grids.find gk = some g →
      ∃ s', exec .teamRetire s = .next s' ∧ s'.teams.find s.obj = none ∧ s'.grids.find gk = some { g with left := g.left - 1 } ∧
        (∀ x ∈ s'.threads, x.2.team ≠ s.obj) ∧ (∀ x ∈ s'.groups, x.2.team ≠ s.obj) ∧
        (∀ i ∈ m.tiles, i < (s.core m.core).tiles.length → (s'.core m.core).tiles.getD i Tile.reset = Tile.reset) ∧ s'.mem = s.mem) ∧
    (∀ m, s.teams.find s.obj = some m → m.cluster = none → teamDone s s.obj = false → exec .teamRetire s = .next s) ∧
    (∀ q m k e lane, s.obj = ep → nextStart s ep = some (q, m, k, e) → q ≠ 1 → (q = 0 → rayHoldable s ep e = true) → (q = 2 → staleBlock s ep e = false) →
      recordLane s ep (s.core ep).active (s.team m).regs = some lane →
      ∃ s' t gr, exec .recordThreadStart s = .next s' ∧ s'.thread (s.fresh + 1) = some t ∧ s'.groups.find s.fresh = some gr ∧ gr.team = m ∧ gr.slots = false ∧ gr.lane = lane ∧
        t.core = ep ∧ t.lane = lane ∧ t.team = m ∧ t.group = s.fresh ∧ t.state = .runnable ∧ t.prio = some e.prio ∧ t.entry = some (q, k) ∧
        t.pc = (if q = 3 then recCode e.bytes else ((s.core ep).queue q).code) ∧ t.sr.deriv = (if q = 3 then recDeriv e.bytes else e.deriv) ∧
        (q = 3 → t.frame = recFrame e.bytes) ∧ (q = 0 → t.treelet = some (rayTreelet e.bytes)) ∧
        ∃ x, ((s'.core ep).queue q).entries.find k = some x ∧ x.live = true) ∧
    (∀ m k e k0 e0 rest, s.obj = ep → nextStart s ep = some (1, m, k, e) → hitOrder 32 (s.core ep).hits = (k0, e0) :: rest →
      let formed := fun i => ∃ s' gr t, exec i s = .next s' ∧ s'.groups.find s.fresh = some gr ∧ gr.team = m ∧ gr.slots = true ∧ s'.thread (s.fresh + 1) = some t ∧ t.lane = 0 ∧
        t.core = ep ∧ t.team = m ∧ t.group = s.fresh ∧ t.entry = some (1, k0) ∧ t.pc = (s.core ep).hits.code ∧ t.state = .runnable ∧ t.prio = some e0.prio
      (32 ≤ (waitingHits (s.core ep).hits).length → formed .waveForm) ∧
      (waveExpired (s.core ep) = true → formed .waveWaitExpiry) ∧
      ((waitingHits (s.core ep).hits).length < 32 → exec .waveForm s = .next s)) ∧
    (∀ m k e, s.obj = ep → s.isCore ep = true → (s.core ep).swapping = false → (s.core ep).recs.team = some m → nextEntry (s.core ep).recs = some (k, e) →
      (recKind e.bytes ≠ 2 → exec .tileTaskRecordDispatch s = .next s) ∧
      (recKind e.bytes = 2 → lendingTeam s m = none → ∃ s', exec .tileTaskRecordDispatch s = .next s' ∧ (s'.core ep).recs.entries.find k = none ∧ (s'.core ep).tasks = (s.core ep).tasks) ∧
      (∀ lender s1 bs, recKind e.bytes = 2 → lendingTeam s m = some lender → queueFull s ep = false → (recCode e.bytes).toNat % 64 = 0 →
        agentRead (acquireAction s ep (entryScope ep e)) ep (s.team m).asid (s.team m).root ((s.team m).asid == 0) [((recCode e.bytes).toNat, 64)] = .ok s1 bs →
        recordFault (s1.team lender) bs 0#64 = none → (s1.team lender).core = ep →
        ∃ s' x, exec .tileTaskRecordDispatch s = .next s' ∧ (s'.core ep).tasks.find s1.fresh = some x ∧ x.record = bs ∧ x.team = lender ∧ x.space = m ∧ x.prio = e.prio ∧
          x.entry = some k ∧ x.started = false)) ∧
    (∀ gr, s.groups.find s.obj = some gr → ep = (s.team gr.team).core → let w := ((s.core ep).xctl.toNat % 256 + 1) * 64
      let run := s.threads.filter (fun p => p.2.group == s.obj && p.2.state == .runnable)
      (gr.fair < w → exec .fairnessWindowExpiry s = .next s) ∧
      (w ≤ gr.fair → ∃ s', exec .fairnessWindowExpiry s = .next s' ∧ s'.groups.find s.obj = some { gr with fair := 0 } ∧ s'.mem = s.mem ∧
        ∀ k t, s.thread k = some t → (k, t) ∈ run → (∀ x ∈ run, x.2 = t ∨ keyBefore [t.lastIssue, t.pc.toNat] [x.2.lastIssue, x.2.pc.toNat] = true) →
          s'.thread k = some { t with overdue := some (t.overdue.getD (s.core ep).cycles) }))

/-- R28, R40 to R43, R45, R49, R340, R341, R345, R387, R390, R415, R453: pre-emption requests, deadlines, saves and restores; context swaps (of a gateway core none:
the model's choice, log 152), which stop a thread whose saved state holds an error; resuming and aborting a team. -/
def Obligations.PreemptionSwapsAndDebugActOnTeams : Prop :=
  ∀ (s : State) (k ep : Nat) (m : Team), s.teams.find k = some m → m.core = ep →
    (∀ slot, teamInSlot s ep slot = some k → Running s k → ∃ s', exec (.praiseTeam ep slot) s = .next s' ∧ Called s s' k 0) ∧
    (∀ slot, teamInSlot s ep slot = none → exec (.praiseTeam ep slot) s = .next s) ∧
    (s.obj = ep → coreTeams s ep = [(k, m)] → Running s k → ∃ s', exec .praiseAll s = .next s' ∧ Called s s' k 0) ∧
    (∀ p bs, Arrives s 0x0C p → p.body = .systemControl 0 bs → p.dst = ep → coreTeams s ep = [(k, m)] → Running s k →
      ∃ s', exec .preemptionRequestMessage s = .next s' ∧ Called (gone s) s' k 0) ∧
    (∀ x, s.obj = ep → x ∈ candidates s ep → x.2.2.2.prio = 0 → recordRoom s ep (s.core ep).active x.1 x.2.1 = false → coreTeams s ep = [(k, m)] → Running s k → m.cause = 0 →
      (s.core ep).swapping = false → serving s (epDie ep) = true → ∃ s', exec .priority0Preemption s = .next s' ∧ Called s s' k 1) ∧
    (s.obj = k → m.pre = .requested → m.pdead = 0 → ∃ s' x, exec .preemptForced s = .next s' ∧ s'.teams.find k = some x ∧ x.pre = .forced ∧ s'.mem = s.mem ∧
      ∀ j t, s.thread j = some t → s'.thread j = some (if t.team = k ∧ t.yielded = false ∧ t.state ≠ .exited then
        if (s.core ep).rpend ≠ 0 ∧ t.sr.region ≠ 0#64 ∧ t.sr.intrap = false then
          { t with yielded := true, pc := t.sr.region, clause := none, sr := { t.sr with sendix := t.sendixAt }, atomIx := t.atomIxAt }
        else { t with yielded := true }
        else t)) ∧
    (s.obj = k → m.pre = .requested → m.pdead ≠ 0 → exec .preemptForced s = .next s) ∧
    (s.obj = k → m.pre = .yielded ∨ m.pre = .saving → shadowFree s ep = true → ∃ s' x, exec .preemptSaveComplete s = .next s' ∧ s'.teams.find k = some x ∧ x.pre = .saved ∧
      x.context = 1 - (s.core ep).active ∧ s'.threads = s.threads ∧ s'.mem = s.mem ∧
      ∀ j gr, s.groups.find j = some gr → s'.groups.find j = some (if gr.team = k then { gr with context := 2 } else gr)) ∧
    (s.obj = k → m.pre = .yielded → shadowFree s ep = false → m.saveBase = 0#64 → exec .preemptSaveComplete s = .next (s.updTeam k (fun m => { m with pre := .saving }))) ∧
    (∀ i, s.obj = k → m.pre = .saved → m.resume = some i → (s.core ep).swapping = false → restoreRoom s k m = true → (∀ j t, s.thread j = some t → t.team = k → t.shadowBad = false) →
      (∀ x ∈ s.teams, x.2.core = ep → x.2.pre = .saved → ∀ j, x.2.resume = some j → i ≤ j) →
      ∃ s' x, exec .teamRestore s = .next s' ∧ s'.teams.find k = some x ∧ x.pre = .running ∧ x.preq = false ∧ x.resume = none ∧ x.context = (s.core ep).active ∧ s'.mem = s.mem ∧
        (∀ j t, s.thread j = some t → t.team = k → ∃ u, s'.thread j = some u ∧ u.yielded = false ∧ u.pc = t.pc ∧ u.regs = t.regs ∧ u.sr = t.sr ∧ u.state = t.state) ∧
        ∀ j gr, s.groups.find j = some gr → gr.team = k → s'.groups.find j = some { gr with context := (s.core ep).active }) ∧
    (∀ v : Word, v.getLsbD 31 = true → teamInSlot s ep (v.toNat % 64) = some k → m.pre = .saved → m.resume = none →
      exec (.presume ep v) s = .next { s.updTeam k (fun m => { m with resume := some s.fresh }) with fresh := s.fresh + 1 }) ∧
    (∀ v : Word, v.getLsbD 31 = false → exec (.presume ep v) s = .next s) ∧
    (s.obj = ep → let c := s.core ep; let thr := c.xctl.toNat / 2 ^ 16 % 256; let w := (c.xctl.toNat % 256 + 1) * 64; let here := (ctxGroups s ep c.active).filter (fun p => p.2.slots)
      (onGateway ep = true → exec .contextSwapDecision s = .next s) ∧
      (onGateway ep = false → c.swapping = false → thr ≠ 0 → (c.swaps = 0 ∨ c.lastSwap + 64 * w ≤ c.cycles) → (∃ x ∈ ctxGroups s ep (1 - c.active), groupParked s x.1 = false) →
      ((here ≠ [] → thr * here.length < 256 * (here.filter (fun p => groupParked s p.1)).length →
        exec .contextSwapDecision s = .next (s.updCore ep (fun c => { c with swapping := true, lastSwap := c.cycles }))) ∧
      (here ≠ [] → 256 * (here.filter (fun p => groupParked s p.1)).length ≤ thr * here.length → exec .contextSwapDecision s = .next s)))) ∧
    (∀ t j, s.obj = ep → (s.core ep).swapping = true → (s.core ep).swapAgain = 0 → s.threads = [(j, t)] → t.shadowBad = true → t.core = ep → t.team = k →
      (s.group t.group).context = 1 - (s.core ep).active → ∃ s' u, exec .contextSwapComplete s = .next s' ∧ s'.thread j = some u ∧ u.state = .stopped ∧
        u.sr.trapCause.toNat % 256 = 0x2E ∧ u.pc = t.pc ∧ s'.teams.find k = some { m with halted := true }) ∧
    (s.obj = ep → (s.core ep).swapping = true → (∀ t ∈ NMap.vals s.threads, t.shadowBad = false) → ∃ s', exec .contextSwapComplete s = .next s' ∧ (s'.core ep).active = 1 - (s.core ep).active ∧
      (s'.core ep).swaps = (s.core ep).swaps + 1 ∧ (s'.core ep).swapping = decide ((s.core ep).swapAgain ≠ 0) ∧ (s'.core ep).swapAgain = (s.core ep).swapAgain - 1 ∧
      s'.threads = s.threads ∧ s'.groups = s.groups ∧ s'.teams = s.teams ∧ s'.mem = s.mem) ∧
    (∀ slot, teamInSlot s ep slot = some k → ∃ s', exec (.dbgctlResume ep slot) s = .next s' ∧ s'.teams.find k = some { m with halted := false } ∧ s'.mem = s.mem ∧ s'.cores = s.cores ∧
      ∀ j t, s.thread j = some t → s'.thread j = some (if t.team = k ∧ t.state = .stopped then { t with state := .runnable, arrival := (s.core t.core).cycles }
        else if t.team = k then { t with stopping := false } else t)) ∧
    (∀ slot, teamInSlot s ep slot = some k →
      (liveThreads s k = [] → exec (.tabort ep slot) s = .next (s.updTeam k (fun m => { m with aborted := true, halted := false }))) ∧
      (∀ j t, liveThreads s k = [(j, t)] → exec (.tabort ep slot) s =
        .next ((exitThread (withdraw s j) j).updTeam k (fun m => { m with aborted := true, halted := false }))))

/-- R125 to R138, R307, R308, R354, R378, R392 to R398, R415, R443: a ready task starts or finds its fault, makes its steps, completes by raising its tile's version and writing its target; a
TWMMA runs on the array; a version that nothing can reach traps its waiters. -/
def Obligations.TileTasksRunOnTheArray : Prop :=
  ∀ (s : State) (ep key : Nat) (x : Task), s.obj = ep →
    (arrayFree s ep = true → (s.core ep).waves = [] → runningTask s ep = none → nextTask s ep = some (key, x) → (s.core ep).tasks.find key = some x →
      ∃ s', exec .tileTaskStart s = .next s' ∧ (s'.core ep).tasks.find key = some { x with started := true, fault := startFault s x, done := (startFault s x).isSome } ∧ s'.mem = s.mem ∧
        (trKind x.record = 2 → startFault s x = none → Holds s x ep (trTile x.record) →
          let y := teamTile s' (s.team x.team) (trTile x.record)
          y.status = 1 ∧ y.phase = 0 ∧ y.iter = 0)) ∧
    (∀ k, runningTask s ep = some k → exec .tileTaskStart s = .next s) ∧
    (∀ s1 x' last, Steps s ep key x → x.done = false → taskStep s ep x = .ok s1 (x', last) → (trKind x.record = 2 → last = false) →
      exec .shawmStep s = .next (updTask (perfCount (dropReads s1 ep) ep 10 1) ep key (fun _ => { x' with step := x.step + 1, done := last }))) ∧
    (∀ s1 x', Steps s ep key x → x.done = false → trKind x.record = 2 → taskStep s ep x = .ok s1 (x', true) → Holds s1 x ep (trTile x.record) → s1.teams = s.teams →
      let y := teamTile s1 (s.team x.team) (trTile x.record)
      ∃ s', exec .shawmStep s = .next s' ∧ teamTile s' (s.team x.team) (trTile x.record) = { y with version := (y.version + 1) % 65536 }) ∧
    (∀ s1 code info, Steps s ep key x → x.done = false → trKind x.record ≠ 2 → taskStep s ep x = .fault s1 code info →
      exec .shawmStep s = .next (updTask (dropReads s1 ep) ep key (fun _ => { x with fault := some (code, info), done := true }))) ∧
    (Steps s ep key x → x.done = false → trKind x.record = 8 → Holds s x ep (trTile x.record) →
      ∃ s' y, exec .shawmStep s = .next s' ∧ (s'.core ep).tasks.find key = some y ∧ y.done = true ∧ (teamTile s' (s.team x.team) (trTile x.record)).elems = List.replicate 1024 0#32 ∧ s'.mem = s.mem) ∧
    (∀ off, Steps s ep key x → x.done = false → trKind x.record = 7 → trMode x.record = 0 → Holds s x ep (trTile x.record) → trAspace x.record = true → let y := teamTile s (s.team x.team) (trTile x.record)
      scratchOffset s ep (s.team x.space) x.priv false (trAaddr x.record + x.step * trAstride x.record) 128 = some off → hitsError s (scratchLoc ep off) 128 false = false →
      ∃ s', exec .shawmStep s = .next s' ∧ (teamTile s' (s.team x.team) (trTile x.record)).elems = setWords y.elems (32 * x.step) (bytesToWords 32 (readScratch s ep off 128))) ∧
    (∀ v, (s.core ep).tasks = [(key, x)] → runningTask s ep = some (key, x) → x.due = none → x.done = true → x.fault = none → x.excs = 0#4 → trKind x.record ≠ 4 → Holds s x ep (trTile x.record) →
      v = ((teamTile s (s.team x.team) (trTile x.record)).version + 1) % 65536 → x.entry = none →
      ∃ s', exec .tileTaskComplete s = .next s' ∧ (teamTile s' (s.team x.team) (trTile x.record)).version = v ∧ (s'.core ep).mxexc = (s.core ep).mxexc ∧ s'.mem = s.mem ∧
        (s'.core ep).tasks = if trCt x.record then [(key, { x with due := some v })] else []) ∧
    (∀ v s1 s2 pa e bs, (s.core ep).tasks.find? (fun p => p.2.due.isSome) = some (key, x) → x.due = some v → trCtaddr x.record % 4 = 0 →
      agentPlace s ep (s.team x.space).asid (s.team x.space).root x.priv (if trCtadd x.record then 3 else 1) (trCtaddr x.record) = .ok s1 pa e → writeTarget s1 ep x v pa e = .ok s2 bs → x.entry = none →
      exec .tileTaskComplete s = .next (s2.updCore ep (fun c => { c with tasks := c.tasks.drop key }))) ∧
    (∀ w rest lane k op cols, arrayFree s ep = true → (s.core ep).waves = w :: rest → w.lanes = [(lane, k, op)] → let ta := w.o.ty.toNat; let tb := w.o.p5.toNat % 16
      columnRead s (s.team w.team) w.boff (4 * widthOf tb) = .ok cols →
      let row := fun i => (⟨if i = lane then (unpackElems (widthOf ta) 32 (wordsToBytes (w.rows.getD 0 []))).map some else List.replicate 32 (some (if ta = 14 then 16 else 0)), 127⟩ : Strip)
      let acc := (List.range 32).flatMap (fun i => if i = lane ∧ w.accs ≠ [] then w.accs.getD 0 [] else List.replicate 32 0#32)
      let r := chunkProduct ta tb w.book w.book ((List.range 32).map row) (columnStrips (widthOf tb) cols) acc
      exec .twmmaRun s = .next (commitExc (completeOp (opReady (s.updCore ep (fun c => { c with waves := rest })) k op
        (resultBytes w.o ((r.1.drop (32 * lane)).take 32))) k op) ep r.2)) ∧
    (∀ k t i v lk, s.obj = t.team → lendingTeam s t.team = some lk → s.thread k = some t → s.threads.filter (fun p => p.2.team == t.team) = [(k, t)] → t.state = .waiting → awaited s t k = some (i, v) →
      i < (s.team lk).tiles.length → versionReached (teamTile s (s.team lk) i) v = false → (∀ y ∈ queuedTasks (s.core (s.team lk).core), y.2.team = lk → y.2.started = false ∧ taskReady s y.2 = false) →
      exec .versionUnreachable s = .next (takeTrap s k (trapAt 0x43 (BitVec.ofNat 64 (v + (teamTile s (s.team lk) i).version * 65536)) t.pc)))

/-! ## Arrivals at queues and slices -/

namespace Sys2Proof.Claims

/-- The queue accepts entries: it is bound, no spill write is under way, and its ring has room. -/
def Accepts (s : State) (ep q : Nat) : Prop :=
  s.isCore ep = true ∧ ((s.core ep).queue q).bound = true ∧ spilling s ep q = false ∧ ((s.core ep).queue q).entries.length < 2 ^ ((s.core ep).queue q).ringLog

/-- A queue has accepted an entry, the last in its order (R33). -/
def Accepted (s s' : State) (ep q typ : Nat) (bs : List Byte) (prio src : Nat) (deriv : DWord) : Prop :=
  ∃ x, ((s'.core ep).queue q).entries.find ((s.core ep).queue q).next = some x ∧ x.typ = typ ∧ x.bytes = bs ∧ x.prio = prio ∧ x.src = src ∧ x.deriv = deriv ∧ x.live = false ∧
    ((s'.core ep).queue q).next = ((s.core ep).queue q).next + 1

/-- The sender, where it waits, is told that its enqueue is accepted. -/
def Told (s' : State) (p : Packet) (th op : Nat) : Prop := th ≠ 0 → Replied s' p 0x21 (.acknowledgment th op)

/-- The sender is told that its enqueue is refused for want of a bound queue (R408). -/
def Declined (s' : State) (p : Packet) (th op : Nat) : Prop := th ≠ 0 → Replied s' p 0x22 (.refusal 0x27 (BitVec.ofNat 64 (p.dst * 2 ^ 32)) th op)

/-- A slice serves a treelet. -/
def Serves (s : State) (id : Nat) : Prop := sliceOn s id = true ∧ idInRange s id = true

/-- A ray message as a slice parks it. -/
def parkedRay (p : Packet) (bs : List Byte) (prio : Nat) : Parked :=
  { bytes := clearFwd bs, sender := p.origin, slot := none, deriv := p.deriv, attempt := p.attempt, from_ := none, prio := prio }

/-- The packet as its first sender sent it, to whom its slice answers (R426). -/
def asker (p : Packet) : Packet := { p with src := p.origin }

/-- A slice has room on chip for one more parked ray (R114). -/
def ParksOnChip (s : State) (id : Nat) : Prop := (parkedRays (s.slice (id % 6))).length < 4096

/-- A slice's read of line i of an image, the first of an attempt's reads at `tag` (R112). -/
def imageRead (src image id tag i : Nat) (r : Packet) : Prop :=
  r.cls = 1 ∧ r.typ = 0x10 ∧ r.src = src ∧ r.dst = homeEndpoint (image + 128 * i) ∧
    r.body = .request 0x10 { pa := image + 128 * i, home := true, access := .load 128 } (imageReader id) (tag * 2 ^ 40 + 128 * i) 0

/-- A control packet is on its way. -/
def Control (s' : State) (src dst typ : Nat) (body : Body) : Prop := InFlight s' (fun r => r.cls = 0 ∧ r.typ = typ ∧ r.src = src ∧ r.dst = dst ∧ r.body = body)

end Sys2Proof.Claims

/-- R33, R34, R103, R110, R115, R161, R321, R324, R325, R333, R408, R442, R457: hits, messages, records, rays and blocks enter their queue once and are acknowledged, are refused where it is not bound, and
wait while it is full; a held record is stored under its ticket; a RECJ counts it down; a ray whose treelet is not resident goes back to its slice, which
answers its sender. -/
def Obligations.ArrivalsEnterTheirQueues : Prop :=
  ∀ (s : State) (p : Packet) (bs : List Byte) (prio th op : Nat), let g := gone s; let ep := p.dst
    (∀ q typ i, (q, typ, i) ∈ [(1, 0x40, Instr.hitArrival), (2, 0x41, Instr.messageArrival)] → Arrives s typ p → p.body = .hit typ bs prio th op →
      (Accepts g ep q → p.parent = none → ∃ s', exec i s = .next s' ∧ Accepted g s' ep q typ bs prio p.src p.deriv ∧ Told s' p th op) ∧
      (∀ d, Accepts g ep q → p.parent = some d → (∃ x ∈ ((g.core ep).queue q).seen, x.1 = p.deriv) →
        ∃ s', exec i s = .next s' ∧ ((s'.core ep).queue q).entries = ((s.core ep).queue q).entries ∧ Told s' p th op) ∧
      (∀ d, Accepts g ep q → p.parent = some d → (∀ x ∈ ((g.core ep).queue q).seen, x.1 ≠ p.deriv) → ((g.core ep).queue q).seen.length < 4096 →
        ∃ s', exec i s = .next s' ∧ Accepted g s' ep q typ bs prio p.src p.deriv ∧ (p.deriv, d) ∈ ((s'.core ep).queue q).seen ∧ Told s' p th op) ∧
      (s.isCore ep = true → ((s.core ep).queue q).bound = true → 2 ^ ((s.core ep).queue q).ringLog ≤ ((s.core ep).queue q).entries.length → exec i s = .next s) ∧
      (s.isCore ep = true → ((s.core ep).queue q).bound = false → ∃ s', exec i s = .next s' ∧ ((s'.core ep).queue q).entries = ((s.core ep).queue q).entries ∧ Declined s' p th op)) ∧
    (Arrives s 0x42 p → p.body = .hit 0x42 bs prio th op → p.parent = none → let u := (g.core ep).recs
      (recHeld bs = false → Accepts g ep 3 → ∃ s', exec .remoteRecordArrival s = .next s' ∧ Accepted g s' ep 3 0x42 bs (recPrio bs) p.src (recDeriv bs) ∧
        (s'.core ep).recs.ticket = (u.ticket + 1) % 2 ^ 32 ∧ Told s' p th op) ∧
      (recHeld bs = true → s.isCore ep = true → u.bound = true → ∃ s' h, exec .remoteRecordArrival s = .next s' ∧ (s'.core ep).recs.held.find ((u.ticket + 1) % 2 ^ 32) = some h ∧ h.bytes = bs ∧
        (s'.core ep).recs.entries = u.entries ∧ (th ≠ 0 → Replied s' p 0x20 (.data (leBytes 8 (ep % 2 ^ 20 * 2 ^ 44 + (u.ticket + 1) % 2 ^ 32)) th op))) ∧
      (s.isCore ep = true → u.bound = false → ∃ s', exec .remoteRecordArrival s = .next s' ∧ (s'.core ep).recs.entries = u.entries ∧ Declined s' p th op)) ∧
    (∀ ticket dec h, AtHand s p → ¬ Stale s p → p.body = .join ticket dec th op → s.isCore ep = true → (g.core ep).recs.bound = true → p.parent = none → (g.core ep).recs.held.find ticket = some h → p.deriv ∉ h.applied →
      let j := (recJoin h.bytes + 65536 - dec % 65536) % 65536
      (j ≠ 0 → ∃ s', exec .recjArrival s = .next s' ∧ (s'.core ep).recs.held.find ticket = some { h with bytes := patch h.bytes 24 (leBytes 2 j), applied := p.deriv :: h.applied, wide := max h.wide (betweenScope p.src ep) } ∧ Told s' p th op) ∧
      (j = 0 → ∃ s', exec .recjArrival s = .next s' ∧ (s'.core ep).recs.held.find ticket = none ∧ Told s' p th op ∧
        ∃ x, (s'.core ep).recs.entries.find (g.core ep).recs.next = some x ∧ x.wide = max h.wide (betweenScope p.src ep) ∧ x.bytes = patch (patch h.bytes 24 (leBytes 2 0)) 27 [BitVec.ofNat 8 (field (patch h.bytes 24 (leBytes 2 0)) 27 1 &&& 0xFB)])) ∧
    (∀ ticket dec h, AtHand s p → ¬ Stale s p → p.body = .join ticket dec th op → s.isCore ep = true → (g.core ep).recs.bound = true → p.parent = none → (g.core ep).recs.held.find ticket = some h → p.deriv ∈ h.applied →
      ∃ s', exec .recjArrival s = .next s' ∧ (s'.core ep).recs.held = (s.core ep).recs.held ∧ Told s' p th op) ∧
    (∀ x, Arrives s 0x30 p → p.body = .ray bs prio th op → epLocal ep < 80 → let id := rayTreelet bs
      (Accepts g ep 0 → (g.core ep).pool.find id = some x → x.resident = true → p.parent = none → epLocal p.src = 125 →
        ∃ s', exec .rayArrivalAtCore s = .next s' ∧ Accepted g s' ep 0 0x30 bs prio p.src p.deriv ∧ (s'.core ep).pool.find id = some { x with lastArrival := s.fresh } ∧ Told s' p th op) ∧
      (s.isCore ep = true → (s.core ep).rays.bound = true → (g.core ep).pool.find id = none → ∃ s', exec .rayArrivalAtCore s = .next s' ∧ (s'.core ep).rays.entries = (s.core ep).rays.entries ∧
        InFlight s' (fun r => r.typ = 0x30 ∧ r.src = ep ∧ r.dst = servingSlice s id ∧ r.deriv = p.deriv ∧ r.origin = p.origin ∧ r.body = .ray (setFwd bs) prio th op)) ∧
      (s.isCore ep = true → (s.core ep).rays.bound = false → ∃ s', exec .rayArrivalAtCore s = .next s' ∧ (s'.core ep).rays.entries = (s.core ep).rays.entries ∧ Declined s' p th op)) ∧
    (∀ d, Arrives s 0x43 p → p.body = .block bs th op → epLocal ep = 126 → epDie ep = 22 ∨ epDie ep = 23 → p.parent = none → let a := p.addr.toNat; let dom := a / 2 ^ 60 % 16; let seq := a / 2 ^ 20 % 2 ^ 16
      domainOf g dom = some d →
      let b : Block := { gateway := epDie ep, seq := seq, index := a / 2 ^ 8 % 2 ^ 12, addr := p.addr, bytes := bs, deriv := p.deriv }
      (a / 2 ^ 36 % 2 ^ 24 = viewAt s (epDie ep) dom → (epDie ep, seq) ∈ d.latest → (∀ y ∈ d.assigned, ¬ (y.1 = epDie ep ∧ y.2.1 = seq ∧ y.2.2.1 = b.index)) →
        ∃ s', exec .collectiveBlockArrival s = .next s' ∧ domainOf s' dom = some { d with blocks := d.blocks ++ [b] } ∧ Told s' p th op) ∧
      (a / 2 ^ 36 % 2 ^ 24 ≠ viewAt s (epDie ep) dom → ∃ s', exec .collectiveBlockArrival s = .next s' ∧ s'.pkg.domains = s.pkg.domains ∧ Told s' p th op)) ∧
    (Arrives s 0x43 p → p.body = .block bs 0 0 → epLocal ep < 80 → Accepts g ep 2 → p.addr.toNat / 2 ^ 36 % 2 ^ 24 = viewAt s (epDie ep) (p.addr.toNat / 2 ^ 60 % 16) →
      ∃ s', exec .collectiveBlockArrival s = .next s' ∧ Accepted g s' ep 2 0x43 bs 3 p.src p.deriv)

/-- R106 to R123, R320, R416 to R427: a ray at its slice is forwarded to the nearest owner, or parked while its treelet is paged; grants, image flits and installs make a core an owner; counters rise, are
halved and call for replicas; evictions take owners away; route caches follow; DSIZE and REPAGE act when written. -/
def Obligations.SlicesRouteParkAndPage : Prop :=
  ∀ (s : State) (p : Packet) (bs : List Byte) (prio th op id size : Nat), let g := gone s; let src := servingSlice s id
    (Arrives s 0x30 p → epLocal p.dst = 125 → p.body = .ray bs prio th op → id = rayTreelet bs → let e := entryAt g id
      (sliceOn s id = false → exec .rayArrivalAtSlice s = .next s) ∧
      (sliceOn s id = true → idInRange s id = false → th ≠ 0 → ∃ s', exec .rayArrivalAtSlice s = .next s' ∧ Replied s' (asker p) 0x22 (.refusal 0x56 0#64 th op) ∧ s'.slices = s.slices) ∧
      (Serves s id → rayFwd bs = false → p.parent = none → ParksOnChip s id →
        (e.state = .cold → ∃ s', exec .rayArrivalAtSlice s = .next s' ∧ Told s' (asker p) th op ∧ (entryAt s' id).state = .paging ∧ (entryAt s' id).parked = e.parked ++ [parkedRay p bs prio] ∧
          (entryAt s' id).counter = min 0xFFFF (e.counter + 1) ∧ ∃ a, (entryAt s' id).attempt = some a ∧ ∀ c, a.core = some c → Control s' src c 0x04 (.grantRequest id e.size)) ∧
        (e.state = .paging → ∃ s', exec .rayArrivalAtSlice s = .next s' ∧ Told s' (asker p) th op ∧ (entryAt s' id).state = .paging ∧ (entryAt s' id).parked = e.parked ++ [parkedRay p bs prio] ∧
          (entryAt s' id).counter = min 0xFFFF (e.counter + 1)) ∧
        (∀ c, e.state = .resident → e.evp = none → e.parked = [] → nearestOwner g p.origin (liveOwners g e) = some c → ∃ s', exec .rayArrivalAtSlice s = .next s' ∧ Told s' (asker p) th op ∧
          (entryAt s' id).counter = min 0xFFFF (e.counter + 1) ∧ (entryAt s' id).parked = [] ∧ InFlight s' (fun r => r.typ = 0x30 ∧ r.src = src ∧ r.dst = c ∧ r.deriv = p.deriv ∧ r.body = .ray (clearFwd bs) prio 0 0))) ∧
      (Serves s id → rayFwd bs = true → ParksOnChip s id → e.state = .resident → e.owners = [p.src] →
        ∃ s', exec .rayArrivalAtSlice s = .next s' ∧ Told s' (asker p) th op ∧ (entryAt s' id).evp = some p.src ∧ (entryAt s' id).parked = e.parked ++ [parkedRay p bs prio] ∧ (entryAt s' id).counter = e.counter) ∧
      (let l := parkedRays (s.slice (id % 6)); let used := l.filterMap (·.slot)
        Serves s id → rayFwd bs = false → p.parent = none → e.state = .paging → 4096 ≤ l.length - used.length → used.length < 2 ^ 20 →
        ∃ s' j, exec .rayArrivalAtSlice s = .next s' ∧ Told s' (asker p) th op ∧ j ∉ used ∧ (entryAt s' id).parked = e.parked ++ [{ parkedRay p bs prio with slot := some j }]) ∧
      (Serves s id → p.parent = none → 2 ^ 20 ≤ ((parkedRays (s.slice (id % 6))).filterMap (·.slot)).length → exec .rayArrivalAtSlice s = .next s) ∧
      (∀ d, Serves s id → rayFwd bs = false → p.parent = some d → (∃ x ∈ (s.slice (id % 6)).seen, x.1 = p.deriv) → ∃ s', exec .rayArrivalAtSlice s = .next s' ∧ Told s' (asker p) th op ∧ s'.slices = s.slices)) ∧
    (∀ owners, Arrives s 0x02 p → p.body = .routeFill id owners → owners ≠ [] → ∃ s', exec .routeFill s = .next s' ∧ (∃ r ∈ (s'.core p.dst).routes, r.treelet = id ∧ r.owners = owners) ∧
      (∀ r ∈ (s'.core p.dst).routes, r.treelet = id → r.owners = owners) ∧ { s' with cores := s.cores, packets := s.packets } = s ∧ ((s'.core p.dst).routes.filter (fun r => r.treelet % 64 == id % 64)).length ≤
        max 4 ((s.core p.dst).routes.filter (fun r => r.treelet % 64 == id % 64)).length) ∧
    (∀ owners, Arrives s 0x03 p → p.body = .routeUpdate id owners → exec .routeUpdate s = .next (g.updCore p.dst (fun c => { c with
      routes := if owners = [] then c.routes.filter (fun r => r.treelet != id) else c.routes.map (fun r => if r.treelet = id then { r with owners := owners } else r) }))) ∧
    (∀ owners, Arrives s 0x0B p → p.body = .broadcast id owners → ∃ s', exec .broadcast s = .next s' ∧ ∀ l ∈ (s.die (epDie p.dst)).enabled, l < 80 → epDie p.dst < 24 →
      Control s' p.dst (endpoint (epDie p.dst) l) 0x03 (.routeUpdate id owners)) ∧
    (AtHand s p → ¬ Stale s p → p.body = .grantRequest id size → s.isCore p.dst = true → (s.die (epDie p.src)).present = true →
      (∀ x, (s.core p.dst).pool.find id = some x → ∃ s', exec .grantRequest s = .next s' ∧ s'.cores = s.cores ∧ Control s' p.dst p.src 0x05 (.grantReply id none (freeUnits (s.core p.dst)))) ∧
      ((s.core p.dst).pool.find id = none → evictionsFor g p.dst size = none → ∃ s', exec .grantRequest s = .next s' ∧ s'.cores = s.cores ∧
        Control s' p.dst p.src 0x05 (.grantReply id none (freeUnits (s.core p.dst)))) ∧
      (∀ u, (s.core p.dst).pool.find id = none → evictionsFor g p.dst size = some 0 → poolTakes (s.core p.dst) size = some u →
        ∃ s', exec .grantRequest s = .next s' ∧ (s'.core p.dst).pool.find id = some { unit := u, size := size, resident := false, lastArrival := 0, direct := 0, lost := false } ∧
          Control s' p.dst p.src 0x05 (.grantReply id (some u) (freeUnits (s'.core p.dst))))) ∧
    (AtHand s p → ¬ Stale s p → p.body = .reservationRelease id →
      exec .reservationRelease s = .next (g.updCore p.dst (fun c => { c with pool := c.pool.filter (fun x => !(x.1 == id && !x.2.resident && !x.2.lost)) }))) ∧
    (∀ free a, AtHand s p → ¬ Stale s p → (entryAt g id).attempt = some a → a.core = some p.src → a.granted = none →
      (p.body = .grantReply id none free → ∃ s' b, exec .grantReply s = .next s' ∧ (entryAt s' id).attempt = some b ∧ b.refusedBy = p.src :: a.refusedBy ∧ b.granted = none ∧
        (s'.slice (id % 6)).free.find p.src = some free ∧ ∀ c, b.core = some c → c ≠ p.src ∧ c ∉ a.refusedBy ∧ Control s' src c 0x04 (.grantRequest id (entryAt g id).size)) ∧
      (∀ u, p.body = .grantReply id (some u) free → let e := entryAt g id; let lines := (List.range (e.size * 32)).map (fun i => e.image + 128 * i)
        ((∀ x ∈ lines, memoryOn g x = true) → ∃ s', exec .grantReply s = .next s' ∧ (entryAt s' id).attempt = some { a with granted := some u, tag := s.fresh, left := e.size * 64 } ∧
          (s'.slice (id % 6)).free.find p.src = some free ∧ ∀ i, i < e.size * 32 → InFlight s' (imageRead src e.image id s.fresh i)) ∧
        ((∃ x ∈ lines, memoryOn g x = false) → ∃ s', exec .grantReply s = .next s' ∧ (entryAt s' id).attempt = none ∧ (entryAt s' id).held = true))) ∧
    (∀ a c data, Arrives s 0x20 p → epLocal p.dst = 125 → p.body = .data data (imageReader id) op → (entryAt g id).attempt = some a → a.tag = op / 2 ^ 40 → a.granted.isSome = true → a.core = some c →
      ∃ s', exec .rspData s = .next s' ∧ ∀ i, i < data.length / 64 → let off := op % 2 ^ 40 + 64 * i
        InFlight s' (fun r => r.typ = 0x50 ∧ r.src = src ∧ r.dst = c ∧ r.body = .page id off ((data.drop (64 * i)).take 64) (off + 64 == (entryAt g id).size * 4096))) ∧
    (∀ off data last x, Arrives s 0x50 p → p.body = .page id off data last → (s.core p.dst).pool.find id = some x →
      (x.resident = false → x.lost = false → off + 64 ≤ x.size * 4096 →
        exec .pageFlit s = .next ((homeWrite g (scratchLoc p.dst (poolBase (s.core p.dst) + x.unit * 4096 + off)) data).reply p 0x21 (.acknowledgment id off))) ∧
      (x.resident = true ∨ x.lost = true ∨ x.size * 4096 < off + 64 → exec .pageFlit s = .next (answers s p 0x22 (.refusal 0x27 0#64 id off)))) ∧
    (AtHand s p → ¬ Stale s p → p.body = .install id →
      let s1 := { g with fresh := g.fresh + 1 }.updCore p.dst (fun c => { c with
        pool := c.pool.adjust id (fun x => { x with resident := true, lastArrival := s.fresh, direct := 0 }) })
      ((entryAt g id).attempt = none → exec .install s = .next s1) ∧
      (∀ a u, (entryAt g id).attempt = some a → a.core = some p.dst → a.granted = some u → a.left = 0 → ∃ s', exec .install s = .next s' ∧
        (s'.core p.dst).pool = (s1.core p.dst).pool ∧ (entryAt s' id).owners = (entryAt g id).owners ++ [p.dst] ∧
        (a.replica = false → (entryAt s' id).state = .resident ∧ ((entryAt g id).norep = true → (entryAt s' id).attempt = none)) ∧
        (a.replica = true → (entryAt s' id).state = .replicated ∧ (entryAt s' id).counter = 0 ∧ (entryAt s' id).attempt = none))) ∧
    (∀ a u, Arrives s 0x21 p → p.body = .acknowledgment id op → epLocal p.dst = 125 → (entryAt g id).attempt = some a → a.core = some p.src → a.granted = some u →
      let s1 := updEntry g id (fun e => { e with attempt := some { a with left := a.left - 1 } })
      let head := s1.read (scratchLoc p.src (poolBase (s.core p.src) + u * 4096)) 8
      (2 ≤ a.left → exec .rspAcknowledgment s = .next s1) ∧
      (a.left = 1 → field head 0 4 = id → field head 4 1 = (entryAt g id).size → exec .rspAcknowledgment s = .next (s1.ctl src p.src 0x06 (.install id))) ∧
      (a.left = 1 → field head 0 4 ≠ id ∨ field head 4 1 ≠ (entryAt g id).size →
        ∃ s', exec .rspAcknowledgment s = .next s' ∧ (entryAt s' id).held = true ∧ (entryAt s' id).attempt = none)) ∧
    (∀ n free, AtHand s p → ¬ Stale s p → p.body = .counterIncrement id n free → ∃ s', exec .counterIncrement s = .next s' ∧
      (entryAt s' id).counter = min 0xFFFF ((entryAt g id).counter + n) ∧ (s'.slice (id % 6)).free.find p.src = some free ∧ (entryAt s' id).owners = (entryAt g id).owners) ∧
    (∀ free, AtHand s p → ¬ Stale s p → p.body = .evictionReport id free → p.src ∈ (entryAt g id).owners → let left := (entryAt g id).owners.filter (fun x => x != p.src)
      ∃ s', exec .evictionReport s = .next s' ∧ (entryAt s' id).owners = left ∧ (entryAt s' id).evp ≠ some p.src ∧ (∀ r ∈ (entryAt s' id).parked, r.from_ ≠ some p.src) ∧ (s'.slice (id % 6)).free.find p.src = some free ∧
        (left ≠ [] → (entryAt s' id).state = if left.length = 1 then .resident else .replicated) ∧
        (left = [] → (entryAt g id).parked = [] → (entryAt s' id).state = .cold ∧ (entryAt s' id).attempt = none) ∧
        (left = [] → (entryAt g id).parked ≠ [] → (entryAt s' id).state = .paging)) ∧
    (let x := s.slice s.obj; let period := x.dctl.toNat / 2 ^ 8 % 2 ^ 8 * 1024
      (s.time < x.decayed + period → exec .counterDecay s = .next s) ∧
      (period ≠ 0 → x.dsize.getLsbD 31 = true → x.decayed + period ≤ s.time → (NMap.keys x.entries).Nodup → (∀ k ∈ NMap.keys x.entries, k % 6 = s.obj) →
        ∃ s', exec .counterDecay s = .next s' ∧ (s'.slice s.obj).decayed = x.decayed + period ∧
          ∀ k e, x.entries.find k = some e → (s'.slice s.obj).entries.find k = some { e with counter := e.counter / 2 })) ∧
    (∀ e a, (s.slice (id % 6)).entries.find id = some e → e.attempt = some a → a.core = none →
      (s.time < a.since + 1024 → exec (.placementRetry (id % 6) id) s = .next s) ∧
      (a.since + 1024 ≤ s.time → ∃ s', exec (.placementRetry (id % 6) id) s = .next s' ∧
        (entryAt s' id).attempt = some { core := nextChoice s id [], since := s.time, granted := none, tag := 0, left := 0, refusedBy := [], replica := a.replica } ∧
        ∀ c, nextChoice s id [] = some c → Control s' src c 0x04 (.grantRequest id e.size))) ∧
    (∀ request free, Arrives s 0x0D p → p.body = .residency id request free th op →
      (sliceOn s id = true → idInRange s id = false → ∃ s', exec .residencyQueryOrRequest s = .next s' ∧ Replied s' p 0x22 (.refusal 0x56 0#64 th op)) ∧
      (Serves s id → request = false → let e := entryAt g id
        exec .residencyQueryOrRequest s = .next ((noteAsked g id p.src free).inject { mkPacket 0 0x0E p.dst p.src 1 (.residencyReply id
          (BitVec.ofNat 32 (min e.parked.length 0xFFFF * 65536 + e.owners.length * 4 + (match e.state with | .cold => 0 | .paging => 1 | .resident => 2 | .replicated => 3))) th op) with seq := p.seq })) ∧
      (Serves s id → request = true → (entryAt g id).state = .cold → ∃ s', exec .residencyQueryOrRequest s = .next s' ∧ (entryAt s' id).state = .paging) ∧
      (∀ n, free = some n → ((noteAsked g id p.src free).slice (id % 6)).free.find p.src = some n)) ∧
    (∀ i (v : Word), let x := s.slice i
      (x.dsize.getLsbD 31 = true → exec (.dsize i v) s = .next (s.updSlice i (fun x => { x with dsize := (x.dsize &&& 0x7FFFFFFF#32) ||| (v &&& 0x80000000#32) }))) ∧
      (x.dsize.getLsbD 31 = false → v.getLsbD 31 = false → exec (.dsize i v) s = .next (s.updSlice i (fun x => { x with dsize := v }))) ∧
      (x.dsize.getLsbD 31 = false → v.getLsbD 31 = true → x.asked = [] → ∃ s', exec (.dsize i v) s = .next s' ∧ (s'.slice i).dsize = v ∧ (s'.slice i).fqtail = 0#32 ∧
        (s'.slice i).placement = (List.range (v.toNat / 2 ^ 24 % 2 ^ 7)).map (fun n => leNat (s.read (baseOf x.plbase + 4 * n) 4) % 2 ^ 20))) ∧
    (∀ (v : Word) e, v.toNat = id → (s.slice (id % 6)).entries.find id = some e →
      (e.held = false → exec (.repage (id % 6) v) s = .next s) ∧
      (e.held = true → ∃ s', exec (.repage (id % 6) v) s = .next s' ∧ (entryAt s' id).held = false ∧ (entryAt s' id).attempt.isSome = true))

/-! ## Links between packages and lost dies -/

namespace Sys2Proof.Claims

/-- An event of a state is among the records on their way. -/
def Reported (s s' : State) (src cls code sev d0 d1 : Nat) : Prop :=
  ∃ e ∈ s'.events, e.bytes = leBytes 8 s.time ++ leBytes 4 (src % 2 ^ 20 + (s.die (epDie src)).inc * 2 ^ 20) ++ leBytes 2 (cls * 256 + code) ++
    leBytes 1 sev ++ leBytes 1 0 ++ leBytes 8 d0 ++ leBytes 8 d1

/-- The port is enabled, up and not locked. -/
def Open (q : Port) : Prop := q.cfg.getLsbD 31 = true ∧ q.up = true ∧ q.locked = false

/-- A die of this package is in service. -/
def InService (s : State) (d : Nat) : Prop := d < 24 ∧ (s.die d).present = true ∧ (s.die d).loss = .serving

/-- A die has been lost: its fence is on its way to every present die, and event 0x66 reports it. -/
def Fenced (s s' : State) (d : Nat) (tryReset : Bool) : Prop :=
  let unit := endpoint (if s.host.serving = d then 45 - d else s.host.serving) 121
  (s'.die d).present = false ∧ (s'.die d).loss = .fence ∧ (s'.die d).tryReset = tryReset ∧ Reported s s' unit 8 0x66 3 d 0 ∧
    ∀ e, e < 24 → e ≠ d → (s.die e).present = true → Control s' unit (endpoint e 127) 0x09 (.incarnationUpdate d 0)

/-- The die cannot be lost now. -/
def NotLost (s : State) (d : Nat) : Prop := 24 ≤ d ∨ (s.die d).present = false ∨ (s.die d).loss ≠ .serving

end Sys2Proof.Claims

/-- R152, R153, R154, R155, R430, R431: a port takes the units in order, forgets those acknowledged and delivers their packets; a unit that fails is asked for again and locks the port at
the fourth time; units are packed from the waiting packets; a locked port sends its report and is re-attested or fails; training brings a port up where the far package is its PEER. -/
def Obligations.LinksCarryUnitsAndRecover : Prop :=
  ∀ (s : State) (p : Nat), p < s.pkg.ports.length → let q := s.pkg.ports.getD p Port.reset; let s0 := { s with obj := p }
    let gw := 22 + p / 8; let unit := endpoint (if (s.die gw).present then gw else s.host.serving) 121
    let passed := { q with acceptSeq := (q.acceptSeq + 1) % 2 ^ 48, failures := q.failures.drop q.acceptSeq, replayFrom := none }
    let set (q' : Port) : State := s.updPkg (fun k => { k with ports := k.ports.set p q' })
    (∀ (u : DrinyxUnit), ¬ Open q → q.cfg.getLsbD 31 = false ∨ q.locked = false ∨ u.tagOk = false → exec (.drinyxUnitReceive p u) s = .next s) ∧
    (∀ (u : DrinyxUnit) r a x y, q.cfg.getLsbD 31 = true → q.locked = true → u.tagOk = true → y ≠ [] → u.slots = [.control r a x y] →
      exec (.drinyxUnitReceive p u) s = .next (set { q with fragments := q.fragments ++ [y] })) ∧
    (∀ (u : DrinyxUnit), Open q → u.tagOk = true → u.seq = q.acceptSeq →
      ((∀ x ∈ u.slots, x = .empty) → exec (.drinyxUnitReceive p u) s = .next (set passed)) ∧
      (∀ returns acked again, u.slots = [.control returns acked again []] →
        let left := match acked with | some n => q.unacked.filter (fun x => decide (n < x.seq)) | none => q.unacked
        let q' := { passed with unacked := left, credits := (List.range q.credits.length).map (fun i => min 16 (q.credits.getD i 0 + returns.getD i 0)) }
        (again = none → exec (.drinyxUnitReceive p u) s = .next (set q')) ∧
        (∀ n, again = some n → (∃ x ∈ left, n ≤ x.seq) → ∃ s', exec (.drinyxUnitReceive p u) s = .next s' ∧ s'.pkg.ports[p]? = some q' ∧
          Reported s s' unit 9 0x60 1 p (left.filter (fun x => decide (n ≤ x.seq))).length)) ∧
      (∀ cls dvc, u.slots = [.flit cls dvc none] → exec (.drinyxUnitReceive p u) s =
        .next (set { passed with freed := q.freed.modify (2 * cls + dvc % 2) (· + 1), answer := true })) ∧
      (∀ cls dvc f x, u.slots = [.flit cls dvc (some f)] → farPacket s f = some x →
        let q' := { passed with freed := q.freed.modify (2 * cls + dvc % 2) (· + 1), answer := true }
        let known := ((s.die gw).known.find (epPackage f.src * 32 + epDie f.src)).getD 0
        (epPackage f.dst = Config.package → f.typ = 0x09 ∨ known = f.inc →
          ∃ s', exec (.drinyxUnitReceive p u) s = .next s' ∧ s'.packets = s.packets.put s.fresh { x with
            dst := if f.typ / 16 = 4 then adopterOf s f.dst (queueOfType f.typ) else x.dst } ∧ s'.pkg.ports[p]? = some q') ∧
        (epPackage f.dst = Config.package → f.typ ≠ 0x09 → known ≠ f.inc →
          ∃ s', exec (.drinyxUnitReceive p u) s = .next s' ∧ s'.packets = s.packets ∧
            (s'.die gw).stale.find (epPackage f.src * 32 + epDie f.src) = some (((s.die gw).stale.find (epPackage f.src * 32 + epDie f.src)).getD 0 + 1))) ∧
      (∀ cls dvc f, u.slots = [.flit cls dvc (some f)] → epPackage f.dst ≠ Config.package → ∃ s', exec (.drinyxUnitReceive p u) s = .next s' ∧
        InFlight s' (fun r => r.src = f.src ∧ r.dst = f.dst ∧ r.typ = f.typ ∧ r.inc = f.inc ∧ r.addr = f.addr ∧ r.age = f.age ∧ r.body = .transit f.payload ∧
          r.via = some (p, f.dvc)))) ∧
    (∀ (u : DrinyxUnit), Open q → u.tagOk = false ∨ u.seq ≠ q.acceptSeq →
      let n := (q.failures.find u.seq).getD 0 + 1
      let fails := (s.time :: q.fails).filter (fun t => decide (s.time < t + 1000000))
      let q' := { q with failures := q.failures.put u.seq n, fails := fails, replayFrom := some q.acceptSeq, answer := true }
      (n < 4 → fails.length < 64 → ∃ s', exec (.drinyxUnitReceive p u) s = .next s' ∧ s'.pkg.ports[p]? = some q' ∧ s'.packets = s.packets) ∧
      (4 ≤ n ∨ 64 ≤ fails.length → ∃ s', exec (.drinyxUnitReceive p u) s = .next s' ∧ s'.pkg.ports[p]? = some { q' with up := false, locked := true, reported := false, lockedAt := s.time } ∧
        s'.packets = s.packets ∧ Reported s s' unit 9 0x61 2 p 0)) ∧
    (∀ seq, let n := (q.unacked.filter (fun u => decide (seq ≤ u.seq))).length
      (n = 0 → exec (.drinyxReplayRequest p seq) s = .next s) ∧
      (n ≠ 0 → ∃ s', exec (.drinyxReplayRequest p seq) s = .next s' ∧ s'.pkg.ports = s.pkg.ports ∧ Reported s s' unit 9 0x60 1 p n)) ∧
    (let flits := (q.waiting.map (·.flits)).sum
      let wants (b : Nat) : Nat := ((q.waiting.filter (fun x => 2 * x.cls + x.dvc % 2 == b)).map (·.flits)).sum
      (¬ Open q ∨ rekeyDue q = true ∨ 128 ≤ q.unacked.length → q.cfg.getLsbD 31 = false ∨ q.locked = false ∨ q.reported = true → exec .drinyxPartialUnit s0 = .next s0) ∧
      (q.cfg.getLsbD 31 = true → q.locked = true → q.reported = false → q.unacked.length ≤ 126 → ∃ s' q' u v, exec .drinyxPartialUnit s0 = .next s' ∧ s'.pkg.ports[p]? = some q' ∧
        q'.reported = true ∧ q'.waiting = q.waiting ∧ q'.unacked = q.unacked ++ [u, v] ∧ u.seq = q.sendSeq % 2 ^ 48 ∧ v.seq = (q.sendSeq + 1) % 2 ^ 48 ∧
        (u.slots ++ v.slots).length = 8 ∧ ((u.slots ++ v.slots).map (fun x => match x with | .control _ _ _ y => y.length | _ => 0)).sum = 272) ∧
      (∀ x, q.locked = false ∨ q.reported = true → controlDue q = [] → q.waiting = [x] → q.credits.getD (2 * x.cls + x.dvc % 2) 0 < x.flits → exec .drinyxPartialUnit s0 = .next s0) ∧
      (Open q → rekeyDue q = false → q.unacked.length < 128 → controlDue q = [] → (∀ x ∈ q.waiting, 1 ≤ x.flits) → flits ≤ (128 - q.unacked.length) * 4 →
        (∀ b, wants b ≤ q.credits.getD b 0) → ∃ s' us q', exec .drinyxPartialUnit s0 = .next s' ∧ s'.pkg.ports[p]? = some q' ∧ q'.waiting = [] ∧ q'.unacked = q.unacked ++ us ∧
        q'.sendSeq = (q.sendSeq + us.length) % 2 ^ 48 ∧ us.length = (flits + 3) / 4 ∧ us.map (·.seq) = (List.range us.length).map (fun i => (q.sendSeq + i) % 2 ^ 48) ∧
        us.flatMap (·.packets) = q.waiting ∧ (∀ u ∈ us, u.slots.length = 4) ∧
        us.flatMap (·.slots) = q.waiting.flatMap (fun x => List.replicate x.flits (.flit x.cls x.dvc none)) ++ List.replicate (4 * us.length - flits) .empty ∧
        ∀ b, q'.credits.getD b 0 = q.credits.getD b 0 - wants b) ∧
      (Open q → rekeyDue q = false → q.unacked.length < 128 → q.answer = true → q.waiting = [] → ∃ s' q', exec .drinyxPartialUnit s0 = .next s' ∧ s'.pkg.ports[p]? = some q' ∧
        q'.unacked = q.unacked ++ [{ seq := q.sendSeq % 2 ^ 48, packets := [], slots := [.control (q.freed.map (min 31)) (if q.acceptSeq = 0 then none else some (q.acceptSeq - 1)) q.replayFrom [],
          .empty, .empty, .empty] }] ∧ q'.answer = false ∧ q'.freed = q.freed.map (· - 31))) ∧
    (∀ ok, (q.locked = false → exec (.reattestationComplete p ok) s = .next s) ∧
      (q.locked = true → ok = true → ∃ s', exec (.reattestationComplete p ok) s = .next s' ∧ Reported s s' unit 9 0x62 1 p 0 ∧
        s'.pkg.ports[p]? = some { q with up := q.cfg.getLsbD 31, locked := false, keys := q.keys + 1, keyUnits := 0, failures := [], fails := [], replayFrom := none, fragments := [] }) ∧
      (q.locked = true → ok = false → ∃ s' q', exec (.reattestationComplete p ok) s = .next s' ∧ Reported s s' unit 9 0x63 2 p 0 ∧ s'.pkg.ports[p]? = some q' ∧
        q'.cfg = q.cfg &&& 0x7FFFFFFF#32 ∧ q'.up = false ∧ q'.locked = false ∧ q'.unacked = [] ∧ q'.waiting = [] ∧
        ∀ x ∈ q.unacked.flatMap (·.packets) ++ q.waiting, InFlight s' (fun r => { r with dvc := x.dvc } = x))) ∧
    (¬ (q.locked = true ∧ q.lockedAt + 10000000 ≤ s.time) → exec .reattestationTimeout s0 = .next s0) ∧
    (q.locked = true → q.lockedAt + 10000000 ≤ s.time → exec .reattestationTimeout s0 = exec (.reattestationComplete p false) s0) ∧
    (q.up = true → exec .sessionRekey s0 = .next (s0.updPkg (fun k => { k with ports := k.ports.set p { q with keys := q.keys + 1, keyUnits := 0 } }))) ∧
    (q.up = false → exec .sessionRekey s0 = .next s0) ∧
    (∀ farPackage farPort ok,
      (q.cfg.getLsbD 31 = false ∨ q.up = true ∨ q.locked = true → exec (.portTraining p farPackage farPort ok) s = .next s) ∧
      (q.cfg.getLsbD 31 = true → q.up = false → q.locked = false →
        (ok = false → ∃ s', exec (.portTraining p farPackage farPort ok) s = .next s' ∧ s'.pkg.ports = s.pkg.ports ∧ Reported s s' unit 9 0x88 2 p 0) ∧
        (ok = true → farPackage = q.cfg.toNat % 2 ^ 8 → ∃ s' q', exec (.portTraining p farPackage farPort ok) s = .next s' ∧ s'.pkg.ports[p]? = some q' ∧ q'.up = true ∧ q'.sendSeq = 0 ∧
          q'.acceptSeq = 0 ∧ q'.credits = List.replicate 12 16 ∧ q'.keys = q.keys + 1 ∧ q'.farPort = farPort % 16 ∧ q'.farPackage = farPackage) ∧
        (ok = true → farPackage ≠ q.cfg.toNat % 2 ^ 8 → ∃ s' q', exec (.portTraining p farPackage farPort ok) s = .next s' ∧ s'.pkg.ports[p]? = some q' ∧ q'.up = false ∧ q'.keys = q.keys)))

/-- R424, R429, R432, R434, R435, R438, R440, R445, R450: a die that answers no heartbeats, reports a fault of the highest severity or loses a link is lost and fenced; once every die has the fence it is drained:
nothing stands on it, its queues are adopted or wait, its teams run again; it rejoins with its next incarnation; a package that cannot be reached is lost whole. -/
def Obligations.LostDiesAreFencedDrainedAndRejoin : Prop :=
  ∀ (s : State) (d : Nat), s.obj = d →
    (∀ link, linkDie link = d → let key := linkKey link
      let n := match s.pkg.crc.find key with
        | some (n, t) => if s.time < t + 1000 then n + 1 else 1
        | none => 1
      (n < 17 → exec (.meshFlitCrcFail link) s = .next ((s.updPkg (fun k => { k with crc := k.crc.put key (n, s.time) })).corrected (endpoint d 121) 8 0x64 d 1)) ∧
      (17 ≤ n → InService s d → ∃ s', exec (.meshFlitCrcFail link) s = .next s' ∧ Fenced s s' d false)) ∧
    (s.time < s.pkg.dieBeatAt + 10000 → exec .dieHeartbeat { s with obj := 0 } = .next { s with obj := 0 }) ∧
    (s.pkg.dieBeatAt + 10000 ≤ s.time → s.host.serving < 24 → (s.die s.host.serving).present = true → ∃ s', exec .dieHeartbeat { s with obj := 0 } = .next s' ∧ s'.pkg.dieBeatAt = s.time ∧ ∀ e, e < 24 → (s.die e).present = true →
      (s'.die e).missed = (s.die e).missed + 1 ∧ Control s' (endpoint s.host.serving 121) (endpoint e 127) 0x0C (.systemControl 1 [])) ∧
    (∀ p l, d ≠ 0 → AtHand s p → ¬ Stale s p → p.body = .systemControl 1 l → epPackage p.src = Config.package → (s.die (epDie p.src)).present = true →
      ∃ s', exec .dieHeartbeat s = .next s' ∧ Control s' p.dst p.src 0x0C (.systemControl 2 [])) ∧
    (∀ p l, AtHand s p → ¬ Stale s p → p.body = .systemControl 2 l → exec .heartbeatAnswer s = .next ((gone s).updDie (epDie p.src) (fun x => { x with missed := 0 }))) ∧
    ((s.die d).missed < 5 → exec .dieHeartbeatMissed s = .next s) ∧
    (5 ≤ (s.die d).missed → InService s d → ∃ s', exec .dieHeartbeatMissed s = .next s' ∧ Fenced s s' d true) ∧
    (InService s d → ∃ s', exec .dieLost s = .next s' ∧ Fenced s s' d true) ∧
    (NotLost s d → exec .dieLost s = .next s) ∧
    ((s.die d).loss ≠ .fence ∨ fenced s d = false → exec .dieDrained s = .next s) ∧
    ((s.die d).loss = .fence → (s.die d).present = false → fenced s d = true → d < 24 → ∃ s', exec .dieDrained s = .next s' ∧
      (s'.die d).loss = (if (s.die d).tryReset then .resetting else .absent) ∧ (∀ m ∈ NMap.vals s'.teams, epDie m.core ≠ d) ∧ (∀ t ∈ NMap.vals s'.threads, epDie t.core ≠ d) ∧
      (∀ e c, s.cores.find e = some c → epDie e = d → ∀ q, q < 4 → (c.queue q).bound = true →
        (e, q, c.queue q) ∈ s'.pkg.orphans ∨ ∃ e', (e, q, e') ∈ s'.pkg.adopted ∧ epDie e' ≠ d ∧ ((s'.core e').queue q).bound = true ∧ ((s'.core e').queue q).image = (c.queue q).image) ∧
      (∀ m g x, m ∈ NMap.vals s.teams → epDie m.core = d → m.engine = false → m.grid = some g → s.grids.find g = some x →
        ∃ x', s'.grids.find g = some x' ∧ (match m.cluster with | some (c, _) => c | none => m.teamid) ∈ x'.again ∧ Reported s s' (endpoint s.host.serving 121) 0 0x6D 1 d 1) ∧
      (∀ e, ∀ w ∈ (s'.die e).waiters, homeDie w.1 = e → w.1 ∉ brokenSteps s)) ∧
    (∀ passed, (s.die d).loss ≠ .resetting → exec (.dieRejoin d passed) s = .next s) ∧
    ((s.die d).loss = .resetting → exec (.dieRejoin d false) s = .next (s.updDie d (fun x => { x with loss := .absent }))) ∧
    (let inc := (if (s.die d).inc % 256 = 255 then 1 else (s.die d).inc % 256 + 1);
      (s.die d).loss = .resetting → d < 24 → ∃ s', exec (.dieRejoin d true) s = .next s' ∧ (s'.die d).present = true ∧ (s'.die d).loss = .serving ∧ (s'.die d).inc = inc ∧
        (s'.die d).enabled = (s.die d).enabled ∧ (resetUnderWay s d = false → s.host.serving ≠ d → Reported s s' (endpoint s.host.serving 121) 0 0x89 1 (d + inc * 256) 0) ∧ ∀ e, e < 24 → (s.die e).present = true ∨ e = d → Control s' (endpoint d 127) (endpoint e 127) 0x09 (.incarnationUpdate d inc)) ∧
    (d = Config.package ∨ d ∈ s.pkg.unreachable → exec .packageUnreachable s = .next s) ∧
    (d ≠ Config.package → d ∉ s.pkg.unreachable → ∃ s', exec .packageUnreachable s = .next s' ∧ d ∈ s'.pkg.unreachable ∧ s'.pkg.beats.find d = none ∧
      Reported s s' (endpoint s.host.serving 121) 9 0x6E 3 d 0 ∧ ∀ g e, g = 22 ∨ g = 23 → e < 32 → ((s'.die g).known.find (d * 32 + e)).getD 0 = 0)

/-! ## View domains -/

namespace Sys2Proof.Claims

/-- Package of a member of a view domain. -/
def packageOf (d : Domain) (i : Nat) : Nat := (d.members.getD i (0, 0)).1

/-- The member leads its domain: the lowest one that is live and not known to be lost (R159, R446). -/
def Leads (s : State) (d : Domain) (i : Nat) : Prop :=
  let able (j : Nat) : Prop := d.set.getD j false = true ∧ (j, false) ∉ d.wanted ∧ packageOf d j ∉ s.pkg.unreachable
  i < d.members.length ∧ able i ∧ ∀ j, j < i → ¬ able j

/-- This package's Chalumeau leads the domain. -/
def Ours (s : State) (d : Domain) : Prop := ∃ i, Leads s d i ∧ packageOf d i = Config.package

/-- A view-protocol message to another package is on its way. -/
def ViewSent (s s' : State) (pkg message dom view : Nat) (set : List Bool) (member : Nat) : Prop :=
  Control s' (endpoint s.pkg.chalumeau 125) (pkg * 4096 + 22 * 128 + 125) 0x0A (.viewProtocol message dom view set member)

/-- The other packages that can be reached and have a member in a set. -/
def Hosts (s : State) (d : Domain) (set : List Bool) (pkg : Nat) : Prop :=
  pkg ≠ Config.package ∧ pkg ∉ s.pkg.unreachable ∧ ∃ i, i < d.members.length ∧ i < set.length ∧ set.getD i false = true ∧ packageOf d i = pkg

/-- A view and its set are installed: in every present die, with event 0x69; what was assembled in the old view is gone. -/
def Installed (s s' : State) (dom : Nat) (d : Domain) (view : Nat) (set : List Bool) : Prop :=
  (∃ d', domainOf s' dom = some d' ∧ d'.view = view ∧ d'.set = set ∧ d'.phase = .installing ∧ d'.members = d.members ∧ d'.blocks = [] ∧ d'.assigned = [] ∧
    (∀ e, e ∈ d'.installs ↔ e < 24 ∧ (s.die e).present = true) ∧ d'.wanted = d.wanted.filter (fun w => set.getD w.1 false != w.2)) ∧
  (∀ e, e < 24 → (s.die e).present = true → viewAt s' e dom = view) ∧
  Reported s s' (endpoint s.pkg.chalumeau 125) 0 0x69 1 view (set.filter (fun b => b)).length

/-- A coordinator's proposal goes to every other package of the new set, or is committed at once where there is none. -/
def Proposed (s s' : State) (dom : Nat) (d : Domain) : Prop :=
  let set := d.wanted.foldl (fun l w => l.set w.1 w.2) d.set
  let view := (d.view + 1) % 2 ^ 24
  ((∃ pkg, Hosts s d set pkg) → ∃ d', domainOf s' dom = some d' ∧ d'.phase = .proposing ∧ d'.propView = view ∧ d'.propSet = set ∧ d'.view = d.view ∧ d'.set = d.set ∧
    d'.wanted = d.wanted ∧ (∀ pkg, pkg ∈ d'.accepts ↔ Hosts s d set pkg) ∧ ∀ pkg, Hosts s d set pkg → ViewSent s s' pkg 0 dom view set 0) ∧
  ((∀ pkg, ¬ Hosts s d set pkg) → Installed s s' dom d view set)

/-- A change of a member's place in the set is wanted, and proposed where this package leads a stable domain. -/
def Wanted (s s' : State) (dom : Nat) (d : Domain) (i : Nat) (join : Bool) : Prop :=
  let d1 := { d with wanted := d.wanted.filter (fun w => w.1 != i) ++ [(i, join)] }
  (Ours s d1 ∧ d1.phase = .stable → Proposed s s' dom d1) ∧ (¬ (Ours s d1 ∧ d1.phase = .stable) → domainOf s' dom = some d1)

/-- Nothing is changed by a wanted change: it is noted already, or the member stands so, or the domain has no such member. -/
def Settled (d : Domain) (i : Nat) (join : Bool) : Prop := d.members.length ≤ i ∨ d.set.getD i false = join ∨ (i, join) ∈ d.wanted

end Sys2Proof.Claims

/-- R158, R159, R160, R432, R446 to R449: a wanted change of the membership is proposed by the lowest live member's package, accepted or rejected by the others, committed when all have
accepted, and installed in every die; heartbeats tell which packages are there, and a package whose heartbeats stop is lost. -/
def Obligations.ViewsChangeByProposalAndCommit : Prop :=
  ∀ (s : State) (p : Packet) (dom view i : Nat) (set : List Bool) (d : Domain), let g := gone s; let pkg := epPackage p.src
    let old (d : Domain) : Nat := ((List.range d.members.length).find? (fun j => d.set.getD j false && packageOf d j == pkg)).getD 256
    let takes (m : Nat) : Prop := AtHand s p ∧ ¬ Stale s p ∧ p.body = .viewProtocol m dom view set i ∧ domainOf s dom = some d
    let next := (d.view + 1) % 2 ^ 24
    (takes 0 → (view = next → d.phase = .stable ∨ (d.phase = .prepared ∨ d.phase = .proposing) ∧ old d ≤ d.propFrom → pkg ≠ Config.package → ∃ s', exec .viewPropose s = .next s' ∧
        domainOf s' dom = some { d with phase := .prepared, propView := view, propSet := set, propFrom := old d, accepts := [] } ∧ ViewSent s s' pkg 1 dom view [] 0) ∧
      (view = next → d.phase = .prepared ∨ d.phase = .proposing → d.propFrom < old d → pkg ≠ Config.package → ∃ s', exec .viewPropose s = .next s' ∧
        domainOf s' dom = some d ∧ ViewSent s s' pkg 2 dom view [] 0) ∧
      (view ≠ next ∨ d.phase = .installing → exec .viewPropose s = .next g)) ∧
    (takes 1 → let left := d.accepts.filter (fun x => x != pkg)
      (d.phase ≠ .proposing ∨ d.propView ≠ view → exec .viewAccept s = .next g) ∧
      (d.phase = .proposing → d.propView = view → left ≠ [] → ∃ s', exec .viewAccept s = .next s' ∧ domainOf s' dom = some { d with accepts := left } ∧ s'.packets = g.packets) ∧
      (d.phase = .proposing → d.propView = view → left = [] → ∃ s', exec .viewAccept s = .next s' ∧ Installed s s' dom d view d.propSet ∧
        ∀ n, Hosts s d d.set n ∨ Hosts s d d.propSet n → ViewSent s s' n 3 dom view d.propSet 0)) ∧
    (takes 2 → (d.phase = .proposing → d.propView = view → ∃ s', exec .viewReject s = .next s' ∧ domainOf s' dom = some { d with phase := .prepared, accepts := [] } ∧ s'.packets = g.packets) ∧
      (d.phase ≠ .proposing ∨ d.propView ≠ view → exec .viewReject s = .next g)) ∧
    (takes 3 → (view = next → ∃ s', exec .viewCommit s = .next s' ∧ Installed s s' dom d view set) ∧ (view ≠ next → exec .viewCommit s = .next g)) ∧
    (takes 4 → (Settled d i true → exec .viewJoin s = .next g) ∧ (¬ Settled d i true → ∃ s', exec .viewJoin s = .next s' ∧ Wanted s s' dom d i true)) ∧
    (takes 5 → (Settled d i false → exec .lossReport s = .next g) ∧ (¬ Settled d i false → ∃ s', exec .lossReport s = .next s' ∧ Wanted s s' dom d i false)) ∧
    (takes 6 → exec .chalumeauHeartbeatArrival s = .next (g.updPkg (fun k => { k with beats := k.beats.put pkg s.time }))) ∧
    (let other (n : Nat) : Prop := n ≠ Config.package ∧ ∃ x ∈ s.pkg.domains, ∃ m ∈ x.2.members, m.1 = n;
      (s.time < s.pkg.beatAt + 10000 ∨ (∀ n, ¬ other n) → exec .chalumeauHeartbeat s = .next s) ∧
      (s.pkg.beatAt + 10000 ≤ s.time → (∃ n, other n) → ∃ s', exec .chalumeauHeartbeat s = .next s' ∧ s'.pkg.beatAt = s.time ∧ ∀ n, other n → ViewSent s s' n 6 0 0 [] 0 ∧
        s'.pkg.beats.find n = (match s.pkg.beats.find n with | some t => some t | none => if n ∈ s.pkg.unreachable then none else some s.time))) ∧
    (¬ (∃ t, s.pkg.beats.find s.obj = some t ∧ t + 50000 ≤ s.time) → exec .chalumeauHeartbeatLoss s = .next s) ∧
    (∀ t, s.pkg.beats.find s.obj = some t → t + 50000 ≤ s.time → ∃ s', exec .chalumeauHeartbeatLoss s = .next s' ∧ s'.pkg.beats.find s.obj = none ∧
      s'.agenda.head? = some (.event .packageUnreachable s.obj) ∧
      ∀ n e j, domainOf s n = some e → j < e.members.length → packageOf e j = s.obj → ∃ e', domainOf s' n = some e' ∧ ((j, false) ∈ e'.wanted ∨ e'.set.getD j false = false)) ∧
    (domainOf s dom = some d → ∀ die, let left := d.installs.filter (fun x => x != die); let d1 := { d with installs := left, phase := .stable }
      (d.phase ≠ .installing ∨ die ∉ d.installs → exec (.viewInstallAcknowledgment dom die) s = .next s) ∧
      (d.phase = .installing → die ∈ d.installs → left ≠ [] → ∃ s', exec (.viewInstallAcknowledgment dom die) s = .next s' ∧ domainOf s' dom = some { d with installs := left }) ∧
      (d.phase = .installing → die ∈ d.installs → left = [] → ∃ s', exec (.viewInstallAcknowledgment dom die) s = .next s' ∧
        (d.wanted = [] ∨ ¬ Ours s d1 → domainOf s' dom = some d1) ∧ (d.wanted ≠ [] → Ours s d1 → Proposed s s' dom d1)))

/-! ## Registers, the host port, events and power -/

namespace Sys2Proof.Claims

/-- Bytes of plain memory of this package in one line, that serve and hold no error. -/
def HostBytes (s : State) (pa n : Nat) : Prop :=
  0 < n ∧ pa / 128 = (pa + n - 1) / 128 ∧ pa + n ≤ 2 ^ 44 ∧ (regionOf pa = .hbm ∨ regionOf pa = .lpddr) ∧ memoryOn s pa = true ∧ Plain s pa n

/-- An access of firmware or the host at its home: the line is then in the L2 (R67). -/
def visited (s : State) (pa : Nat) : State := touchL2 s pa 0

/-- The state after a write of firmware or the host. -/
def putAt (s : State) (pa : Nat) (bs : List Byte) : State := homeWrite (visited s pa) pa bs

/-- The incarnation of a record's die is the one that the fault unit holds for it. -/
def Current (s : State) (r : List Byte) : Prop :=
  ((s.die s.host.gateway).known.find (Config.package * 32 + field r 8 4 % 2 ^ 20 / 128 % 32)).getD 0 = field r 8 4 / 2 ^ 20 % 256

/-- Boot stops at a step with a code (R372). -/
def Halts (x : State) (st code k : Nat) : Prop :=
  x.host.bootstat.toNat = 0x40000000 + st * 65536 + code * 256 + k % 256 ∧ x.host.boot = none ∧ x.host.links = [x.host.gateway]

/-- A core die stays in the part: 72 of its positions pass, and it is not cut off (R373). -/
def Stays (b : BootOutcome) (d : Nat) : Prop := 72 ≤ (List.range 80).countP (fun c => !b.failing.contains (d, c)) ∧ d ∉ b.cutOff

/-- A message to the host: out, or held in order while the link is down. -/
def heldOrSent (h : HostPort) (m : HostMessage) : HostPort :=
  if h.gateway ∈ h.links then { h with toHost := m :: h.toHost } else { h with held := h.held ++ [m] }

/-- Boot has stopped, or the host's link is down. -/
def HostGone (s : State) : Prop := s.host.bootstat.getLsbD 30 = true ∨ s.host.gateway ∉ s.host.links

/-- A record as it is written: LOST is set where records of its source were lost. -/
def ringBytes (h : HostPort) (r : List Byte) : List Byte :=
  if field r 8 4 % 2 ^ 20 ∈ h.lost then patch r 15 [BitVec.ofNat 8 (field r 15 1) ||| 1#8] else r

/-- Slots of the event ring. -/
def ringSlots (h : HostPort) : Nat := 2 ^ (h.evbase.toNat % 32)

/-- The vector that a record signals (R366). -/
def vectorOf (r : List Byte) : Nat := if field r 14 1 = 3 then 40 else if field r 14 1 = 4 then 41 else 16 + field r 8 4 % 2 ^ 20 / 128 % 32

end Sys2Proof.Claims

/-- R47, R48, R122, R120, R155, R163, R165, R340, R346, R352, R366, R397, R404: a register that is written holds its fields and reads back as them; counters clear on command; a write through the host's window is
the same write; while a slice serves only DSIZE, FQHEAD and REPAGE take writes. -/
def Obligations.RegistersTakeTheirFields : Prop :=
  ∀ (s : State) (ep : Nat) (v : Word) (x : DWord),
    let w (off : Nat) : Host.Outcome State Fault Refusal := exec (.registerWrite ep off (leBytes 4 v.toNat)) s
    (∃ s', exec (.perfsel ep v) s = .next s' ∧ (s'.core ep).perfsel = v ∧ ∀ n, n < 8 → (s'.core ep).perf.getD n 0#64 =
      if v.toNat / 16 ^ n % 16 = (s.core ep).perfsel.toNat / 16 ^ n % 16 then (s.core ep).perf.getD n 0#64 else 0#64) ∧
    (∃ s', exec (.perfclr ep v) s = .next s' ∧ (s'.core ep).perfsel = (s.core ep).perfsel ∧ ∀ n, n < 8 → (s'.core ep).perf.getD n 0#64 = if v.getLsbD n then 0#64 else (s.core ep).perf.getD n 0#64) ∧
    (∃ s', exec (.mxclr ep v) s = .next s' ∧ ∀ n, n < 4 → (s'.core ep).mxexc.toNat / 2 ^ (16 * n) % 2 ^ 16 = if v.getLsbD n then 0 else (s.core ep).mxexc.toNat / 2 ^ (16 * n) % 2 ^ 16) ∧
    exec (.evhead v) s = .next (s.updHost (fun h => { h with evhead := v })) ∧
    (∀ q r, s.host.rings[q]? = some r → ∃ s', exec (.crbase q x) s = .next s' ∧ s'.host.rings = s.host.rings.set q { r with base := x &&& 0x000FFFFFFFFFF11F#64 } ∧
      s'.host.command = s.host.command) ∧
    (s.isCore ep = true → epPackage ep = Config.package → epDie ep < 24 → (s.die (epDie ep)).present = true →
      w 0x000 = .next (s.updCore ep (fun c => { c with xctl := v &&& 0xFFFF01FF#32 })) ∧ w 0x004 = .next (s.updCore ep (fun c => { c with pdline := v &&& 0x00FFFFFF#32 })) ∧
      w 0x040 = .next (s.updCore ep (fun c => { c with spool := v &&& 0x03FF01FF#32 })) ∧ w 0x044 = .next (s.updCore ep (fun c => { c with qdepth := v })) ∧
      w 0x04C = .next (s.updCore ep (fun c => { c with allowcfg := v &&& 0x03FF000F#32 })) ∧ w 0x080 = .next (s.updCore ep (fun c => { c with fewait := v &&& 0x00FFFFFF#32 })) ∧
      exec (.registerWrite ep 0x050 (leBytes 8 x.toNat)) s = .next (s.updCore ep (fun c => { c with tvec := x &&& 0x00FFFFFFFFFFFFFC#64 })) ∧
      w 0x060 = exec (.perfsel ep v) s ∧ w 0x064 = exec (.perfclr ep v) s ∧ w 0x078 = exec (.mxclr ep v) s ∧
      w 0x00C = .next s ∧ w 0x048 = .next s ∧ w 0x084 = .next s ∧
      (∀ off f, (off, f) ∈ [(0x000, fun (c : Core) => c.xctl), (0x004, fun c => c.pdline), (0x040, fun c => c.spool), (0x044, fun c => c.qdepth), (0x04C, fun c => c.allowcfg), (0x060, fun c => c.perfsel),
        (0x080, fun c => c.fewait)] → windowRead s ep off 4 = leBytes 4 (f (s.core ep)).toNat) ∧
      windowRead s ep 0x050 8 = leBytes 8 (s.core ep).tvec.toNat ∧ windowRead s ep 0x070 8 = leBytes 8 (s.core ep).mxexc.toNat) ∧
    (∀ i, i < 6 → ep = endpoint (16 + i) 125 → (s.die (16 + i)).present = true → let on := (s.slice i).dsize.getLsbD 31
      (on = true → ∀ off, off ∈ [0x00, 0x28, 0x34] → w off = .next s) ∧
      (on = false → w 0x00 = .next (s.updSlice i (fun y => { y with dctl := v })) ∧
        exec (.registerWrite ep 0x08 (leBytes 8 x.toNat)) s = .next (s.updSlice i (fun y => { y with ttbase := x &&& 0x000FFFFFFFFFF000#64 })) ∧
        exec (.registerWrite ep 0x10 (leBytes 8 x.toNat)) s = .next (s.updSlice i (fun y => { y with plbase := x &&& 0x000FFFFFFFFFF000#64 })) ∧
        exec (.registerWrite ep 0x18 (leBytes 8 x.toNat)) s = .next (s.updSlice i (fun y => { y with fqbase := x &&& 0x000FFFFFFFFFF000#64 })) ∧
        exec (.registerWrite ep 0x30 (leBytes 8 x.toNat)) s = .next (s.updSlice i (fun y => { y with pkbase := x &&& 0x000FFFFFFFFFF000#64 }))) ∧
      w 0x20 = .next (s.updSlice i (fun y => { y with fqhead := v })) ∧ w 0x04 = exec (.dsize i v) s ∧ w 0x40 = exec (.repage i v) s ∧
      windowRead s ep 0x04 4 = leBytes 4 (s.slice i).dsize.toNat ∧ windowRead s ep 0x24 4 = leBytes 4 (s.slice i).fqtail.toNat) ∧
    (∀ d, d < 24 → (s.die d).present = true → ep = endpoint d 127 → windowRead s ep 0 4 = leBytes 4 (s.die d).inc ∧ w 0 = .next s ∧
      ∀ n q, d = 22 ∨ d = 23 → n < 8 → s.pkg.ports[(d - 22) * 8 + n]? = some q → w (0x100 + 4 * n) =
        .next (sendHeld (s.updPkg (fun k => { k with ports := k.ports.set ((d - 22) * 8 + n) { q with cfg := v &&& 0x800101FF#32, up := q.up && v.getLsbD 31 } })))) ∧
    (∀ d, d = 22 ∨ d = 23 → (s.die d).present = true → ep = endpoint d 122 → w 0x08C = exec (.evhead v) s ∧ w 0x040 = .next s ∧
      ∀ q, q < 16 → exec (.registerWrite ep (0x100 + 16 * q) (leBytes 8 x.toNat)) s = exec (.crbase q x) s) ∧
    (∀ off data, ¬ HostGone s → s.host.posted = [] → windowWrite s ep (hostWriter s) off data ≠ none → 22 ≤ epDie ep → epDie ep < 24 → epPackage ep = 0 → 0 < data.length → off + data.length ≤ 0x10000 →
      exec (.hostPostedWrite (0xF0000000000 + epDie ep * 0x1000000 + epLocal ep * 0x10000 + off) data false) s = exec (.registerWrite ep off data) s)

/-- R7, R96, R162, R163, R176, R364 to R366, R369 to R373, R375: host writes and reads of memory, the host's link, event records in their ring, service-core takeover, the lifetime fold, temperature and
supply, and a reset of the package. -/
def Obligations.HostEventsPowerAndReset : Prop :=
  ∀ (s : State) (pa n : Nat) (data : List Byte) (b : BootOutcome), let h := s.host; let unit := endpoint h.gateway 121
    (h.posted = [] →
      (∀ poisoned, HostGone s → exec (.hostPostedWrite pa data poisoned) s = .next s) ∧
      (¬ HostGone s → ∃ s', exec (.hostPostedWrite pa data true) s = .next s' ∧ s'.mem = s.mem ∧ Reported s s' unit 10 0x82 2 pa 0) ∧
      (¬ HostGone s → HostBytes s pa data.length → pa + data.length ≤ 2 ^ 40 → exec (.hostPostedWrite pa data false) s = .next (putAt s pa data)) ∧
      (¬ HostGone s → HostBytes s pa n → pa + n ≤ 2 ^ 40 →
        exec (.hostRead pa n) s = .next ((visited s pa).updHost (fun h => heldOrSent h (.completion pa (s.read pa n))))) ∧
      (¬ HostGone s → 2 ^ 40 < pa + n → pa < 0xF0016000000 →
        ∃ s', exec (.hostRead pa n) s = .next s' ∧ s'.host = heldOrSent h (.unsupported pa) ∧ s'.mem = s.mem ∧ Reported s s' unit 10 0x83 2 pa 0)) ∧
    (¬ h.gateway ∈ h.links → exec (.hostRead pa n) s = .next s ∧ ∀ poisoned, exec (.hostPostedWrite pa data poisoned) s = .next s) ∧
    (∀ ep off, h.posted = [] → ¬ HostGone s → hostTarget s pa data.length = .register ep off → windowWrite s ep (hostWriter s) off data = none →
      exec (.hostPostedWrite pa data false) s = .next (s.updHost (fun h => { h with posted := [.write pa data false] }))) ∧
    (let g := (if s.obj = 22 ∨ s.obj = 23 then s.obj else h.gateway);
      (g ∉ h.links → exec .hostLinkDown s = .next s) ∧
      (g ∈ h.links → ∃ s', exec .hostLinkDown s = .next s' ∧ s'.host.links = h.links.filter (fun x => x != g) ∧ (g = h.gateway → s'.host.downAt = s.time ∧ Reported s s' unit 10 0x80 2 0 0)) ∧
      (g ∈ h.links ∨ (s.die g).present = false → exec .hostLinkRetrained s = .next s) ∧
      (g ∉ h.links → (s.die g).present = true → ∃ s', exec .hostLinkRetrained s = .next s' ∧ g ∈ s'.host.links ∧ (g = h.gateway → s'.host.held = [] ∧ s'.host.toHost = h.held.reverse ++ h.toHost ∧
        ((s.die h.gateway).reports.find 10 = none → Reported s s' unit 10 0x81 0 0 (s.time - h.downAt))))) ∧
    exec .hostLinkCorrectedError s = .next (s.corrected unit 10 0x81 0 1) ∧
    (let full := (h.evbase.getLsbD 8 = false ∨ ringSlots h ≤ (h.evtail - h.evhead).toNat); let slot := h.evbase.toNat / 2 ^ 12 % 2 ^ 40 * 4096 + h.evtail.toNat % ringSlots h * 32
      (h.holding = [] → s.events = [] → exec .eventRecordWrite s = .next s) ∧
      (∀ e es, h.holding = [] → s.obj = 0 → s.events = e :: es → Current s e.bytes → e.bytes.length = 32 → ¬ full → HostBytes s slot 32 → ∃ s', exec .eventRecordWrite s = .next s' ∧ s'.events = es ∧
        s'.host = heldOrSent { h with evtail := h.evtail + 1#32, lost := h.lost.filter (fun x => x != field e.bytes 8 4 % 2 ^ 20) } (.vector (vectorOf e.bytes)) ∧ s'.mem = (s.write slot (ringBytes h e.bytes)).mem) ∧
      (∀ r rest, h.holding = r :: rest → r.length = 32 → ¬ full → HostBytes s slot 32 → ∃ s', exec .eventRecordWrite s = .next s' ∧ s'.events = s.events ∧
        s'.host = heldOrSent { h with holding := rest, evtail := h.evtail + 1#32, lost := h.lost.filter (fun x => x != field r 8 4 % 2 ^ 20) } (.vector (vectorOf r)) ∧ s'.mem = (s.write slot (ringBytes h r)).mem) ∧
      (∀ e es, s.obj = 0 → s.events = e :: es → h.holding = [] ∨ full → ¬ Current s e.bytes → ∃ s', exec .eventRecordWrite s = .next s' ∧
        s'.mem = s.mem ∧ s'.host = h ∧ (let key := Config.package * 32 + field e.bytes 8 4 % 2 ^ 20 / 128 % 32; (s'.die h.gateway).stale.find key = some (((s.die h.gateway).stale.find key).getD 0 + 1)) ∧ ∃ l, s'.events = es ++ l ∧ l.length ≤ 1) ∧
      (∀ e e', h.holding = [] → s.obj ≠ 0 → s.events[s.obj]? = some e → e' ∈ s.events.take s.obj → field e'.bytes 8 4 % 2 ^ 20 / 128 % 32 = field e.bytes 8 4 % 2 ^ 20 / 128 % 32 →
        exec .eventRecordWrite s = .next s) ∧
      (∀ e es, s.obj = 0 → s.events = e :: es → Current s e.bytes → full → ∃ s', exec .eventRecordWrite s = .next s' ∧ s'.events = es ∧ s'.mem = s.mem ∧
        (field e.bytes 14 1 < 2 → s'.host = { h with evdrop := h.evdrop + 1#32 }) ∧
        (2 ≤ field e.bytes 14 1 → h.holding.length < 64 → s'.host = { h with holding := h.holding ++ [e.bytes] }) ∧
        (2 ≤ field e.bytes 14 1 → 64 ≤ h.holding.length → s'.host.evdrop = h.evdrop + 1#32 ∧ s'.host.holding = h.holding ∧ field e.bytes 8 4 % 2 ^ 20 ∈ s'.host.lost))) ∧
    (let other := 45 - h.serving;
      (s.obj ≠ 1 → (s.die other).present = false → exec .serviceCoreTakeover s = .next s) ∧
      (s.obj ≠ 1 → (s.die other).present = true → ∃ s', exec .serviceCoreTakeover s = .next s' ∧ s'.host.serving = other ∧ Reported s s' (endpoint other 121) 11 0x85 1 h.serving 0 ∧
        ∀ c, h.command = some c → s'.host.command = if c.opcode = 3 ∨ c.opcode = 8 ∧ (s.die (field c.bytes 17 1)).loss ≠ .serving then some c else none) ∧
      (s.obj = 1 → h.command = none → exec .serviceCoreTakeover s = .next s) ∧
      (∀ c, s.obj = 1 → h.command = some c → ∃ s', exec .serviceCoreTakeover s = .next s' ∧ s'.host.command = if c.opcode = 3 ∨ c.opcode = 8 ∧ (s.die (field c.bytes 17 1)).loss ≠ .serving then some c else none)) ∧
    (s.time < s.pkg.foldAt + 60000000000 → exec .lifetimeFold s = .next s) ∧
    (s.pkg.foldAt + 60000000000 ≤ s.time → (NMap.keys s.pkg.counts).Nodup → ∃ s', exec .lifetimeFold s = .next s' ∧ s'.pkg.counts = [] ∧ s'.pkg.foldAt = s.time ∧ s'.mem = s.mem ∧
      ∀ key, key / 2 ^ 32 ≠ 1 → key / 2 ^ 32 ≠ 2 → key ∈ NMap.keys s.pkg.counts →
        s'.pkg.lifetime.find key = some (min (2 ^ 32 - 1) ((s.pkg.lifetime.find key).getD 0 + (s.pkg.counts.find key).getD 0))) ∧
    (let d := s.obj;
      (24 ≤ d ∨ (s.die d).present = false ∨ (s.die d).throttled = true → exec .temperatureThrottle s = .next s) ∧
      (d < 24 → (s.die d).present = true → (s.die d).throttled = false → ∃ s', exec .temperatureThrottle s = .next s' ∧ (s'.die d).throttled = true ∧ s'.time = s.time ∧ Reported s s' (endpoint d 121) 0 0x8B 1 0 0) ∧
      ((s.die d).throttled = true → exec .temperatureRecover s = .next (s.updDie d (fun x => { x with throttled := false }))) ∧
      ((s.die d).throttled = false → exec .temperatureRecover s = .next s) ∧
      (∃ s', exec .temperatureShutdown s = .next s' ∧ s'.powered = false) ∧
      (∃ s', exec .supplyDroop s = .next s' ∧ (d < 32 → s'.pkg.counts.find (3 * 2 ^ 32 + d * 2 ^ 16) = some ((s.pkg.counts.find (3 * 2 ^ 32 + d * 2 ^ 16)).getD 0 + 1)) ∧ s'.mem = s.mem ∧ s'.threads = s.threads)) ∧
    (s.obj = 0 → ∃ s', exec (.packageReset b) s = .next s' ∧ s'.mem = [] ∧ s'.threads = [] ∧ s'.teams = [] ∧ s'.packets = [] ∧ s'.powered = true ∧ s'.time = s.time ∧
      s'.host.boot = some b ∧ s'.host.bootstat = 0#32 ∧ s'.host.links = []) ∧
    (s.obj ≠ 0 → h.boot = none → exec (.packageReset b) s = .next s) ∧
    (∀ x st, s.obj ≠ 0 → h.boot = some x → st = h.bootstat.toNat / 2 ^ 16 % 16 →
      ∃ s', exec (.packageReset b) s = .next s' ∧ let on := s'.host.bootstat = BitVec.ofNat 32 ((st + 1) * 65536) ∧ s'.host.boot = some x
        (st ∈ [0, 3, 6, 7] → on) ∧ (st = 1 → x.imageOk = true → on) ∧ (st = 1 → x.imageOk = false → Halts s' 1 0x86 0) ∧
        (st = 2 → x.badStack = none → on) ∧ (∀ k, st = 2 → x.badStack = some k → Halts s' 2 0x86 k) ∧
        (st = 4 → (∀ d, d < 16 → ¬ Stays x d) → Halts s' 4 0x87 0) ∧
        (st = 4 → (∃ d, d < 16 ∧ Stays x d) → on ∧ ∀ d, d < 24 → ((s'.die d).present = true ↔ 16 ≤ d ∨ Stays x d) ∧ ((s'.die d).inc = if (s'.die d).present then 1 else 0) ∧
          (d < 16 → (s'.die d).present = true → (s'.die d).enabled.length = 72 ∧ ∀ c ∈ (s'.die d).enabled, (d, c) ∉ x.failing ∧ c < 80)) ∧
        (st = 5 → x.connected = true → on) ∧ (st = 5 → x.connected = false → Halts s' 5 0x86 0) ∧
        (8 ≤ st → x.hostPortOk = true → s'.host.bootstat = 0x80080000#32 ∧ s'.host.boot = none ∧ s'.host.links = [h.gateway]) ∧
        (8 ≤ st → x.hostPortOk = false → s' = s.updHost (fun h => { h with boot := none })))

/-! ## Plaod commands -/

namespace Sys2Proof.Claims

/-- Flags, mask word and the listed bytes of a command are clear. -/
def Blank (c : Command) (l : List (Nat × Nat)) : Prop := field c.bytes 2 2 = 0 ∧ field c.bytes 8 4 < 2 ^ 26 ∧ ∀ p ∈ l, field c.bytes p.1 p.2 = 0

/-- Ring q, and what is read of it: LOG2, base address, whether it holds a command. -/
def ring (s : State) (q : Nat) : Ring := s.host.rings.getD q default
/-- Slots of a ring. -/
def slotsOf (r : Ring) : Nat := 2 ^ (r.base.toNat % 32)
/-- Base address of a ring. -/
def ringBase (r : Ring) : Nat := r.base.toNat / 2 ^ 12 % 2 ^ 40 * 4096
/-- A ring has a command that firmware has not read. -/
def HasCommand (s : State) (q : Nat) : Prop := (ring s q).base.getLsbD 8 = true ∧ (ring s q).head ≠ (ring s q).tail

/-- Firmware serves commands. -/
def FirmwareServes (s : State) : Prop := s.host.bootstat.getLsbD 31 = true ∧ (s.die s.host.serving).present = true

/-- The ring whose turn it is: in order from the next one, the first that holds a command. -/
def Turn (s : State) (q : Nat) : Prop :=
  ∃ i, i < 16 ∧ q = (s.host.nextRing + i) % 16 ∧ HasCommand s q ∧ ∀ j, j < i → ¬ HasCommand s ((s.host.nextRing + j) % 16)

/-- The command that firmware has in hand: the one in progress, else the next one of the ring whose turn it is. -/
def InHand (s : State) (c : Command) : Prop :=
  FirmwareServes s ∧ s.host.rings.length = 16 ∧ c.ring < 16 ∧ (s.host.command = some c ∨
    (s.host.command = none ∧ Turn s c.ring ∧ c.seq = (ring s c.ring).head.toNat ∧ c.waits = [] ∧ c.undo = none ∧
      (let a := ringBase (ring s c.ring) + c.seq % slotsOf (ring s c.ring) * 64; HostBytes s a 64 ∧ c.bytes = s.read a 64)))

/-- The state in which a command in hand is carried out: one read just now has been at its home. -/
def handed (s : State) (c : Command) : State :=
  if s.host.command.isSome then s else visited s (ringBase (ring s c.ring) + c.seq % slotsOf (ring s c.ring) * 64)

/-- Where the completion of a command goes. -/
def completionAt (s : State) (c : Command) : Nat := ringBase (ring s c.ring) + slotsOf (ring s c.ring) * 64 + c.seq % slotsOf (ring s c.ring) * 16

/-- The state after a command has completed: completion written, vector signalled, CRHEAD past it, the next ring's turn. -/
def finished (s : State) (c : Command) (status : Nat) : State :=
  (putAt s (completionAt s c) (leBytes 4 (field c.bytes 4 4) ++ leBytes 2 status ++ leBytes 2 (field c.bytes 0 2) ++ leBytes 8 s.time)).updHost (fun h =>
    { heldOrSent h (.vector c.ring) with
        rings := h.rings.set c.ring { ring s c.ring with head := BitVec.ofNat 32 (c.seq + 1) }, command := none, nextRing := (c.ring + 1) % 16 })

/-- A command completes in a state with a status. -/
def Finishes (i : Instr) (s s2 : State) (c : Command) (status : Nat) : Prop := HostBytes s2 (completionAt s2 c) 16 → exec i s = .next (finished s2 c status)

/-- The opcodes and rows of commands. -/
def commandRows : List (Nat × Instr) :=
  [(1, .launch), (2, .map), (3, .unmap), (4, .replayAll), (5, .queueSetup), (6, .viewSetup), (7, .viewChange), (8, .resetDie), (9, .attest), (10, .configRead), (11, .portSetup), (12, .hostSwitch), (13, .lifetimeRead)]

/-- A mask names dies and none of them is present. -/
def NoneThere (s : State) (c : Command) : Prop := (∃ d, d < 24 ∧ (field c.bytes 8 4).testBit d = true) ∧ ∀ d, d < 24 → (field c.bytes 8 4).testBit d = true → (s.die d).present = false

/-- Fields of a LAUNCH within their ranges (R169). -/
def LaunchFields (c : Command) : Prop :=
  let f := field c.bytes
  Blank c [(51, 5)] ∧ 1 ≤ f 14 1 ∧ f 14 1 ≤ 64 ∧ 1 ≤ f 15 1 ∧ f 15 1 ≤ 32 ∧ 1 ≤ f 40 2 ∧ 1 ≤ f 42 2 ∧ 1 ≤ f 44 2 ∧ f 47 1 ≤ 8 ∧ f 50 1 ≤ 32 ∧ f 24 8 < 2 ^ 56 ∧ f 56 8 < 2 ^ 56 ∧ f 56 8 % 4096 = 0 ∧
    (f 46 1 = 0 ∨ (0 < f 46 1 % 16 * (f 46 1 / 16) ∧ f 46 1 % 16 * (f 46 1 / 16) ≤ 12))

/-- A present die of the mask has cores on which a team could stand. -/
def RoomSomewhere (s : State) (c : Command) : Prop := let f := field c.bytes
  ∃ d, d ∈ maskDies (f 8 4 % 2 ^ 24) ∧ (s.die d).present = true ∧ f 48 2 * 4096 ≤ 0x1F0000 ∧
    (if d < 16 then f 14 1 * (16 * f 15 1) ≤ 4096 else f 46 1 = 0 ∧ f 47 1 = 0 ∧ f 50 1 = 0 ∧ f 14 1 ≤ 63 ∧ f 14 1 * (16 * f 15 1) ≤ 4032)

end Sys2Proof.Claims

/-- R155, R158, R165 to R171, R174, R176, R367, R368, R373 to R375, R403: firmware takes the rings in turn, one command each; every command completes with its status, its completion in the ring and its vector signalled; what each
command does. -/
def Obligations.PlaodCommandsComplete : Prop :=
  ∀ (s : State) (c : Command), let f := field c.bytes; let op := f 0 2
    (∀ k i, (k, i) ∈ commandRows → s.obj = 0 → (¬ FirmwareServes s ∨ (s.host.command = none ∧ ∀ q, q < 16 → ¬ HasCommand s q) → exec i s = .next s)) ∧
    (∀ k i q, (k, i) ∈ commandRows → s.obj = 0 → FirmwareServes s → s.host.rings.length = 16 → s.host.command = none → Turn s q → (let a := ringBase (ring s q) + (ring s q).head.toNat % slotsOf (ring s q) * 64; regionOf a ≠ .hbm ∧ regionOf a ≠ .lpddr) →
      ∃ s', exec i s = .next s' ∧ (ring s' q).base = (ring s q).base &&& ~~~0x100#64 ∧ (ring s' q).head = (ring s q).head ∧ s'.mem = s.mem ∧ Reported s s' (endpoint s.host.serving 121) 11 0x84 2 q (ring s q).head.toNat) ∧
    (InHand s c → let t := handed s c
      (∀ k i, (k, i) ∈ commandRows → s.obj = 0 → op ≠ k → exec i s = .next s) ∧
      (op = 0 ∨ 13 < op → Finishes .plaodUnassignedOpcode s t c 1) ∧
      (op = 1 → s.obj = 0 →
        (¬ LaunchFields c → Finishes .launch s t c 2) ∧ (LaunchFields c → NoneThere s c → Finishes .launch s t c 5) ∧ (LaunchFields c → ¬ NoneThere s c → ¬ RoomSomewhere s c → Finishes .launch s t c 2) ∧
        (LaunchFields c → ¬ NoneThere s c → RoomSomewhere s c → ∃ s' g, exec .launch s = .next s' ∧ s'.mem = s.mem ∧ (ring s' c.ring).head = BitVec.ofNat 32 (c.seq + 1) ∧ s'.host.command = none ∧ s'.grids.find s.fresh = some g ∧
          g.ring = c.ring ∧ g.seq = c.seq ∧ g.tag = f 4 4 ∧ g.prio = f 8 4 / 2 ^ 24 % 4 ∧ g.dies = f 8 4 % 2 ^ 24 ∧ g.asid = f 12 2 ∧ g.groups = f 14 1 ∧ g.regs = 16 * f 15 1 ∧ g.root = f 16 8 ∧ g.code = BitVec.ofNat 64 (f 24 8) ∧
          g.arg = BitVec.ofNat 64 (f 32 8) ∧ g.dimx = f 40 2 ∧ g.dimy = f 42 2 ∧ g.dimz = f 44 2 ∧ g.cw = f 46 1 % 16 ∧ g.ch = f 46 1 / 16 ∧ g.tiles = f 47 1 ∧ g.scratch = 4096 * f 48 2 ∧ g.columns = 4096 * f 50 1 ∧
          g.save = BitVec.ofNat 64 (f 56 8) ∧ g.nextTeam = 0 ∧ g.left = f 40 2 * f 42 2 * f 44 2 * max 1 (f 46 1 % 16 * (f 46 1 / 16)))) ∧
      (op = 2 → let ok := Blank c [(14, 2), (41, 23)] ∧ f 24 8 < 2 ^ 56 ∧ 1 ≤ f 40 1 ∧ f 40 1 ≤ 4
        (¬ ok → Finishes .map s t c 2) ∧ (ok → namedEntry t c = none → Finishes .map s t c 4) ∧
        (∀ t1 a, ok → namedEntry t c = some (t1, a) → HostBytes t1 a 8 → Finishes .map s (putAt t1 a (leBytes 8 (f 32 8))) c 0)) ∧
      (op = 3 → s.host.command = some c → (stillUsed s c.waits = true → exec .unmap s = .next s) ∧ (stillUsed s c.waits = false → Finishes .unmap s t c 0)) ∧
      (op = 3 → s.host.command = none → let ok := Blank c [(32, 8), (14, 2), (41, 23)] ∧ f 24 8 < 2 ^ 56 ∧ 1 ≤ f 40 1 ∧ f 40 1 ≤ 4
        (¬ ok → Finishes .unmap s t c 2) ∧ (ok → NoneThere s c → Finishes .unmap s t c 5) ∧ (ok → ¬ NoneThere s c → namedEntry t c = none → Finishes .unmap s t c 4) ∧
        (∀ t1 a, ok → ¬ NoneThere s c → namedEntry t c = some (t1, a) → HostBytes t1 a 8 → ∃ s2, (s2.mem = (t1.write a (leBytes 8 (leNat (t1.read a 8) / 2 * 2))).mem) ∧
          (∀ d x, d ∈ maskDies (f 8 4 % 2 ^ 24) → (s.die d).present = true → x ∈ (s2.die d).tlb → ¬ unmapHits c x) ∧
          (exec .unmap s = .next s2 ∧ (∃ c2, s2.host.command = some c2 ∧ c2.bytes = c.bytes ∧ stillUsed s2 c2.waits = true) ∨ Finishes .unmap s s2 c 0))) ∧
      (op = 4 → (¬ Blank c [(12, 52)] → Finishes .replayAll s t c 2) ∧ (Blank c [(12, 52)] → NoneThere s c → Finishes .replayAll s t c 5) ∧
        (Blank c [(12, 52)] → ¬ NoneThere s c → Finishes .replayAll s (((maskDies (f 8 4 % 2 ^ 24)).filter (fun d => (s.die d).present)).foldl replayDie t) c 0)) ∧
      (op = 5 → (∀ s2, bindQueue t c.bytes = .ok s2 → Finishes .queueSetup s s2 c 0) ∧ (∀ n, bindQueue t c.bytes = .status n → Finishes .queueSetup s t c n)) ∧
      (op = 6 → let n := f 20 2; let a := f 24 8; let ok := Blank c [(12, 4), (22, 2), (32, 32)] ∧ f 16 1 ≤ 15 ∧ 1 ≤ n ∧ n ≤ 256
        (¬ ok → Finishes .viewSetup s t c 2) ∧ (ok → 2 ^ 44 ≤ a → Finishes .viewSetup s t c 4) ∧
        (ok → HostBytes s a (2 * n) → let l := (List.range n).map (fun i => let e := field (s.read a (2 * n)) (2 * i) 2; (e / 32 % 256, e % 32))
          ((∃ m ∈ l, 24 ≤ m.2) → Finishes .viewSetup s t c 2) ∧ ((∀ m ∈ l, m.2 < 24) → (∃ m ∈ l, m.1 = Config.package ∧ (s.die m.2).present = false) → Finishes .viewSetup s t c 5) ∧
          ((∀ m ∈ l, m.2 < 24 ∧ (m.1 = Config.package → (s.die m.2).present = true)) → ∃ s2 d, Finishes .viewSetup s s2 c 0 ∧ domainOf s2 (f 16 1) = some d ∧ d.members = l ∧
          d.set = List.replicate n true ∧ d.view = f 17 3 ∧ d.phase = .stable ∧ d.wanted = [] ∧ ∀ e, e < 24 → (s.die e).present = true → viewAt s2 e (f 16 1) = f 17 3))) ∧
      (op = 7 → let ok := Blank c [(12, 4), (19, 45)] ∧ f 16 1 ≤ 15 ∧ f 17 1 ≤ 1
        (¬ ok ∨ domainOf s (f 16 1) = none → Finishes .viewChange s t c 2) ∧
        (∀ d, ok → domainOf s (f 16 1) = some d → (d.members.length ≤ f 18 1 → Finishes .viewChange s t c 2) ∧ (f 18 1 < d.members.length → Settled d (f 18 1) (f 17 1 == 1) → Finishes .viewChange s t c 0) ∧
          (¬ Settled d (f 18 1) (f 17 1 == 1) → ∃ s2, Finishes .viewChange s s2 c 0 ∧ Wanted t s2 (f 16 1) d (f 18 1) (f 17 1 == 1)))) ∧
      (op = 8 → f 16 1 ≠ 1 → let d := f 17 1; let ok := Blank c [(12, 4), (18, 46)] ∧ f 16 1 = 0 ∧ d < 24 ∧ d ≠ s.host.gateway
        (s.host.command = some c → ((s.die d).loss = .serving → HostBytes s (completionAt s c) 16 →
          exec .resetDie s = .next ((finished s c 0).event (endpoint s.host.serving 121) 0 0x89 1 false (d + (s.die d).inc * 256) 0)) ∧ ((s.die d).loss = .absent → Finishes .resetDie s t c 5) ∧ ((s.die d).loss = .fence ∨ (s.die d).loss = .resetting → exec .resetDie s = .next s)) ∧
        (s.host.command = none → (¬ ok → Finishes .resetDie s t c 2) ∧ (ok → ¬ InService s d → Finishes .resetDie s t c 5) ∧
          (ok → InService s d → ∃ s', exec .resetDie s = .next s' ∧ Fenced s s' d true ∧ s'.host.command = some c))) ∧
      (op = 8 → f 16 1 = 1 → ∀ b, (¬ Blank c [(12, 4), (18, 46)] → Finishes (.resetPackage c.ring b) s t c 2) ∧
        (Blank c [(12, 4), (18, 46)] → ∃ s', exec (.resetPackage c.ring b) s = .next s' ∧ s'.mem = [] ∧ s'.threads = [] ∧ s'.time = s.time ∧ s'.host.command = none ∧
          s'.host.boot = some b ∧ s'.host.bootstat = 0#32 ∧ (s.pkg.counts = [] → ∀ key, key / 2 ^ 32 ≠ 1 → key / 2 ^ 32 ≠ 2 → s'.pkg.lifetime.find key = s.pkg.lifetime.find key)) ∧
        ∀ q, q ≠ c.ring → exec (.resetPackage q b) s = .next s) ∧
      (op = 9 → (¬ Blank c [(12, 4), (32, 32)] → Finishes .attest s t c 2) ∧
        (Blank c [(12, 4), (32, 32)] → HostBytes s (f 16 8) 32 → s.host.keyOk = false → ∃ s2, Finishes .attest s s2 c 8 ∧ s2.mem = s.mem ∧ Reported s s2 (endpoint s.host.serving 121) 11 0x8A 2 0 0) ∧
        (Blank c [(12, 4), (32, 32)] → HostBytes s (f 16 8) 32 → s.host.keyOk = true → ∃ report, report.length = 272 ∧ report.take 32 = s.read (f 16 8) 32 ∧ (report.drop 96).take 64 = sha512 (configImage s) ∧
          (∀ s2, memoryWrite (visited t (f 16 8)) (f 24 8) report = some s2 → Finishes .attest s s2 c 0) ∧ (memoryWrite (visited t (f 16 8)) (f 24 8) report = none → Finishes .attest s t c 4))) ∧
      (op = 10 → (¬ Blank c [(12, 4), (24, 40)] → Finishes .configRead s t c 2) ∧ (Blank c [(12, 4), (24, 40)] → ∃ image, image.length = 256 ∧
        (∀ d n, d < 16 → n < 80 → (s.die d).enabled.Nodup → (∀ x ∈ (s.die d).enabled, x < 80) → ((field image (10 * d) 10).testBit n = true ↔ (s.die d).present = true ∧ n ∈ (s.die d).enabled)) ∧
        (∀ d, d < 24 → (s.die d).inc < 256 → field image (160 + d) 1 = if (s.die d).present then (s.die d).inc else 0) ∧
        (∀ s2, memoryWrite t (f 16 8) image = some s2 → Finishes .configRead s s2 c 0) ∧ (memoryWrite t (f 16 8) image = none → Finishes .configRead s t c 4))) ∧
      (op = 11 → let p := f 16 1; let gw := 22 + p / 8; let ok := Blank c [(12, 4), (17, 3)] ∧ p ≤ 15
        (¬ ok → Finishes .portSetup s t c 2) ∧ (ok → (s.die gw).present = false → Finishes .portSetup s t c 5) ∧
        (ok → (s.die gw).present = true → (s.pkg.ports.getD p Port.reset).cfg.getLsbD 31 = true → Finishes .portSetup s t c 3) ∧
        (∀ t1 image, ok → (s.die gw).present = true → (s.pkg.ports.getD p Port.reset).cfg.getLsbD 31 = false → s.pkg.ports.length = 16 → memoryRead t (f 24 8) 1024 = some (t1, image) → ∃ s2, Finishes .portSetup s s2 c 0 ∧
          (s2.pkg.ports.getD p Port.reset).cfg = BitVec.ofNat 32 (f 20 4) &&& 0x800101FF#32 ∧ (∀ n, n < 256 → s2.pkg.gwsel.getD n false = (f (32 + n / 8) 1).testBit (n % 8) ∧ prouteOf s2 gw n = field image (4 * n) 2))) ∧
      (op = 12 → (¬ Blank c [(12, 52)] → Finishes .hostSwitch s t c 2) ∧ (Blank c [(12, 52)] → 23 ∉ s.host.links → Finishes .hostSwitch s t c 7) ∧
        (Blank c [(12, 52)] → 23 ∈ s.host.links → Finishes .hostSwitch s (t.updHost (fun h => { h with gateway := 23, toHost := h.held.reverse ++ h.toHost, held := [] })) c 0)) ∧
      (op = 13 → let g := f 16 1; let ok := Blank c [(12, 4), (17, 7), (32, 32)] ∧ (g = 22 ∨ g = 23)
        (¬ ok → Finishes .lifetimeRead s t c 2) ∧ (ok → (s.die g).present = false → Finishes .lifetimeRead s t c 5) ∧
        (ok → (s.die g).present = true → ∃ image, image.length = 2 ^ 18 ∧ (∀ s2, memoryWrite t (f 24 8) image = some s2 → Finishes .lifetimeRead s s2 c 0) ∧
          (memoryWrite t (f 24 8) image = none → Finishes .lifetimeRead s t c 4)))) ∧
    (∀ g x, s.obj ≠ 0 → s.grids.find s.obj = some x → FirmwareServes s → g = { ring := x.ring, seq := x.seq, bytes := leBytes 2 1 ++ leBytes 2 0 ++ leBytes 4 x.tag, waits := [], undo := none : Command } →
      (x.left ≠ 0 → exec .launch s = .next s) ∧
      (x.left = 0 → HostBytes s (completionAt s g) 16 → ∃ s', exec .launch s = .next s' ∧ s'.grids.find s.obj = none ∧ s'.mem = (finished s g 0).mem ∧ s'.host = heldOrSent s.host (.vector x.ring)))

/-! ## Forms that complete, in their effect's own terms -/

namespace Sys2Proof.Claims

/-- A lone thread has executed an instruction of len bytes and goes on past it with these registers. -/
def GoesOn (s' : State) (k : Nat) (t : Thread) (len : Nat) (regs : List Word) (u : Thread) : Prop :=
  s'.thread k = some u ∧ u.pc = t.pc + BitVec.ofNat 64 len ∧ u.state = .runnable ∧ u.regs = regs

/-- Register d, or the pair at d, holds this value. -/
def stores (t : Thread) (wide : Bool) (d v : Nat) : List Word :=
  setWords t.regs d (if wide then [BitVec.ofNat 32 v, BitVec.ofNat 32 (v / 2 ^ 32)] else [BitVec.ofNat 32 v])

/-- The special registers as R16, R44, R190, R191, R213, R217, R337 and R347 give them: index and value.  CLUSTER, VIEWTAG and the send allowances stand
beside it in `Obligations.SpecialRegistersAreReadAndWritten`. -/
def specialValues (s : State) (t : Thread) : List (Nat × Nat) :=
  let m := s.team t.team
  let g := (s.group t.group).gid
  [(0x000, t.lane), (0x001, g * 32 + t.lane), (0x002, g), (0x003, m.teamid), (0x005, m.gx), (0x006, m.gy), (0x007, m.gz), (0x008, t.core),
   (0x010, s.time % 2 ^ 64), (0x011, s.time / 2 ^ 32 % 2 ^ 32), (0x020, t.sr.fpcr.toNat), (0x021, t.sr.fpsr.toNat),
   (0x030, m.cause * 2 + (if m.preq then 1 else 0)), (0x031, if m.preq then m.pdead else 0), (0x050, t.sr.region.toNat), (0x051, t.sr.rcount.toNat),
   (0x052, (s.core t.core).rpend), (0x060, t.sr.record.toNat), (0x061, t.sr.deriv.toNat), (0x062, t.sr.attempt.toNat),
   (0x080, t.sr.trapCause.toNat), (0x081, t.sr.info0.toNat), (0x082, t.sr.info1.toNat), (0x083, t.sr.info2.toNat), (0x084, t.sr.info3.toNat),
   (0x100, t.sr.epc.toNat), (0x102, t.sr.tsave0.toNat), (0x103, t.sr.tsave1.toNat), (0x104, t.sr.carm.toNat), (0x105, t.sr.sendix.toNat)] ++
  (List.range 8).map (fun i => (0x070 + i, (t.sr.dt.getD i 0#64).toNat))

/-- A 64-bit register after SETSR: all of v, or v's low half under the old high half (R248). -/
def written (old v : DWord) (wide : Bool) : DWord := if wide then v else old.extractLsb' 32 32 ++ v.extractLsb' 0 32

/-- The special registers after SETSR of register i (R190, R191, R217, R248, R347); a distribution table's unassigned bits 43:40 stay zero (R12, R236). -/
def specialsAfter (x : Specials) (i : Nat) (v : DWord) (wide : Bool) : Specials :=
  let low := v.extractLsb' 0 32
  match i with
  | 0x020 => { x with fpcr := low &&& 0xFFFF0001#32 }
  | 0x021 => { x with fpsr := x.fpsr &&& ~~~low }
  | 0x100 => { x with epc := written x.epc v wide }
  | 0x102 => { x with tsave0 := written x.tsave0 v wide }
  | 0x103 => { x with tsave1 := written x.tsave1 v wide }
  | i => if 0x070 ≤ i ∧ i < 0x078 then { x with dt := x.dt.set (i - 0x070) (written (x.dt.getD (i - 0x070) 0#64) v wide &&& 0xFFFFF0FFFFFFFFFF#64) } else x

/-- The exact and special results of R197 on F32 codes, without SAT: opcode, operand, result, flags (NX 16, OF 4, DZ 2, IV 1). -/
def functionResults : List (LongOp × Word × Word × Word) :=
  [(.frcp, 0x3F800000#32, 0x3F800000#32, 0#32), (.frcp, 0xC0000000#32, 0xBF000000#32, 0#32), (.frcp, 0#32, 0x7F800000#32, 2#32),
   (.frcp, 0x80000000#32, 0xFF800000#32, 2#32), (.frcp, 0xFF800000#32, 0x80000000#32, 0#32),
   (.frsq, 0x40800000#32, 0x3F000000#32, 0#32), (.frsq, 0#32, 0x7F800000#32, 2#32), (.frsq, 0x80000000#32, 0xFF800000#32, 2#32),
   (.frsq, 0xBF800000#32, 0x7FC00000#32, 1#32), (.frsq, 0x7F800000#32, 0#32, 0#32),
   (.fex2, 0x40400000#32, 0x41000000#32, 0#32), (.fex2, 0#32, 0x3F800000#32, 0#32), (.fex2, 0xFF800000#32, 0#32, 0#32),
   (.fex2, 0x7F800000#32, 0x7F800000#32, 0#32), (.fex2, 0x43000000#32, 0x7F800000#32, 20#32), (.fex2, 0xC3170000#32, 0#32, 24#32),
   (.flg2, 0x41000000#32, 0x40400000#32, 0#32), (.flg2, 0#32, 0xFF800000#32, 2#32), (.flg2, 0xBF800000#32, 0x7FC00000#32, 1#32),
   (.flg2, 0x7F800000#32, 0x7F800000#32, 0#32),
   (.fsin, 0x3E800000#32, 0x3F800000#32, 0#32), (.fsin, 0x3F400000#32, 0xBF800000#32, 0#32), (.fsin, 0xBF000000#32, 0#32, 0#32),
   (.fsin, 0x80000000#32, 0x80000000#32, 0#32), (.fsin, 0x7F800000#32, 0x7FC00000#32, 1#32),
   (.fcos, 0#32, 0x3F800000#32, 0#32), (.fcos, 0x3F000000#32, 0xBF800000#32, 0#32), (.fcos, 0x3E800000#32, 0#32, 0#32),
   (.fcos, 0xFF800000#32, 0x7FC00000#32, 1#32),
   (.ftanh, 0x80000000#32, 0x80000000#32, 0#32), (.ftanh, 0x7F800000#32, 0x3F800000#32, 0#32), (.ftanh, 0xC1200000#32, 0xBF800000#32, 0#32)]

/-- FRND of 2.5 by mode (R186, R259): to even, to zero, down, up, to away, to odd. -/
def roundedHalf : List (BitVec 3 × Word) :=
  [(0#3, 0x40000000#32), (1#3, 0x40000000#32), (2#3, 0x40000000#32), (3#3, 0x40400000#32), (4#3, 0x40400000#32), (6#3, 0x40400000#32)]

/-- A lone float function has written its result and its flags and nothing else of the thread. -/
def Wrote (s' : State) (k : Nat) (t : Thread) (o : Long) (w flags : Word) : Prop :=
  ∃ u, GoesOn s' k t o.bytes (stores t false o.d.toNat w.toNat) u ∧ u.sr.fpsr = t.sr.fpsr ||| flags ∧ u.preds = t.preds ∧ u.gen = t.gen

/-- A lone thread has issued an operation, which will write n registers from d. -/
def Owes (s s' : State) (k : Nat) (t : Thread) (o : Long) (n : Nat) (st : OpStatus → Prop) : Prop :=
  ∃ u q, GoesOn s' k t o.bytes t.regs u ∧ u.ops.find s.fresh = some q ∧ q.dst = some (o.d.toNat, n) ∧ st q.status

end Sys2Proof.Claims

/-- R42, R247, R18, R248, R197, R258, R259, R317 to R320, R165, R346, R366, R397: YIELD and EXIT, long and short, NOP short, GETSR, SETSR, the float functions, FRND, BOXT, TRIT,
TLOOK, RESID and RESID.REQ, issued by one thread, and writes of EVHEAD, of CRBASE while EN is 0, of PERFSEL, PERFCLR and MXCLR and of a core's registers, answer a next state with
their effect, under conditions on the state and the operands alone. -/
def Obligations.ControlFunctionAndRayFormsComplete : Prop :=
  ∀ (o : Long) (s : State) (k : Nat) (t : Thread), (s.team t.team).halted = false →
    (Lone .nop longZero s k t → ∃ s' u, exec .nopShort s = .next s' ∧ GoesOn s' k t 4 t.regs u ∧ u.preds = t.preds ∧ u.sr = t.sr ∧ s'.mem = s.mem) ∧
    (∀ f ∈ [(Instr.yield o, o, o.bytes), (.yieldShort, longZero, 4)], Lone .yield f.2.1 s k t →
      ∃ s' u, exec f.1 s = .next s' ∧ GoesOn s' k t f.2.2 t.regs u ∧ u.yielded = ((s.team t.team).preq || t.yielded) ∧ s'.mem = s.mem) ∧
    (∀ f ∈ [(Instr.exit o, o), (.exitShort, longZero)], Lone .exit f.2 s k t → owesRegister t = false → t.job = none → t.lane < 32 →
      ∃ s', exec f.1 s = .next s' ∧ (∀ u, s'.thread k = some u → u.state = .exited) ∧
        ∀ i < 12, ((s'.group t.group).mask i).enrolled.getLsbD t.lane = false) ∧
    (Lone .getsr o s k t → ∀ p ∈ specialValues s t, o.srIndex = p.1 →
      ∃ s' u, exec (.getsr o) s = .next s' ∧ GoesOn s' k t o.bytes (stores t (isWide o.ty) o.d.toNat p.2) u ∧ u.sr = t.sr ∧ u.preds = t.preds) ∧
    (Lone .setsr o s k t → t.sr.dt.length = 8 →
      let wide := isWide o.ty
      let v := if wide then src64 t o .a else (src32 t o .a).setWidth 64
      ∃ s' u, exec (.setsr o) s = .next s' ∧ GoesOn s' k t o.bytes t.regs u ∧ u.preds = t.preds ∧
        u.sr = specialsAfter t.sr o.srIndex v wide ∧
        u.gen = (if o.srIndex = 0x020 then (v.extractLsb' 0 32 &&& 0xFFFF0000#32) ||| BitVec.ofNat 32 ((s.group t.group).gid * 32 + t.lane + 1) else t.gen)) ∧
    (∀ r ∈ functionResults, Lone r.1 o s k t → o.sat = false → src32 t o .a = r.2.1 → ∃ s', exec (r.1.instr o) s = .next s' ∧ Wrote s' k t o r.2.2.1 r.2.2.2) ∧
    (∀ r ∈ roundedHalf, Lone .frnd o s k t → o.ty = 8#4 → o.rm = r.1 → src32 t o .a = 0x40200000#32 →
      ∃ s', exec (.frnd o) s = .next s' ∧ Wrote s' k t o r.2 (if o.m4.getLsbD 0 then 16#32 else 0#32)) ∧
    (∀ op ∈ [LongOp.frcp, .frsq, .fex2, .flg2, .fsin, .fcos, .ftanh, .frnd], Lone op o s k t → o.ty = 8#4 →
      ∃ s' u w, exec (op.instr o) s = .next s' ∧ GoesOn s' k t o.bytes (stores t false o.d.toNat w) u ∧ u.preds = t.preds ∧
        u.sr = { t.sr with fpsr := u.sr.fpsr } ∧ u.sr.fpsr &&& t.sr.fpsr = t.sr.fpsr ∧
        ((src32 t o .a).extractLsb' 23 8 = 0xFF#8 → (src32 t o .a).extractLsb' 0 23 ≠ 0#23 →
          w = 0x7FC00000 ∧ u.sr.fpsr = t.sr.fpsr ||| (if (src32 t o .a).getLsbD 22 then 0#32 else 1#32))) ∧
    (∀ off, Lone .boxt o s k t → Free t o false false → UnitReads s t o 128 128 off →
      ∃ s', exec (.boxt o) s = .next s' ∧ Owes s s' k t o 8 (fun st =>
        (∃ bs, st = .ready bs ∧ bs.length = 32 ∧ ((rayRun t o).degenerate = true → onGateway t.core = false → bs = List.replicate 30 0#8 ++ [0x80#8, 0x7F#8])) ∨
        ∃ x, st = .refused 0x50 x)) ∧
    (∀ off, Lone .trit o s k t → Free t o false false → UnitReads s t o 48 16 off →
      ∃ s', exec (.trit o) s = .next s' ∧ Owes s s' k t o 8 (fun st =>
        ∃ bs, st = .ready bs ∧ bs.length = 32 ∧ ((rayRun t o).degenerate = true → onGateway t.core = false → bs = List.replicate 32 0#8))) ∧
    (Lone .tlook o s k t → flagFull t (flagOf t o.fs) = false →
      ∃ s', exec (.tlook o) s = .next s' ∧ Owes s s' k t o 1 (fun st => ∃ bs, st = .ready bs ∧ bs.length = 4)) ∧
    (∀ request : Bool, Lone (if request then .residReq else .resid) o s k t → flagFull t (flagOf t o.fs) = false →
      (s.die (epDie (servingSlice s (src32 t o .a).toNat))).present = true →
      ∃ s', exec (if request then .residReq o else .resid o) s = .next s' ∧ Owes s s' k t o 1 (fun st => st = .sent) ∧
        InFlight s' (fun p => p.typ = 0x0D ∧ p.src = t.core ∧ p.dst = servingSlice s (src32 t o .a).toNat)) ∧
    (∀ (v : Word), ∃ s', exec (.evhead v) s = .next s' ∧ s'.host.evhead = v ∧ s'.host.evtail = s.host.evtail ∧ s'.mem = s.mem ∧ s'.cores = s.cores ∧ s'.threads = s.threads) ∧
    (∀ (q : Nat) (r : Ring) (x : DWord), s.host.rings[q]? = some r → r.base.getLsbD 8 = false →
      ∃ s', exec (.crbase q x) s = .next s' ∧ s'.host.rings[q]? = some { r with base := x &&& 0x000FFFFFFFFFF11F#64 } ∧
        (∀ p, p ≠ q → s'.host.rings[p]? = s.host.rings[p]?) ∧ s'.mem = s.mem ∧ s'.cores = s.cores ∧ s'.threads = s.threads) ∧
    (∀ (ep : Nat) (v : Word), let c := s.core ep
      let fieldOf (w : Word) (n : Nat) : Nat := w.toNat / 16 ^ n % 16
      (∃ s', exec (.perfsel ep v) s = .next s' ∧ (s'.core ep).perfsel = v ∧ s'.mem = s.mem ∧ s'.threads = s.threads ∧
        ∀ n, n < 8 → (s'.core ep).perf.getD n 0#64 = if fieldOf v n = fieldOf c.perfsel n then c.perf.getD n 0#64 else 0#64) ∧
      (∃ s', exec (.perfclr ep v) s = .next s' ∧ (s'.core ep).perfsel = c.perfsel ∧ s'.mem = s.mem ∧ s'.threads = s.threads ∧
        ∀ n, n < 8 → (s'.core ep).perf.getD n 0#64 = if v.getLsbD n then 0#64 else c.perf.getD n 0#64) ∧
      (∃ s', exec (.mxclr ep v) s = .next s' ∧ s'.mem = s.mem ∧ s'.threads = s.threads ∧
        ∀ n, n < 4 → (s'.core ep).mxexc.toNat / 2 ^ (16 * n) % 2 ^ 16 = if v.getLsbD n then 0 else c.mxexc.toNat / 2 ^ (16 * n) % 2 ^ 16) ∧
      (s.isCore ep = true → epPackage ep = Config.package → epDie ep < 24 → (s.die (epDie ep)).present = true →
        (∃ s', exec (.registerWrite ep 0x004 (leBytes 4 v.toNat)) s = .next s' ∧ (s'.core ep).pdline = v &&& 0x00FFFFFF#32 ∧ s'.mem = s.mem ∧ s'.threads = s.threads) ∧
        (∃ s', exec (.registerWrite ep 0x044 (leBytes 4 v.toNat)) s = .next s' ∧ (s'.core ep).qdepth = v ∧ s'.mem = s.mem ∧ s'.threads = s.threads)))
end

