-- ==== Sys2Proof/Laws/State.lean ====
section
/-! SUPPORT. One lemma per field per update: of the whole state, and of a thread. -/

set_option Elab.async false

namespace Sys2Proof.Machine

/-! ## Fields of the state -/

section
variable (s : State) (a : Nat) (bs : List Byte)
@[simp] theorem State.write_threads : (s.write a bs).threads = s.threads := rfl
@[simp] theorem State.write_groups : (s.write a bs).groups = s.groups := rfl
@[simp] theorem State.write_teams : (s.write a bs).teams = s.teams := rfl
@[simp] theorem State.write_grids : (s.write a bs).grids = s.grids := rfl
@[simp] theorem State.write_cores : (s.write a bs).cores = s.cores := rfl
@[simp] theorem State.write_dies : (s.write a bs).dies = s.dies := rfl
@[simp] theorem State.write_slices : (s.write a bs).slices = s.slices := rfl
@[simp] theorem State.write_packets : (s.write a bs).packets = s.packets := rfl
@[simp] theorem State.write_mem : (s.write a bs).mem = memWrites s.mem a bs := rfl
@[simp] theorem State.write_empty : (s.write a bs).empty = s.empty := rfl
@[simp] theorem State.write_bad : (s.write a bs).bad = s.bad := rfl
@[simp] theorem State.write_host : (s.write a bs).host = s.host := rfl
@[simp] theorem State.write_pkg : (s.write a bs).pkg = s.pkg := rfl
@[simp] theorem State.write_events : (s.write a bs).events = s.events := rfl
@[simp] theorem State.write_time : (s.write a bs).time = s.time := rfl
@[simp] theorem State.write_ticks : (s.write a bs).ticks = s.ticks := rfl
@[simp] theorem State.write_powered : (s.write a bs).powered = s.powered := rfl
@[simp] theorem State.write_agenda : (s.write a bs).agenda = s.agenda := rfl
@[simp] theorem State.write_cur : (s.write a bs).cur = s.cur := rfl
@[simp] theorem State.write_obj : (s.write a bs).obj = s.obj := rfl
@[simp] theorem State.write_fresh : (s.write a bs).fresh = s.fresh := rfl
@[simp] theorem State.write_free : (s.write a bs).free = s.free := rfl
end

section
variable (s : State) (a : Nat) (f : Bool)
@[simp] theorem State.setFull_threads : (s.setFull a f).threads = s.threads := rfl
@[simp] theorem State.setFull_groups : (s.setFull a f).groups = s.groups := rfl
@[simp] theorem State.setFull_teams : (s.setFull a f).teams = s.teams := rfl
@[simp] theorem State.setFull_grids : (s.setFull a f).grids = s.grids := rfl
@[simp] theorem State.setFull_cores : (s.setFull a f).cores = s.cores := rfl
@[simp] theorem State.setFull_dies : (s.setFull a f).dies = s.dies := rfl
@[simp] theorem State.setFull_slices : (s.setFull a f).slices = s.slices := rfl
@[simp] theorem State.setFull_packets : (s.setFull a f).packets = s.packets := rfl
@[simp] theorem State.setFull_mem : (s.setFull a f).mem = s.mem := rfl
@[simp] theorem State.setFull_bad : (s.setFull a f).bad = s.bad := rfl
@[simp] theorem State.setFull_host : (s.setFull a f).host = s.host := rfl
@[simp] theorem State.setFull_pkg : (s.setFull a f).pkg = s.pkg := rfl
@[simp] theorem State.setFull_events : (s.setFull a f).events = s.events := rfl
@[simp] theorem State.setFull_time : (s.setFull a f).time = s.time := rfl
@[simp] theorem State.setFull_ticks : (s.setFull a f).ticks = s.ticks := rfl
@[simp] theorem State.setFull_powered : (s.setFull a f).powered = s.powered := rfl
@[simp] theorem State.setFull_agenda : (s.setFull a f).agenda = s.agenda := rfl
@[simp] theorem State.setFull_cur : (s.setFull a f).cur = s.cur := rfl
@[simp] theorem State.setFull_obj : (s.setFull a f).obj = s.obj := rfl
@[simp] theorem State.setFull_fresh : (s.setFull a f).fresh = s.fresh := rfl
@[simp] theorem State.setFull_free : (s.setFull a f).free = s.free := rfl
end

section
variable (s : State) (ep : Nat) (f : Core → Core)
@[simp] theorem State.updCore_threads : (s.updCore ep f).threads = s.threads := rfl
@[simp] theorem State.updCore_groups : (s.updCore ep f).groups = s.groups := rfl
@[simp] theorem State.updCore_teams : (s.updCore ep f).teams = s.teams := rfl
@[simp] theorem State.updCore_grids : (s.updCore ep f).grids = s.grids := rfl
@[simp] theorem State.updCore_cores : (s.updCore ep f).cores = s.cores.put ep (f (s.core ep)) := rfl
@[simp] theorem State.updCore_dies : (s.updCore ep f).dies = s.dies := rfl
@[simp] theorem State.updCore_slices : (s.updCore ep f).slices = s.slices := rfl
@[simp] theorem State.updCore_packets : (s.updCore ep f).packets = s.packets := rfl
@[simp] theorem State.updCore_mem : (s.updCore ep f).mem = s.mem := rfl
@[simp] theorem State.updCore_empty : (s.updCore ep f).empty = s.empty := rfl
@[simp] theorem State.updCore_bad : (s.updCore ep f).bad = s.bad := rfl
@[simp] theorem State.updCore_host : (s.updCore ep f).host = s.host := rfl
@[simp] theorem State.updCore_pkg : (s.updCore ep f).pkg = s.pkg := rfl
@[simp] theorem State.updCore_events : (s.updCore ep f).events = s.events := rfl
@[simp] theorem State.updCore_time : (s.updCore ep f).time = s.time := rfl
@[simp] theorem State.updCore_ticks : (s.updCore ep f).ticks = s.ticks := rfl
@[simp] theorem State.updCore_powered : (s.updCore ep f).powered = s.powered := rfl
@[simp] theorem State.updCore_agenda : (s.updCore ep f).agenda = s.agenda := rfl
@[simp] theorem State.updCore_cur : (s.updCore ep f).cur = s.cur := rfl
@[simp] theorem State.updCore_obj : (s.updCore ep f).obj = s.obj := rfl
@[simp] theorem State.updCore_fresh : (s.updCore ep f).fresh = s.fresh := rfl
@[simp] theorem State.updCore_free : (s.updCore ep f).free = s.free := rfl
end

section
variable (s : State) (k : Nat) (f : Thread → Thread)
@[simp] theorem State.updThread_threads : (s.updThread k f).threads = s.threads.adjust k f := rfl
@[simp] theorem State.updThread_groups : (s.updThread k f).groups = s.groups := rfl
@[simp] theorem State.updThread_teams : (s.updThread k f).teams = s.teams := rfl
@[simp] theorem State.updThread_grids : (s.updThread k f).grids = s.grids := rfl
@[simp] theorem State.updThread_cores : (s.updThread k f).cores = s.cores := rfl
@[simp] theorem State.updThread_dies : (s.updThread k f).dies = s.dies := rfl
@[simp] theorem State.updThread_slices : (s.updThread k f).slices = s.slices := rfl
@[simp] theorem State.updThread_packets : (s.updThread k f).packets = s.packets := rfl
@[simp] theorem State.updThread_mem : (s.updThread k f).mem = s.mem := rfl
@[simp] theorem State.updThread_empty : (s.updThread k f).empty = s.empty := rfl
@[simp] theorem State.updThread_bad : (s.updThread k f).bad = s.bad := rfl
@[simp] theorem State.updThread_host : (s.updThread k f).host = s.host := rfl
@[simp] theorem State.updThread_pkg : (s.updThread k f).pkg = s.pkg := rfl
@[simp] theorem State.updThread_events : (s.updThread k f).events = s.events := rfl
@[simp] theorem State.updThread_time : (s.updThread k f).time = s.time := rfl
@[simp] theorem State.updThread_ticks : (s.updThread k f).ticks = s.ticks := rfl
@[simp] theorem State.updThread_powered : (s.updThread k f).powered = s.powered := rfl
@[simp] theorem State.updThread_agenda : (s.updThread k f).agenda = s.agenda := rfl
@[simp] theorem State.updThread_cur : (s.updThread k f).cur = s.cur := rfl
@[simp] theorem State.updThread_obj : (s.updThread k f).obj = s.obj := rfl
@[simp] theorem State.updThread_fresh : (s.updThread k f).fresh = s.fresh := rfl
@[simp] theorem State.updThread_free : (s.updThread k f).free = s.free := rfl
end

section
variable (s : State) (k : Nat) (f : Team → Team)
@[simp] theorem State.updTeam_threads : (s.updTeam k f).threads = s.threads := rfl
@[simp] theorem State.updTeam_groups : (s.updTeam k f).groups = s.groups := rfl
@[simp] theorem State.updTeam_teams : (s.updTeam k f).teams = s.teams.adjust k f := rfl
@[simp] theorem State.updTeam_grids : (s.updTeam k f).grids = s.grids := rfl
@[simp] theorem State.updTeam_cores : (s.updTeam k f).cores = s.cores := rfl
@[simp] theorem State.updTeam_dies : (s.updTeam k f).dies = s.dies := rfl
@[simp] theorem State.updTeam_slices : (s.updTeam k f).slices = s.slices := rfl
@[simp] theorem State.updTeam_packets : (s.updTeam k f).packets = s.packets := rfl
@[simp] theorem State.updTeam_mem : (s.updTeam k f).mem = s.mem := rfl
@[simp] theorem State.updTeam_empty : (s.updTeam k f).empty = s.empty := rfl
@[simp] theorem State.updTeam_bad : (s.updTeam k f).bad = s.bad := rfl
@[simp] theorem State.updTeam_host : (s.updTeam k f).host = s.host := rfl
@[simp] theorem State.updTeam_pkg : (s.updTeam k f).pkg = s.pkg := rfl
@[simp] theorem State.updTeam_events : (s.updTeam k f).events = s.events := rfl
@[simp] theorem State.updTeam_time : (s.updTeam k f).time = s.time := rfl
@[simp] theorem State.updTeam_ticks : (s.updTeam k f).ticks = s.ticks := rfl
@[simp] theorem State.updTeam_powered : (s.updTeam k f).powered = s.powered := rfl
@[simp] theorem State.updTeam_agenda : (s.updTeam k f).agenda = s.agenda := rfl
@[simp] theorem State.updTeam_cur : (s.updTeam k f).cur = s.cur := rfl
@[simp] theorem State.updTeam_obj : (s.updTeam k f).obj = s.obj := rfl
@[simp] theorem State.updTeam_fresh : (s.updTeam k f).fresh = s.fresh := rfl
@[simp] theorem State.updTeam_free : (s.updTeam k f).free = s.free := rfl
end

section
variable (s : State) (k : Nat) (f : Group → Group)
@[simp] theorem State.updGroup_threads : (s.updGroup k f).threads = s.threads := rfl
@[simp] theorem State.updGroup_groups : (s.updGroup k f).groups = s.groups.adjust k f := rfl
@[simp] theorem State.updGroup_teams : (s.updGroup k f).teams = s.teams := rfl
@[simp] theorem State.updGroup_grids : (s.updGroup k f).grids = s.grids := rfl
@[simp] theorem State.updGroup_cores : (s.updGroup k f).cores = s.cores := rfl
@[simp] theorem State.updGroup_dies : (s.updGroup k f).dies = s.dies := rfl
@[simp] theorem State.updGroup_slices : (s.updGroup k f).slices = s.slices := rfl
@[simp] theorem State.updGroup_packets : (s.updGroup k f).packets = s.packets := rfl
@[simp] theorem State.updGroup_mem : (s.updGroup k f).mem = s.mem := rfl
@[simp] theorem State.updGroup_empty : (s.updGroup k f).empty = s.empty := rfl
@[simp] theorem State.updGroup_bad : (s.updGroup k f).bad = s.bad := rfl
@[simp] theorem State.updGroup_host : (s.updGroup k f).host = s.host := rfl
@[simp] theorem State.updGroup_pkg : (s.updGroup k f).pkg = s.pkg := rfl
@[simp] theorem State.updGroup_events : (s.updGroup k f).events = s.events := rfl
@[simp] theorem State.updGroup_time : (s.updGroup k f).time = s.time := rfl
@[simp] theorem State.updGroup_ticks : (s.updGroup k f).ticks = s.ticks := rfl
@[simp] theorem State.updGroup_powered : (s.updGroup k f).powered = s.powered := rfl
@[simp] theorem State.updGroup_agenda : (s.updGroup k f).agenda = s.agenda := rfl
@[simp] theorem State.updGroup_cur : (s.updGroup k f).cur = s.cur := rfl
@[simp] theorem State.updGroup_obj : (s.updGroup k f).obj = s.obj := rfl
@[simp] theorem State.updGroup_fresh : (s.updGroup k f).fresh = s.fresh := rfl
@[simp] theorem State.updGroup_free : (s.updGroup k f).free = s.free := rfl
end

section
variable (s : State) (d : Nat) (f : Die → Die)
@[simp] theorem State.updDie_threads : (s.updDie d f).threads = s.threads := rfl
@[simp] theorem State.updDie_groups : (s.updDie d f).groups = s.groups := rfl
@[simp] theorem State.updDie_teams : (s.updDie d f).teams = s.teams := rfl
@[simp] theorem State.updDie_grids : (s.updDie d f).grids = s.grids := rfl
@[simp] theorem State.updDie_cores : (s.updDie d f).cores = s.cores := rfl
@[simp] theorem State.updDie_dies : (s.updDie d f).dies = s.dies.put d (f (s.die d)) := rfl
@[simp] theorem State.updDie_slices : (s.updDie d f).slices = s.slices := rfl
@[simp] theorem State.updDie_packets : (s.updDie d f).packets = s.packets := rfl
@[simp] theorem State.updDie_mem : (s.updDie d f).mem = s.mem := rfl
@[simp] theorem State.updDie_empty : (s.updDie d f).empty = s.empty := rfl
@[simp] theorem State.updDie_bad : (s.updDie d f).bad = s.bad := rfl
@[simp] theorem State.updDie_host : (s.updDie d f).host = s.host := rfl
@[simp] theorem State.updDie_pkg : (s.updDie d f).pkg = s.pkg := rfl
@[simp] theorem State.updDie_events : (s.updDie d f).events = s.events := rfl
@[simp] theorem State.updDie_time : (s.updDie d f).time = s.time := rfl
@[simp] theorem State.updDie_ticks : (s.updDie d f).ticks = s.ticks := rfl
@[simp] theorem State.updDie_powered : (s.updDie d f).powered = s.powered := rfl
@[simp] theorem State.updDie_agenda : (s.updDie d f).agenda = s.agenda := rfl
@[simp] theorem State.updDie_cur : (s.updDie d f).cur = s.cur := rfl
@[simp] theorem State.updDie_obj : (s.updDie d f).obj = s.obj := rfl
@[simp] theorem State.updDie_fresh : (s.updDie d f).fresh = s.fresh := rfl
@[simp] theorem State.updDie_free : (s.updDie d f).free = s.free := rfl
end

section
variable (s : State) (i : Nat) (f : Slice → Slice)
@[simp] theorem State.updSlice_threads : (s.updSlice i f).threads = s.threads := rfl
@[simp] theorem State.updSlice_groups : (s.updSlice i f).groups = s.groups := rfl
@[simp] theorem State.updSlice_teams : (s.updSlice i f).teams = s.teams := rfl
@[simp] theorem State.updSlice_grids : (s.updSlice i f).grids = s.grids := rfl
@[simp] theorem State.updSlice_cores : (s.updSlice i f).cores = s.cores := rfl
@[simp] theorem State.updSlice_dies : (s.updSlice i f).dies = s.dies := rfl
@[simp] theorem State.updSlice_slices : (s.updSlice i f).slices = s.slices.put i (f (s.slice i)) := rfl
@[simp] theorem State.updSlice_packets : (s.updSlice i f).packets = s.packets := rfl
@[simp] theorem State.updSlice_mem : (s.updSlice i f).mem = s.mem := rfl
@[simp] theorem State.updSlice_empty : (s.updSlice i f).empty = s.empty := rfl
@[simp] theorem State.updSlice_bad : (s.updSlice i f).bad = s.bad := rfl
@[simp] theorem State.updSlice_host : (s.updSlice i f).host = s.host := rfl
@[simp] theorem State.updSlice_pkg : (s.updSlice i f).pkg = s.pkg := rfl
@[simp] theorem State.updSlice_events : (s.updSlice i f).events = s.events := rfl
@[simp] theorem State.updSlice_time : (s.updSlice i f).time = s.time := rfl
@[simp] theorem State.updSlice_ticks : (s.updSlice i f).ticks = s.ticks := rfl
@[simp] theorem State.updSlice_powered : (s.updSlice i f).powered = s.powered := rfl
@[simp] theorem State.updSlice_agenda : (s.updSlice i f).agenda = s.agenda := rfl
@[simp] theorem State.updSlice_cur : (s.updSlice i f).cur = s.cur := rfl
@[simp] theorem State.updSlice_obj : (s.updSlice i f).obj = s.obj := rfl
@[simp] theorem State.updSlice_fresh : (s.updSlice i f).fresh = s.fresh := rfl
@[simp] theorem State.updSlice_free : (s.updSlice i f).free = s.free := rfl
end

section
variable (s : State) (f : Package → Package)
@[simp] theorem State.updPkg_threads : (s.updPkg f).threads = s.threads := rfl
@[simp] theorem State.updPkg_groups : (s.updPkg f).groups = s.groups := rfl
@[simp] theorem State.updPkg_teams : (s.updPkg f).teams = s.teams := rfl
@[simp] theorem State.updPkg_grids : (s.updPkg f).grids = s.grids := rfl
@[simp] theorem State.updPkg_cores : (s.updPkg f).cores = s.cores := rfl
@[simp] theorem State.updPkg_dies : (s.updPkg f).dies = s.dies := rfl
@[simp] theorem State.updPkg_slices : (s.updPkg f).slices = s.slices := rfl
@[simp] theorem State.updPkg_packets : (s.updPkg f).packets = s.packets := rfl
@[simp] theorem State.updPkg_mem : (s.updPkg f).mem = s.mem := rfl
@[simp] theorem State.updPkg_empty : (s.updPkg f).empty = s.empty := rfl
@[simp] theorem State.updPkg_bad : (s.updPkg f).bad = s.bad := rfl
@[simp] theorem State.updPkg_host : (s.updPkg f).host = s.host := rfl
@[simp] theorem State.updPkg_pkg : (s.updPkg f).pkg = f s.pkg := rfl
@[simp] theorem State.updPkg_events : (s.updPkg f).events = s.events := rfl
@[simp] theorem State.updPkg_time : (s.updPkg f).time = s.time := rfl
@[simp] theorem State.updPkg_ticks : (s.updPkg f).ticks = s.ticks := rfl
@[simp] theorem State.updPkg_powered : (s.updPkg f).powered = s.powered := rfl
@[simp] theorem State.updPkg_agenda : (s.updPkg f).agenda = s.agenda := rfl
@[simp] theorem State.updPkg_cur : (s.updPkg f).cur = s.cur := rfl
@[simp] theorem State.updPkg_obj : (s.updPkg f).obj = s.obj := rfl
@[simp] theorem State.updPkg_fresh : (s.updPkg f).fresh = s.fresh := rfl
@[simp] theorem State.updPkg_free : (s.updPkg f).free = s.free := rfl
end

section
variable (s : State) (f : HostPort → HostPort)
@[simp] theorem State.updHost_threads : (s.updHost f).threads = s.threads := rfl
@[simp] theorem State.updHost_groups : (s.updHost f).groups = s.groups := rfl
@[simp] theorem State.updHost_teams : (s.updHost f).teams = s.teams := rfl
@[simp] theorem State.updHost_grids : (s.updHost f).grids = s.grids := rfl
@[simp] theorem State.updHost_cores : (s.updHost f).cores = s.cores := rfl
@[simp] theorem State.updHost_dies : (s.updHost f).dies = s.dies := rfl
@[simp] theorem State.updHost_slices : (s.updHost f).slices = s.slices := rfl
@[simp] theorem State.updHost_packets : (s.updHost f).packets = s.packets := rfl
@[simp] theorem State.updHost_mem : (s.updHost f).mem = s.mem := rfl
@[simp] theorem State.updHost_empty : (s.updHost f).empty = s.empty := rfl
@[simp] theorem State.updHost_bad : (s.updHost f).bad = s.bad := rfl
@[simp] theorem State.updHost_host : (s.updHost f).host = f s.host := rfl
@[simp] theorem State.updHost_pkg : (s.updHost f).pkg = s.pkg := rfl
@[simp] theorem State.updHost_events : (s.updHost f).events = s.events := rfl
@[simp] theorem State.updHost_time : (s.updHost f).time = s.time := rfl
@[simp] theorem State.updHost_ticks : (s.updHost f).ticks = s.ticks := rfl
@[simp] theorem State.updHost_powered : (s.updHost f).powered = s.powered := rfl
@[simp] theorem State.updHost_agenda : (s.updHost f).agenda = s.agenda := rfl
@[simp] theorem State.updHost_cur : (s.updHost f).cur = s.cur := rfl
@[simp] theorem State.updHost_obj : (s.updHost f).obj = s.obj := rfl
@[simp] theorem State.updHost_fresh : (s.updHost f).fresh = s.fresh := rfl
@[simp] theorem State.updHost_free : (s.updHost f).free = s.free := rfl
end

section
variable (s : State) (key n : Nat)
@[simp] theorem State.count_threads : (s.count key n).threads = s.threads := rfl
@[simp] theorem State.count_groups : (s.count key n).groups = s.groups := rfl
@[simp] theorem State.count_teams : (s.count key n).teams = s.teams := rfl
@[simp] theorem State.count_grids : (s.count key n).grids = s.grids := rfl
@[simp] theorem State.count_cores : (s.count key n).cores = s.cores := rfl
@[simp] theorem State.count_dies : (s.count key n).dies = s.dies := rfl
@[simp] theorem State.count_slices : (s.count key n).slices = s.slices := rfl
@[simp] theorem State.count_packets : (s.count key n).packets = s.packets := rfl
@[simp] theorem State.count_mem : (s.count key n).mem = s.mem := rfl
@[simp] theorem State.count_empty : (s.count key n).empty = s.empty := rfl
@[simp] theorem State.count_bad : (s.count key n).bad = s.bad := rfl
@[simp] theorem State.count_host : (s.count key n).host = s.host := rfl
@[simp] theorem State.count_events : (s.count key n).events = s.events := rfl
@[simp] theorem State.count_time : (s.count key n).time = s.time := rfl
@[simp] theorem State.count_ticks : (s.count key n).ticks = s.ticks := rfl
@[simp] theorem State.count_powered : (s.count key n).powered = s.powered := rfl
@[simp] theorem State.count_agenda : (s.count key n).agenda = s.agenda := rfl
@[simp] theorem State.count_cur : (s.count key n).cur = s.cur := rfl
@[simp] theorem State.count_obj : (s.count key n).obj = s.obj := rfl
@[simp] theorem State.count_fresh : (s.count key n).fresh = s.fresh := rfl
@[simp] theorem State.count_free : (s.count key n).free = s.free := rfl
end

section
variable (s : State) (src cls code sev : Nat) (thread : Bool) (d0 d1 : Nat)
@[simp] theorem State.record_threads : (s.record src cls code sev thread d0 d1).threads = s.threads := rfl
@[simp] theorem State.record_groups : (s.record src cls code sev thread d0 d1).groups = s.groups := rfl
@[simp] theorem State.record_teams : (s.record src cls code sev thread d0 d1).teams = s.teams := rfl
@[simp] theorem State.record_grids : (s.record src cls code sev thread d0 d1).grids = s.grids := rfl
@[simp] theorem State.record_cores : (s.record src cls code sev thread d0 d1).cores = s.cores := rfl
@[simp] theorem State.record_dies : (s.record src cls code sev thread d0 d1).dies = s.dies := rfl
@[simp] theorem State.record_slices : (s.record src cls code sev thread d0 d1).slices = s.slices := rfl
@[simp] theorem State.record_packets : (s.record src cls code sev thread d0 d1).packets = s.packets := rfl
@[simp] theorem State.record_mem : (s.record src cls code sev thread d0 d1).mem = s.mem := rfl
@[simp] theorem State.record_empty : (s.record src cls code sev thread d0 d1).empty = s.empty := rfl
@[simp] theorem State.record_bad : (s.record src cls code sev thread d0 d1).bad = s.bad := rfl
@[simp] theorem State.record_host : (s.record src cls code sev thread d0 d1).host = s.host := rfl
@[simp] theorem State.record_pkg : (s.record src cls code sev thread d0 d1).pkg = s.pkg := rfl
@[simp] theorem State.record_time : (s.record src cls code sev thread d0 d1).time = s.time := rfl
@[simp] theorem State.record_ticks : (s.record src cls code sev thread d0 d1).ticks = s.ticks := rfl
@[simp] theorem State.record_powered : (s.record src cls code sev thread d0 d1).powered = s.powered := rfl
@[simp] theorem State.record_agenda : (s.record src cls code sev thread d0 d1).agenda = s.agenda := rfl
@[simp] theorem State.record_cur : (s.record src cls code sev thread d0 d1).cur = s.cur := rfl
@[simp] theorem State.record_obj : (s.record src cls code sev thread d0 d1).obj = s.obj := rfl
@[simp] theorem State.record_fresh : (s.record src cls code sev thread d0 d1).fresh = s.fresh := rfl
@[simp] theorem State.record_free : (s.record src cls code sev thread d0 d1).free = s.free := rfl
end

section
variable (s : State) (src cls code sev : Nat) (thread : Bool) (d0 d1 : Nat)
@[simp] theorem State.event_threads : (s.event src cls code sev thread d0 d1).threads = s.threads := rfl
@[simp] theorem State.event_groups : (s.event src cls code sev thread d0 d1).groups = s.groups := rfl
@[simp] theorem State.event_teams : (s.event src cls code sev thread d0 d1).teams = s.teams := rfl
@[simp] theorem State.event_grids : (s.event src cls code sev thread d0 d1).grids = s.grids := rfl
@[simp] theorem State.event_cores : (s.event src cls code sev thread d0 d1).cores = s.cores := rfl
@[simp] theorem State.event_dies : (s.event src cls code sev thread d0 d1).dies = s.dies := rfl
@[simp] theorem State.event_slices : (s.event src cls code sev thread d0 d1).slices = s.slices := rfl
@[simp] theorem State.event_packets : (s.event src cls code sev thread d0 d1).packets = s.packets := rfl
@[simp] theorem State.event_mem : (s.event src cls code sev thread d0 d1).mem = s.mem := rfl
@[simp] theorem State.event_empty : (s.event src cls code sev thread d0 d1).empty = s.empty := rfl
@[simp] theorem State.event_bad : (s.event src cls code sev thread d0 d1).bad = s.bad := rfl
@[simp] theorem State.event_host : (s.event src cls code sev thread d0 d1).host = s.host := rfl
@[simp] theorem State.event_time : (s.event src cls code sev thread d0 d1).time = s.time := rfl
@[simp] theorem State.event_ticks : (s.event src cls code sev thread d0 d1).ticks = s.ticks := rfl
@[simp] theorem State.event_powered : (s.event src cls code sev thread d0 d1).powered = s.powered := rfl
@[simp] theorem State.event_agenda : (s.event src cls code sev thread d0 d1).agenda = s.agenda := rfl
@[simp] theorem State.event_cur : (s.event src cls code sev thread d0 d1).cur = s.cur := rfl
@[simp] theorem State.event_obj : (s.event src cls code sev thread d0 d1).obj = s.obj := rfl
@[simp] theorem State.event_fresh : (s.event src cls code sev thread d0 d1).fresh = s.fresh := rfl
@[simp] theorem State.event_free : (s.event src cls code sev thread d0 d1).free = s.free := rfl
end

/-! ## Fields of a thread -/

section
variable (t : Thread) (i : Nat) (ws : List Word)
@[simp] theorem Thread.setRegs_core : (t.setRegs i ws).core = t.core := rfl
@[simp] theorem Thread.setRegs_lane : (t.setRegs i ws).lane = t.lane := rfl
@[simp] theorem Thread.setRegs_group : (t.setRegs i ws).group = t.group := rfl
@[simp] theorem Thread.setRegs_team : (t.setRegs i ws).team = t.team := rfl
@[simp] theorem Thread.setRegs_state : (t.setRegs i ws).state = t.state := rfl
@[simp] theorem Thread.setRegs_yielded : (t.setRegs i ws).yielded = t.yielded := rfl
@[simp] theorem Thread.setRegs_pc : (t.setRegs i ws).pc = t.pc := rfl
@[simp] theorem Thread.setRegs_after : (t.setRegs i ws).after = t.after := rfl
@[simp] theorem Thread.setRegs_last : (t.setRegs i ws).last = t.last := rfl
@[simp] theorem Thread.setRegs_clause : (t.setRegs i ws).clause = t.clause := rfl
@[simp] theorem Thread.setRegs_regs : (t.setRegs i ws).regs = setWords t.regs i ws := rfl
@[simp] theorem Thread.setRegs_preds : (t.setRegs i ws).preds = t.preds := rfl
@[simp] theorem Thread.setRegs_flags : (t.setRegs i ws).flags = t.flags := rfl
@[simp] theorem Thread.setRegs_buf : (t.setRegs i ws).buf = t.buf := rfl
@[simp] theorem Thread.setRegs_stack : (t.setRegs i ws).stack = t.stack := rfl
@[simp] theorem Thread.setRegs_gen : (t.setRegs i ws).gen = t.gen := rfl
@[simp] theorem Thread.setRegs_sr : (t.setRegs i ws).sr = t.sr := rfl
@[simp] theorem Thread.setRegs_frame : (t.setRegs i ws).frame = t.frame := rfl
@[simp] theorem Thread.setRegs_prio : (t.setRegs i ws).prio = t.prio := rfl
@[simp] theorem Thread.setRegs_entry : (t.setRegs i ws).entry = t.entry := rfl
@[simp] theorem Thread.setRegs_treelet : (t.setRegs i ws).treelet = t.treelet := rfl
@[simp] theorem Thread.setRegs_sendixAt : (t.setRegs i ws).sendixAt = t.sendixAt := rfl
@[simp] theorem Thread.setRegs_atomIx : (t.setRegs i ws).atomIx = t.atomIx := rfl
@[simp] theorem Thread.setRegs_atomIxAt : (t.setRegs i ws).atomIxAt = t.atomIxAt := rfl
@[simp] theorem Thread.setRegs_skip : (t.setRegs i ws).skip = t.skip := rfl
@[simp] theorem Thread.setRegs_sstep : (t.setRegs i ws).sstep = t.sstep := rfl
@[simp] theorem Thread.setRegs_sstepVa : (t.setRegs i ws).sstepVa = t.sstepVa := rfl
@[simp] theorem Thread.setRegs_ops : (t.setRegs i ws).ops = t.ops := rfl
@[simp] theorem Thread.setRegs_fence : (t.setRegs i ws).fence = t.fence := rfl
@[simp] theorem Thread.setRegs_arrival : (t.setRegs i ws).arrival = t.arrival := rfl
@[simp] theorem Thread.setRegs_lastIssue : (t.setRegs i ws).lastIssue = t.lastIssue := rfl
@[simp] theorem Thread.setRegs_overdue : (t.setRegs i ws).overdue = t.overdue := rfl
@[simp] theorem Thread.setRegs_lateTrap : (t.setRegs i ws).lateTrap = t.lateTrap := rfl
@[simp] theorem Thread.setRegs_job : (t.setRegs i ws).job = t.job := rfl
@[simp] theorem Thread.setRegs_places : (t.setRegs i ws).places = t.places := rfl
@[simp] theorem Thread.setRegs_named : (t.setRegs i ws).named = t.named := rfl
@[simp] theorem Thread.setRegs_joined : (t.setRegs i ws).joined = t.joined := rfl
@[simp] theorem Thread.setRegs_alone : (t.setRegs i ws).alone = t.alone := rfl
@[simp] theorem Thread.setRegs_touch : (t.setRegs i ws).touch = t.touch := rfl
@[simp] theorem Thread.setRegs_stopping : (t.setRegs i ws).stopping = t.stopping := rfl
@[simp] theorem Thread.setRegs_ranOn : (t.setRegs i ws).ranOn = t.ranOn := rfl
@[simp] theorem Thread.setRegs_atTrap : (t.setRegs i ws).atTrap = t.atTrap := rfl
@[simp] theorem Thread.setRegs_badRegs : (t.setRegs i ws).badRegs = t.badRegs.filter (fun r => decide (r < i) || decide (i + ws.length ≤ r)) := rfl
@[simp] theorem Thread.setRegs_shadowBad : (t.setRegs i ws).shadowBad = t.shadowBad := rfl
@[simp] theorem Thread.setRegs_atHeader : (t.setRegs i ws).atHeader = t.atHeader := rfl
end

section
variable (t : Thread) (pc : DWord) (now : Nat) (transfer : Bool)
@[simp] theorem Thread.goto_core : (t.goto pc now transfer).core = t.core := rfl
@[simp] theorem Thread.goto_lane : (t.goto pc now transfer).lane = t.lane := rfl
@[simp] theorem Thread.goto_group : (t.goto pc now transfer).group = t.group := rfl
@[simp] theorem Thread.goto_team : (t.goto pc now transfer).team = t.team := rfl
@[simp] theorem Thread.goto_state : (t.goto pc now transfer).state = (if t.stopping then .stopped else .runnable) := rfl
@[simp] theorem Thread.goto_yielded : (t.goto pc now transfer).yielded = t.yielded := rfl
@[simp] theorem Thread.goto_pc : (t.goto pc now transfer).pc = pc := rfl
@[simp] theorem Thread.goto_after : (t.goto pc now transfer).after = t.after := rfl
@[simp] theorem Thread.goto_last : (t.goto pc now transfer).last = t.pc := rfl
@[simp] theorem Thread.goto_regs : (t.goto pc now transfer).regs = t.regs := rfl
@[simp] theorem Thread.goto_preds : (t.goto pc now transfer).preds = t.preds := rfl
@[simp] theorem Thread.goto_flags : (t.goto pc now transfer).flags = t.flags := rfl
@[simp] theorem Thread.goto_buf : (t.goto pc now transfer).buf = t.buf := rfl
@[simp] theorem Thread.goto_stack : (t.goto pc now transfer).stack = t.stack := rfl
@[simp] theorem Thread.goto_gen : (t.goto pc now transfer).gen = t.gen := rfl
@[simp] theorem Thread.goto_sr : (t.goto pc now transfer).sr = t.sr := rfl
@[simp] theorem Thread.goto_frame : (t.goto pc now transfer).frame = t.frame := rfl
@[simp] theorem Thread.goto_prio : (t.goto pc now transfer).prio = t.prio := rfl
@[simp] theorem Thread.goto_entry : (t.goto pc now transfer).entry = t.entry := rfl
@[simp] theorem Thread.goto_treelet : (t.goto pc now transfer).treelet = t.treelet := rfl
@[simp] theorem Thread.goto_sendixAt : (t.goto pc now transfer).sendixAt = t.sendixAt := rfl
@[simp] theorem Thread.goto_atomIx : (t.goto pc now transfer).atomIx = t.atomIx := rfl
@[simp] theorem Thread.goto_atomIxAt : (t.goto pc now transfer).atomIxAt = t.atomIxAt := rfl
@[simp] theorem Thread.goto_skip : (t.goto pc now transfer).skip = t.skip := rfl
@[simp] theorem Thread.goto_sstep : (t.goto pc now transfer).sstep = t.sstep := rfl
@[simp] theorem Thread.goto_sstepVa : (t.goto pc now transfer).sstepVa = t.sstepVa := rfl
@[simp] theorem Thread.goto_ops : (t.goto pc now transfer).ops = t.ops := rfl
@[simp] theorem Thread.goto_fence : (t.goto pc now transfer).fence = t.fence := rfl
@[simp] theorem Thread.goto_arrival : (t.goto pc now transfer).arrival = now := rfl
@[simp] theorem Thread.goto_lastIssue : (t.goto pc now transfer).lastIssue = t.lastIssue := rfl
@[simp] theorem Thread.goto_overdue : (t.goto pc now transfer).overdue = t.overdue := rfl
@[simp] theorem Thread.goto_lateTrap : (t.goto pc now transfer).lateTrap = t.lateTrap := rfl
@[simp] theorem Thread.goto_job : (t.goto pc now transfer).job = t.job := rfl
@[simp] theorem Thread.goto_places : (t.goto pc now transfer).places = t.places := rfl
@[simp] theorem Thread.goto_named : (t.goto pc now transfer).named = t.named := rfl
@[simp] theorem Thread.goto_joined : (t.goto pc now transfer).joined = none := rfl
@[simp] theorem Thread.goto_alone : (t.goto pc now transfer).alone = false := rfl
@[simp] theorem Thread.goto_touch : (t.goto pc now transfer).touch = t.touch := rfl
@[simp] theorem Thread.goto_stopping : (t.goto pc now transfer).stopping = false := rfl
@[simp] theorem Thread.goto_ranOn : (t.goto pc now transfer).ranOn = !transfer := rfl
@[simp] theorem Thread.goto_atTrap : (t.goto pc now transfer).atTrap = t.atTrap := rfl
@[simp] theorem Thread.goto_badRegs : (t.goto pc now transfer).badRegs = t.badRegs := rfl
@[simp] theorem Thread.goto_shadowBad : (t.goto pc now transfer).shadowBad = t.shadowBad := rfl
@[simp] theorem Thread.goto_atHeader : (t.goto pc now transfer).atHeader = none := rfl
end

section
variable (t : Thread) (now : Nat)
@[simp] theorem Thread.advance_core : (t.advance now).core = t.core := rfl
@[simp] theorem Thread.advance_lane : (t.advance now).lane = t.lane := rfl
@[simp] theorem Thread.advance_group : (t.advance now).group = t.group := rfl
@[simp] theorem Thread.advance_team : (t.advance now).team = t.team := rfl
@[simp] theorem Thread.advance_state : (t.advance now).state = (if t.stopping then .stopped else .runnable) := rfl
@[simp] theorem Thread.advance_yielded : (t.advance now).yielded = t.yielded := rfl
@[simp] theorem Thread.advance_pc : (t.advance now).pc = t.after := rfl
@[simp] theorem Thread.advance_after : (t.advance now).after = t.after := rfl
@[simp] theorem Thread.advance_last : (t.advance now).last = t.pc := rfl
@[simp] theorem Thread.advance_regs : (t.advance now).regs = t.regs := rfl
@[simp] theorem Thread.advance_preds : (t.advance now).preds = t.preds := rfl
@[simp] theorem Thread.advance_flags : (t.advance now).flags = t.flags := rfl
@[simp] theorem Thread.advance_buf : (t.advance now).buf = t.buf := rfl
@[simp] theorem Thread.advance_stack : (t.advance now).stack = t.stack := rfl
@[simp] theorem Thread.advance_gen : (t.advance now).gen = t.gen := rfl
@[simp] theorem Thread.advance_sr : (t.advance now).sr = t.sr := rfl
@[simp] theorem Thread.advance_frame : (t.advance now).frame = t.frame := rfl
@[simp] theorem Thread.advance_prio : (t.advance now).prio = t.prio := rfl
@[simp] theorem Thread.advance_entry : (t.advance now).entry = t.entry := rfl
@[simp] theorem Thread.advance_treelet : (t.advance now).treelet = t.treelet := rfl
@[simp] theorem Thread.advance_sendixAt : (t.advance now).sendixAt = t.sendixAt := rfl
@[simp] theorem Thread.advance_atomIx : (t.advance now).atomIx = t.atomIx := rfl
@[simp] theorem Thread.advance_atomIxAt : (t.advance now).atomIxAt = t.atomIxAt := rfl
@[simp] theorem Thread.advance_skip : (t.advance now).skip = t.skip := rfl
@[simp] theorem Thread.advance_sstep : (t.advance now).sstep = t.sstep := rfl
@[simp] theorem Thread.advance_sstepVa : (t.advance now).sstepVa = t.sstepVa := rfl
@[simp] theorem Thread.advance_ops : (t.advance now).ops = t.ops := rfl
@[simp] theorem Thread.advance_fence : (t.advance now).fence = t.fence := rfl
@[simp] theorem Thread.advance_arrival : (t.advance now).arrival = now := rfl
@[simp] theorem Thread.advance_lastIssue : (t.advance now).lastIssue = t.lastIssue := rfl
@[simp] theorem Thread.advance_overdue : (t.advance now).overdue = t.overdue := rfl
@[simp] theorem Thread.advance_lateTrap : (t.advance now).lateTrap = t.lateTrap := rfl
@[simp] theorem Thread.advance_job : (t.advance now).job = t.job := rfl
@[simp] theorem Thread.advance_places : (t.advance now).places = t.places := rfl
@[simp] theorem Thread.advance_named : (t.advance now).named = t.named := rfl
@[simp] theorem Thread.advance_joined : (t.advance now).joined = none := rfl
@[simp] theorem Thread.advance_alone : (t.advance now).alone = false := rfl
@[simp] theorem Thread.advance_touch : (t.advance now).touch = t.touch := rfl
@[simp] theorem Thread.advance_stopping : (t.advance now).stopping = false := rfl
@[simp] theorem Thread.advance_ranOn : (t.advance now).ranOn = true := rfl
@[simp] theorem Thread.advance_atTrap : (t.advance now).atTrap = t.atTrap := rfl
@[simp] theorem Thread.advance_badRegs : (t.advance now).badRegs = t.badRegs := rfl
@[simp] theorem Thread.advance_shadowBad : (t.advance now).shadowBad = t.shadowBad := rfl
@[simp] theorem Thread.advance_atHeader : (t.advance now).atHeader = none := rfl
end

section
variable (t : Thread) 
@[simp] theorem Thread.wake_core : (t.wake).core = t.core := rfl
@[simp] theorem Thread.wake_lane : (t.wake).lane = t.lane := rfl
@[simp] theorem Thread.wake_group : (t.wake).group = t.group := rfl
@[simp] theorem Thread.wake_team : (t.wake).team = t.team := rfl
@[simp] theorem Thread.wake_state : (t.wake).state = (if t.stopping then .stopped else .runnable) := rfl
@[simp] theorem Thread.wake_yielded : (t.wake).yielded = t.yielded := rfl
@[simp] theorem Thread.wake_pc : (t.wake).pc = t.pc := rfl
@[simp] theorem Thread.wake_after : (t.wake).after = t.after := rfl
@[simp] theorem Thread.wake_last : (t.wake).last = t.last := rfl
@[simp] theorem Thread.wake_clause : (t.wake).clause = t.clause := rfl
@[simp] theorem Thread.wake_regs : (t.wake).regs = t.regs := rfl
@[simp] theorem Thread.wake_preds : (t.wake).preds = t.preds := rfl
@[simp] theorem Thread.wake_flags : (t.wake).flags = t.flags := rfl
@[simp] theorem Thread.wake_buf : (t.wake).buf = t.buf := rfl
@[simp] theorem Thread.wake_stack : (t.wake).stack = t.stack := rfl
@[simp] theorem Thread.wake_gen : (t.wake).gen = t.gen := rfl
@[simp] theorem Thread.wake_sr : (t.wake).sr = t.sr := rfl
@[simp] theorem Thread.wake_frame : (t.wake).frame = t.frame := rfl
@[simp] theorem Thread.wake_prio : (t.wake).prio = t.prio := rfl
@[simp] theorem Thread.wake_entry : (t.wake).entry = t.entry := rfl
@[simp] theorem Thread.wake_treelet : (t.wake).treelet = t.treelet := rfl
@[simp] theorem Thread.wake_sendixAt : (t.wake).sendixAt = t.sendixAt := rfl
@[simp] theorem Thread.wake_atomIx : (t.wake).atomIx = t.atomIx := rfl
@[simp] theorem Thread.wake_atomIxAt : (t.wake).atomIxAt = t.atomIxAt := rfl
@[simp] theorem Thread.wake_skip : (t.wake).skip = t.skip := rfl
@[simp] theorem Thread.wake_sstep : (t.wake).sstep = t.sstep := rfl
@[simp] theorem Thread.wake_sstepVa : (t.wake).sstepVa = t.sstepVa := rfl
@[simp] theorem Thread.wake_ops : (t.wake).ops = t.ops := rfl
@[simp] theorem Thread.wake_fence : (t.wake).fence = t.fence := rfl
@[simp] theorem Thread.wake_arrival : (t.wake).arrival = t.arrival := rfl
@[simp] theorem Thread.wake_lastIssue : (t.wake).lastIssue = t.lastIssue := rfl
@[simp] theorem Thread.wake_overdue : (t.wake).overdue = t.overdue := rfl
@[simp] theorem Thread.wake_lateTrap : (t.wake).lateTrap = t.lateTrap := rfl
@[simp] theorem Thread.wake_job : (t.wake).job = t.job := rfl
@[simp] theorem Thread.wake_places : (t.wake).places = t.places := rfl
@[simp] theorem Thread.wake_named : (t.wake).named = t.named := rfl
@[simp] theorem Thread.wake_joined : (t.wake).joined = t.joined := rfl
@[simp] theorem Thread.wake_alone : (t.wake).alone = t.alone := rfl
@[simp] theorem Thread.wake_touch : (t.wake).touch = t.touch := rfl
@[simp] theorem Thread.wake_stopping : (t.wake).stopping = false := rfl
@[simp] theorem Thread.wake_ranOn : (t.wake).ranOn = t.ranOn := rfl
@[simp] theorem Thread.wake_atTrap : (t.wake).atTrap = t.atTrap := rfl
@[simp] theorem Thread.wake_badRegs : (t.wake).badRegs = t.badRegs := rfl
@[simp] theorem Thread.wake_shadowBad : (t.wake).shadowBad = t.shadowBad := rfl
@[simp] theorem Thread.wake_atHeader : (t.wake).atHeader = t.atHeader := rfl
end

section
variable (t : Thread) (len : Nat)
@[simp] theorem Thread.begun_core : (t.begun len).core = t.core := rfl
@[simp] theorem Thread.begun_lane : (t.begun len).lane = t.lane := rfl
@[simp] theorem Thread.begun_group : (t.begun len).group = t.group := rfl
@[simp] theorem Thread.begun_team : (t.begun len).team = t.team := rfl
@[simp] theorem Thread.begun_state : (t.begun len).state = .runnable := rfl
@[simp] theorem Thread.begun_yielded : (t.begun len).yielded = t.yielded := rfl
@[simp] theorem Thread.begun_pc : (t.begun len).pc = t.pc := rfl
@[simp] theorem Thread.begun_after : (t.begun len).after = t.pc + BitVec.ofNat 64 len := rfl
@[simp] theorem Thread.begun_last : (t.begun len).last = t.last := rfl
@[simp] theorem Thread.begun_clause : (t.begun len).clause = t.clause := rfl
@[simp] theorem Thread.begun_regs : (t.begun len).regs = t.regs := rfl
@[simp] theorem Thread.begun_preds : (t.begun len).preds = t.preds := rfl
@[simp] theorem Thread.begun_flags : (t.begun len).flags = t.flags := rfl
@[simp] theorem Thread.begun_buf : (t.begun len).buf = t.buf := rfl
@[simp] theorem Thread.begun_stack : (t.begun len).stack = t.stack := rfl
@[simp] theorem Thread.begun_gen : (t.begun len).gen = t.gen := rfl
@[simp] theorem Thread.begun_sr : (t.begun len).sr = t.sr := rfl
@[simp] theorem Thread.begun_frame : (t.begun len).frame = t.frame := rfl
@[simp] theorem Thread.begun_prio : (t.begun len).prio = t.prio := rfl
@[simp] theorem Thread.begun_entry : (t.begun len).entry = t.entry := rfl
@[simp] theorem Thread.begun_treelet : (t.begun len).treelet = t.treelet := rfl
@[simp] theorem Thread.begun_sendixAt : (t.begun len).sendixAt = t.sendixAt := rfl
@[simp] theorem Thread.begun_atomIx : (t.begun len).atomIx = t.atomIx := rfl
@[simp] theorem Thread.begun_atomIxAt : (t.begun len).atomIxAt = t.atomIxAt := rfl
@[simp] theorem Thread.begun_skip : (t.begun len).skip = t.skip := rfl
@[simp] theorem Thread.begun_sstep : (t.begun len).sstep = t.sstep := rfl
@[simp] theorem Thread.begun_sstepVa : (t.begun len).sstepVa = t.sstepVa := rfl
@[simp] theorem Thread.begun_ops : (t.begun len).ops = t.ops := rfl
@[simp] theorem Thread.begun_fence : (t.begun len).fence = t.fence := rfl
@[simp] theorem Thread.begun_arrival : (t.begun len).arrival = t.arrival := rfl
@[simp] theorem Thread.begun_lastIssue : (t.begun len).lastIssue = t.lastIssue := rfl
@[simp] theorem Thread.begun_overdue : (t.begun len).overdue = t.overdue := rfl
@[simp] theorem Thread.begun_lateTrap : (t.begun len).lateTrap = t.lateTrap := rfl
@[simp] theorem Thread.begun_job : (t.begun len).job = t.job := rfl
@[simp] theorem Thread.begun_places : (t.begun len).places = t.places := rfl
@[simp] theorem Thread.begun_named : (t.begun len).named = t.named := rfl
@[simp] theorem Thread.begun_joined : (t.begun len).joined = t.joined := rfl
@[simp] theorem Thread.begun_alone : (t.begun len).alone = t.alone := rfl
@[simp] theorem Thread.begun_touch : (t.begun len).touch = t.touch := rfl
@[simp] theorem Thread.begun_stopping : (t.begun len).stopping = false := rfl
@[simp] theorem Thread.begun_ranOn : (t.begun len).ranOn = t.ranOn := rfl
@[simp] theorem Thread.begun_atTrap : (t.begun len).atTrap = t.atTrap := rfl
@[simp] theorem Thread.begun_badRegs : (t.begun len).badRegs = t.badRegs := rfl
@[simp] theorem Thread.begun_shadowBad : (t.begun len).shadowBad = t.shadowBad := rfl
@[simp] theorem Thread.begun_atHeader : (t.begun len).atHeader = t.atHeader := rfl
end

section
variable (t : Thread) (i : Nat) (v : Bool)
@[simp] theorem Thread.setPred_core : (t.setPred i v).core = t.core := by unfold Thread.setPred; split <;> rfl
@[simp] theorem Thread.setPred_lane : (t.setPred i v).lane = t.lane := by unfold Thread.setPred; split <;> rfl
@[simp] theorem Thread.setPred_group : (t.setPred i v).group = t.group := by unfold Thread.setPred; split <;> rfl
@[simp] theorem Thread.setPred_team : (t.setPred i v).team = t.team := by unfold Thread.setPred; split <;> rfl
@[simp] theorem Thread.setPred_state : (t.setPred i v).state = t.state := by unfold Thread.setPred; split <;> rfl
@[simp] theorem Thread.setPred_yielded : (t.setPred i v).yielded = t.yielded := by unfold Thread.setPred; split <;> rfl
@[simp] theorem Thread.setPred_pc : (t.setPred i v).pc = t.pc := by unfold Thread.setPred; split <;> rfl
@[simp] theorem Thread.setPred_after : (t.setPred i v).after = t.after := by unfold Thread.setPred; split <;> rfl
@[simp] theorem Thread.setPred_last : (t.setPred i v).last = t.last := by unfold Thread.setPred; split <;> rfl
@[simp] theorem Thread.setPred_clause : (t.setPred i v).clause = t.clause := by unfold Thread.setPred; split <;> rfl
@[simp] theorem Thread.setPred_regs : (t.setPred i v).regs = t.regs := by unfold Thread.setPred; split <;> rfl
@[simp] theorem Thread.setPred_flags : (t.setPred i v).flags = t.flags := by unfold Thread.setPred; split <;> rfl
@[simp] theorem Thread.setPred_buf : (t.setPred i v).buf = t.buf := by unfold Thread.setPred; split <;> rfl
@[simp] theorem Thread.setPred_stack : (t.setPred i v).stack = t.stack := by unfold Thread.setPred; split <;> rfl
@[simp] theorem Thread.setPred_gen : (t.setPred i v).gen = t.gen := by unfold Thread.setPred; split <;> rfl
@[simp] theorem Thread.setPred_sr : (t.setPred i v).sr = t.sr := by unfold Thread.setPred; split <;> rfl
@[simp] theorem Thread.setPred_frame : (t.setPred i v).frame = t.frame := by unfold Thread.setPred; split <;> rfl
@[simp] theorem Thread.setPred_prio : (t.setPred i v).prio = t.prio := by unfold Thread.setPred; split <;> rfl
@[simp] theorem Thread.setPred_entry : (t.setPred i v).entry = t.entry := by unfold Thread.setPred; split <;> rfl
@[simp] theorem Thread.setPred_treelet : (t.setPred i v).treelet = t.treelet := by unfold Thread.setPred; split <;> rfl
@[simp] theorem Thread.setPred_sendixAt : (t.setPred i v).sendixAt = t.sendixAt := by unfold Thread.setPred; split <;> rfl
@[simp] theorem Thread.setPred_atomIx : (t.setPred i v).atomIx = t.atomIx := by unfold Thread.setPred; split <;> rfl
@[simp] theorem Thread.setPred_atomIxAt : (t.setPred i v).atomIxAt = t.atomIxAt := by unfold Thread.setPred; split <;> rfl
@[simp] theorem Thread.setPred_skip : (t.setPred i v).skip = t.skip := by unfold Thread.setPred; split <;> rfl
@[simp] theorem Thread.setPred_sstep : (t.setPred i v).sstep = t.sstep := by unfold Thread.setPred; split <;> rfl
@[simp] theorem Thread.setPred_sstepVa : (t.setPred i v).sstepVa = t.sstepVa := by unfold Thread.setPred; split <;> rfl
@[simp] theorem Thread.setPred_ops : (t.setPred i v).ops = t.ops := by unfold Thread.setPred; split <;> rfl
@[simp] theorem Thread.setPred_fence : (t.setPred i v).fence = t.fence := by unfold Thread.setPred; split <;> rfl
@[simp] theorem Thread.setPred_arrival : (t.setPred i v).arrival = t.arrival := by unfold Thread.setPred; split <;> rfl
@[simp] theorem Thread.setPred_lastIssue : (t.setPred i v).lastIssue = t.lastIssue := by unfold Thread.setPred; split <;> rfl
@[simp] theorem Thread.setPred_overdue : (t.setPred i v).overdue = t.overdue := by unfold Thread.setPred; split <;> rfl
@[simp] theorem Thread.setPred_lateTrap : (t.setPred i v).lateTrap = t.lateTrap := by unfold Thread.setPred; split <;> rfl
@[simp] theorem Thread.setPred_job : (t.setPred i v).job = t.job := by unfold Thread.setPred; split <;> rfl
@[simp] theorem Thread.setPred_places : (t.setPred i v).places = t.places := by unfold Thread.setPred; split <;> rfl
@[simp] theorem Thread.setPred_named : (t.setPred i v).named = t.named := by unfold Thread.setPred; split <;> rfl
@[simp] theorem Thread.setPred_joined : (t.setPred i v).joined = t.joined := by unfold Thread.setPred; split <;> rfl
@[simp] theorem Thread.setPred_alone : (t.setPred i v).alone = t.alone := by unfold Thread.setPred; split <;> rfl
@[simp] theorem Thread.setPred_touch : (t.setPred i v).touch = t.touch := by unfold Thread.setPred; split <;> rfl
@[simp] theorem Thread.setPred_stopping : (t.setPred i v).stopping = t.stopping := by unfold Thread.setPred; split <;> rfl
@[simp] theorem Thread.setPred_ranOn : (t.setPred i v).ranOn = t.ranOn := by unfold Thread.setPred; split <;> rfl
@[simp] theorem Thread.setPred_atTrap : (t.setPred i v).atTrap = t.atTrap := by unfold Thread.setPred; split <;> rfl
@[simp] theorem Thread.setPred_badRegs : (t.setPred i v).badRegs = t.badRegs := by unfold Thread.setPred; split <;> rfl
@[simp] theorem Thread.setPred_shadowBad : (t.setPred i v).shadowBad = t.shadowBad := by unfold Thread.setPred; split <;> rfl
@[simp] theorem Thread.setPred_atHeader : (t.setPred i v).atHeader = t.atHeader := by unfold Thread.setPred; split <;> rfl
end

section
variable (t : Thread) 
@[simp] theorem Thread.stop_core : (t.stop).core = t.core := by unfold Thread.stop; split <;> rfl
@[simp] theorem Thread.stop_lane : (t.stop).lane = t.lane := by unfold Thread.stop; split <;> rfl
@[simp] theorem Thread.stop_group : (t.stop).group = t.group := by unfold Thread.stop; split <;> rfl
@[simp] theorem Thread.stop_team : (t.stop).team = t.team := by unfold Thread.stop; split <;> rfl
@[simp] theorem Thread.stop_yielded : (t.stop).yielded = t.yielded := by unfold Thread.stop; split <;> rfl
@[simp] theorem Thread.stop_pc : (t.stop).pc = t.pc := by unfold Thread.stop; split <;> rfl
@[simp] theorem Thread.stop_after : (t.stop).after = t.after := by unfold Thread.stop; split <;> rfl
@[simp] theorem Thread.stop_last : (t.stop).last = t.last := by unfold Thread.stop; split <;> rfl
@[simp] theorem Thread.stop_clause : (t.stop).clause = t.clause := by unfold Thread.stop; split <;> rfl
@[simp] theorem Thread.stop_regs : (t.stop).regs = t.regs := by unfold Thread.stop; split <;> rfl
@[simp] theorem Thread.stop_preds : (t.stop).preds = t.preds := by unfold Thread.stop; split <;> rfl
@[simp] theorem Thread.stop_flags : (t.stop).flags = t.flags := by unfold Thread.stop; split <;> rfl
@[simp] theorem Thread.stop_buf : (t.stop).buf = t.buf := by unfold Thread.stop; split <;> rfl
@[simp] theorem Thread.stop_stack : (t.stop).stack = t.stack := by unfold Thread.stop; split <;> rfl
@[simp] theorem Thread.stop_gen : (t.stop).gen = t.gen := by unfold Thread.stop; split <;> rfl
@[simp] theorem Thread.stop_sr : (t.stop).sr = t.sr := by unfold Thread.stop; split <;> rfl
@[simp] theorem Thread.stop_frame : (t.stop).frame = t.frame := by unfold Thread.stop; split <;> rfl
@[simp] theorem Thread.stop_prio : (t.stop).prio = t.prio := by unfold Thread.stop; split <;> rfl
@[simp] theorem Thread.stop_entry : (t.stop).entry = t.entry := by unfold Thread.stop; split <;> rfl
@[simp] theorem Thread.stop_treelet : (t.stop).treelet = t.treelet := by unfold Thread.stop; split <;> rfl
@[simp] theorem Thread.stop_sendixAt : (t.stop).sendixAt = t.sendixAt := by unfold Thread.stop; split <;> rfl
@[simp] theorem Thread.stop_atomIx : (t.stop).atomIx = t.atomIx := by unfold Thread.stop; split <;> rfl
@[simp] theorem Thread.stop_atomIxAt : (t.stop).atomIxAt = t.atomIxAt := by unfold Thread.stop; split <;> rfl
@[simp] theorem Thread.stop_skip : (t.stop).skip = t.skip := by unfold Thread.stop; split <;> rfl
@[simp] theorem Thread.stop_sstep : (t.stop).sstep = t.sstep := by unfold Thread.stop; split <;> rfl
@[simp] theorem Thread.stop_sstepVa : (t.stop).sstepVa = t.sstepVa := by unfold Thread.stop; split <;> rfl
@[simp] theorem Thread.stop_ops : (t.stop).ops = t.ops := by unfold Thread.stop; split <;> rfl
@[simp] theorem Thread.stop_fence : (t.stop).fence = t.fence := by unfold Thread.stop; split <;> rfl
@[simp] theorem Thread.stop_arrival : (t.stop).arrival = t.arrival := by unfold Thread.stop; split <;> rfl
@[simp] theorem Thread.stop_lastIssue : (t.stop).lastIssue = t.lastIssue := by unfold Thread.stop; split <;> rfl
@[simp] theorem Thread.stop_overdue : (t.stop).overdue = t.overdue := by unfold Thread.stop; split <;> rfl
@[simp] theorem Thread.stop_lateTrap : (t.stop).lateTrap = t.lateTrap := by unfold Thread.stop; split <;> rfl
@[simp] theorem Thread.stop_job : (t.stop).job = t.job := by unfold Thread.stop; split <;> rfl
@[simp] theorem Thread.stop_places : (t.stop).places = t.places := by unfold Thread.stop; split <;> rfl
@[simp] theorem Thread.stop_named : (t.stop).named = t.named := by unfold Thread.stop; split <;> rfl
@[simp] theorem Thread.stop_joined : (t.stop).joined = t.joined := by unfold Thread.stop; split <;> rfl
@[simp] theorem Thread.stop_alone : (t.stop).alone = t.alone := by unfold Thread.stop; split <;> rfl
@[simp] theorem Thread.stop_touch : (t.stop).touch = t.touch := by unfold Thread.stop; split <;> rfl
@[simp] theorem Thread.stop_ranOn : (t.stop).ranOn = t.ranOn := by unfold Thread.stop; split <;> rfl
@[simp] theorem Thread.stop_atTrap : (t.stop).atTrap = t.atTrap := by unfold Thread.stop; split <;> rfl
@[simp] theorem Thread.stop_badRegs : (t.stop).badRegs = t.badRegs := by unfold Thread.stop; split <;> rfl
@[simp] theorem Thread.stop_shadowBad : (t.stop).shadowBad = t.shadowBad := by unfold Thread.stop; split <;> rfl
@[simp] theorem Thread.stop_atHeader : (t.stop).atHeader = t.atHeader := by unfold Thread.stop; split <;> rfl
end

section
variable (t : Thread) (f : Option Nat)
@[simp] theorem Thread.raise_core : (t.raise f).core = t.core := by cases f <;> rfl
@[simp] theorem Thread.raise_lane : (t.raise f).lane = t.lane := by cases f <;> rfl
@[simp] theorem Thread.raise_group : (t.raise f).group = t.group := by cases f <;> rfl
@[simp] theorem Thread.raise_team : (t.raise f).team = t.team := by cases f <;> rfl
@[simp] theorem Thread.raise_state : (t.raise f).state = t.state := by cases f <;> rfl
@[simp] theorem Thread.raise_yielded : (t.raise f).yielded = t.yielded := by cases f <;> rfl
@[simp] theorem Thread.raise_pc : (t.raise f).pc = t.pc := by cases f <;> rfl
@[simp] theorem Thread.raise_after : (t.raise f).after = t.after := by cases f <;> rfl
@[simp] theorem Thread.raise_last : (t.raise f).last = t.last := by cases f <;> rfl
@[simp] theorem Thread.raise_clause : (t.raise f).clause = t.clause := by cases f <;> rfl
@[simp] theorem Thread.raise_regs : (t.raise f).regs = t.regs := by cases f <;> rfl
@[simp] theorem Thread.raise_preds : (t.raise f).preds = t.preds := by cases f <;> rfl
@[simp] theorem Thread.raise_buf : (t.raise f).buf = t.buf := by cases f <;> rfl
@[simp] theorem Thread.raise_stack : (t.raise f).stack = t.stack := by cases f <;> rfl
@[simp] theorem Thread.raise_gen : (t.raise f).gen = t.gen := by cases f <;> rfl
@[simp] theorem Thread.raise_sr : (t.raise f).sr = t.sr := by cases f <;> rfl
@[simp] theorem Thread.raise_frame : (t.raise f).frame = t.frame := by cases f <;> rfl
@[simp] theorem Thread.raise_prio : (t.raise f).prio = t.prio := by cases f <;> rfl
@[simp] theorem Thread.raise_entry : (t.raise f).entry = t.entry := by cases f <;> rfl
@[simp] theorem Thread.raise_treelet : (t.raise f).treelet = t.treelet := by cases f <;> rfl
@[simp] theorem Thread.raise_sendixAt : (t.raise f).sendixAt = t.sendixAt := by cases f <;> rfl
@[simp] theorem Thread.raise_atomIx : (t.raise f).atomIx = t.atomIx := by cases f <;> rfl
@[simp] theorem Thread.raise_atomIxAt : (t.raise f).atomIxAt = t.atomIxAt := by cases f <;> rfl
@[simp] theorem Thread.raise_skip : (t.raise f).skip = t.skip := by cases f <;> rfl
@[simp] theorem Thread.raise_sstep : (t.raise f).sstep = t.sstep := by cases f <;> rfl
@[simp] theorem Thread.raise_sstepVa : (t.raise f).sstepVa = t.sstepVa := by cases f <;> rfl
@[simp] theorem Thread.raise_ops : (t.raise f).ops = t.ops := by cases f <;> rfl
@[simp] theorem Thread.raise_fence : (t.raise f).fence = t.fence := by cases f <;> rfl
@[simp] theorem Thread.raise_arrival : (t.raise f).arrival = t.arrival := by cases f <;> rfl
@[simp] theorem Thread.raise_lastIssue : (t.raise f).lastIssue = t.lastIssue := by cases f <;> rfl
@[simp] theorem Thread.raise_overdue : (t.raise f).overdue = t.overdue := by cases f <;> rfl
@[simp] theorem Thread.raise_lateTrap : (t.raise f).lateTrap = t.lateTrap := by cases f <;> rfl
@[simp] theorem Thread.raise_job : (t.raise f).job = t.job := by cases f <;> rfl
@[simp] theorem Thread.raise_places : (t.raise f).places = t.places := by cases f <;> rfl
@[simp] theorem Thread.raise_named : (t.raise f).named = t.named := by cases f <;> rfl
@[simp] theorem Thread.raise_joined : (t.raise f).joined = t.joined := by cases f <;> rfl
@[simp] theorem Thread.raise_alone : (t.raise f).alone = t.alone := by cases f <;> rfl
@[simp] theorem Thread.raise_touch : (t.raise f).touch = t.touch := by cases f <;> rfl
@[simp] theorem Thread.raise_stopping : (t.raise f).stopping = t.stopping := by cases f <;> rfl
@[simp] theorem Thread.raise_ranOn : (t.raise f).ranOn = t.ranOn := by cases f <;> rfl
@[simp] theorem Thread.raise_atTrap : (t.raise f).atTrap = t.atTrap := by cases f <;> rfl
@[simp] theorem Thread.raise_badRegs : (t.raise f).badRegs = t.badRegs := by cases f <;> rfl
@[simp] theorem Thread.raise_shadowBad : (t.raise f).shadowBad = t.shadowBad := by cases f <;> rfl
@[simp] theorem Thread.raise_atHeader : (t.raise f).atHeader = t.atHeader := by cases f <;> rfl
end

section
variable (t : Thread) (f : Option Nat)
@[simp] theorem Thread.lower_core : (t.lower f).core = t.core := by cases f <;> rfl
@[simp] theorem Thread.lower_lane : (t.lower f).lane = t.lane := by cases f <;> rfl
@[simp] theorem Thread.lower_group : (t.lower f).group = t.group := by cases f <;> rfl
@[simp] theorem Thread.lower_team : (t.lower f).team = t.team := by cases f <;> rfl
@[simp] theorem Thread.lower_state : (t.lower f).state = t.state := by cases f <;> rfl
@[simp] theorem Thread.lower_yielded : (t.lower f).yielded = t.yielded := by cases f <;> rfl
@[simp] theorem Thread.lower_pc : (t.lower f).pc = t.pc := by cases f <;> rfl
@[simp] theorem Thread.lower_after : (t.lower f).after = t.after := by cases f <;> rfl
@[simp] theorem Thread.lower_last : (t.lower f).last = t.last := by cases f <;> rfl
@[simp] theorem Thread.lower_clause : (t.lower f).clause = t.clause := by cases f <;> rfl
@[simp] theorem Thread.lower_regs : (t.lower f).regs = t.regs := by cases f <;> rfl
@[simp] theorem Thread.lower_preds : (t.lower f).preds = t.preds := by cases f <;> rfl
@[simp] theorem Thread.lower_buf : (t.lower f).buf = t.buf := by cases f <;> rfl
@[simp] theorem Thread.lower_stack : (t.lower f).stack = t.stack := by cases f <;> rfl
@[simp] theorem Thread.lower_gen : (t.lower f).gen = t.gen := by cases f <;> rfl
@[simp] theorem Thread.lower_sr : (t.lower f).sr = t.sr := by cases f <;> rfl
@[simp] theorem Thread.lower_frame : (t.lower f).frame = t.frame := by cases f <;> rfl
@[simp] theorem Thread.lower_prio : (t.lower f).prio = t.prio := by cases f <;> rfl
@[simp] theorem Thread.lower_entry : (t.lower f).entry = t.entry := by cases f <;> rfl
@[simp] theorem Thread.lower_treelet : (t.lower f).treelet = t.treelet := by cases f <;> rfl
@[simp] theorem Thread.lower_sendixAt : (t.lower f).sendixAt = t.sendixAt := by cases f <;> rfl
@[simp] theorem Thread.lower_atomIx : (t.lower f).atomIx = t.atomIx := by cases f <;> rfl
@[simp] theorem Thread.lower_atomIxAt : (t.lower f).atomIxAt = t.atomIxAt := by cases f <;> rfl
@[simp] theorem Thread.lower_skip : (t.lower f).skip = t.skip := by cases f <;> rfl
@[simp] theorem Thread.lower_sstep : (t.lower f).sstep = t.sstep := by cases f <;> rfl
@[simp] theorem Thread.lower_sstepVa : (t.lower f).sstepVa = t.sstepVa := by cases f <;> rfl
@[simp] theorem Thread.lower_ops : (t.lower f).ops = t.ops := by cases f <;> rfl
@[simp] theorem Thread.lower_fence : (t.lower f).fence = t.fence := by cases f <;> rfl
@[simp] theorem Thread.lower_arrival : (t.lower f).arrival = t.arrival := by cases f <;> rfl
@[simp] theorem Thread.lower_lastIssue : (t.lower f).lastIssue = t.lastIssue := by cases f <;> rfl
@[simp] theorem Thread.lower_overdue : (t.lower f).overdue = t.overdue := by cases f <;> rfl
@[simp] theorem Thread.lower_lateTrap : (t.lower f).lateTrap = t.lateTrap := by cases f <;> rfl
@[simp] theorem Thread.lower_job : (t.lower f).job = t.job := by cases f <;> rfl
@[simp] theorem Thread.lower_places : (t.lower f).places = t.places := by cases f <;> rfl
@[simp] theorem Thread.lower_named : (t.lower f).named = t.named := by cases f <;> rfl
@[simp] theorem Thread.lower_joined : (t.lower f).joined = t.joined := by cases f <;> rfl
@[simp] theorem Thread.lower_alone : (t.lower f).alone = t.alone := by cases f <;> rfl
@[simp] theorem Thread.lower_touch : (t.lower f).touch = t.touch := by cases f <;> rfl
@[simp] theorem Thread.lower_stopping : (t.lower f).stopping = t.stopping := by cases f <;> rfl
@[simp] theorem Thread.lower_ranOn : (t.lower f).ranOn = t.ranOn := by cases f <;> rfl
@[simp] theorem Thread.lower_atTrap : (t.lower f).atTrap = t.atTrap := by cases f <;> rfl
@[simp] theorem Thread.lower_badRegs : (t.lower f).badRegs = t.badRegs := by cases f <;> rfl
@[simp] theorem Thread.lower_shadowBad : (t.lower f).shadowBad = t.shadowBad := by cases f <;> rfl
@[simp] theorem Thread.lower_atHeader : (t.lower f).atHeader = t.atHeader := by cases f <;> rfl
end

end Sys2Proof.Machine
end

