-- ==== Sys2Proof/Laws/Lane.lean ====
section
/-! SUPPORT. What one lane of an instruction does, said once: the checks, the settling, and a whole group of lanes that compute in their own
threads. -/

set_option Elab.async false

namespace Sys2Proof.Machine

/-! ## Finite maps -/

theorem NMap.find_adjust_same {α : Type} (m : NMap α) (i : Nat) (f : α → α) :
    NMap.find (NMap.adjust m i f) i = (NMap.find m i).map f := by
  induction m with
  | nil => rfl
  | cons p m ih =>
    obtain ⟨k, v⟩ := p
    by_cases h : k = i
    · simp [NMap.adjust, NMap.find, h]
    · simpa [NMap.adjust, NMap.find, h] using ih

theorem NMap.find_adjust_other {α : Type} (m : NMap α) {i j : Nat} (f : α → α) (h : j ≠ i) :
    NMap.find (NMap.adjust m i f) j = NMap.find m j := by
  induction m with
  | nil => rfl
  | cons p m ih =>
    obtain ⟨k, v⟩ := p
    by_cases hi : k = i
    · subst hi
      simp only [NMap.adjust, List.map_cons, if_true, NMap.find]
      rw [if_neg (Ne.symm h), if_neg (Ne.symm h)]
      exact ih
    · by_cases hj : k = j
      · subst hj; simp [NMap.adjust, NMap.find, hi]
      · simpa [NMap.adjust, NMap.find, hi, hj] using ih

theorem NMap.find_put_same {α : Type} (m : NMap α) (i : Nat) (x : α) : NMap.find (NMap.put m i x) i = some x := by
  induction m with
  | nil => simp [NMap.put, NMap.find]
  | cons p m ih =>
    obtain ⟨k, v⟩ := p
    simp only [NMap.put]
    split
    · simp [NMap.find]
    · split
      · simp [NMap.find]
      · rename_i h1 h2
        simp [NMap.find, Ne.symm h2, ih]

theorem NMap.find_put_other {α : Type} (m : NMap α) {i j : Nat} (x : α) (h : j ≠ i) :
    NMap.find (NMap.put m i x) j = NMap.find m j := by
  induction m with
  | nil => simp [NMap.put, NMap.find, Ne.symm h]
  | cons p m ih =>
    obtain ⟨k, v⟩ := p
    simp only [NMap.put]
    split
    · simp [NMap.find, Ne.symm h]
    · split
      · rename_i h2; subst h2; simp [NMap.find, Ne.symm h]
      · by_cases hj : k = j
        · simp [NMap.find, hj]
        · simp [NMap.find, hj, ih]

theorem NMap.find_map {α β : Type} (m : NMap α) (f : Nat → α → β) (i : Nat) :
    NMap.find (m.map (fun p => (p.1, f p.1 p.2))) i = (NMap.find m i).map (f i) := by
  induction m with
  | nil => rfl
  | cons p m ih =>
    obtain ⟨k, v⟩ := p
    by_cases h : k = i
    · subst h; simp [NMap.find]
    · simp [NMap.find, h, ih]

/-! ## Threads of the state -/

@[simp] theorem State.thread_updThread_same (s : State) (k : Nat) (f : Thread → Thread) :
    (s.updThread k f).thread k = (s.thread k).map f := NMap.find_adjust_same _ _ _

theorem State.thread_updThread_other (s : State) {k j : Nat} (f : Thread → Thread) (h : j ≠ k) :
    (s.updThread k f).thread j = s.thread j := NMap.find_adjust_other _ _ h

@[simp] theorem State.team_updThread (s : State) (k : Nat) (f : Thread → Thread) (m : Nat) : (s.updThread k f).team m = s.team m := rfl
@[simp] theorem State.core_updThread (s : State) (k : Nat) (f : Thread → Thread) (ep : Nat) : (s.updThread k f).core ep = s.core ep := rfl
@[simp] theorem State.group_updThread (s : State) (k : Nat) (f : Thread → Thread) (g : Nat) : (s.updThread k f).group g = s.group g := rfl
@[simp] theorem State.now_updThread (s : State) (k : Nat) (f : Thread → Thread) (t : Thread) : (s.updThread k f).now t = s.now t := rfl

/-- A core that is changed reads as changed. -/
@[simp] theorem State.core_updCore_same (s : State) (ep : Nat) (f : Core → Core) : (s.updCore ep f).core ep = f (s.core ep) := by
  show (NMap.find (NMap.put s.cores ep (f (s.core ep))) ep).getD _ = _
  rw [NMap.find_put_same]; rfl

/-- Another core is as before. -/
theorem State.core_updCore_other (s : State) {ep e : Nat} (f : Core → Core) (h : e ≠ ep) : (s.updCore ep f).core e = s.core e := by
  show (NMap.find (NMap.put s.cores ep (f (s.core ep))) e).getD _ = (NMap.find s.cores e).getD _
  rw [NMap.find_put_other _ _ h]; rfl

/-- A die that is changed reads as changed. -/
@[simp] theorem State.die_updDie_same (s : State) (d : Nat) (f : Die → Die) : (s.updDie d f).die d = f (s.die d) := by
  show (NMap.find (NMap.put s.dies d (f (s.die d))) d).getD _ = _
  rw [NMap.find_put_same]; rfl

/-- Another die is as before. -/
theorem State.die_updDie_other (s : State) {d e : Nat} (f : Die → Die) (h : e ≠ d) : (s.updDie d f).die e = s.die e := by
  show (NMap.find (NMap.put s.dies d (f (s.die d))) e).getD _ = (NMap.find s.dies e).getD _
  rw [NMap.find_put_other _ _ h]

/-- A slice that is changed reads as changed. -/
@[simp] theorem State.slice_updSlice_same (s : State) (i : Nat) (f : Slice → Slice) : (s.updSlice i f).slice i = f (s.slice i) := by
  show (NMap.find (NMap.put s.slices i (f (s.slice i))) i).getD _ = _
  rw [NMap.find_put_same]; rfl

/-! ## The checks of a lane -/

/-- Whether a field trap is raised does not depend on the words it reports. -/
theorem fieldTrap_isNone (op : LongOp) (o : Long) (w w' : Word) (priv : Bool) (regs : Nat) :
    (fieldTrap op o w priv regs).isNone = (fieldTrap op o w' priv regs).isNone := by
  unfold fieldTrap
  simp only [apply_ite Option.isNone, Option.isNone_some]
  congr 4
  split
  · rfl
  · split
    · rfl
    · split <;> rfl

/-- A lane in which the instruction executes: its effect, settled. -/
theorem laneStep_runs {op : LongOp} {o : Long} {s : State} {k : Nat} {t : Thread} (len : Nat) (w0 : Word)
    (body : State → Nat → Thread → Out) (ht : s.thread k = some t) (hr : laneRuns op o s k = true) :
    laneStep op o len w0 body s k = settle op o (t.begun len) k (body (s.began k t len) k (t.begun len)) := by
  simp only [laneRuns, ht, Bool.and_eq_true, bne_iff_ne, ne_eq, Bool.not_eq_true'] at hr
  obtain ⟨⟨⟨⟨⟨⟨hskip, hfield⟩, hmember⟩, hpred⟩, hguard⟩, howed⟩, hbad⟩ := hr
  have hg : guardHolds (t.begun len) o = true := hguard
  have hf : fieldTrap op o w0 ((t.begun len).sr.priv || !guardHolds (t.begun len) o) (s.team (t.begun len).team).regs = none := by
    rw [hg]
    have := fieldTrap_isNone op o w0 0#32 t.sr.priv (s.team t.team).regs
    rw [hfield] at this
    simpa [Thread.begun] using this
  simp only [laneStep, ht]
  unfold laneChecked
  rw [if_neg (show ¬ (t.begun len).skip = some (t.begun len).pc from hskip)]
  have hf' : fieldTrap op o w0 ((t.begun len).sr.priv || !guardHolds (t.begun len) o)
      ((s.updThread k (fun _ => t.begun len)).team (t.begun len).team).regs = none := hf
  rw [hf']
  dsimp only
  rw [if_neg (show ¬ memberFault (s.updThread k (fun _ => t.begun len)) (t.begun len) op o = true by
    show ¬ memberFault s t op o = true; rw [hmember]; exact Bool.false_ne_true)]
  rw [if_neg (show ¬ owedPred (t.begun len) op o = true by
    show ¬ owedPred t op o = true; rw [hpred]; exact Bool.false_ne_true)]
  rw [if_neg (show ¬ (!guardHolds (t.begun len) o) = true by rw [hg]; exact Bool.false_ne_true)]
  rw [if_neg (show ¬ (!(owed (t.begun len) (usedRegs op o)).isEmpty) = true by
    show ¬ (!(owed t (usedRegs op o)).isEmpty) = true; rw [howed]; exact Bool.false_ne_true)]
  rw [show badRead (t.begun len) op o = none from Option.isNone_iff_eq_none.mp hbad]
  rfl

/-- A long instruction that one thread issues alone. -/
theorem runLong_lone {op : LongOp} {o : Long} {s : State} {k : Nat} {t : Thread} (body : State → Nat → Thread → Out)
    (h : Lone op o s k t) :
    runLong op o body s = .next (settled op o t o.bytes k (body (s.began k t o.bytes) k (t.begun o.bytes))) := by
  obtain ⟨hc, ht, hr⟩ := h
  show Host.Outcome.next _ = _
  rw [hc]
  simp only [List.foldl_cons, List.foldl_nil]
  rw [laneStep_runs _ _ body ht hr]
  rfl

/-- A short instruction that one thread issues alone. -/
theorem runShort_lone {op : LongOp} {o : Long} {s : State} {k : Nat} {t : Thread} (w : Word) (body : State → Nat → Thread → Out)
    (h : Lone op o s k t) :
    runShort op o w body s = .next (settled op o t 4 k (body (s.began k t 4) k (t.begun 4))) := by
  obtain ⟨hc, ht, hr⟩ := h
  show Host.Outcome.next _ = _
  rw [hc]
  simp only [List.foldl_cons, List.foldl_nil]
  rw [laneStep_runs _ _ body ht hr]
  rfl

end Sys2Proof.Machine
end

