-- ==== Sys2Proof/Laws/Memory.lean ====
section
/-! SUPPORT. The memory: its canonical form said as a property of the list, that every operation on memory keeps it, and what a byte reads as
after a write. -/

set_option Elab.async false

namespace Sys2Proof.Machine

/-! ## The canonical form -/

/-- The canonical form, said of the whole list: no byte reads as an unlisted one, addresses rise. -/
theorem Memory.wf_iff (m : List Host.Cell) :
    Memory.wf m = true ↔ (∀ p ∈ m, p.2 ≠ unlisted) ∧ m.Pairwise (fun p q => p.1 < q.1) := by
  induction m with
  | nil => simp [Memory.wf]
  | cons p m ih =>
    obtain ⟨k, v⟩ := p
    cases m with
    | nil => simp [Memory.wf]
    | cons q m =>
      obtain ⟨k', v'⟩ := q
      have e : Memory.wf ((k, v) :: (k', v') :: m) = (v != unlisted && decide (k < k') && Memory.wf ((k', v') :: m)) := rfl
      rw [e, Bool.and_eq_true, Bool.and_eq_true, ih, List.pairwise_cons (a := (k, v))]
      constructor
      · rintro ⟨⟨hv, hk⟩, hm, hp⟩
        have hk := of_decide_eq_true hk
        refine ⟨?_, ?_, hp⟩
        · intro p hp'
          rcases List.mem_cons.mp hp' with h | h
          · subst h; simpa using hv
          · exact hm p h
        · intro q hq
          rcases List.mem_cons.mp hq with h | h
          · subst h; exact hk
          · exact Nat.lt_trans hk ((List.pairwise_cons.mp hp).1 q h)
      · rintro ⟨hm, hk, hp⟩
        refine ⟨⟨?_, ?_⟩, fun p h => hm p (List.mem_cons_of_mem _ h), hp⟩
        · simpa using hm (k, v) (List.mem_cons_self ..)
        · exact decide_eq_true (hk (k', v') (List.mem_cons_self ..))

/-- A cell of the memory after a byte is written is that byte's or an old one. -/
theorem mem_memWrite {m : List Host.Cell} {a : Nat} {b : Byte} {p : Host.Cell} (h : p ∈ memWrite m a b) :
    (p = (a, b) ∧ b ≠ unlisted) ∨ p ∈ m := by
  induction m with
  | nil =>
    simp only [memWrite] at h
    split at h
    · simp at h
    · rename_i hb; exact .inl ⟨by simpa using h, hb⟩
  | cons q m ih =>
    obtain ⟨k, v⟩ := q
    simp only [memWrite] at h
    split at h
    · split at h
      · exact .inr h
      · rename_i hb
        rcases List.mem_cons.mp h with h | h
        · exact .inl ⟨h, hb⟩
        · exact .inr h
    · split at h
      · split at h
        · exact .inr (List.mem_cons_of_mem _ h)
        · rename_i hb
          rcases List.mem_cons.mp h with h | h
          · exact .inl ⟨h, hb⟩
          · exact .inr (List.mem_cons_of_mem _ h)
      · rcases List.mem_cons.mp h with h | h
        · exact .inr (h ▸ List.mem_cons_self ..)
        · rcases ih h with h | h
          · exact .inl h
          · exact .inr (List.mem_cons_of_mem _ h)

/-- Writing a byte keeps the canonical form. -/
theorem memWrite_wf {m : List Host.Cell} (a : Nat) (b : Byte) (h : Memory.wf m = true) : Memory.wf (memWrite m a b) = true := by
  rw [Memory.wf_iff] at h ⊢
  refine ⟨fun p hp => ?_, ?_⟩
  · rcases mem_memWrite hp with ⟨rfl, hb⟩ | hp
    · exact hb
    · exact h.1 p hp
  · replace h := h.2
    induction m with
    | nil => simp only [memWrite]; split <;> simp
    | cons q m ih =>
      obtain ⟨k, v⟩ := q
      have hq := (List.pairwise_cons.mp h).1
      have hm := (List.pairwise_cons.mp h).2
      simp only [memWrite]
      split
      · rename_i ha
        split
        · exact h
        · refine List.pairwise_cons.mpr ⟨fun p hp => ?_, h⟩
          rcases List.mem_cons.mp hp with rfl | hp
          · exact ha
          · exact Nat.lt_trans ha (hq p hp)
      · split
        · rename_i ha
          split
          · exact hm
          · exact List.pairwise_cons.mpr ⟨fun p hp => by simpa [ha] using hq p hp, hm⟩
        · rename_i h1 h2
          refine List.pairwise_cons.mpr ⟨fun p hp => ?_, ih hm⟩
          rcases mem_memWrite hp with ⟨rfl, -⟩ | hp
          · show k < a
            omega
          · exact hq p hp

/-- Writing bytes keeps the canonical form. -/
theorem memWrites_wf {m : List Host.Cell} (a : Nat) (bs : List Byte) (h : Memory.wf m = true) : Memory.wf (memWrites m a bs) = true := by
  induction bs generalizing m a with
  | nil => exact h
  | cons b bs ih => exact ih _ (memWrite_wf a b h)

/-- A write of the state keeps the canonical form. -/
theorem State.write_wf {s : State} (a : Nat) (bs : List Byte) (h : s.Inv) : (s.write a bs).Inv := memWrites_wf a bs h

/-- The memory right after reset is in its canonical form. -/
theorem State.reset_wf : State.reset.Inv := rfl

/-! ## Reading after writing -/

/-- In a canonical memory whose first cell lies above an address, that address reads as unlisted. -/
theorem memRead_below {m : List Host.Cell} {a : Nat} (h : ∀ p ∈ m, a < p.1) : memRead m a = unlisted := by
  induction m with
  | nil => rfl
  | cons p m ih =>
    obtain ⟨k, v⟩ := p
    have hk : a < k := h (k, v) (List.mem_cons_self ..)
    simp only [memRead]
    rw [if_neg (by omega)]
    exact ih (fun p hp => h p (List.mem_cons_of_mem _ hp))

/-- The byte written is read back. -/
theorem memRead_memWrite_same {m : List Host.Cell} (a : Nat) (b : Byte) (h : Memory.wf m = true) : memRead (memWrite m a b) a = b := by
  rw [Memory.wf_iff] at h
  replace h := h.2
  induction m with
  | nil =>
    simp only [memWrite]
    split
    · rename_i hb; exact hb.symm
    · simp [memRead]
  | cons q m ih =>
    obtain ⟨k, v⟩ := q
    have hq := (List.pairwise_cons.mp h).1
    simp only [memWrite]
    split
    · rename_i ha
      split
      · rename_i hb
        rw [hb]
        exact memRead_below (fun p hp => by
          rcases List.mem_cons.mp hp with rfl | hp
          · exact ha
          · exact Nat.lt_trans ha (hq p hp))
      · simp [memRead]
    · split
      · rename_i ha
        split
        · rename_i hb
          rw [hb]
          exact memRead_below (fun p hp => by simpa [ha] using hq p hp)
        · simp [memRead]
      · rename_i h1 h2
        simp only [memRead]
        rw [if_neg (by omega)]
        exact ih (List.pairwise_cons.mp h).2

/-- Every other byte reads as before. -/
theorem memRead_memWrite_other {m : List Host.Cell} {a c : Nat} (b : Byte) (hc : c ≠ a) : memRead (memWrite m a b) c = memRead m c := by
  induction m with
  | nil =>
    simp only [memWrite]
    split
    · rfl
    · simp [memRead, Ne.symm hc]
  | cons q m ih =>
    obtain ⟨k, v⟩ := q
    simp only [memWrite]
    split
    · split
      · rfl
      · simp [memRead, Ne.symm hc]
    · split
      · rename_i ha
        split
        · simp [memRead, ← ha, Ne.symm hc]
        · simp [memRead, ← ha, Ne.symm hc]
      · simp only [memRead]
        split
        · rfl
        · exact ih

/-- A byte outside the bytes written reads as before. -/
theorem memRead_memWrites_outside {m : List Host.Cell} {a c : Nat} (bs : List Byte) (h : c < a ∨ a + bs.length ≤ c) :
    memRead (memWrites m a bs) c = memRead m c := by
  induction bs generalizing m a with
  | nil => rfl
  | cons b bs ih =>
    rw [List.length_cons] at h
    simp only [memWrites]
    rw [ih (by omega), memRead_memWrite_other b (by omega)]

/-- Byte i of the bytes written is read back. -/
theorem memRead_memWrites_inside {m : List Host.Cell} {a : Nat} (bs : List Byte) (h : Memory.wf m = true) (i : Nat) (hi : i < bs.length) :
    memRead (memWrites m a bs) (a + i) = bs[i] := by
  induction bs generalizing m a i with
  | nil => simp at hi
  | cons b bs ih =>
    simp only [memWrites]
    cases i with
    | zero => rw [memRead_memWrites_outside bs (by omega)]; simpa using memRead_memWrite_same a b h
    | succ i =>
      have e : a + (i + 1) = a + 1 + i := by omega
      rw [e, ih (memWrite_wf a b h) i (by simpa using hi)]
      simp

/-! ## Folds -/

/-- A fold of operations that each keep the canonical form keeps it. -/
theorem State.foldl_wf {α : Type} (l : List α) (f : State → α → State) (h : ∀ s x, s.Inv → (f s x).Inv) {s : State} (hs : s.Inv) :
    (l.foldl f s).Inv := by
  induction l generalizing s with
  | nil => exact hs
  | cons x l ih => exact ih (h s x hs)

/-- A fold of operations that leave the memory alone leaves it alone. -/
theorem State.foldl_mem {α : Type} (l : List α) (f : State → α → State) (h : ∀ s x, (f s x).mem = s.mem) (s : State) :
    (l.foldl f s).mem = s.mem := by
  induction l generalizing s with
  | nil => rfl
  | cons x l ih => exact (ih (f s x)).trans (h s x)

end Sys2Proof.Machine
end

