-- ==== Sys2Proof/Tests/Slice0.lean ====
section
/-! SUPPORT. Tests of the model: words that are no instruction's, the decoding of every code of the maps of R214 and R215 from its word,
small steps whose results come from the manual.  No statement rests on them. -/

set_option Elab.async false

namespace Sys2Proof.Tests

open Sys2Proof Sys2Proof.Machine

/-! ## Well-formedness: an ill-formed term for each check, refused -/

/-- A row of the events of the table is no word. -/
theorem test_wf_event_is_no_word : Instr.wellFormed .dieLost = false := by decide
/-- There are twelve masks (R25, R214). -/
theorem test_wf_short_mask_range : (Instr.joinShort 12#4).wellFormed = false ∧ (Instr.leaveShort 12#4).wellFormed = false ∧
    (Instr.waitkShort 15#4).wellFormed = false ∧ (Instr.waitkShort 11#4).wellFormed = true := by decide
/-- FCLS.TEST is M4 = 1 of FCLS (R267): the plain row with that M4 is not the meaning of a word, nor the variant without it. -/
theorem test_wf_variants_by_m4 :
    [Instr.fcls { longZero with m4 := 1#4 }, .fclsTest longZero, .tcoef { longZero with m4 := 1#4 }, .tcoefGet longZero, .abind { longZero with m4 := 1#4 },
     .abindUn longZero, .view { longZero with m4 := 1#4 }, .viewSet longZero, .resid { longZero with m4 := 1#4 }, .residReq longZero,
     .vmovRow { longZero with m4 := 1#4 }, .vmovGet longZero, .vmovPut { longZero with m4 := 1#4 }, .eschedLoad { longZero with m4 := 3#4 },
     .eschedStep longZero, .eschedAdv longZero, .eschedClr longZero, .clkSync { longZero with m4 := 2#4 }, .clkCyc longZero,
     .clkWait longZero].all (fun i => !i.wellFormed) = true := by decide
/-- FLUSH.ALL is M4 bit 1 (R281), RECQ.HELD M4 bit 1 (R324), SSTEP.BIND MODE 1 (R289). -/
theorem test_wf_variants_by_bit :
    [Instr.flush { longZero with m4 := 2#4 }, .flushAll longZero, .recq { longZero with m4 := 2#4 }, .recqHeld longZero,
     .sstep { longZero with sub := 0x100#13 }, .sstepBind longZero].all (fun i => !i.wellFormed) = true := by decide

/-! ## Decoding -/

/-- The word of a long code with every other field zero is that row's. -/
def readsAs (p : Nat × LongOp) : Bool :=
  match decode [BitVec.ofNat 32 (4 * p.1 + 1), 0#32, 0#32] with
  | .ok (i, []) => i.long? == some (p.2, longZero)
  | _ => false

/-- R215, rows 0x0 to 0x2. -/
theorem test_decode_control_integer_lane :
  [(0x00, .nop), (0x01, .mov), (0x02, .lit), (0x03, .add), (0x04, .sub), (0x05, .mul), (0x06, .mulh), (0x07, .mad), (0x08, .div), (0x09, .rem), (0x0A,
   .min), (0x0B, .max), (0x0C, .abs), (0x0D, .neg), (0x0E, .and), (0x0F, .or), (0x10, .xor), (0x11, .not), (0x12, .shl), (0x13, .shr), (0x14, .sar),
   (0x15, .rot), (0x16, .bfx), (0x17, .bfi), (0x18, .popc), (0x19, .clz), (0x1A, .brev), (0x1B, .sel), (0x1C, .setp), (0x1D, .plop), (0x1E, .lea),
   (0x1F, .gaddr), (0x20, .bra), (0x21, .brx), (0x22, .call), (0x23, .ret), (0x24, .join), (0x25, .leave), (0x26, .waitk), (0x27, .kmov), (0x28,
   .vote), (0x29, .shfl), (0x2A, .scan), (0x2B, .redg), (0x2C, .yield), (0x2D, .exit), (0x2E, .getsr), (0x2F, .setsr)].all readsAs = true := by decide +kernel
/-- R215, rows 0x3 to 0x4. -/
theorem test_decode_float :
  [(0x30, .fadd), (0x31, .fsub), (0x32, .fmul), (0x33, .ffma), (0x34, .fmin), (0x35, .fmax), (0x36, .fsetp), (0x37, .frcp), (0x38, .fdiv), (0x39,
   .fsqrt), (0x3A, .frsq), (0x3B, .fex2), (0x3C, .flg2), (0x3D, .fsin), (0x3E, .fcos), (0x3F, .ftanh), (0x40, .frnd), (0x41, .cvt), (0x42, .f2i),
   (0x43, .i2f), (0x44, .pack), (0x45, .unpk), (0x46, .hfma2), (0x47, .dot4), (0x48, .fcls), (0x49, .fscale)].all readsAs = true := by decide +kernel
/-- R215, rows 0x5 to 0x7. -/
theorem test_decode_memory_sync :
  [(0x50, .ld), (0x51, .st), (0x52, .lds), (0x53, .sts), (0x54, .ldc), (0x55, .stc), (0x56, .ldx), (0x57, .stx), (0x58, .setfe), (0x59, .atom), (0x5A,
   .red), (0x5B, .pref), (0x5C, .flush), (0x5D, .fence), (0x5E, .get), (0x5F, .put), (0x60, .puts), (0x61, .ratom), (0x62, .bara), (0x63, .barw),
   (0x64, .sstep), (0x65, .engk), (0x66, .engw)].all readsAs = true := by decide +kernel
/-- R215, rows 0x8 to 0x9. -/
theorem test_decode_tile_row :
  [(0x80, .tmma), (0x81, .tmmas), (0x82, .twmma), (0x83, .titer), (0x84, .tpoly), (0x85, .twait), (0x86, .tver), (0x87, .tlda), (0x88, .tsta), (0x89,
   .tzero), (0x8A, .tenq), (0x8B, .tcoef), (0x8C, .tcb), (0x8D, .tbld), (0x8E, .ttrn), (0x8F, .tfeed), (0x90, .vadd), (0x91, .vmul), (0x92, .vfma),
   (0x93, .vmax), (0x94, .vmin), (0x95, .vexp), (0x96, .vred), (0x97, .vbcast), (0x98, .vmovRow), (0x99, .vcvt)].all readsAs = true := by decide +kernel
/-- R215, rows 0xA to 0xB. -/
theorem test_decode_ray_fabric :
  [(0xA0, .raysend), (0xA1, .boxt), (0xA2, .trit), (0xA3, .tlook), (0xA4, .hitq), (0xA5, .rque), (0xA6, .recq), (0xA7, .recj), (0xA8, .send), (0xA9,
   .recv), (0xAA, .abind), (0xAB, .balw), (0xAC, .cinit), (0xAD, .cred), (0xAE, .cwait), (0xAF, .baddq), (0xB0, .blkq), (0xB1, .view), (0xB2, .resid)].all readsAs = true := by decide +kernel
/-- R215, rows 0xC to 0xF. -/
theorem test_decode_system :
  [(0xC0, .trap), (0xC1, .rte), (0xC2, .brk), (0xC3, .cswap), (0xC4, .tlbi), (0xC5, .eschedLoad), (0xC6, .clkSync), (0xC7, .perf), (0xC8, .mapq)].all readsAs = true := by decide +kernel

/-- The variants that the table lists on rows of their own, by M4 or by MODE (word 2 bits 31:19 hold SUB13, MODE its bits 10:8). -/
theorem test_decode_variants :
    [(0x10000121#32, 0#32, LongOp.fclsTest), (0x20000171#32, 0#32, .flushAll), (0x00000191#32, 0x08000000#32, .sstepBind), (0x1000022D#32, 0#32, .tcoefGet),
     (0x10000261#32, 0#32, .vmovGet), (0x20000261#32, 0#32, .vmovPut), (0x20000299#32, 0#32, .recqHeld), (0x100002A9#32, 0#32, .abindUn),
     (0x100002C5#32, 0#32, .viewSet), (0x100002C9#32, 0#32, .residReq), (0x10000315#32, 0#32, .eschedStep), (0x20000315#32, 0#32, .eschedAdv),
     (0x30000315#32, 0#32, .eschedClr), (0x10000319#32, 0#32, .clkCyc), (0x20000319#32, 0#32, .clkWait)].all
      (fun p => match decode [p.1, 0#32, p.2.1] with
        | .ok (i, []) => (i.long?.map (·.1)) == some p.2.2
        | _ => false) = true := by decide +kernel

/-- Short words (R201, R214): X6 = 5 in bits 31:26, A = 3 in 25:17, D = 7 in 16:8, OP6 in 7:2; masks with X6 bits 5:4 the operation and 3:0 the mask;
branches with OFF19 = -2, NEG = 1, GP = 2. -/
theorem test_decode_short :
    [(0x00060700#32, Instr.movShort 3#9 7#9), (0x00060704#32, .addShort 3#9 7#9), (0x00060708#32, .subShort 3#9 7#9), (0x1406070C#32, .addi 5#6 3#9 7#9),
     (0x14060710#32, .shli 5#6 3#9 7#9), (0x14060714#32, .shri 5#6 3#9 7#9), (0x14060718#32, .sari 5#6 3#9 7#9), (0x1406071C#32, .andi 5#6 3#9 7#9),
     (0x14060720#32, .lis 5#6 3#9 7#9), (0x00060724#32, .faddShort 3#9 7#9), (0x00060728#32, .fmulShort 3#9 7#9), (0x1406072C#32, .ldw 5#6 3#9 7#9),
     (0x14060730#32, .stw 5#6 3#9 7#9), (0x14060734#32, .ldsw 5#6 3#9 7#9), (0x14060738#32, .stsw 5#6 3#9 7#9), (0x1400003C#32, .joinShort 5#4),
     (0x5400003C#32, .leaveShort 5#4), (0x9400003C#32, .waitkShort 5#4), (0xFFFFD240#32, .braShort 0x7FFFE#19 1#1 2#4),
     (0xFFFFD244#32, .callShort 0x7FFFE#19 1#1 2#4), (0x00000048#32, .nopShort), (0x04000048#32, .retShort), (0x08000048#32, .exitShort),
     (0x0C000048#32, .yieldShort), (0x43D5400B#32, .clauseStart 1#2 15#8 5#4 5#4 2#12)].all
      (fun p => match decode [p.1] with
        | .ok (i, []) => i == p.2
        | _ => false) = true := by decide +kernel

/-- The words of chapter 9's loop and of the later chapters, as an obligation lists them. -/
theorem test_decode_manual_words : Claims.specWords.all (fun p => match decode p.1 with
    | .ok (i, []) => i == p.2
    | _ => false) = true := by decide +kernel

/-- Blank codes, a short form with an unused field, words that end too soon: refused by name. -/
theorem test_decode_refuses : (match decode [0x00000129#32, 0#32, 0#32] with | .error (.unassignedOp8 _) => true | _ => false) = true ∧
    (match decode [0x0000004C#32] with | .error (.unassignedOp6 _) => true | _ => false) = true ∧
    (match decode [0x10000048#32] with | .error (.unassignedX6 _) => true | _ => false) = true ∧
    (match decode [0x04060700#32] with | .error (.unusedField _) => true | _ => false) = true ∧
    (match decode [0x0000000D#32, 0#32] with | .error .truncated => true | _ => false) = true ∧
    (match decode [] with | .error .nothing => true | _ => false) = true := by decide +kernel

/-- decodeTableWord reads a short row of 32 bits and a row to which the table gives its first word only. -/
theorem test_decode_table_word : decodeTableWord 32 0x1406070C = some (.addi 5#6 3#9 7#9) ∧ decodeTableWord 32 0x0000000D = some (.add longZero) := by
  decide +kernel

end Sys2Proof.Tests
end

