-- ==== Sys2Proof/Tests/Witness.lean ====
section
/-! SUPPORT. Witnesses: for the statements' hypotheses, concrete states and operands that meet them together.  Each lemma here says only
that the hypotheses of a statement can be met; what the statement concludes is for its proof. -/

open Sys2Proof Sys2Proof.Machine Sys2Proof.Claims

set_option Elab.async false

namespace Sys2Proof.Witness

/-- A privileged thread at 0x10004 in its clause, on core 0, in lane 0 of group 2 of team 1. -/
def thread0 : Thread :=
  { mkThread 0 0 2 1 64 0 0x10004#64 0#64 (startSpecials true 0#64 0#64 0) 0 with
    clause := some { base := 0x10000#64, header := 0x017FC003#32, words := List.replicate 8 0#32 } }

/-- Its team: launched, with scratch, a column window and no tile. -/
def team0 : Team :=
  { mkTeam 0 0 0 0 0 1 64 1 with
    scratch := 0x1000, scratchSize := 0x1000, column := 0x100, columnSize := 0x400, grid := some 7
    bars := List.replicate 32 { phase := 5#32, count := 3, arrived := 1 } }

/-- Its group: no mask enrolled. -/
def group0 : Group :=
  { team := 1, gid := 0, context := 0, masks := List.replicate 12 { enrolled := 0#32, arrived := 0#32 }, fair := 0, slots := true, lane := 0 }

/-- A page of memory translated to itself, of kind C (1) or S (0), with RD, W and X. -/
def page (va kind : Nat) : Tlb := { asid := 0, va := va, size := 0x10000, pa := va, entry := BitVec.ofNat 64 (va + 0x3B + kind * 64) }

/-- Its core: a vector base, two pages in the L1 TLB, allowances for three destinations. -/
def core0 : Core :=
  { Core.reset with
    tvec := 0x4000#64
    tlb := [page 0x20000 1, page 0x30000 0]
    allow := [(5, { flits := 30, used := 0 }), (130, { flits := 30, used := 0 }), (2051, { flits := 30, used := 0 })] }

/-- A package in which one thread, of key 10, issues alone. -/
def state0 : State :=
  { State.reset with fresh := 100, cur := [10], teams := [(1, team0)], groups := [(2, group0)], threads := [(10, thread0)], cores := [(0, core0)] }

/-- state0 with some registers of its thread set. -/
def withRegs (s : State) (l : List (Nat × Word)) : State :=
  s.updThread 10 (fun t => l.foldl (fun t x => { t with regs := t.regs.set x.1 x.2 }) t)

/-- Long rows with fields that meet their checks, part 1: row, d, a, b, c, e, M4, word 2. -/
def rows1 : List (LongOp × Nat × Nat × Nat × Nat × Nat × Nat × Nat) :=
  [(.nop, 0, 0, 0, 0, 0, 0, 0), (.mov, 32, 8, 0, 0, 0, 0, 0), (.lit, 32, 0, 0, 0, 0, 0, 0), (.add, 32, 8, 16, 0, 0, 0, 0),
   (.sub, 32, 8, 16, 0, 0, 0, 0), (.mul, 32, 8, 16, 0, 0, 0, 0), (.mulh, 32, 8, 16, 0, 0, 0, 0), (.mad, 32, 8, 16, 24, 0, 0, 0),
   (.div, 32, 8, 16, 0, 0, 0, 0), (.rem, 32, 8, 16, 0, 0, 0, 0), (.min, 32, 8, 16, 0, 0, 0, 0), (.max, 32, 8, 16, 0, 0, 0, 0),
   (.abs, 32, 8, 0, 0, 0, 0, 0), (.neg, 32, 8, 0, 0, 0, 0, 0), (.and, 32, 8, 16, 0, 0, 0, 0), (.or, 32, 8, 16, 0, 0, 0, 0),
   (.xor, 32, 8, 16, 0, 0, 0, 0), (.not, 32, 8, 0, 0, 0, 0, 0), (.shl, 32, 8, 16, 0, 0, 0, 0), (.shr, 32, 8, 16, 0, 0, 0, 0),
   (.sar, 32, 8, 16, 0, 0, 0, 0), (.rot, 32, 8, 16, 0, 0, 0, 0), (.bfx, 32, 8, 0, 24, 0, 0, 0), (.bfi, 32, 8, 16, 24, 0, 0, 0)]

/-- Long rows with fields that meet their checks, part 2: row, d, a, b, c, e, M4, word 2. -/
def rows2 : List (LongOp × Nat × Nat × Nat × Nat × Nat × Nat × Nat) :=
  [(.popc, 32, 8, 0, 0, 0, 0, 0), (.clz, 32, 8, 0, 0, 0, 0, 0), (.brev, 32, 8, 0, 0, 0, 0, 0), (.sel, 32, 8, 16, 0, 0, 0, 0),
   (.setp, 0, 8, 16, 0, 0, 0, 0), (.plop, 0, 8, 0, 0, 0, 0, 0), (.lea, 32, 8, 16, 24, 0, 0, 0), (.gaddr, 32, 8, 16, 0, 40, 0, 0),
   (.bra, 0, 0, 16, 24, 40, 0, 0), (.brx, 0, 8, 0, 0, 0, 0, 0), (.call, 0, 0, 16, 24, 40, 0, 0), (.ret, 0, 0, 0, 0, 0, 0, 0),
   (.join, 0, 0, 0, 0, 0, 0, 0), (.leave, 0, 0, 0, 0, 0, 0, 0), (.waitk, 0, 0, 0, 0, 0, 0, 0), (.kmov, 32, 0, 0, 0, 0, 0, 0),
   (.vote, 0, 8, 0, 0, 0, 0, 0), (.shfl, 32, 8, 16, 0, 0, 0, 0), (.scan, 32, 8, 0, 0, 0, 0, 0), (.redg, 32, 8, 0, 0, 0, 0, 0),
   (.yield, 0, 0, 0, 0, 0, 0, 0), (.exit, 0, 0, 0, 0, 0, 0, 0), (.getsr, 32, 0, 16, 0, 0, 0, 0), (.setsr, 0, 8, 16, 0, 0, 0, 0)]

/-- Long rows with fields that meet their checks, part 3: row, d, a, b, c, e, M4, word 2. -/
def rows3 : List (LongOp × Nat × Nat × Nat × Nat × Nat × Nat × Nat) :=
  [(.fadd, 32, 8, 16, 0, 0, 0, 8), (.fsub, 32, 8, 16, 0, 0, 0, 8), (.fmul, 32, 8, 16, 0, 0, 0, 8), (.ffma, 32, 8, 16, 24, 0, 0, 8),
   (.fmin, 32, 8, 16, 0, 0, 0, 8), (.fmax, 32, 8, 16, 0, 0, 0, 8), (.fsetp, 0, 8, 16, 0, 0, 0, 8), (.frcp, 32, 8, 0, 0, 0, 0, 8),
   (.fdiv, 32, 8, 16, 0, 0, 0, 8), (.fsqrt, 32, 8, 0, 0, 0, 0, 8), (.frsq, 32, 8, 0, 0, 0, 0, 8), (.fex2, 32, 8, 0, 0, 0, 0, 8),
   (.flg2, 32, 8, 0, 0, 0, 0, 8), (.fsin, 32, 8, 0, 0, 0, 0, 8), (.fcos, 32, 8, 0, 0, 0, 0, 8), (.ftanh, 32, 8, 0, 0, 0, 0, 8),
   (.frnd, 32, 8, 0, 0, 0, 0, 8), (.cvt, 32, 8, 0, 0, 0, 0, 2313), (.f2i, 32, 8, 0, 0, 0, 0, 2048), (.i2f, 32, 8, 0, 0, 0, 0, 8),
   (.pack, 32, 8, 16, 0, 0, 0, 9), (.unpk, 32, 8, 0, 0, 0, 0, 9), (.hfma2, 32, 8, 16, 24, 0, 0, 9), (.dot4, 32, 8, 16, 24, 0, 0, 2827)]

/-- Long rows with fields that meet their checks, part 4: row, d, a, b, c, e, M4, word 2. -/
def rows4 : List (LongOp × Nat × Nat × Nat × Nat × Nat × Nat × Nat) :=
  [(.fcls, 32, 8, 0, 0, 0, 0, 8), (.fclsTest, 0, 8, 16, 0, 0, 1, 8), (.fscale, 32, 8, 16, 0, 0, 0, 8), (.ld, 32, 8, 16, 0, 0, 0, 0),
   (.st, 0, 8, 16, 24, 0, 0, 0), (.lds, 32, 8, 16, 0, 0, 0, 0), (.sts, 0, 8, 16, 24, 0, 0, 0), (.ldc, 32, 8, 16, 0, 0, 0, 0),
   (.stc, 0, 8, 16, 24, 0, 0, 0), (.ldx, 32, 8, 16, 0, 0, 0, 2), (.stx, 0, 8, 16, 24, 0, 0, 2), (.setfe, 0, 8, 16, 0, 0, 0, 3),
   (.atom, 32, 8, 16, 24, 0, 0, 2), (.red, 0, 8, 16, 24, 0, 0, 2), (.pref, 0, 8, 16, 0, 0, 0, 0), (.flush, 0, 8, 16, 0, 0, 0, 0),
   (.flushAll, 0, 0, 0, 0, 0, 0, 0), (.fence, 0, 0, 0, 0, 0, 0, 64), (.get, 32, 8, 16, 24, 0, 0, 24), (.put, 0, 8, 16, 24, 0, 0, 28),
   (.puts, 0, 8, 16, 24, 40, 0, 28), (.ratom, 32, 8, 16, 24, 0, 0, 26), (.bara, 32, 8, 0, 0, 0, 0, 16), (.barw, 0, 8, 0, 0, 0, 0, 16)]

/-- Long rows with fields that meet their checks, part 5: row, d, a, b, c, e, M4, word 2. -/
def rows5 : List (LongOp × Nat × Nat × Nat × Nat × Nat × Nat × Nat) :=
  [(.sstep, 32, 8, 0, 0, 0, 0, 24), (.sstepBind, 32, 8, 0, 0, 0, 0, 288), (.engk, 0, 8, 16, 0, 0, 0, 32), (.engw, 32, 8, 16, 24, 0, 0, 3),
   (.tmma, 0, 8, 16, 24, 40, 0, 2313), (.tmmas, 0, 8, 16, 24, 40, 0, 2313), (.twmma, 32, 8, 16, 0, 0, 0, 2313), (.titer, 0, 8, 16, 24, 40, 0, 8),
   (.tpoly, 0, 0, 0, 0, 40, 0, 8), (.twait, 0, 8, 0, 0, 0, 0, 0), (.tver, 32, 0, 0, 0, 0, 0, 0), (.tlda, 0, 8, 0, 0, 40, 0, 0),
   (.tsta, 0, 8, 0, 0, 40, 0, 0), (.tzero, 0, 0, 0, 0, 40, 0, 0), (.tenq, 0, 8, 0, 0, 0, 0, 0), (.tcoef, 0, 8, 0, 0, 0, 0, 8),
   (.tcoefGet, 32, 0, 0, 0, 0, 1, 8), (.tcb, 0, 8, 0, 0, 0, 0, 0), (.tbld, 0, 8, 16, 24, 40, 0, 6), (.ttrn, 0, 0, 0, 24, 40, 0, 2304),
   (.tfeed, 0, 0, 16, 0, 40, 0, 2313), (.vadd, 32, 8, 16, 0, 0, 0, 0), (.vmul, 32, 8, 16, 0, 0, 0, 0), (.vfma, 32, 8, 16, 24, 0, 0, 8)]

/-- Long rows with fields that meet their checks, part 6: row, d, a, b, c, e, M4, word 2. -/
def rows6 : List (LongOp × Nat × Nat × Nat × Nat × Nat × Nat × Nat) :=
  [(.vmax, 32, 8, 16, 0, 0, 0, 0), (.vmin, 32, 8, 16, 0, 0, 0, 0), (.vexp, 32, 8, 0, 0, 0, 0, 8), (.vred, 32, 8, 0, 0, 0, 0, 0),
   (.vbcast, 32, 8, 0, 0, 0, 0, 0), (.vmovRow, 32, 8, 0, 0, 0, 0, 0), (.vmovGet, 32, 8, 16, 0, 0, 1, 0), (.vmovPut, 32, 8, 16, 0, 0, 2, 0),
   (.vcvt, 32, 8, 0, 0, 0, 0, 0), (.raysend, 0, 8, 16, 0, 0, 0, 0), (.boxt, 32, 8, 16, 24, 0, 0, 0), (.trit, 32, 8, 16, 24, 0, 0, 0),
   (.tlook, 32, 8, 0, 0, 0, 0, 0), (.hitq, 0, 8, 16, 0, 0, 0, 0), (.rque, 0, 8, 0, 0, 0, 0, 0), (.recq, 0, 0, 16, 0, 0, 0, 0),
   (.recqHeld, 32, 0, 16, 0, 0, 2, 0), (.recj, 0, 8, 16, 0, 0, 0, 0), (.send, 0, 8, 16, 0, 0, 0, 0), (.recv, 32, 0, 0, 0, 40, 0, 0),
   (.abind, 0, 8, 0, 0, 0, 0, 0), (.abindUn, 0, 0, 0, 0, 0, 1, 0), (.balw, 0, 0, 0, 0, 0, 1, 0), (.cinit, 32, 8, 0, 0, 0, 0, 0)]

/-- Long rows with fields that meet their checks, part 7: row, d, a, b, c, e, M4, word 2. -/
def rows7 : List (LongOp × Nat × Nat × Nat × Nat × Nat × Nat × Nat) :=
  [(.cred, 0, 8, 16, 24, 0, 0, 0), (.cwait, 32, 8, 0, 24, 0, 0, 0), (.baddq, 0, 8, 16, 24, 0, 0, 0), (.blkq, 32, 8, 0, 0, 0, 0, 0),
   (.view, 32, 8, 0, 0, 0, 0, 0), (.viewSet, 32, 8, 16, 0, 0, 1, 0), (.resid, 32, 8, 0, 0, 0, 0, 0), (.residReq, 32, 8, 0, 0, 0, 1, 0),
   (.trap, 0, 0, 0, 0, 0, 0, 0), (.rte, 0, 0, 0, 0, 0, 0, 0), (.brk, 0, 0, 0, 0, 0, 0, 0), (.cswap, 0, 0, 0, 0, 0, 0, 0),
   (.tlbi, 0, 8, 16, 24, 0, 0, 0), (.eschedLoad, 0, 8, 16, 24, 0, 0, 0), (.eschedStep, 0, 0, 16, 0, 0, 1, 0), (.eschedAdv, 0, 0, 0, 0, 0, 2, 0),
   (.eschedClr, 0, 0, 0, 0, 0, 3, 0), (.clkSync, 32, 0, 0, 0, 0, 0, 0), (.clkCyc, 32, 0, 0, 0, 0, 1, 0), (.clkWait, 0, 8, 0, 0, 0, 2, 0),
   (.perf, 32, 0, 0, 0, 0, 0, 0), (.mapq, 0, 8, 0, 0, 0, 0, 0)]

/-- All of them. -/
def rows : List (LongOp × Nat × Nat × Nat × Nat × Nat × Nat × Nat) := rows1 ++ rows2 ++ rows3 ++ rows4 ++ rows5 ++ rows6 ++ rows7

/-- The fields of a row; LIT takes its literal. -/
def fieldsOf (r : LongOp × Nat × Nat × Nat × Nat × Nat × Nat × Nat) : Long :=
  match r with
  | (op, d, a, b, c, e, m4, sub) =>
    { longZero with
      d := BitVec.ofNat 9 d, a := BitVec.ofNat 9 a, b := BitVec.ofNat 9 b, c := BitVec.ofNat 9 c, e := BitVec.ofNat 9 e
      m4 := BitVec.ofNat 4 m4, sub := BitVec.ofNat 13 sub
      ka := if op = .lit then 3#2 else 0#2
      lit := if op = .lit then some 5#64 else none }

/-- The fields of a long row in the table. -/
def of (op : LongOp) : Long := ((rows.find? (fun r => r.1 == op)).map fieldsOf).getD longZero

/-- Every long row executes in state0, where one thread issues alone: GroupRuns, Lone and Issues are met for each of the 166 rows. -/
theorem test_witness_long_rows_execute : rows.all (fun r => laneRuns r.1 (fieldsOf r) state0 10) = true := by decide +kernel

/-- The table has 166 different rows, each of them a long row of the decoder. -/
theorem test_witness_long_rows_are_all : rows.length = 166 ∧ (rows.map (·.1)).Nodup := by decide +kernel

/-- A row of the table runs alone in state0. -/
theorem lone_of {r : LongOp × Nat × Nat × Nat × Nat × Nat × Nat × Nat} (h : r ∈ rows) : Lone r.1 (fieldsOf r) state0 10 thread0 :=
  ⟨rfl, rfl, List.all_eq_true.mp test_witness_long_rows_execute r h⟩

/-- The thread of key 10. -/
def th (s : State) : Thread := (s.thread 10).getD thread0

/-- Thread 10 issues alone in s and executes a row with these fields. -/
theorem lone {op : LongOp} {o : Long} {s : State} (h : (s.cur == [10] && decide (s.thread 10 = some (th s)) && laneRuns op o s 10) = true) :
    Lone op o s 10 (th s) := by
  simp only [Bool.and_eq_true, beq_iff_eq, decide_eq_true_eq] at h
  exact ⟨h.1.1, h.1.2, h.2⟩

/-! ## Encoding, memory, the step, clauses and checks -/

/-- For DecodingUndoesEncoding. -/
theorem test_witness_well_formed : specWords.all (fun p => p.2.wellFormed) = true := by decide +kernel

/-- For MemoryHoldsWhatIsWritten and StepKeepsMemoryCanonical. -/
theorem test_witness_canonical : State.reset.Inv ∧ ∃ s', step State.reset = .next s' := ⟨by rfl, tick State.reset, by rfl⟩

/-- A thread that stands at the short MOV of its clause, and nothing else happens. -/
def stateN : State := { state0 with cur := [] }

/-- For StepRunsTheDecodedInstruction: each of its five cases. -/
theorem test_witness_step :
    (standsAt stateN 10 (.movShort 0#9 0#9) ∧ stateN.powered = true ∧ stateN.agenda = [] ∧ firstEvent stateN (autoEvents stateN) = none ∧ nextGroup stateN = some [10]) ∧
    (({ stateN with agenda := [.issue [10]] } : State).agenda = .issue (10 :: []) :: [] ∧ standsAt { stateN with agenda := [.issue [10]] } 10 (.movShort 0#9 0#9)) ∧
    (({ stateN with agenda := [.event .dieLost 3] } : State).agenda = .event .dieLost 3 :: []) ∧
    (nextGroup State.reset = none ∧ firstEvent State.reset (autoEvents State.reset) = none) ∧
    ∃ r, firstEvent { State.reset with time := 20000 } (autoEvents { State.reset with time := 20000 }) = some r :=
  ⟨⟨⟨thread0, List.replicate 8 0#32, List.replicate 7 0#32, by rfl, by decide +kernel, by decide +kernel⟩, by decide +kernel, by decide +kernel, by decide +kernel, by decide +kernel⟩,
    ⟨by rfl, ⟨thread0, List.replicate 8 0#32, List.replicate 7 0#32, by rfl, by decide +kernel, by decide +kernel⟩⟩, by rfl, ⟨by decide +kernel, by decide +kernel⟩,
    Option.isSome_iff_exists.mp (by decide +kernel)⟩

/-- A thread at a header whose page holds code and whose clause is two words. -/
def stateH : State :=
  let t : Thread := { mkThread 0 0 2 1 64 0 0x10000#64 0#64 (startSpecials true 0#64 0#64 0) 0 with flags := (List.replicate 12 0).set 1 1 }
  { state0 with threads := [(10, t)], cores := [(0, { core0 with tlb := [page 0x10000 1] })] }.write 0x10004 [0#8, 0#8, 0#8, 0#8, 0x48#8]

/-- What a translation that succeeds gives. -/
theorem trans_ok {f : Trans} (p : State → Nat → DWord → Bool) (h : (match f with | .ok s a e => p s a e | _ => false) = true) :
    ∃ s a e, f = .ok s a e ∧ p s a e = true := by
  cases f with
  | ok s a e => exact ⟨s, a, e, rfl, h⟩
  | _ => cases h

/-- What a fetch that succeeds gives. -/
theorem fetch_ok {f : Fetched} (p : State → List Word → Bool) (h : (match f with | .ok s ws => p s ws | .out _ => false) = true) :
    ∃ s ws, f = .ok s ws ∧ p s ws = true := by
  cases f with
  | ok s ws => exact ⟨s, ws, rfl, h⟩
  | out _ => cases h

/-- For InstructionWordsComeFromMemory. -/
theorem test_witness_fetch : ∃ s1 a e, fetchesFromMemory stateH (th stateH) 0x10008 s1 a e := by
  obtain ⟨s1, a, e, h, hp⟩ := trans_ok (f := translate stateH (th stateH).core (stateH.team (th stateH).team).asid (th stateH).sr.priv 2 0x10008)
    (fun s1 a e => pteKind e == 1 && (s1.core (th stateH).core).icache.find? (fun x => x.1 == a) == none && !hitsError s1 a 4 false) (by decide +kernel)
  simp only [Bool.and_eq_true, beq_iff_eq, Bool.not_eq_true'] at hp
  exact ⟨s1, a, e, h, hp.1.1, hp.1.2, hp.2⟩

/-- For ClauseHeadersStartTheirClause: a clause that is well formed, one whose last word is a header, and one that waits for flag 1. -/
theorem test_witness_headers : stateH.cur = [10] ∧ stateH.thread 10 = some (th stateH) ∧
    (List.range 12).any (fun i => (2#12 : BitVec 12).getLsbD i && (th stateH).flags.getD i 0 != 0) = true ∧
    ∃ s1 ws, fetchWords (stateH.updThread 10 (fun _ => { th stateH with state := .runnable })) 10 { th stateH with state := .runnable }
      ((th stateH).pc.toNat + 4) (2#8).toNat = .ok s1 ws ∧ (badClause 15#4 15#4 ws == none && badClause 15#4 15#4 (ws.take 1 ++ [3#32]) == some 2) = true :=
  ⟨by decide +kernel, by decide +kernel, by decide +kernel, fetch_ok _ (by decide +kernel)⟩

/-! ## Checks, traps and the rows of one lane -/

/-- state0 with its thread changed. -/
def with0 (f : Thread → Thread) : State := state0.updThread 10 f

/-- An operation of the thread that will write register 8 or, with predicate, predicate 8. -/
def owing (predicate : Bool) : Op := { mkOp thread0 longZero with dst := some (8, 1), ext := if predicate then .predicate else .zero }

/-- For ChecksPrecedeExecution: a thread at its skip address, a register that the thread does not have, a member form outside a cluster, an owed predicate,
a false guard, an owed register, a source in error. -/
theorem test_witness_checks :
    (th (with0 (fun t => { t with skip := some t.pc }))).skip = some (th (with0 (fun t => { t with skip := some t.pc }))).pc ∧
    (fieldTrap .add { of .add with d := 511#9 } (word0 .add { of .add with d := 511#9 }) true (state0.team 1).regs).isSome = true ∧
    (let t := th (with0 (fun t => { t with ops := [(50, owing true)] })); let o := of .plop
     t.skip ≠ some t.pc ∧ fieldTrap .plop o (word0 .plop o) true 64 = none ∧ owedPred t .plop o = true) ∧
    (let o := { of .add with g1 := 3#4 }
     thread0.skip ≠ some thread0.pc ∧ fieldTrap .add o (word0 .add o) true 64 = none ∧ owedPred thread0 .add o = false ∧ guardHolds thread0 o = false) ∧
    (let t := th (with0 (fun t => { t with ops := [(50, owing false)] })); let o := of .add
     t.skip ≠ some t.pc ∧ fieldTrap .add o (word0 .add o) true 64 = none ∧ owedPred t .add o = false ∧ guardHolds t o = true ∧ owed t (usedRegs .add o) ≠ []) ∧
    (∀ op ∈ [LongOp.add, .plop, .lds], memberFault state0 thread0 op (of op) = false) ∧ memberFault state0 thread0 .lds { of .lds with sub := 512#13 } = true ∧
    (let t := th (with0 (fun t => { t with badRegs := [(of .add).a.toNat] })); let o := of .add
     t.skip ≠ some t.pc ∧ fieldTrap .add o (word0 .add o) true 64 = none ∧ owedPred t .add o = false ∧ guardHolds t o = true ∧ owed t (usedRegs .add o) = [] ∧
       badRead t .add o = some (of .add).a.toNat) := by
  decide +kernel

/-- For IssueGroupsExecuteLaneByLane. -/
theorem test_witness_lane_op : laneOp .add ∧ ¬ laneOp .vote := by unfold laneOp; decide

/-- For UnassignedCodesTrap: a word of the code 0x4A, and short words. -/
theorem test_witness_unassigned :
    (∃ e, decode [0x0000012A#32, 0#32, 0#32] = .error e ∧ ∀ w, e ≠ .unusedField w) ∧
    blankCode ((0x0000012A#32 : Word).extractLsb' 2 8).toNat = true ∧
    (let w : Word := 0x4C#32; w.extractLsb' 0 2 = 0#2 ∧ 0x13 ≤ (w.extractLsb' 2 6).toNat) ∧
    (let w : Word := 0x10000048#32; w.extractLsb' 2 6 = 0x12#6 ∧ 4 ≤ (w.extractLsb' 26 6).toNat) ∧
    (let w : Word := 0xC000003C#32; w.extractLsb' 2 6 = 0x0F#6 ∧ 48 ≤ (w.extractLsb' 26 6).toNat) ∧
    (let w : Word := 0x3000003C#32; w.extractLsb' 2 6 = 0x0F#6 ∧ 11 < (w.extractLsb' 26 4).toNat) :=
  ⟨⟨_, by rfl, by simp⟩, by decide +kernel, by decide, by decide, by decide, by decide⟩

/-- For OutcomesSetTheThreadsCourse. -/
theorem test_witness_course : state0.cur = [10] ∧ state0.thread 10 = some thread0 ∧ (state0.team 1).halted = false ∧ (state0.team 1).preq = false := by
  decide +kernel

/-- For TrapsSaveStatusAndEnterTheHandler: a trap that is delivered, and two that are not. -/
theorem test_witness_traps :
    (state0.thread 10 = some thread0 ∧ thread0.sr.intrap = false ∧ handler (state0.core 0) ≠ 0#64) ∧
    handler (State.reset.core 0) = 0#64 ∧
    (th (with0 (fun t => { t with sr := { t.sr with intrap := true } }))).sr.intrap = true ∧ (state0.teams.find 1).isSome = true := by
  decide +kernel

/-- For the statements made with Computes, over rows of the table: the issue group of one thread executes. -/
theorem test_witness_computes :
    (arithmeticOps ++ bitOps ++ [LongOp.setp, .plop, .lea, .gaddr, .getsr, .setsr, .abindUn] ++
      [LongOp.fadd, .fsub, .fmul, .ffma, .fmin, .fmax, .fsetp, .frcp, .fdiv, .fsqrt, .frsq, .fex2, .flg2, .fsin, .fcos, .ftanh, .frnd, .cvt, .f2i, .i2f,
       .pack, .unpk, .hfma2, .dot4, .fcls, .fclsTest, .fscale]).all (fun op => laneRuns op (of op) state0 10) = true ∧ state0.cur.Nodup := by
  decide +kernel

/-- For ShortArithmeticRunsAsItsLongForm and the other short forms. -/
theorem test_witness_short_forms :
    (laneRuns .mov { longZero with d := 32#9, a := 8#9 } state0 10 && laneRuns .add (aliasDda 8#9 32#9) state0 10 && laneRuns .sub (aliasDda 8#9 32#9) state0 10 &&
      laneRuns .add (aliasImm 8#9 32#9 5#64) state0 10 && laneRuns .shl (aliasImm 8#9 32#9 5#64) state0 10 && laneRuns .shr (aliasImm 8#9 32#9 5#64) state0 10 &&
      laneRuns .sar (aliasImm 8#9 32#9 5#64) state0 10 && laneRuns .and (aliasImm 8#9 32#9 5#64) state0 10 && laneRuns .lit { longZero with d := 32#9, ka := 3#2, lit := some 5#64 } state0 10 &&
      laneRuns .fadd (aliasF32 8#9 32#9) state0 10 && laneRuns .fmul (aliasF32 8#9 32#9) state0 10 && laneRuns .nop longZero state0 10 && laneRuns .yield longZero state0 10 &&
      laneRuns .exit longZero state0 10 && laneRuns .bra (aliasGuard 0#1 0#4) state0 10 && laneRuns .call (aliasGuard 0#1 0#4) state0 10 && laneRuns .ret longZero state0 10 &&
      laneRuns .join (aliasMask 3#4) state0 10 && laneRuns .leave (aliasMask 3#4) state0 10 && laneRuns .waitk (aliasMask 3#4) state0 10 &&
      laneRuns .ld { aliasMem 1#6 8#9 with d := 32#9 } state0 10 && laneRuns .st { aliasMem 1#6 8#9 with c := 24#9 } state0 10 &&
      laneRuns .lds { aliasMem 1#6 8#9 with d := 32#9 } state0 10 && laneRuns .sts { aliasMem 1#6 8#9 with c := 24#9 } state0 10) = true := by
  decide +kernel

/-- For RoundingModesTakeTheNamedNeighbor: values that are exact, nearer below, nearer above and halfway, and a code of each format that is a number. -/
theorem test_witness_rounding :
    8 % 2 ^ 2 = 0 ∧ 5 % 2 ^ 2 ≠ 0 ∧ nearerThan 5 2 1 2 ∧ nearerThan 7 2 2 1 ∧ apart 6 (1 * 2 ^ 2) = apart 6 ((1 + 1) * 2 ^ 2) ∧
    ∀ f ∈ [f32, f16, bf16, e4m3, e5m2, e2m1], 1 < 2 ^ (f.m + f.e + 1) ∧ (match decodeF f false 1 with | .inf _ | .nan => false | _ => true) = true := by
  unfold nearerThan; decide +kernel

/-- For SpecialRegistersAreReadAndWritten. -/
theorem test_witness_specials : thread0.sr.dt.length = 8 ∧ 0x130 ∉ [0x20, 0x21, 0x70, 0x71, 0x72, 0x73, 0x74, 0x75, 0x76, 0x77, 0x100, 0x102, 0x103] := by
  decide +kernel

/-! ## Masks and group-wide instructions -/

/-- Two threads in lanes 0 and 1 at one instruction, both enrolled in mask 3; lane 1 waits as its state says. -/
def pairState (st : ThreadState) (arrived : Word) : State :=
  { state0 with
    groups := [(2, { group0 with masks := group0.masks.set 3 { enrolled := 3#32, arrived := arrived } })]
    threads := [(10, thread0), (11, { thread0 with lane := 1, state := st, after := thread0.pc + 12#64 })] }

/-- For MaskInstructionsEnrolLeaveWaitAndMove: an incomplete mask, one that releases its lanes, and one whose lanes wait at different instructions. -/
theorem test_witness_masks :
    allArrived (((pairState .runnable 2#32).group 2).mask 3) = false ∧
    (let s := (pairState (.maskWait 3 false) 3#32).updThread 10 (fun t => { t with state := .maskWait 3 false }); let ls := lanesOf s 2 3#32
     allArrived ((s.group 2).mask 3) = true ∧ ls.length = 2 ∧ (∀ p ∈ ls, p.2.state = .maskWait 3 false ∧ s.thread p.1 = some p.2) ∧ (ls.map (·.1)).Nodup ∧
       (s.groups.find 2).isSome = true ∧ 3 < (s.group 2).masks.length) ∧
    (let s := (pairState (.maskWait 3 true) 3#32).updThread 10 (fun t => { t with state := .maskWait 3 false }); let ls := lanesOf s 2 3#32
     allArrived ((s.group 2).mask 3) = true ∧ (∃ p ∈ ls, p.2.state ≠ .maskWait 3 false) ∧ ∃ p ∈ ls, p.2.state ≠ .maskWait 3 true) ∧
    (let s := (pairState (.maskWait 3 true) 3#32).updThread 10 (fun t => { t with state := .maskWait 3 true }); let ls := lanesOf s 2 3#32
     allArrived ((s.group 2).mask 3) = true ∧ ls ≠ [] ∧ ∀ p ∈ ls, p.2.state = .maskWait 3 true ∧ ∀ q ∈ ls, q.2.pc = p.2.pc) := by
  decide +kernel

/-- For GroupWideOperationsExecuteWhenAllHaveArrived: a lane that is not enrolled, the last lane of two to arrive, and the first; for each of the four instructions. -/
theorem test_witness_group_wide :
    (∀ op ∈ wideOps, LoneWide op { of op with c := 3#9 } state0 10 thread0 ∧ LoneWide op { of op with c := 3#9 } (pairState (.maskWait 3 true) 2#32) 10 thread0 ∧
      LoneWide op { of op with c := 3#9 } (pairState .runnable 0#32) 10 thread0) ∧
    ((state0.group 2).mask 3).enrolled.getLsbD 0 = false ∧
    (let s := pairState (.maskWait 3 true) 2#32; let m := (s.group 2).mask 3; let ls := lanesOf s 2 (m.arrived ||| laneBit 0)
     m.enrolled.getLsbD 0 = true ∧ (s.groups.find 2).isSome = true ∧ 3 < (s.group 2).masks.length ∧ (ls.map (·.1)).Nodup ∧ (10, thread0) ∈ ls ∧ m.arrived ||| laneBit 0 = m.enrolled ∧
       ∀ p ∈ ls, s.thread p.1 = some p.2 ∧ (p.1 = 10 ∨ (p.2.state = .maskWait 3 true ∧ p.2.pc = thread0.pc ∧ p.2.after = thread0.pc + BitVec.ofNat 64 12))) ∧
    (let m := ((pairState .runnable 0#32).group 2).mask 3; m.enrolled.getLsbD 0 = true ∧ m.arrived ||| laneBit 0 ≠ m.enrolled) := by
  refine ⟨fun op h => ?_, by decide +kernel, by decide +kernel, by decide +kernel⟩
  have w : ∀ s ∈ [state0, pairState (.maskWait 3 true) 2#32, pairState .runnable 0#32], ∀ op ∈ wideOps,
      s.cur = [10] ∧ s.thread 10 = some thread0 ∧ fieldTrap op { of op with c := 3#9 } 0#32 true (s.team thread0.team).regs = none ∧
        owedPred thread0 op { of op with c := 3#9 } = false ∧ owed thread0 (usedRegs op { of op with c := 3#9 }) = [] ∧ badRead thread0 op { of op with c := 3#9 } = none ∧
        (s.team thread0.team).preq = false ∧ (s.team thread0.team).halted = false := by decide +kernel
  have l : ∀ s ∈ [state0, pairState (.maskWait 3 true) 2#32, pairState .runnable 0#32], LoneWide op { of op with c := 3#9 } s 10 thread0 := fun s hs =>
    let ⟨h1, h2, h3⟩ := w s hs op h
    ⟨h1, h2, by decide, by decide, h3⟩
  exact ⟨l _ (by simp), l _ (by simp), l _ (by simp)⟩

/-- For NopYieldAndExitSetTheThreadsCourse and BranchesCallsAndReturnsTransferControl: the rows run alone; EXIT's condition is met. -/
theorem test_witness_control :
    [LongOp.nop, .yield, .exit, .bra, .brx, .call, .ret, .join, .leave, .waitk, .kmov].all (fun op => laneRuns op (of op) state0 10) = true ∧ exitCond state0 10 thread0 := by
  unfold exitCond; decide +kernel

/-! ## Memory instructions -/

/-- The word-2 fields of a row changed. -/
def mo (op : LongOp) (sub : Nat) : Long := { of op with sub := BitVec.ofNat 13 sub }

/-- For LoadsAndStoresIssueTheirAccess and for the global forms of FullEmptyAccessesSetAndUseTheBit and AtomicsAndReductionsCombineTheirOperand: nothing holds the
thread's access back, and where the form is asked for it is the global one. -/
theorem test_witness_free :
    (∀ op ∈ [LongOp.ld, .st, .ldx, .stx, .setfe, .atom, .red, .flush, .flushAll, .pref, .fence], laneRuns op (of op) state0 10 = true ∧ (of op).mode.getLsbD 2 = false) ∧
    Free thread0 (of .ld) true true ∧ Free thread0 { aliasMem 1#6 8#9 with d := 32#9 } true false := by
  unfold Free; decide +kernel

/-- For FencesAndOrdersHoldMemoryEventsBack: a fence with an access before it, a fence with none, no fence. -/
theorem test_witness_fences :
    (let t := th (with0 (fun t => { t with fence := some (1, 6), ops := [(50, { owing false with reads := true })] })); t.fence = some (1, 6) ∧ t.awaits (fun p => (1 : Nat) != 1 || p.reads) = true) ∧
    (let t := th (with0 (fun t => { t with fence := some (1, 6) })); t.fence = some (1, 6) ∧ t.awaits (fun _ => true) = false) ∧
    thread0.fence = none ∧ thread0.awaits (fun p => p.acquire.isSome) = false := by
  decide +kernel

/-- For ScratchAndColumnAccessesArePerformedAtOnce: LDS, STS, their short forms, LDC and STC at the first bytes of the team's scratch and column window, and LDS at the last. -/
theorem test_witness_scratch :
    (∀ op ∈ [LongOp.lds, .sts], laneRuns op (of op) state0 10 = true ∧ (of op).mode.getLsbD 1 = false ∧ Free thread0 (of op) false (ordRel (of op)) ∧
      inScratch (afterRelease state0 10 thread0 (of op) 12) thread0 (sumAddress thread0 (of op)) (datum (of op))) ∧
    (let o := { aliasMem 1#6 8#9 with d := 32#9 }; laneRuns .lds o state0 10 = true ∧ o.mode.getLsbD 1 = false ∧ Free thread0 o false (ordRel o) ∧
      inScratch (afterRelease state0 10 thread0 o 4) thread0 (sumAddress thread0 o) (datum o)) ∧
    (let o := { aliasMem 1#6 8#9 with c := 24#9 }; laneRuns .sts o state0 10 = true ∧ o.mode.getLsbD 1 = false ∧ Free thread0 o false (ordRel o) ∧
      inScratch (afterRelease state0 10 thread0 o 4) thread0 (sumAddress thread0 o) (datum o)) ∧
    (let s := withRegs state0 [(8, 0xFF8#32)]; let o := mo .lds 3; laneRuns .lds o s 10 = true ∧ inScratch (afterRelease s 10 (th s) o 12) (th s) (sumAddress (th s) o) (datum o)) ∧
    (∀ op ∈ [LongOp.ldc, .stc], laneRuns op (of op) state0 10 = true ∧ Free thread0 (of op) false false ∧ inColumns state0 thread0 (sumAddress thread0 (of op)) (datum (of op))) ∧
    (state0.team 1).halted = false := by
  refine ⟨?_, ?_, ?_, ?_, ?_, by decide +kernel⟩ <;> (try unfold Free) <;> (try unfold inScratch) <;> (try unfold inColumns) <;> decide +kernel

/-- For FullEmptyAccessesSetAndUseTheBit: LDX of a full word and STX of an empty one in scratch, and SETFE. -/
theorem test_witness_full_empty :
    (∀ x ∈ [(LongOp.ldx, true), (.stx, false), (.setfe, true)], let o := mo x.1 (0x400 + 3); let s := state0.setFull (scratchLoc 0 0x1000) x.2; let w := releaseAction (s.began 10 thread0 12) 0 o.scope.toNat
      laneRuns x.1 o s 10 = true ∧ o.mode.getLsbD 2 = true ∧ o.size = 3#3 ∧ sumAddress thread0 o % datum o = 0 ∧ sumAddress thread0 o + datum o ≤ (s.team 1).scratchSize ∧
        (s.team 1).scratch + sumAddress thread0 o + datum o ≤ 0x1FE000 ∧ hitsError w (scratchAt s thread0 (sumAddress thread0 o)) 8 false = false ∧
        w.full (scratchAt s thread0 (sumAddress thread0 o)) = x.2 ∧ (w.core 0).retry = []) ∧
    (∀ o, feHolds (.take (datum o) (o.mode.getLsbD 0)) true = true ∧ feHolds (.setFe (o.mode.getLsbD 0)) true = true) ∧
    feHolds (.fill ((mo .stx (0x400 + 3)).mode.toNat % 4) (storeBytes thread0 (mo .stx (0x400 + 3)))) false = true ∧
    Free thread0 (mo .ldx (0x400 + 3)) false true :=
  ⟨by decide +kernel, fun o => ⟨rfl, rfl⟩, by decide +kernel, by unfold Free; decide +kernel⟩

/-- For AtomicsAndReductionsCombineTheirOperand: an atomic of a launched thread on scratch. -/
theorem test_witness_atomic :
    let o := mo .atom (0x400 + 2)
    laneRuns .atom o state0 10 = true ∧ thread0.prio = none ∧ o.mode.getLsbD 2 = true ∧ Free thread0 o false (ordRel o) ∧ sumAddress thread0 o % datum o = 0 ∧
      inScratch (afterRelease state0 10 thread0 o 12) thread0 (sumAddress thread0 o) (datum o) := by
  unfold Free inScratch; decide +kernel

/-! ## Remote access and synchronization -/

/-- The thread's operand a names core 5. -/
def far5 : State := withRegs state0 [(8, 5#32)]

/-- Thread 10's team is resident and nothing holds its access back. -/
theorem loneFree {op : LongOp} {o : Long} {s : State} {global release : Bool} (h1 : (s.cur == [10] && decide (s.thread 10 = some (th s)) && laneRuns op o s 10) = true)
    (h2 : Free (th s) o global release) (h4 : releaseWaits (s.began 10 (th s) o.bytes) (th s).core o.scope.toNat = false) (h3 : (s.team (th s).team).halted = false ∧ (s.teams.find (th s).team).isSome = true) : LoneFree op o s 10 (th s) global release :=
  ⟨lone h1, ⟨h2, fun _ => h4⟩, h3.1, h3.2⟩

/-- core 0 may send 30 flits to endpoint 5. -/
theorem maySend {f : Nat} (h : f ≤ 30) : MaySend far5 (th far5) 5 f := ⟨by decide +kernel, by decide +kernel, { flits := 30, used := 0 }, by decide +kernel, h⟩

/-- A remote row with the scope of the package. -/
def far (op : LongOp) : Long := mo op ((of op).sub.toNat % 8 + 48)

/-- For RemoteAccessesSendTheirRequest: GET, PUT, RATOM and PUTS to core 5. -/
theorem test_witness_remote :
    (LoneFree .get (far .get) far5 10 (th far5) false (ordRel (far .get)) ∧ targetOf (th far5) (far .get) = 5 ∧ (th far5).core = 0 ∧ MaySend far5 (th far5) 5 1 ∧
      RemoteFits far5 (th far5) (far .get) ((far .get).mode.getLsbD 0) (src32 (th far5) (far .get) .b + src32 (th far5) (far .get) .c).toNat (datum (far .get))) ∧
    (LoneFree .put (far .put) far5 10 (th far5) false (ordRel (far .put)) ∧ targetOf (th far5) (far .put) = 5 ∧ MaySend far5 (th far5) 5 (flitsOf (putBytes (far .put))) ∧
      PutSource far5 (th far5) (far .put) ∧ RemoteFits far5 (th far5) (far .put) ((far .put).mode.getLsbD 0) (src32 (th far5) (far .put) .b).toNat 16) ∧
    (LoneFree .ratom (far .ratom) far5 10 (th far5) false (ordRel (far .ratom)) ∧ targetOf (th far5) (far .ratom) = 5 ∧
      RemoteFits far5 (th far5) (far .ratom) false (src32 (th far5) (far .ratom) .b).toNat (datum (far .ratom))) ∧
    (LoneFree .puts (far .puts) far5 10 (th far5) false (ordRel (far .puts)) ∧ targetOf (th far5) (far .puts) = 5 ∧ MaySend far5 (th far5) 5 (flitsOf (putBytes (far .puts)) + 1) ∧
      PutSource far5 (th far5) (far .puts) ∧ RemoteFits far5 (th far5) (far .puts) ((far .puts).mode.getLsbD 0) (src32 (th far5) (far .puts) .b).toNat 16 ∧ signalDue (th far5) = none ∧
      ((th far5).reg (far .puts).e.toNat).toNat % 4 = 0 ∧ ∀ p ∈ NMap.vals (th far5).ops, p.token ≠ 3) := by
  have noStep : ∀ d step, (th far5).sstep ≠ some (d, step) := fun d step h => by have e : (th far5).sstep = none := by decide +kernel
                                                                                 rw [e] at h; cases h
  have source : ∀ op ∈ [LongOp.put, .puts], PutSource far5 (th far5) (far op) := fun op h =>
    have e : ∀ op ∈ [LongOp.put, .puts], (src32 (th far5) (far op) .c).toNat % 16 = 0 ∧ (src32 (th far5) (far op) .c).toNat + putBytes (far op) ≤ (far5.team (th far5).team).scratchSize ∧
      hitsError far5 (scratchLoc (th far5).core ((far5.team (th far5).team).scratch + (src32 (th far5) (far op) .c).toNat)) (putBytes (far op)) false = false := by decide +kernel
    let ⟨a, b, c⟩ := e op h
    ⟨a, b, c, fun d step h => absurd h (noStep d step)⟩
  have free : ∀ op ∈ [LongOp.get, .put, .ratom, .puts], LoneFree op (far op) far5 10 (th far5) false (ordRel (far op)) := fun op h =>
    have e : ∀ op ∈ [LongOp.get, .put, .ratom, .puts], ((far5.cur == [10] && decide (far5.thread 10 = some (th far5)) && laneRuns op (far op) far5 10) = true ∧
      flagFull (th far5) (flagOf (th far5) (far op).fs) = false) ∧ releaseWaits (far5.began 10 (th far5) (far op).bytes) (th far5).core (far op).scope.toNat = false := by decide +kernel
    loneFree (e op h).1.1 ⟨(e op h).1.2, by decide +kernel, by decide +kernel, by decide +kernel, fun _ => by decide +kernel, fun _ => by decide +kernel⟩ (e op h).2 (by decide +kernel)
  exact ⟨⟨free _ (by decide), by decide +kernel, by decide +kernel, maySend (by decide), by unfold RemoteFits; decide +kernel⟩,
    ⟨free _ (by decide), by decide +kernel, maySend (by decide +kernel), source _ (by decide), by unfold RemoteFits; decide +kernel⟩,
    ⟨free _ (by decide), by decide +kernel, by unfold RemoteFits; decide +kernel⟩,
    ⟨free _ (by decide), by decide +kernel, maySend (by decide +kernel), source _ (by decide), by unfold RemoteFits; decide +kernel, by decide +kernel, by decide +kernel, by decide +kernel⟩⟩

/-- For RemoteAccessesSendTheirRequest: GET and PUT of the issuer's own core. -/
theorem test_witness_own_core :
    (let o := of .get; targetOf thread0 o = thread0.core ∧ laneRuns .get o state0 10 = true ∧ RemoteFits state0 thread0 o (o.mode.getLsbD 0) (src32 thread0 o .b + src32 thread0 o .c).toNat (datum o) ∧
      remoteLoc state0 0 1 true (o.mode.getLsbD 0) false (src32 thread0 o .b + src32 thread0 o .c).toNat (datum o) = some (scratchLoc 0 0x1000) ∧
      hitsError state0 (scratchLoc 0 0x1000) (datum o) false = false) ∧
    (let o := of .put; targetOf thread0 o = thread0.core ∧ laneRuns .put o state0 10 = true ∧ RemoteFits state0 thread0 o (o.mode.getLsbD 0) (src32 thread0 o .b).toNat 16 ∧ ordRel o = false ∧
      remoteLoc state0 0 1 true (o.mode.getLsbD 0) true (src32 thread0 o .b).toNat (putBytes o) = some (scratchLoc 0 0x1000) ∧
      (scratchLoc 0 0x1000 - 2 ^ 60) % 2 ^ 32 + putBytes o ≤ 0x1FE000) ∧
    Free thread0 (of .put) false false := by
  unfold RemoteFits Free; decide +kernel

/-- For BarriersCountArrivalsAndHoldWaiters, SuperstepsArriveAtTheirDescriptor and EngineKicksAreQueuedAndMailboxesPolled. -/
theorem test_witness_synchronization :
    (∀ op ∈ [LongOp.bara, .barw, .sstep, .sstepBind, .engk, .engw], laneRuns op (of op) state0 10 = true) ∧ Clear thread0 true true ∧
    (let s := withRegs state0 [(8, BitVec.ofNat 32 (16 * 128 + 1))]; Free (th s) (of .engk) false true ∧ reachable s 0 (targetOf (th s) (of .engk)) = true ∧
      kickable s (targetOf (th s) (of .engk)) = true) := by
  unfold Free Clear; decide +kernel

/-! ## Tiles and rows -/

/-- The thread's team holds four tiles of its core. -/
def stateT : State := { state0 with teams := [(1, { team0 with tiles := [0, 1, 2, 3] })] }

/-- Names a tile that the team has. -/
def tiled (op : LongOp) : Long := { of op with d := 1#9 }

/-- For TaskBuildersEnqueueTheirRecord, TileReadsIssueTheirOperation and TwmmaTakesItsRunsToTheArray. -/
theorem test_witness_tiles :
    (∀ op ∈ builders ++ [.tcb, .twait, .tcoef], laneRuns op (tiled op) stateT 10 = true) ∧ (∀ op ∈ [LongOp.tenq, .tbld, .tver, .tcoefGet], laneRuns op (of op) stateT 10 = true) ∧
    Lends stateT thread0 1 ∧ Free thread0 (of .tmma) true true ∧ noBuilds thread0 ∧
    (LoneWide .twmma (of .twmma) stateT 10 thread0 ∧ guardHolds thread0 (of .twmma) = true ∧ flagFull thread0 (flagOf thread0 (of .twmma).fs) = false ∧
      ((stateT.group 2).mask (of .twmma).c.toNat).enrolled.getLsbD 0 = false ∧
      (src32 (thread0.begun 12) (of .twmma) .b).toNat + 4 * typeBits ((of .twmma).p5.setWidth 4) ≤ (stateT.team 1).columnSize) ∧
    (let s := withRegs stateT [(16, 0x3FF#32)]; LoneWide .twmma (of .twmma) s 10 (th s) ∧
      (s.team 1).columnSize < (src32 ((th s).begun 12) (of .twmma) .b).toNat + 4 * typeBits ((of .twmma).p5.setWidth 4)) := by
  refine ⟨?_, ?_, ?_, ?_, ?_, ⟨?_, ?_, ?_, ?_, ?_⟩, ?_⟩ <;> (try unfold LoneWide) <;> (try unfold Lends) <;> (try unfold Free) <;> (try unfold noBuilds) <;> decide +kernel

/-- For RowInstructionsComputeEveryElement: rows of tiles that the team holds, and a row of tile 1 in a team of one tile. -/
theorem test_witness_rows :
    (∀ op ∈ [LongOp.vadd, .vmul, .vfma, .vmax, .vmin, .vexp], laneRuns op (of op) stateT 10 = true ∧ RowsFit stateT thread0 (typed (of op) ((of op).d :: rowSources op (of op)))) ∧
    (∀ op ∈ [LongOp.vred, .vmovGet], laneRuns op (of op) stateT 10 = true ∧ RowsFit stateT thread0 (typed (of op) [(of op).a])) ∧
    (∀ op ∈ [LongOp.vbcast, .vmovPut], laneRuns op (of op) stateT 10 = true ∧ RowsFit stateT thread0 (typed (of op) [(of op).d])) ∧
    (let o := of .vmovRow; laneRuns .vmovRow o stateT 10 = true ∧ RowsFit stateT thread0 [(o.d, none), (o.a, none)]) ∧
    (let o := of .vcvt; laneRuns .vcvt o stateT 10 = true ∧ RowsFit stateT thread0 [(o.d, some (half o.ty)), (o.a, some (half (o.p5.setWidth 4)))]) ∧
    (let s := { state0 with teams := [(1, { team0 with tiles := [0] })] }
     ∀ op ∈ [LongOp.vadd, .vmul, .vfma, .vmax, .vmin, .vexp, .vbcast, .vmovRow, .vmovPut, .vcvt], laneRuns op (of op) s 10 = true ∧ (s.team 1).tiles.length ≤ (of op).d.toNat / 32) := by
  refine ⟨?_, ?_, ?_, ?_, ?_, ?_⟩ <;> (try unfold RowsFit) <;> decide +kernel

/-! ## Rays, records and messages -/

/-- For RayUnitsTestAndLookUp: a node at the team's scratch, a treelet that the route cache holds and one that it does not, a slice that is present. -/
theorem test_witness_ray_units :
    (∀ x ∈ [(LongOp.boxt, 128, 128), (.trit, 48, 16)], laneRuns x.1 (of x.1) state0 10 = true ∧ UnitReads state0 thread0 (of x.1) x.2.1 x.2.2 0x1000) ∧ Free thread0 (of .boxt) false false ∧
    (let s := state0.updCore 0 (fun c => { c with routes := [{ treelet := 0, owners := [130, 7], used := 0 }] })
     laneRuns .tlook (of .tlook) s 10 = true ∧ flagFull thread0 (flagOf thread0 (of .tlook).fs) = false ∧
       (s.core 0).routes.find? (fun r => r.treelet == (src32 thread0 (of .tlook) .a).toNat) = some { treelet := 0, owners := [130, 7], used := 0 }) ∧
    (state0.core 0).routes.find? (fun r => r.treelet == (src32 thread0 (of .tlook) .a).toNat) = none ∧
    (∀ op ∈ [LongOp.resid, .residReq], laneRuns op (of op) state0 10 = true ∧ (state0.die (epDie (servingSlice state0 (src32 thread0 (of op) .a).toNat))).present = true) := by
  unfold UnitReads Free; decide +kernel

/-- The thread is to enqueue at core 5: as operand a, as the home of the record in its registers, and as operand c with a joined view. -/
def enqueues : State :=
  (withRegs state0 [(8, 5#32), (23, 5#32), (24, 5#32)]).updThread 10 (fun t => { t with sr := { t.sr with carm := 0x80000000#64 } })

/-- For EnqueuesSendTheirEntry: RAYSEND, HITQ, SEND, RECQ, RECQ.HELD and CRED to core 5. -/
theorem test_witness_enqueues :
    (let s := enqueues; let t := th enqueues
     (∀ op ∈ [LongOp.raysend, .hitq, .send], laneRuns op (of op) s 10 = true ∧ (payloadAt s t (of op) 64).isSome = true ∧ destination t (of op) = 5) ∧
     (∀ op ∈ [LongOp.recq, .recqHeld], laneRuns op (of op) s 10 = true ∧ payloadAt s t (of op) 32 = some (List.replicate 28 0#8 ++ [5#8, 0#8, 0#8, 0#8])) ∧
     (let bs : List Byte := List.replicate 28 0#8 ++ [5#8, 0#8, 0#8, 0#8]; recKind bs % 2 = 0 ∧ recQueue bs = 0 ∧ recHome bs = 5) ∧
     (laneRuns .cred (of .cred) s 10 = true ∧ t.sr.carm.getLsbD 31 = true ∧ viewTrap s t t.pc = none ∧ (src32 t (of .cred) .b).toNat % 16 = 0 ∧
       scratchOffset s 0 (s.team 1) true false (src32 t (of .cred) .b).toNat 64 = some 0x1000 ∧ hitsError s (scratchLoc 0 0x1000) 64 false = false ∧ (src32 t (of .cred) .c).toNat % 2 ^ 20 = 5) ∧
     (s.team 1).halted = false ∧ Free t (of .raysend) false true ∧ dieGone s 0 5 = false) ∧
    (∃ f, 2 ≤ f ∧ MayEnqueue enqueues (th enqueues) 5 f) := by
  have e : (enqueues.core (th enqueues).core).lines = [] := by decide +kernel
  refine ⟨?_, 2, by decide, by decide +kernel, by decide +kernel, by decide +kernel, ⟨by decide +kernel, fun l x h => by rw [e] at h; cases h⟩,
    .inr (.inr ⟨by decide +kernel, { flits := 30, used := 0 }, by decide +kernel, by decide⟩)⟩
  unfold Free; decide +kernel

/-- For EnqueuesSendTheirEntry: RECJ of a record at core 5 with the counts 0, 1, 65535 and 65536. -/
theorem test_witness_recj :
    (∀ n ∈ [0, 1, 65535, 65536], let s := withRegs state0 [(9, BitVec.ofNat 32 (5 * 2 ^ 12)), (16, BitVec.ofNat 32 n)]
      laneRuns .recj (of .recj) s 10 = true ∧ (src32 (th s) (of .recj) .b).toNat = n ∧ (src64 (th s) (of .recj) .a).toNat / 2 ^ 44 = 5 ∧ (th s).core = 0) := by
  decide +kernel

/-- A queue that takes entries, with a message or without. -/
def queue0 (l : NMap Entry) : Queue := { Queue.reset with bound := true, ringLog := 6, next := 3, entries := l }

/-- state0 with its core's queues bound; the message queue holds what is given. -/
def stateQ (l : NMap Entry) : State := state0.updCore 0 (fun c => { c with recs := queue0 [], msgs := queue0 l })

/-- For RecordsMessagesAndSlotsAreServedAtTheCore. -/
theorem test_witness_records :
    (∀ op ∈ [LongOp.recq, .recqHeld, .rque, .recv, .abind, .abindUn, .balw], laneRuns op (of op) (stateQ []) 10 = true) ∧
    payloadAt (stateQ []) thread0 (of .recq) 32 = some (List.replicate 32 0#8) ∧ payloadAt (stateQ []) thread0 (of .recqHeld) 32 = some (List.replicate 32 0#8) ∧
    (let bs : List Byte := List.replicate 32 0#8; recKind bs % 2 = 0 ∧ recQueue bs = 0 ∧ recHome bs = 0) ∧
    (let q := ((stateQ []).core 0).recs; thread0.prio = none ∧ q.bound = true ∧ spilling (stateQ []) 0 3 = false ∧ q.entries.length < 2 ^ q.ringLog) ∧
    Free thread0 (of .recq) false true ∧ Clear thread0 false true ∧ owesRegister thread0 = false ∧ thread0.entry = none ∧ thread0.treelet = none ∧
    (let s := stateQ [(2, mkEntry 0x41 (List.replicate 64 1#8) 0 5 0#64)]; (nextEntry (s.core 0).msgs).isSome = true ∧ staleBlock s 0 (mkEntry 0x41 (List.replicate 64 1#8) 0 5 0#64) = false) ∧
    nextEntry ((stateQ []).core 0).msgs = none ∧ (of .recv).m4.getLsbD 0 = false ∧ laneRuns .recv { of .recv with m4 := 1#4 } (stateQ []) 10 = true ∧
    meteredEp (destination (th far5) (of .abind)) = true ∧ ((far5.core 0).allow.find (destination (th far5) (of .abind))).isSome = true := by
  refine ⟨?_, ?_, ?_, ?_, ?_, ?_, ?_, ?_, ?_, ?_, ?_, ?_, ?_, ?_, ?_⟩ <;> (try unfold Free) <;> (try unfold Clear) <;> decide +kernel

/-! ## Collective and system instructions -/

/-- Two blocks in the team's scratch, F32 with a positive count. -/
def stateB : State := (withRegs state0 [(16, 0x100#32), (24, 0x200#32)]).write (scratchLoc 0 0x1000) [0#8, 8#8, 1#8, 0#8] |>.write (scratchLoc 0 0x1100) [0#8, 8#8, 1#8, 0#8]

/-- A thread on a gateway's core 0, whose port leads to a member of domain 0, with its message queue bound. -/
def stateG : State :=
  let ep := endpoint 22 0
  { state0 with
    teams := [(1, { team0 with core := ep })], threads := [(10, { thread0 with core := ep })]
    cores := [(ep, { core0 with msgs := queue0 [] })] }.updPkg (fun p => { p with domains := [(0, { (default : Domain) with members := [(0, 22)], set := [true] })], ports := p.ports.set 0 { Port.reset with cfg := 0x80000000#32 } })

/-- For CollectiveInstructionsArmReadCombineAndWait: an armed thread and one that is not, BADDQ's blocks. -/
theorem test_witness_collective :
    (∀ op ∈ [LongOp.cinit, .view, .viewSet, .cred, .cwait], laneRuns op (of op) state0 10 = true) ∧ thread0.sr.carm.getLsbD 31 = false ∧
    (let t := th enqueues; laneRuns .cwait (of .cwait) enqueues 10 = true ∧ t.sr.carm.getLsbD 31 = true ∧ viewTrap enqueues t t.pc = none ∧ Free t (of .cwait) true false) ∧
    (∀ m : BitVec 4, m = 0#4 ∨ m = 1#4 → let o := { mo .baddq 0x808 with m4 := m }
      Clear (th stateB) false false ∧ BlocksFit stateB (th stateB) o 0x1000 0x1100 0x1200) ∧
    laneRuns .baddq (mo .baddq 0x808) stateB 10 = true ∧
    (let o := of .blkq; let t := th stateG
     laneRuns .blkq o stateG 10 = true ∧ Free t o false false ∧ epDie t.core = 22 ∧ ((domainOf stateG ((src32 t o .a).toNat % 16)).map (servesDomain stateG t.core)) = some true ∧
       (stateG.core t.core).msgs.bound = true) := by
  refine ⟨?_, ?_, ?_, fun m h => ?_, ?_, ?_⟩
  · decide +kernel
  · decide +kernel
  · unfold Free; decide +kernel
  · rcases h with rfl | rfl <;> (unfold Clear BlocksFit; decide +kernel)
  · decide +kernel
  · unfold Free; decide +kernel

/-- For SystemInstructionsActOnTheMachine. -/
theorem test_witness_system :
    (∀ op ∈ [LongOp.trap, .rte, .brk, .cswap, .tlbi, .eschedLoad, .eschedStep, .eschedAdv, .eschedClr, .clkSync, .clkCyc, .clkWait, .perf, .mapq], laneRuns op (of op) state0 10 = true) ∧
    Free thread0 (of .tlbi) true true ∧ noLoads thread0 ∧ thread0.fence = none ∧ thread0.ops = [] := by
  unfold Free noLoads; decide +kernel

/-! ## Packets that arrive -/

/-- A package in which nothing issues, and one packet, of key 5, is at hand. -/
def with5 (s : State) (p : Packet) : State := { s with cur := [], packets := [(5, p)], obj := 5 }

/-- A packet of the present incarnation. -/
def pkt (cls typ src dst : Nat) (body : Body) : Packet := { mkPacket cls typ src dst 1 body with inc := 1 }

/-- A request for a piece at the home of memory address 0x20010. -/
def req (typ : Nat) (a : Access) : Packet := pkt 1 typ 0 (homeEndpoint 0x20010) (.request typ { pa := 0x20010, home := true, access := a } 10 50 3)

/-- For ArrivingPacketsAreChecked: a packet behind an earlier ordered one, one for a die that is not present, one for another package, one that is stale. -/
theorem test_witness_arriving :
    ((0x0F, Instr.retireNotice) ∈ arrivalTypes) ∧
    (let p := pkt 0 0x0F 5 130 (.retireNotice none); let s := { with5 state0 p with packets := [(3, p), (5, p)] }; s.packets.find s.obj = some p ∧ Behind s p) ∧
    (let p := pkt 0 0x0F 5 130 (.retireNotice none); let s := (with5 state0 p).updDie 1 (fun d => { d with present := false }); s.packets.find s.obj = some p ∧ (s.die (epDie p.dst)).present = false) ∧
    epPackage (pkt 0 0x0F 5 (3 * 4096) (.retireNotice none)).dst ≠ Config.package ∧
    (let p := { pkt 0 0x0F 5 130 (.retireNotice none) with inc := 2 }; AtHand (with5 state0 p) p ∧ Stale (with5 state0 p) p) := by
  unfold AtHand Stale Behind; decide +kernel

/-- No cache of the core holds a line, so a line's state is no obstacle. -/
theorem plain_of {s : State} {pa n : Nat} (h : boundDescriptors s = [] ∧ hitsError s pa n false = false ∧ ∀ e ∈ NMap.keys s.cores, s.line e (lineOf pa) = none) : Plain s pa n :=
  ⟨h.1, h.2.1, fun e he x hx => by rw [h.2.2 e he] at hx; cases hx⟩

/-- For HomesPerformRequests: reads, writes, atomics, reductions and full/empty accesses of memory, and the state of their bytes. -/
theorem test_witness_homes_memory :
    (∀ x ∈ [(0x10, Access.load 8), (0x11, .store [1#8, 2#8]), (0x12, .atomic 1 1 4 7#64 9#64), (0x13, .reduce 1 1 4 7#64), (0x19, .take 8 false), (0x19, .take 8 true), (0x19, .fill 0 [1#8])],
      Arrives (with5 state0 (req x.1 x.2)) x.1 (req x.1 x.2)) ∧
    (∀ p, Plain (gone (with5 state0 p)) 0x20010 8 ∧ Uncached (gone (with5 state0 p)) 0x20010) ∧
    regionOf 0x20010 ≠ .agent ∧ isLocal 0x20010 = false ∧
    (∀ p, hitsError (gone (with5 state0 p)) (0x20010 - 0x20010 % 8) 8 false = false ∧ (gone (with5 state0 p)).full 0x20010 = true ∧ ((gone (with5 state0 p)).die (homeDie 0x20010)).retry = []) ∧
    (let p := req 0x19 (.fill 0 [1#8]); let s := with5 (state0.setFull 0x20010 false) p; Arrives s 0x19 p ∧ (gone s).full 0x20010 = false ∧ Uncached (gone s) 0x20010) ∧
    (let p := { req 0x12 (.atomic 1 1 4 7#64 9#64) with parent := some 8#64 }; let s := (with5 state0 p).updDie (homeDie 0x20010) (fun d => { d with alog := [{ deriv := 8#64, index := 3, place := 1, old := [5#8] }] })
     Arrives s 0x12 p ∧ ((gone s).die (homeDie 0x20010)).alog = [{ deriv := 8#64, index := 3, place := 1, old := [5#8] }]) := by
  refine ⟨?_, fun p => ⟨plain_of ?_, ?_⟩, by decide +kernel, by decide +kernel, fun p => ?_, ?_, ?_⟩
  · unfold Arrives AtHand Stale Behind; decide +kernel
  · show boundDescriptors (gone (with5 state0 default)) = [] ∧ hitsError (gone (with5 state0 default)) 0x20010 8 false = false ∧
      ∀ e ∈ NMap.keys (gone (with5 state0 default)).cores, (gone (with5 state0 default)).line e (lineOf 0x20010) = none
    decide +kernel
  · show ∀ e ∈ NMap.keys (gone (with5 state0 default)).cores, (gone (with5 state0 default)).line e (lineOf 0x20010) = none
    decide +kernel
  · show hitsError (gone (with5 state0 default)) (0x20010 - 0x20010 % 8) 8 false = false ∧ (gone (with5 state0 default)).full 0x20010 = true ∧
      ((gone (with5 state0 default)).die (homeDie 0x20010)).retry = []
    decide +kernel
  · unfold Arrives AtHand Stale Behind Uncached; decide +kernel
  · unfold Arrives AtHand Stale Behind; decide +kernel

/-- A register read or write of a slice's window (R406). -/
def regReq (typ : Nat) (a : Access) : Packet :=
  let pa := 0xF0000000000 + 16 * 0x1000000 + 125 * 0x10000 + 0x20
  pkt 1 typ 0 (endpoint 16 125) (.request typ { pa := pa, home := true, access := a } 10 50 3)

/-- A request for core 0's own memory from core 130, of team 1. -/
def own (typ : Nat) (b : Body) : Packet := { pkt 1 typ 130 0 b with team := 1 }

/-- For HomesPerformRequests: register windows, GET, PUT, PUTS and RATOM at a core, with the first and the last aligned bytes of the team's scratch and an address past it. -/
theorem test_witness_homes_cores :
    (Arrives (with5 state0 (regReq 0x10 (.load 4))) 0x10 (regReq 0x10 (.load 4)) ∧ regionOf 0xF00107D0020 = .agent ∧ (windowAt 0xF00107D0020).isSome = true) ∧
    (Arrives (with5 state0 (regReq 0x11 (.store [1#8, 2#8, 3#8, 4#8]))) 0x11 (regReq 0x11 (.store [1#8, 2#8, 3#8, 4#8])) ∧
      (windowWrite (gone (with5 state0 (regReq 0x11 (.store [1#8, 2#8, 3#8, 4#8])))) (endpoint 16 125) (threadWriter (gone (with5 state0 (regReq 0x11 (.store [1#8, 2#8, 3#8, 4#8])))) (regReq 0x11 (.store [1#8, 2#8, 3#8, 4#8])) 10 50) (0xF00107D0020 % 0x10000) [1#8, 2#8, 3#8, 4#8]).isSome = true) ∧
    (∀ a ∈ [0, 0xFF8, 0x1000], let p := own 0x14 (.get a 8 false 10 50); let s := with5 state0 p; let s0 := sink (gone s) 0 130 p.flits
      Arrives s 0x14 p ∧ InTurn s p 10 ∧ (remoteLoc s0 0 1 false false false a 8 = if a < 0x1000 then some (scratchLoc 0 (0x1000 + a)) else none) ∧
        hitsError (gone s) (scratchLoc 0 (0x1000 + a)) 8 false = false) ∧
    (∀ a ∈ [0, 0xFF0, 0x1000], let p := own 0x15 (.put 0x15 a false (List.replicate 16 1#8) (some (0x20000, 4)) 10 50); let s := with5 state0 p; let s0 := sink (gone s) 0 130 p.flits
      Arrives s 0x15 p ∧ InTurn s p 10 ∧ laneEarlier (gone s) p s.obj a 16 false = false ∧ (remoteLoc s0 0 1 false false true a 16 = if a < 0x1000 then some (scratchLoc 0 (0x1000 + a)) else none)) ∧
    (let p := own 0x16 (.put 0x16 0 false (List.replicate 16 1#8) none 10 50); let s := with5 state0 p; Arrives s 0x16 p ∧ InTurn s p 10 ∧ remoteLoc (sink (gone s) 0 130 p.flits) 0 1 false false true 0 16 = some (scratchLoc 0 0x1000)) ∧
    (let p := own 0x17 (.signal 0 true 1#32 none 16 10 50); let s := with5 state0 p; Arrives s 0x17 p ∧ InTurn s p 10 ∧ remoteLoc (sink (gone s) 0 130 p.flits) 0 1 false false true 0 4 = some (scratchLoc 0 0x1000)) ∧
    (let p := own 0x18 (.ratom 0 (.atomic 1 1 4 7#64 9#64) 10 50 3); let s := with5 state0 p; Arrives s 0x18 p ∧ InTurn s p 10 ∧
      remoteLoc (sink (gone s) 0 130 p.flits) 0 1 false false true 0 4 = some (scratchLoc 0 0x1000) ∧ hitsError (sink (gone s) 0 130 p.flits) (scratchLoc 0 0x1000) 4 false = false) := by
  refine ⟨⟨?_, by decide +kernel⟩, ⟨?_, by decide +kernel⟩, ?_, ?_, ?_, ?_, ?_⟩ <;> (unfold Arrives AtHand Stale Behind; try unfold InTurn) <;> decide +kernel

/-- A superstep descriptor: pending bytes, participants, arrivals, step. -/
def descriptor (s : State) (parts : Nat) : State := s.write 0x20000 (leBytes 8 5 ++ leBytes 4 parts ++ leBytes 4 1 ++ leBytes 4 4)

/-- For HomesPerformRequests: spilled entries, table walks, byte counts and superstep arrivals at a descriptor with participants and at one without. -/
theorem test_witness_homes_records :
    (∀ p ∈ [pkt 1 0x1A 0 (homeEndpoint 0x20010) (.spill 0x20010 [3#8] 2), pkt 1 0x1B 124 (homeEndpoint 0x20010) (.walkRead 0x20010 2)], Arrives (with5 state0 p) p.typ p ∧
      (gone (with5 state0 p)).cores.all (fun c => c.2.lines.isEmpty) = true) ∧
    (∀ parts ∈ [0, 2], ∀ a ∈ [Access.arrive, .pending true 5 4, .pending false 5 4, .pending true 5 3],
      let p := pkt 1 0x12 0 (homeEndpoint 0x20000) (.request 0x12 { pa := 0x20000, home := true, access := a } 10 50 0); let s := with5 (descriptor state0 parts) p
      Arrives s 0x12 p ∧ field ((gone s).read 0x20000 32) 16 4 = 4 ∧ field ((gone s).read 0x20000 32) 8 4 = parts ∧ hitsError (gone s) 0x20000 32 false = false ∧
        hitsError { gone s with bad := [0x20008] } 0x20000 32 false = true) := by
  unfold Arrives AtHand Stale Behind; decide +kernel

/-! ## Replies and control packets -/

/-- An operation of key 50 of the thread, on its way. -/
def withOp (p : Op) : State := state0.updThread 10 (fun t => { t with ops := [(50, p)], flags := t.flags.set 3 1 })

/-- For RepliesReachTheirRequester: data, an acknowledgment, refusals, a residency reply, credits, a retire notice and incarnations reach core 0 or its die. -/
theorem test_witness_replies :
    (∀ remote : Bool, let q := { mkOp thread0 longZero with remote := remote, pieces := [{ pa := 1, home := true, access := .load 8 }] }
      let s := with5 (withOp q) (pkt 2 0x20 (homeEndpoint 0) 0 (.data [2#8] 10 50))
      s.thread 10 = some (th s) ∧ (th s).ops.find 50 = some q ∧ q.status = .sent ∧ q.failed = none ∧ q.release = none ∧ q.acquire = none ∧ q.asked = none ∧ 10 ≠ farThread ∧ epLocal 0 ≠ 124 ∧ epLocal 0 ≠ 125 ∧ Arrives s 0x20 (pkt 2 0x20 (homeEndpoint 0) 0 (.data [2#8] 10 50))) ∧
    (∀ p ∈ [pkt 2 0x21 (homeEndpoint 0) 0 (.acknowledgment 10 50), pkt 2 0x22 (homeEndpoint 0) 0 (.refusal 0 0#64 10 50), pkt 2 0x22 (homeEndpoint 0) 0 (.refusal 0x27 0#64 10 50),
        pkt 0 0x0E (endpoint 17 125) 0 (.residencyReply 7 0#32 10 50), pkt 0 0x01 130 0 (.creditReturn 1000), pkt 0 0x0F 130 0 (.retireNotice none), pkt 0 0x09 131 0 (.incarnationUpdate 1 2)],
      Arrives (with5 (withOp (mkOp thread0 longZero)) p) p.typ p ∧ epLocal p.dst < 80) ∧
    (state0.core 0).allow.find 130 = some { flits := 30, used := 0 } ∧
    (let s := state0.updCore 0 (fun c => { c with sunk := [(130, 3, 10)] }); (s.core 0).sunk.find 130 = some (3, 10) ∧ s.time < 10 + 256 ∧ 10 + 256 ≤ { s with time := 266 }.time) ∧
    (let p := { pkt 0 0x09 (3 * 4096 + 131) 0 (.incarnationUpdate 1 2) with far := true }; Arrives (with5 state0 p) 0x09 p ∧ epPackage p.src ≠ Config.package) := by
  refine ⟨?_, ?_, by decide +kernel, by decide +kernel, ?_⟩ <;> (unfold Arrives AtHand Stale Behind; decide +kernel)

/-! ## What ends a wait -/

/-- state0 at a later time, with nothing issuing and an object chosen. -/
def later (s : State) (obj : Nat) : State := { s with cur := [], obj := obj, time := 100000 }

/-- The thread stands at an instruction, in a state. -/
def standing (i : Instr) (st : ThreadState) (ops : NMap Op) : State :=
  state0.updThread 10 (fun t => { t with state := st, ops := ops, clause := some { base := 0x10000#64, header := 0x017FC003#32, words := encode i } })

/-- A walk for address 0x51234 of core 0. -/
def walk0 (st : WalkStatus) : Walk :=
  { core := 0, thread := 10, asid := 0, root := 0, va := 0x51234, cls := 0, fe := false, priv := false, soft := false, table := 0, level := 4, status := st, since := 0,
    waits := false, faulted := false }

/-- Die 0 has a walk of key 7, for which the thread is parked. -/
def walking (w : Walk) : State :=
  (state0.updDie 0 (fun d => { d with walks := [(7, w)], ftmo := 1#32 })).updThread 10 (fun t => { t with state := .parked false })

/-- For OperationsMissesAndWaitsEnd: operations that are ready and refused, a late refusal, a line that comes in, a line that is lost. -/
theorem test_witness_operations :
    (let q := { mkOp thread0 longZero with status := .ready [1#8], dst := some (5, 1), size := 1 }
     (withOp q).thread 10 = some (th (withOp q)) ∧ (th (withOp q)).state ≠ .exited ∧ (th (withOp q)).ops.find 50 = some q ∧ q.token ∉ [4, 6, 7, 8, 9, 10, 11, 12]) ∧
    (∀ code ∈ [0x22, 0x50], let q := { mkOp thread0 longZero with status := .refused code 7#64 }; (th (withOp q)).ops.find 50 = some q) ∧
    (let t := { thread0 with lateTrap := [(0x10, 0x22#64, 6)] }; (later (with0 (fun _ => t)) 10).obj = 10 ∧ t.state = .runnable ∧ t.yielded = false) ∧
    (let q := { mkOp thread0 longZero with pieces := [{ pa := 0x20010, home := false, access := .load 8 }], line := some (lineOf 0x20010) }; let s := withOp q
     (th s).ops.find 50 = some q ∧ q.asked = none ∧ isFar (lineOf 0x20010) = false ∧ q.failed = none ∧ q.release = none ∧ q.acquire = none ∧
       (s.threads.flatMap (fun p => if p.2.core = (th s).core then (p.2.ops.filter (fun x => x.2.line == some (lineOf 0x20010))).map (fun x => (x.1, p.1)) else [])) = [(50, 10)] ∧
       0x20010 % 128 + 8 ≤ 128 ∧ Uncached s 0x20010 ∧ memoryOn s (lineOf 0x20010) = true ∧ hitsError s 0x20010 8 false = false ∧ (s.core 0).lines.length < cacheLines 0) ∧
    (∀ st ∈ [LineState.s, .e, .m, .u 0 0 4], let x : Line := { state := st, bytes := List.replicate 128 0#8, valid := [], fillTime := 0, old := false }
      (((state0.updCore 0 (fun c => { c with lines := [(0x20000, x)] })).core 0).lines.find 0x20000) = some x) := by
  refine ⟨?_, ?_, ?_, ?_, ?_⟩ <;> (try unfold Uncached) <;> decide +kernel

/-- For OperationsMissesAndWaitsEnd: walks that end, find nothing, or time out. -/
theorem test_witness_walks :
    (let w := walk0 (.found 0x9003B#64); ((walking w).die 0).walks.find 7 = some w ∧ w.thread = 10 ∧ epDie w.core = 0 ∧ (th (walking w)).state = .parked false) ∧
    (let w := walk0 .bad; ((walking w).die 0).walks.find 7 = some w ∧ w.thread = 10 ∧ w.soft = false) ∧
    (let w := walk0 .missing; ((walking w).die 0).walks.find 7 = some w ∧ (∀ x ∈ ((walking w).die 0).walks, x.1 < 7 → x.2.status ≠ .reading ∧ x.2.status ≠ .queued) ∧ ((walking w).die 0).faults.length = 8 ∧
      none ∈ ((walking w).die 0).faults) ∧
    (let w := { walk0 .missing with waits := true }; let s := later (walking w) 0; (s.die 0).walks.find 7 = some w ∧ (s.die 0).ftmo.toNat % 2 ^ 24 ≠ 0 ∧
      w.since + (s.die 0).ftmo.toNat % 2 ^ 24 * 1024 ≤ s.time) := by
  decide +kernel

/-- For OperationsMissesAndWaitsEnd: retries, waits for a full/empty bit, CLK.WAIT, ENGW, kicks and a hart's job. -/
theorem test_witness_waits :
    (let pc : Piece := { pa := 0x20010, home := true, access := .take 8 false }; let q := { mkOp thread0 longZero with pieces := [pc], status := .again 5 }; let s := later (withOp q) 10
     (th s).ops = [(50, q)] ∧ 5 + 256 ≤ s.time ∧ isLocal pc.pa = false ∧ epPackage (homeEndpoint pc.pa) = Config.package ∧ pc.access.logged = false) ∧
    (let r : Retry := { order := 3, src := 0, thread := 10, op := 50, loc := 0x20010, access := .take 8 false, since := 2 }
     let s := (later state0 10).updDie (homeDie 0x20010) (fun d => { d with fewait := 1#32, retry := [r] })
     s.cores.flatMap (fun p => p.2.retry) = [] ∧ s.dies.flatMap (fun p => p.2.retry) = [r] ∧ isLocal r.loc = false ∧ feLimit s r.loc ≠ 0 ∧ r.since + feLimit s r.loc ≤ s.time) ∧
    (let s := later (standing (.clkWait (of .clkWait)) .waiting []) 10
     standingAt (th s) = some (.clkWait, of .clkWait) ∧ (th s).state = .waiting ∧ (th s).yielded = false ∧ (th s).ops = [] ∧ (src64 (th s) (of .clkWait) .a).toNat ≤ s.time) ∧
    (let q := { mkOp thread0 longZero with token := 6, status := .ready (leBytes 8 1), extra := [1, 7, 0] }; let s := later (standing (.engw (of .engw)) (.parked false) [(50, q)]) 10
     (th s).ops = [(50, q)] ∧ s.obj = 10 ∧ (BitVec.ofNat 64 (leNat (leBytes 8 1)) - BitVec.ofNat 64 1).toNat < 2 ^ 63) ∧
    (let h := 16 * 128 + 1; kickable state0 h = true ∧ (state0.core h).kicks.length < 16 ∧
      16 ≤ ((state0.updCore h (fun c => { c with kicks := List.replicate 16 (0, 0, 7, 0#64) })).core h).kicks.length ∧
      (let s := later (state0.updCore h (fun c => { c with kicks := [(0, 0, 7, 0x20000#64)] })) h; (s.core s.obj).engine = none ∧ (s.core s.obj).kicks = [(0, 0, 7, 0x20000#64)] ∧ kickable s s.obj = true)) ∧
    (let q := { mkOp thread0 longZero with token := 4, status := .ready (List.replicate 32 0#8) }; let s := later ((withOp q).updCore 0 (fun c => { c with engine := some 10 })) 0
     (s.core s.obj).engine = some 10 ∧ (th s).job = none ∧ (th s).ops = [(50, q)]) := by
  refine ⟨?_, ?_, ?_, ?_, ?_, ?_⟩ <;> decide +kernel

/-! ## Teams and tasks -/

/-- A grid of 3 × 2 × 2 teams whose team 7 is next, and its clusters. -/
def grid0 : Grid :=
  { ring := 0, seq := 0, code := 0x5000#64, arg := 5#64, root := 0, asid := 3, prio := 1, dies := 3, groups := 2, regs := 32, scratch := 4096, columns := 4096, tiles := 2, dimx := 3, dimy := 2,
    dimz := 2, cw := 0, ch := 0, save := 0#64, tag := 0, nextTeam := 7, again := [], skip := [], left := 12 }

/-- A package with a grid. -/
def gridState (g : Grid) : State := { State.reset with grids := [(9, g)], obj := 9, fresh := 100 }

/-- A core whose queue q holds n entries of a record team. -/
def entries (q n : Nat) (bytes : List Byte) : State :=
  let u : Queue := { Queue.reset with
    bound := true, team := some 50, code := 0x9000#64, ringLog := 8, next := n
    entries := (List.range n).map (fun i => (i, { mkEntry 0x40 bytes 0 77 9#64 with order := i, slot := some i, arrived := i })) }
  let c := { (Core.reset.setQueue q u) with spool := 0x00100000#32, xctl := 0x01C00003#32, cycles := 1000, pool := [(0, { unit := 0, size := 1, resident := true, lastArrival := 0, direct := 0, lost := false })] }
  { State.reset with cores := [(0, c)], teams := [(50, mkTeam 0 0 3 0 0 64 32 1)], obj := 0, fresh := 100 }

/-- For TeamsRecordsAndWavesStart: a team and a cluster that find room, a grid that finds none, a team that is done and one that is not. -/
theorem test_witness_teams :
    ((gridState grid0).grids.find 9 = some grid0 ∧ nextUnit grid0 < grid0.dimx * grid0.dimy * grid0.dimz ∧ (chooseCore (gridState grid0) grid0).isSome = true) ∧
    (chooseCore (gridState { grid0 with dies := 0 }) { grid0 with dies := 0 }).isNone = true ∧
    (let g := { grid0 with cw := 2, ch := 2, groups := 1, scratch := 0, columns := 0, tiles := 0 }; (chooseRect (gridState g) g).isSome = true ∧ g.cw ≠ 0) ∧
    (let s := { gridState grid0 with teams := [(20, { team0 with grid := some 9 })], obj := 20 }; s.teams.find s.obj = some { team0 with grid := some 9 } ∧ team0.engine = false ∧
      team0.cluster = none ∧ teamDone s 20 = true ∧ s.grids.find 9 = some grid0) ∧
    teamDone state0 1 = false := by
  refine ⟨?_, ?_, ?_, ?_, ?_⟩ <;> decide +kernel

/-- For TeamsRecordsAndWavesStart: a ray and a record that start a thread, a wave of 32 hits and one whose wait has expired, records of other kinds, and a group's fairness window. -/
theorem test_witness_starts :
    (∀ q ∈ [0, 2, 3], let bytes : List Byte := List.replicate 64 0#8; let s := entries q 1 bytes
      (nextStart s 0).map (fun x => (x.1, x.2.1, x.2.2.1)) = some (q, 50, 0) ∧ (∀ x ∈ nextStart s 0, (q = 0 → rayHoldable s 0 x.2.2.2 = true) ∧ (q = 2 → staleBlock s 0 x.2.2.2 = false)) ∧
        (recordLane s 0 (s.core 0).active (s.team 50).regs).isSome = true) ∧
    (∀ n ∈ [5, 32], let s := entries 1 n (List.replicate 64 0#8)
      (nextStart s 0).map (fun x => (x.1, x.2.1)) = some (1, 50) ∧ (hitOrder 32 (s.core 0).hits).isEmpty = false ∧
        (waitingHits (s.core 0).hits).length = n ∧ waveExpired (s.core 0) = true) ∧
    (∀ kind ∈ [0, 2], let s := entries 3 1 (patch (List.replicate 32 0#8) 27 [BitVec.ofNat 8 (kind * 16)])
      s.isCore 0 = true ∧ (s.core 0).swapping = false ∧ (s.core 0).recs.team = some 50 ∧ (nextEntry (s.core 0).recs).isSome = true ∧ lendingTeam s 50 = none) ∧
    (let s := { state0 with obj := 2 }; s.groups.find s.obj = some group0 ∧ (s.team group0.team).core = 0 ∧ group0.fair < ((s.core 0).xctl.toNat % 256 + 1) * 64 ∧
      ((s.core 0).xctl.toNat % 256 + 1) * 64 ≤ { group0 with fair := 300 }.fair ∧ (10, thread0) ∈ s.threads.filter (fun p => p.2.group == s.obj && p.2.state == .runnable)) := by
  refine ⟨?_, ?_, ?_, ?_⟩ <;> decide +kernel

/-- state0 with its team changed. -/
def teamed (f : Team → Team) : State := { state0 with teams := [(1, f team0)], obj := 1 }

/-- For PreemptionSwapsAndDebugActOnTeams. -/
theorem test_witness_preemption :
    (state0.teams.find 1 = some team0 ∧ team0.core = 0 ∧ teamInSlot state0 0 0 = some 1 ∧ teamInSlot state0 0 1 = none ∧ coreTeams state0 0 = [(1, team0)]) ∧ Running state0 1 ∧
    (let p := pkt 0 0x0C (endpoint 22 121) 0 (.systemControl 0 []); Arrives (with5 state0 p) 0x0C p) ∧
    (let s := teamed (fun m => { m with pre := .requested, pdead := 0 }); (s.teams.find 1).map (fun m => (m.pre, m.pdead)) = some (.requested, 0) ∧ s.obj = 1) ∧
    (let s := teamed (fun m => { m with pre := .yielded }); (s.teams.find 1).map (·.pre) = some .yielded ∧ shadowFree s 0 = true) ∧
    (let s := teamed (fun m => { m with pre := .saved, context := 1, resume := some 5 }); (s.teams.find 1).map (fun m => (m.pre, m.resume)) = some (.saved, some 5) ∧ (s.core 0).swapping = false ∧
      restoreRoom s 1 (s.team 1) = true ∧ (∀ t ∈ NMap.vals s.threads, t.shadowBad = false)) ∧
    (let s := teamed (fun m => { m with pre := .saved, context := 1 }); (0x80000000#32 : Word).getLsbD 31 = true ∧ teamInSlot s 0 ((0x80000000#32 : Word).toNat % 64) = some 1) ∧
    (let s := { state0 with obj := 0, groups := [(2, group0), (3, { group0 with context := 1 })] }; let c := s.core 0
     onGateway 0 = false ∧ onGateway 2051 = true ∧ c.swapping = false ∧ c.xctl.toNat / 2 ^ 16 % 256 ≠ 0 ∧ c.swaps = 0 ∧ (∃ x ∈ ctxGroups s 0 (1 - c.active), groupParked s x.1 = false) ∧ (ctxGroups s 0 c.active).filter (fun p => p.2.slots) ≠ []) ∧
    (let s := state0.updCore 0 (fun c => { c with swapping := true }); (s.core 0).swapping = true ∧ ∀ t ∈ NMap.vals s.threads, t.shadowBad = false) ∧
    (let t := { thread0 with shadowBad := true }; let s := { (state0.updCore 0 (fun c => { c with swapping := true })) with obj := 0, threads := [(10, t)], groups := [(2, { group0 with context := 1 })] }
     (s.core 0).swapping = true ∧ (s.core 0).swapAgain = 0 ∧ s.threads = [(10, t)] ∧ t.core = 0 ∧ t.team = 1 ∧ (s.group t.group).context = 1 - (s.core 0).active) ∧
    (liveThreads state0 1 = [(10, thread0)] ∧ liveThreads { state0 with threads := [] } 1 = []) := by
  refine ⟨?_, ⟨team0, by decide +kernel, by decide +kernel, by decide +kernel⟩, ?_, ?_, ?_, ?_, ?_, ?_, ?_, ?_, ?_⟩ <;> (try unfold Arrives AtHand Stale Behind) <;> decide +kernel

/-- A task of a kind on tile 1 of stateT's team, with operands in scratch. -/
def task0 (kind : Nat) (f : Task → Task) : Task :=
  f { team := 1, entry := none, space := 1, record := patch (List.replicate 64 0#8) 0 [BitVec.ofNat 8 kind, 0#8, 1#8, 0#8, 0#8, 0#8, 4#8], prio := 0, order := 3, bookA := 0#256, bookB := 0#256,
      coef := [], hint := 0, priv := true, source := 0#64, started := false, step := 0, second := false, staging := [], work := [], done := false, due := none, index := 0, excs := 0#4, fault := none }

/-- stateT with one task in its core's queue. -/
def tasked (x : Task) : State := { stateT with obj := 0 }.updCore 0 (fun c => { c with tasks := [(7, x)] })

/-- For TileTasksRunOnTheArray. -/
theorem test_witness_tasks :
    (let x := task0 2 id; let s := tasked x; arrayFree s 0 = true ∧ (s.core 0).waves = [] ∧ runningTask s 0 = none ∧ nextTask s 0 = some (7, x) ∧ startFault s x = none) ∧
    Holds (tasked (task0 2 id)) (task0 2 id) 0 (trTile (task0 2 id).record) ∧
    (∀ kind ∈ [7, 8], let x := task0 kind (fun x => { x with started := true }); let s := tasked x
      arrayFree s 0 = true ∧ (s.core 0).waves = [] ∧ runningTask s 0 = some (7, x) ∧ (s.core 0).tasks.find 7 = some x ∧ trKind x.record = kind ∧ trMode x.record = 0 ∧ trAspace x.record = true ∧
        (match taskStep s 0 x with | .ok _ _ => true | _ => false) = true) ∧
    (let x := task0 8 (fun x => { x with started := true, done := true }); let s := tasked x; (s.core 0).tasks = [(7, x)] ∧ runningTask s 0 = some (7, x) ∧ x.due = none ∧ x.fault = none ∧ x.excs = 0#4) ∧
    (let x := task0 8 (fun x => { x with done := true, due := some 1 }); ((tasked x).core 0).tasks.find? (fun p => p.2.due.isSome) = some (7, x) ∧ trCtaddr x.record % 4 = 0) ∧
    (let w := { team := 1, boff := 0, lanes := [(0, 10, 50)], o := of .twmma, rows := [], accs := [], book := 0#256 : WaveTask }; let s := stateT.updCore 0 (fun c => { c with waves := [w] })
     arrayFree s 0 = true ∧ (s.core 0).waves = [w] ∧ (match columnRead s (s.team 1) 0 (4 * widthOf ((of .twmma).p5.toNat % 16)) with | .ok _ => true | _ => false) = true) := by
  refine ⟨?_, ?_, ?_, ?_, ?_, ?_⟩ <;> (try unfold Holds) <;> decide +kernel

/-- For TileTasksRunOnTheArray: a thread that waits for a version of tile 1 that no task will make. -/
theorem test_witness_unreachable :
    let o := { of .twait with d := 1#9, ka := 3#2, a := 0#9, lit := some 2#64 }
    let s := { stateT with obj := 1, cur := [] }.updThread 10 (fun t => { t with state := .waiting, clause := some { base := 0x10000#64, header := 0x017FC003#32, words := encode (.twait o) } })
    lendingTeam s 1 = some 1 ∧ s.threads.filter (fun p => p.2.team == 1) = [(10, th s)] ∧ (th s).state = .waiting ∧ awaited s (th s) 10 = some (1, 2) ∧ 1 < (s.team 1).tiles.length ∧
      versionReached (teamTile s (s.team 1) 1) 2 = false ∧ queuedTasks (s.core 0) = [] := by
  decide +kernel

/-! ## Arrivals at queues and slices -/

/-- Core 0 with its four queues bound, n entries in each, one held record of ticket 9 and treelet 7 in its pool. -/
def bound0 (bound : Bool) (n : Nat) : State :=
  let q : Queue := { Queue.reset with
    bound := bound, ringLog := 4, next := n, entries := (List.range n).map (fun i => (i, mkEntry 0x40 [] 1 2 3#64)), seen := [(78#64, 5#64)]
    held := [(9, { bytes := patch (List.replicate 32 0#8) 24 [5#8], prio := 1, src := 4, wide := 0, applied := [78#64] })] }
  { State.reset with
    fresh := 100
    cores := [(0, { Core.reset with
      rays := q, hits := q, msgs := q, recs := q, pool := [(7, { unit := 0, size := 1, resident := true, lastArrival := 0, direct := 0, lost := false })], spool := 0x00100000#32 })] }

/-- A ray for treelet 7, of ordinary and of forwarded kind. -/
def ray7 : List Byte := patch (List.replicate 64 0#8) 40 [7#8]

/-- An enqueue that a thread waits for. -/
def arriving (cls typ src dst : Nat) (b : Body) : Packet := { pkt cls typ src dst b with deriv := 77#64 }

/-- For ArrivalsEnterTheirQueues: a queue that is empty, one with one place left, one that is full and one that is not bound; an entry that is new and one that was seen. -/
theorem test_witness_arrivals :
    (∀ x ∈ [(1, 0x40), (2, 0x41)], let p := arriving 4 x.2 130 0 (.hit x.2 ray7 2 10 50)
      (∀ n ∈ [0, 15], let s := with5 (bound0 true n) p; Arrives s x.2 p ∧ Accepts (gone s) 0 x.1 ∧ p.parent = none) ∧
      (let s := with5 (bound0 true 16) p; s.isCore 0 = true ∧ ((s.core 0).queue x.1).bound = true ∧ 2 ^ ((s.core 0).queue x.1).ringLog ≤ ((s.core 0).queue x.1).entries.length) ∧
      (let s := with5 (bound0 false 0) p; Arrives s x.2 p ∧ ((s.core 0).queue x.1).bound = false)) ∧
    (∀ old : Bool, let p := { arriving 4 0x40 130 0 (.hit 0x40 ray7 2 10 50) with deriv := if old then 78#64 else 77#64, parent := some 5#64 }; let s := with5 (bound0 true 1) p
      Arrives s 0x40 p ∧ Accepts (gone s) 0 1 ∧ ((∃ x ∈ ((gone s).core 0).hits.seen, x.1 = p.deriv) ↔ old = true) ∧ ((gone s).core 0).hits.seen.length < 4096) ∧
    (∀ held : Bool, let bs := patch (List.replicate 32 0#8) 27 [if held then 4#8 else 0#8]; let p := arriving 4 0x42 130 0 (.hit 0x42 bs 2 10 50); let s := with5 (bound0 true 1) p
      Arrives s 0x42 p ∧ recHeld bs = held ∧ Accepts (gone s) 0 3) ∧
    (∀ old : Bool, let p := { arriving 4 0x42 130 0 (.join 9 2 10 50) with deriv := if old then 78#64 else 77#64 }; let s := with5 (bound0 true 1) p
      AtHand s p ∧ ¬ Stale s p ∧ ((gone s).core 0).recs.bound = true ∧ (((gone s).core 0).recs.held.find 9).map (fun h => (recJoin h.bytes, decide (p.deriv ∈ h.applied))) = some (5, old)) ∧
    (let p := arriving 3 0x30 (endpoint 16 125) 0 (.ray ray7 2 10 50); let s := with5 (bound0 true 1) p
     Arrives s 0x30 p ∧ Accepts (gone s) 0 0 ∧ rayTreelet ray7 = 7 ∧ (((gone s).core 0).pool.find 7).map (·.resident) = some true ∧ epLocal p.src = 125) ∧
    (let p := arriving 3 0x30 130 0 (.ray (patch ray7 40 [8#8]) 2 10 50); let s := with5 (bound0 true 1) p; Arrives s 0x30 p ∧ ((gone s).core 0).pool.find (rayTreelet (patch ray7 40 [8#8])) = none) := by
  refine ⟨?_, ?_, ?_, ?_, ?_, ?_⟩ <;> (try unfold Arrives) <;> (unfold AtHand Stale Behind) <;> (try unfold Accepts) <;> decide +kernel

/-- For ArrivalsEnterTheirQueues: blocks at a gateway's collective unit, in the view and out of it, and a block at a core. -/
theorem test_witness_blocks :
    (∀ view ∈ [9, 10], let p := { arriving 4 0x43 130 (endpoint 22 126) (.block ray7 10 50) with addr := BitVec.ofNat 64 (5 * 2 ^ 60 + view * 2 ^ 36 + 3 * 2 ^ 20 + 6 * 2 ^ 8) }
      let d : Domain := { (default : Domain) with members := [(0, 22)], set := [true], latest := [(22, 3)] }
      let s := with5 ((State.reset.updPkg (fun k => { k with domains := [(5, d)] })).updDie 22 (fun x => { x with views := [(5, 9)] })) p
      Arrives s 0x43 p ∧ domainOf (gone s) 5 = some d ∧ viewAt s 22 5 = 9 ∧ (22, 3) ∈ d.latest ∧ d.assigned = []) ∧
    (let p := arriving 4 0x43 130 0 (.block ray7 0 0); let s := with5 (bound0 true 1) p; Arrives s 0x43 p ∧ Accepts (gone s) 0 2 ∧ viewAt s 0 0 = 0) := by
  refine ⟨?_, ?_⟩ <;> (unfold Arrives AtHand Stale Behind) <;> (try unfold Accepts) <;> decide +kernel

/-- A directory entry of treelet 7, and its slice. -/
def entry7 (st : Residency) (owners : List Nat) (a : Option Attempt) : DirEntry :=
  { image := 0x40000, size := 1, state := st, evp := none, norep := false, owners := owners, counter := 3, parked := [], attempt := a, held := false }

/-- Slice 1 serves, with the entry, two cores in its placement list. -/
def slice7 (e : DirEntry) : State :=
  { State.reset with
    fresh := 100, slices := [(1, { Slice.reset with dsize := 0x82000100#32, entries := [(7, e)], placement := [3, 130], free := [(3, 5), (130, 9)] })]
    cores := [(130, { Core.reset with spool := 0x00100000#32 })] }

/-- An attempt to place treelet 7 at core 130. -/
def attempt7 (granted : Option Nat) (left : Nat) : Attempt := { core := some 130, since := 3, granted := granted, tag := 0, left := left, refusedBy := [], replica := false }

/-- For SlicesRouteParkAndPage: rays at the slice, whatever the state of their treelet. -/
theorem test_witness_slice_rays :
    (∀ x ∈ [(Residency.cold, []), (.paging, []), (.resident, [130])], let p := arriving 3 0x30 5 (servingSlice State.reset 7) (.ray ray7 2 10 50); let s := with5 (slice7 (entry7 x.1 x.2 none)) p
      Arrives s 0x30 p ∧ epLocal p.dst = 125 ∧ Serves s 7 ∧ rayFwd ray7 = false ∧ ParksOnChip s 7 ∧ (entryAt (gone s) 7).state = x.1 ∧
        (x.1 = .resident → (entryAt (gone s) 7).evp = none ∧ (entryAt (gone s) 7).parked = [] ∧ nearestOwner (gone s) p.origin (liveOwners (gone s) (entryAt (gone s) 7)) = some 130)) ∧
    (let p := arriving 3 0x30 130 (servingSlice State.reset 7) (.ray (setFwd ray7) 2 10 50); let s := with5 (slice7 (entry7 .resident [130] none)) p
     Arrives s 0x30 p ∧ rayFwd (setFwd ray7) = true ∧ ParksOnChip s 7 ∧ (entryAt (gone s) 7).owners = [p.src]) ∧
    (let p := arriving 3 0x30 5 (servingSlice State.reset 7) (.ray ray7 2 10 50)
     let s := with5 (slice7 { entry7 .paging [] none with parked := List.replicate 4096 (parkedRay p ray7 2) }) p; let l := parkedRays (s.slice 1)
     Arrives s 0x30 p ∧ Serves s 7 ∧ (entryAt (gone s) 7).state = .paging ∧ 4096 ≤ l.length - (l.filterMap (·.slot)).length ∧ (l.filterMap (·.slot)).length < 2 ^ 20) ∧
    (let p := arriving 3 0x30 5 (servingSlice State.reset 7) (.ray ray7 2 10 50); let s := with5 State.reset p; Arrives s 0x30 p ∧ sliceOn s 7 = false) ∧
    (let bs := patch (List.replicate 64 0#8) 40 [1#8, 0#8, 0#8, 0x10#8]; let id := rayTreelet bs; let p := arriving 3 0x30 5 (servingSlice State.reset id) (.ray bs 2 10 50)
     let s := with5 ({ State.reset with slices := [(id % 6, { Slice.reset with dsize := 0x82000100#32 })] }) p; Arrives s 0x30 p ∧ sliceOn s id = true ∧ idInRange s id = false) ∧
    (let p := { arriving 3 0x30 5 (servingSlice State.reset 7) (.ray ray7 2 10 50) with parent := some 5#64 }; let s := (with5 (slice7 (entry7 .cold [] none)) p).updSlice 1 (fun x => { x with seen := [(77#64, 5#64)] })
     Arrives s 0x30 p ∧ ∃ x ∈ (s.slice 1).seen, x.1 = p.deriv) := by
  refine ⟨?_, ?_, ?_, ?_, ?_, ?_⟩ <;> (unfold Arrives AtHand Stale Behind) <;> (try unfold Serves) <;> (try unfold ParksOnChip) <;> decide +kernel

/-- For SlicesRouteParkAndPage: route messages, grants, image flits, installs, counters, evictions, residency queries. -/
theorem test_witness_slice_messages :
    (∀ p ∈ [pkt 0 0x02 (servingSlice State.reset 7) 130 (.routeFill 7 [1, 2]), pkt 0 0x03 (servingSlice State.reset 7) 130 (.routeUpdate 7 []), pkt 0 0x0B (servingSlice State.reset 7) (endpoint 0 127) (.broadcast 7 [1]),
        pkt 0 0x04 (servingSlice State.reset 7) 130 (.grantRequest 7 1), pkt 0 0x06 (servingSlice State.reset 7) 130 (.reservationRelease 7), pkt 0 0x06 (servingSlice State.reset 7) 130 (.install 7),
        pkt 0 0x07 130 (servingSlice State.reset 7) (.counterIncrement 7 5 8), pkt 0 0x0D 130 (servingSlice State.reset 7) (.residency 7 true (some 8) 10 50)],
      Arrives (with5 (slice7 (entry7 .cold [] none)) p) p.typ p) ∧
    (let s := slice7 (entry7 .cold [] none); s.isCore 130 = true ∧ (s.core 130).pool.find 7 = none ∧ evictionsFor s 130 1 = some 0 ∧ (poolTakes (s.core 130) 1).isSome = true ∧ Serves s 7) ∧
    evictionsFor (slice7 (entry7 .cold [] none)) 130 4096 = none ∧
    (∀ u ∈ [none, some 2], let p := pkt 0 0x05 130 (servingSlice State.reset 7) (.grantReply 7 u 8); let s := with5 (slice7 (entry7 .paging [] (some (attempt7 none 0)))) p
      Arrives s 0x05 p ∧ (entryAt (gone s) 7).attempt = some (attempt7 none 0) ∧ ∀ x ∈ (List.range ((entryAt (gone s) 7).size * 32)).map (fun i => (entryAt (gone s) 7).image + 128 * i), memoryOn (gone s) x = true) ∧
    (let p := pkt 5 0x50 (servingSlice State.reset 7) 130 (.page 7 4032 (List.replicate 64 1#8) true); let s := (with5 (slice7 (entry7 .paging [] none)) p).updCore 130 (fun c => { c with pool := [(7, { unit := 0, size := 1, resident := false, lastArrival := 0, direct := 0, lost := false })] })
     Arrives s 0x50 p ∧ ((s.core 130).pool.find 7).map (fun x => (x.resident, x.lost, decide (4032 + 64 ≤ x.size * 4096))) = some (false, false, true)) ∧
    (∀ left ∈ [1, 2], let p := pkt 2 0x21 130 (servingSlice State.reset 7) (.acknowledgment 7 0)
      let s := with5 ((slice7 (entry7 .paging [] (some (attempt7 (some 2) left)))).write (scratchLoc 130 0x2000) (leBytes 4 7 ++ [1#8, 9#8, 0#8, 0#8])) p
      let s1 := updEntry (gone s) 7 (fun e => { e with attempt := some { attempt7 (some 2) left with left := left - 1 } })
      Arrives s 0x21 p ∧ epLocal p.dst = 125 ∧ (entryAt (gone s) 7).attempt = some (attempt7 (some 2) left) ∧
        field (s1.read (scratchLoc 130 (poolBase (s.core 130) + 2 * 4096)) 8) 0 4 = 7 ∧ field (s1.read (scratchLoc 130 (poolBase (s.core 130) + 2 * 4096)) 8) 4 1 = (entryAt (gone s) 7).size) ∧
    (let p := pkt 2 0x20 (homeEndpoint 0x40080) (servingSlice State.reset 7) (.data (List.replicate 128 1#8) (imageReader 7) (3 * 2 ^ 40 + 128))
     let s := with5 (slice7 (entry7 .paging [] (some { attempt7 (some 2) 64 with tag := 3 }))) p
     Arrives s 0x20 p ∧ epLocal p.dst = 125 ∧ (3 * 2 ^ 40 + 128) / 2 ^ 40 = 3 ∧ (entryAt (gone s) 7).attempt = some { attempt7 (some 2) 64 with tag := 3 }) ∧
    (let p := pkt 0 0x06 (servingSlice State.reset 7) 130 (.install 7); let s := with5 (slice7 (entry7 .paging [] (some (attempt7 (some 2) 0)))) p
     AtHand s p ∧ ¬ Stale s p ∧ (entryAt (gone s) 7).attempt = some (attempt7 (some 2) 0)) ∧
    (∀ os ∈ [[130], [130, 4]], let p := pkt 0 0x08 130 (servingSlice State.reset 7) (.evictionReport 7 8); let s := with5 (slice7 (entry7 .resident os none)) p
      Arrives s 0x08 p ∧ p.src ∈ (entryAt (gone s) 7).owners) := by
  refine ⟨?_, ?_, ?_, ?_, ?_, ?_, ?_, ?_, ?_⟩ <;> (try unfold Arrives) <;> (try unfold AtHand Stale Behind) <;> (try unfold Serves) <;> decide +kernel

/-- For SlicesRouteParkAndPage: decay, a placement tried again, DSIZE before and after it serves, and REPAGE of a treelet that is held. -/
theorem test_witness_slice_events :
    (let s := { slice7 (entry7 .cold [] none) with obj := 1, time := 100000 }.updSlice 1 (fun x => { x with dctl := 0x00000100#32 }); let x := s.slice 1
     x.dctl.toNat / 2 ^ 8 % 2 ^ 8 * 1024 ≠ 0 ∧ x.dsize.getLsbD 31 = true ∧ x.decayed + x.dctl.toNat / 2 ^ 8 % 2 ^ 8 * 1024 ≤ s.time ∧ (NMap.keys x.entries).Nodup ∧ ∀ k ∈ NMap.keys x.entries, k % 6 = s.obj) ∧
    (let a := { attempt7 none 0 with core := none }; let s := { slice7 (entry7 .paging [] (some a)) with time := 100000 }; ((s.slice 1).entries.find 7).map (·.attempt) = some (some a) ∧ a.core = none ∧ a.since + 1024 ≤ s.time) ∧
    ((slice7 (entry7 .cold [] none)).slice 1).dsize.getLsbD 31 = true ∧ (State.reset.slice 1).dsize.getLsbD 31 = false ∧ (0x81000100#32 : Word).getLsbD 31 = true ∧
    (let s := slice7 { entry7 .paging [] none with held := true }; ((s.slice 1).entries.find (7#32 : Word).toNat).map (·.held) = some true) := by
  decide +kernel

/-! ## Links and lost dies -/

/-- Packets for another package. -/
def away (n dst : Nat) : Packet := mkPacket 1 0x11 5 dst n (.creditReturn n)

/-- An open port with units out and packets waiting. -/
def port0 : Port :=
  { Port.reset with
    cfg := 0x80000005#32, up := true, sendSeq := 2 ^ 48 - 1, acceptSeq := 9, unacked := [{ seq := 3, packets := [away 1 7000], slots := [] }, { seq := 4, packets := [away 2 7000], slots := [] }], waiting := [away 2 7000, away 5 7000], farPackage := 5, credits := List.replicate 12 16, freed := List.replicate 12 0 }

/-- Port 3 of the package. -/
def port3 (q : Port) : State :=
  { State.reset with obj := 3, fresh := 100, time := 20000000 }.updPkg (fun k => { k with ports := k.ports.set 3 q, proute := [(22, 5, 0x18)] })

/-- A packet from package 5. -/
def far0 (inc : Nat) : FarPacket := { typ := 0x01, src := 5 * 4096 + 3, dst := 22 * 128 + 127, inc := inc, seq := 0, dvc := 0, deriv := 0#64, addr := 0#64, payload := [], priv := false, counted := none, ord := true, esc := true, dn := false, age := 40, parent := none }

/-- For LinksCarryUnitsAndRecover: ports open and closed, units in order and not, failures below four and at four, a locked port in time and late, training. -/
theorem test_witness_links :
    (Open port0 ∧ ¬ Open { port0 with up := false } ∧ ¬ Open { port0 with locked := true }) ∧ (3 < (port3 port0).pkg.ports.length ∧ (port3 port0).pkg.ports.getD 3 Port.reset = port0) ∧
    (port0.acceptSeq = 9 ∧ ∀ again ∈ [3, 4, 5], let left := port0.unacked.filter (fun x => decide (3 < x.seq)); (∃ x ∈ left, again ≤ x.seq) ↔ again ≤ 4) ∧
    (∀ inc ∈ [1, 2], let s := (port3 port0).updDie 22 (fun d => { d with known := d.known.put (5 * 32) 1 }); (farPacket s (far0 inc)).isSome = true ∧ epPackage (far0 inc).dst = Config.package ∧
      ((s.die 22).known.find (5 * 32)).getD 0 = 1) ∧ epPackage { far0 1 with dst := 10 * 4096 }.dst ≠ Config.package ∧
    (∀ n ∈ [2, 3], let q : Port := { port0 with failures := [(9, n)] }; let fails := (20000000 :: q.fails).filter (fun t => decide (20000000 < t + 1000000)); (q.failures.find 9).getD 0 = n ∧ ((n + 1 < 4 ∧ fails.length < 64) ∨ 4 ≤ n + 1)) ∧
    ((port0.unacked.filter (fun u => decide (4 ≤ u.seq))).length ≠ 0 ∧ (port0.unacked.filter (fun u => decide (5 ≤ u.seq))).length = 0) ∧
    (rekeyDue port0 = false ∧ rekeyDue { port0 with sendSeq := 2 ^ 47 - 2, keyUnits := 300 } = true ∧ controlDue port0 = [] ∧ (∀ b, b < 12 → ((port0.waiting.filter (fun x => 2 * x.cls + x.dvc % 2 == b)).map (·.flits)).sum ≤ port0.credits.getD b 0) ∧
      (∀ x ∈ [away 5 7000], ({ port0 with credits := [16, 16, 0] } : Port).credits.getD (2 * x.cls + x.dvc % 2) 0 < x.flits) ∧ (∀ x ∈ port0.waiting, 1 ≤ x.flits) ∧ (port0.waiting.map (·.flits)).sum ≤ (128 - port0.unacked.length) * 4) ∧
    (let q := { port0 with locked := true, up := false, lockedAt := 10000000 }; q.locked = true ∧ q.reported = false ∧ q.unacked.length ≤ 126 ∧ q.lockedAt + 10000000 ≤ (port3 q).time ∧ ¬ ({ q with lockedAt := 10000001 } : Port).lockedAt + 10000000 ≤ (port3 q).time) ∧
    (port0.cfg.getLsbD 31 = true ∧ port0.cfg.toNat % 2 ^ 8 = 5 ∧ ({ port0 with up := false } : Port).locked = false) := by
  refine ⟨?_, ?_, ?_, ?_, ?_, ?_, ?_, ?_, ?_, ?_⟩ <;> (try unfold Open) <;> decide +kernel

/-- Die 3 is chosen. -/
def die3 (f : Die → Die) : State := { State.reset with obj := 3, time := 60000 }.updDie 3 f

/-- Die 3 is lost and its fence is known everywhere. -/
def lost3 : State :=
  let s := die3 (fun x => { x with present := false, loss := .fence })
  { s with dies := s.dies.map (fun p => (p.1, { p.2 with known := p.2.known.put 3 0 })) }

/-- For LostDiesAreFencedDrainedAndRejoin. -/
theorem test_witness_lost_dies :
    (InService (die3 id) 3 ∧ NotLost lost3 3 ∧ NotLost State.reset 24) ∧ linkDie (.inside 3) = 3 ∧
    (∀ n ∈ [15, 16], let s := (die3 id).updPkg (fun k => { k with crc := [(linkKey (.inside 3), (n, 59999))] }); s.pkg.crc.find (linkKey (.inside 3)) = some (n, 59999) ∧ s.time < 59999 + 1000) ∧
    (State.reset.time < State.reset.pkg.dieBeatAt + 10000 ∧ (die3 id).pkg.dieBeatAt + 10000 ≤ (die3 id).time ∧ (die3 id).host.serving < 24 ∧ ((die3 id).die (die3 id).host.serving).present = true) ∧
    (let p := pkt 0 0x0C (endpoint 3 127) (endpoint 22 121) (.systemControl 2 []); AtHand (with5 State.reset p) p ∧ ¬ Stale (with5 State.reset p) p) ∧
    (((die3 (fun x => { x with missed := 4 })).die 3).missed < 5 ∧ 5 ≤ ((die3 (fun x => { x with missed := 5 })).die 3).missed) ∧
    ((lost3.die 3).loss = .fence ∧ (lost3.die 3).present = false ∧ fenced lost3 3 = true ∧ fenced (die3 (fun x => { x with present := false, loss := .fence })) 3 = false) ∧
    (∀ inc ∈ [1, 255], ((die3 (fun x => { x with present := false, loss := .resetting, inc := inc })).die 3).loss = .resetting) ∧
    ((3 : Nat) ≠ Config.package ∧ 3 ∉ State.reset.pkg.unreachable) := by
  refine ⟨?_, ?_, ?_, ?_, ?_, ?_, ?_, ?_, ?_⟩ <;> (try unfold InService NotLost) <;> (try unfold AtHand Stale Behind) <;> decide +kernel

/-! ## View domains -/

/-- A domain of four members in three packages, this one leading. -/
def domain0 : Domain := { (default : Domain) with members := [(0, 3), (5, 1), (0, 4), (6, 2)], set := [true, true, true, true], view := 2 ^ 24 - 1, phase := .stable }

/-- A view-protocol message from package 5 about domain 2. -/
def viewPkt (m view : Nat) (set : List Bool) (i : Nat) : Packet := { pkt 0 0x0A (5 * 4096 + 22 * 128 + 125) (22 * 128 + 125) (.viewProtocol m 2 view set i) with far := true }

/-- It is at hand. -/
def viewing (d : Domain) (p : Packet) : State := { with5 State.reset p with time := 90000 }.updPkg (fun k => { k with domains := [(2, d)] })

/-- For ViewsChangeByProposalAndCommit: each message is at hand of a domain that takes it, the next view wraps, and this package leads. -/
theorem test_witness_views :
    (∀ m ∈ List.range 7, let p := viewPkt m 0 [true, false, true, true] 1; let s := viewing domain0 p
      AtHand s p ∧ ¬ Stale s p ∧ domainOf s 2 = some domain0 ∧ (domain0.view + 1) % 2 ^ 24 = 0 ∧ epPackage p.src ≠ Config.package) ∧
    (Ours State.reset domain0 ∧ ¬ Settled domain0 1 false ∧ Settled domain0 1 true ∧ Settled domain0 4 false) ∧
    (∀ accepts ∈ [[5, 6], [5]], let d := { domain0 with phase := .proposing, propView := 0, propSet := [true, true, false, true], accepts := accepts, propFrom := 0 }
      domainOf (viewing d (viewPkt 1 0 [] 0)) 2 = some d ∧ ((d.accepts.filter (fun x => x != 5) = []) ↔ accepts = [5]) ∧
        d.propFrom < ((List.range d.members.length).find? (fun j => d.set.getD j false && packageOf d j == 5)).getD 256) ∧
    Hosts State.reset domain0 domain0.set 5 ∧
    (let s := viewing domain0 (viewPkt 6 0 [] 0); s.pkg.beatAt + 10000 ≤ s.time ∧ (5 : Nat) ≠ Config.package ∧ ∃ x ∈ s.pkg.domains, ∃ m ∈ x.2.members, m.1 = 5) ∧
    (let s := { viewing domain0 (viewPkt 6 0 [] 0) with obj := 5 }.updPkg (fun k => { k with beats := [(5, 40000)] }); s.pkg.beats.find s.obj = some 40000 ∧ 40000 + 50000 ≤ s.time) ∧
    (∀ l ∈ [[3], [3, 4]], let d := { domain0 with phase := .installing, installs := l, wanted := [(1, false)] }; 3 ∈ d.installs ∧ ((d.installs.filter (fun x => x != 3) = []) ↔ l = [3])) := by
  have leads : Leads State.reset domain0 0 := ⟨by decide, ⟨by decide +kernel, by decide +kernel, by decide +kernel⟩, fun j h => absurd h (Nat.not_lt_zero j)⟩
  refine ⟨?_, ⟨⟨0, leads, by decide +kernel⟩, ?_, ?_, ?_⟩, ?_, ⟨by decide +kernel, by decide +kernel, 1, by decide +kernel⟩, ?_, ?_, ?_⟩ <;>
    (try unfold AtHand Stale Behind) <;> (try unfold Settled) <;> decide +kernel

/-! ## Registers, the host port, commands -/

/-- The machine once boot is over: the host's link is up, BOOTSTAT says READY, every die's fault unit knows the present dies. -/
def ready0 : State :=
  { State.reset with
    dies := (List.range 24).map (fun d => (d, { State.reset.die d with known := (List.range 24).map (fun e => (e, 1)) }))
    host := { State.reset.host with links := [22], bootstat := 0x80080000#32 } }

/-- Bytes of plain memory. -/
theorem hostBytes {s : State} {pa n : Nat} (h : 0 < n ∧ pa / 128 = (pa + n - 1) / 128 ∧ pa + n ≤ 2 ^ 44 ∧ regionOf pa = .hbm ∧ memoryOn s pa = true)
    (hp : boundDescriptors s = [] ∧ hitsError s pa n false = false ∧ ∀ e ∈ NMap.keys s.cores, s.line e (lineOf pa) = none) : HostBytes s pa n :=
  ⟨h.1, h.2.1, h.2.2.1, .inl h.2.2.2.1, h.2.2.2.2, plain_of hp⟩

/-- For RegistersTakeTheirFields: cores, a slice before and while it serves, die controllers, the host port agent, the host's window. -/
theorem test_witness_registers :
    (∀ ep ∈ [0, 2051], State.reset.isCore ep = true ∧ epPackage ep = Config.package ∧ epDie ep < 24 ∧ (State.reset.die (epDie ep)).present = true) ∧
    (ready0.host.rings[15]?).isSome = true ∧ (State.reset.die 21).present = true ∧
    (∀ on : Bool, let s := { State.reset with slices := [(5, { Slice.reset with dsize := if on then 0x80000000#32 else 0#32 })] }; (s.slice 5).dsize.getLsbD 31 = on) ∧
    ((State.reset.die 23).present = true ∧ (State.reset.pkg.ports[(23 - 22) * 8 + 7]?).isSome = true) ∧ ¬ HostGone ready0 := by
  unfold HostGone; decide +kernel

/-- An event record of severity 2. -/
def record0 : List Byte := eventBytes State.reset (22 * 128 + 121) 3 0x11 2 false 1 2

/-- Events wait, the ring of 16 slots is at a head and a tail. -/
def ringed (head tail : Nat) (hold : List (List Byte)) : State :=
  { ready0 with events := [{ bytes := record0 }] }.updHost (fun h => { h with evbase := 0x2104#64, evhead := BitVec.ofNat 32 head, evtail := BitVec.ofNat 32 tail, holding := hold })

/-- For HostEventsPowerAndReset. -/
theorem test_witness_host :
    (¬ HostGone ready0 ∧ HostGone (ready0.updHost (fun h => { h with links := [] }))) ∧ HostBytes ready0 0x1000 8 ∧ HostBytes ready0 0x1078 8 ∧
    (ready0.host.links ≠ [] ∧ ready0.host.bootstat.getLsbD 30 = false ∧ 2 ^ 40 < 2 ^ 41 + 8 ∧ (2 ^ 41 : Nat) < 0xF0016000000) ∧
    (22 ∈ ready0.host.links ∧ 22 ∉ (ready0.updHost (fun h => { h with links := [] })).host.links ∧ (State.reset.die 22).present = true) ∧
    (∀ head ∈ [0, 1], let s := ringed head 16 []; let h := s.host; (ringSlots h ≤ (h.evtail - h.evhead).toNat) ↔ head = 0) ∧
    (let s := ringed 5 5 []; record0.length = 32 ∧ s.host.evbase.getLsbD 8 = true ∧ HostBytes s (s.host.evbase.toNat / 2 ^ 12 % 2 ^ 40 * 4096 + s.host.evtail.toNat % ringSlots s.host * 32) 32) ∧
    (∀ n ∈ [63, 64], (ringed 0 16 (List.replicate n record0)).host.holding.length = n ∧ 2 ≤ field record0 14 1) ∧
    ((State.reset.die (45 - ready0.host.serving)).present = true) ∧
    (State.reset.time < State.reset.pkg.foldAt + 60000000000 ∧ (NMap.keys ([(lifeKey 3 2 0, 5)] : NMap Nat)).Nodup) ∧
    (∀ hot : Bool, ((die3 (fun x => { x with throttled := hot })).die 3).throttled = hot ∧ ((die3 (fun x => { x with throttled := hot })).die 3).present = true) := by
  refine ⟨⟨?_, ?_⟩, hostBytes ?_ ?_, hostBytes ?_ ?_, ?_, ?_, ?_, ⟨?_, ?_, hostBytes ?_ ?_⟩, ?_, ?_, ?_, ?_⟩ <;> (try unfold HostGone) <;> decide +kernel

/-- The bytes of a command: opcode, die mask and fields. -/
def command (op mask : Nat) (l : List (Nat × List Byte)) : List Byte :=
  l.foldl (fun b p => patch b p.1 p.2) (patch (patch (List.replicate 64 0#8) 0 (leBytes 2 op)) 8 (leBytes 4 mask))

/-- Ring 2, of 16 slots, holds a command. -/
def commanded (b : List Byte) : State :=
  ({ ready0 with fresh := 100, time := 777 }.updHost (fun h => { h with nextRing := 15, rings := h.rings.set 2 { base := 0x3104#64, head := 21#32, tail := 23#32 } })).write (0x3000 + 5 * 64) b

/-- The command that is in hand. -/
def inHand (b : List Byte) : Command := { ring := 2, seq := 21, bytes := b, waits := [], undo := none }

/-- A command of ring 2 is in hand where its ring's registers and its bytes say so. -/
theorem in_hand {b : List Byte} (h : let s := commanded b; let a := ringBase (ring s 2) + 21 % slotsOf (ring s 2) * 64
      (s.host.bootstat.getLsbD 31 = true ∧ (s.die s.host.serving).present = true) ∧ s.host.rings.length = 16 ∧ s.host.command = none ∧
      (2 = (s.host.nextRing + 3) % 16 ∧ ((ring s 2).base.getLsbD 8 = true ∧ (ring s 2).head ≠ (ring s 2).tail) ∧
        ∀ j, j < 3 → ¬ ((ring s ((s.host.nextRing + j) % 16)).base.getLsbD 8 = true ∧ (ring s ((s.host.nextRing + j) % 16)).head ≠ (ring s ((s.host.nextRing + j) % 16)).tail)) ∧
      21 = (ring s 2).head.toNat ∧ (0 < 64 ∧ a / 128 = (a + 64 - 1) / 128 ∧ a + 64 ≤ 2 ^ 44 ∧ regionOf a = .hbm ∧ memoryOn s a = true) ∧
      (boundDescriptors s = [] ∧ hitsError s a 64 false = false ∧ ∀ e ∈ NMap.keys s.cores, s.line e (lineOf a) = none) ∧ b = s.read a 64) : InHand (commanded b) (inHand b) :=
  ⟨h.1, h.2.1, (by decide : 2 < 16), .inr ⟨h.2.2.1, ⟨3, by decide, h.2.2.2.1.1, h.2.2.2.1.2.1, h.2.2.2.1.2.2⟩, h.2.2.2.2.1, rfl, rfl,
    hostBytes h.2.2.2.2.2.1 h.2.2.2.2.2.2.1, h.2.2.2.2.2.2.2⟩⟩

/-- The fields of a LAUNCH of 30 clusters of six teams. -/
def launch0 : List Byte :=
  command 1 0x2000003 [(12, leBytes 2 7), (14, [2#8]), (15, [8#8]), (16, leBytes 8 0x4000), (24, leBytes 8 0x8000), (40, leBytes 2 3), (42, leBytes 2 2), (44, leBytes 2 5), (46, [0x32#8]), (47, [1#8]),
    (48, leBytes 2 3), (50, [1#8]), (56, leBytes 8 0x10000)]

/-- One command of every opcode whose fields are as its row wants them, and commands whose opcode is none. -/
def commands : List (List Byte) :=
  [command 0 0 [], command 14 0 [], launch0, command 2 0 [(16, leBytes 8 0x40000), (40, [1#8])], command 3 0 [(16, leBytes 8 0x40000), (40, [1#8])], command 4 0 [], command 5 0 [],
   command 6 0 [(16, [3#8]), (20, leBytes 2 3), (24, leBytes 8 0x8000)], command 7 0 [(16, [3#8]), (18, [1#8])], command 8 0 [(17, [4#8])], command 8 0 [(16, [1#8])],
   command 9 0 [(16, leBytes 8 0x8000), (24, leBytes 8 0x9000)], command 10 0 [(16, leBytes 8 0x9000)], command 11 0 [(16, [9#8]), (24, leBytes 8 0x9000)], command 12 0 [], command 13 0 [(16, [22#8])]]

/-- For PlaodCommandsComplete: each command is in hand, and its completion has a place in memory. -/
theorem test_witness_commands_in_hand : ∀ b ∈ commands, InHand (commanded b) (inHand b) ∧ HostBytes (commanded b) (completionAt (commanded b) (inHand b)) 16 := by
  intro b h
  simp only [commands, List.mem_cons, List.not_mem_nil, or_false] at h
  rcases h with rfl | rfl | rfl | rfl | rfl | rfl | rfl | rfl | rfl | rfl | rfl | rfl | rfl | rfl | rfl | rfl <;>
    exact ⟨in_hand (by decide +kernel), hostBytes (by decide +kernel) (by decide +kernel)⟩

/-- For PlaodCommandsComplete: the fields of the commands, each as its row wants it, and values just outside. -/
theorem test_witness_command_fields :
    (LaunchFields (inHand launch0) ∧ RoomSomewhere (commanded launch0) (inHand launch0) ∧ ¬ NoneThere (commanded launch0) (inHand launch0)) ∧
    (∀ p ∈ [(14, 0#8), (14, 65#8), (15, 0#8), (15, 33#8), (46, 0x10#8), (47, 9#8), (50, 33#8)], ¬ LaunchFields (inHand (patch launch0 p.1 [p.2]))) ∧
    (∀ p ∈ [(14, 1#8), (14, 64#8), (15, 1#8), (15, 32#8), (46, 0#8), (47, 8#8), (50, 32#8)], LaunchFields (inHand (patch launch0 p.1 [p.2]))) ∧
    (let b := command 1 16 []; NoneThere ((commanded b).updDie 4 (fun d => { d with present := false })) (inHand b)) ∧
    (Blank (inHand (command 4 0 [])) [(12, 52)] ∧ ¬ Blank (inHand (command 4 0 [(63, [1#8])])) [(12, 52)]) ∧
    (let b := command 2 0 [(16, leBytes 8 0x40000), (40, [1#8])]; let s := (commanded b).write 0x40000 (leBytes 8 0x50001); (namedEntry s (inHand b)).map (·.2) = some 0x50000) ∧
    (let b := command 2 0 [(16, leBytes 8 0x40000), (24, leBytes 8 0x1000), (40, [4#8])]; (namedEntry (commanded b) (inHand b)).isNone = true) ∧
    (InService (commanded (command 8 0 [(17, [4#8])])) 4 ∧ 4 ≠ (commanded (command 8 0 [(17, [4#8])])).host.gateway) ∧
    (∀ p ∈ [9, 15], ((commanded []).die (22 + p / 8)).present = true ∧ ((commanded []).pkg.ports.getD p Port.reset).cfg.getLsbD 31 = false) ∧
    (memoryRead (commanded []) 0x9000 1024).isSome = true ∧ (memoryWrite (commanded []) 0x9000 [1#8]).isSome = true ∧ (memoryWrite (commanded []) (2 ^ 43) [1#8]).isNone = true ∧
    (let x := { grid0 with left := 0 }; let s := { commanded [] with grids := [(9, x)], obj := 9 }; s.obj ≠ 0 ∧ s.grids.find s.obj = some x) := by
  refine ⟨⟨?_, ?_, ?_⟩, ?_, ?_, ?_, ⟨?_, ?_⟩, ?_, ?_, ⟨?_, ?_⟩, ?_, ?_, ?_, ?_, ?_⟩ <;> (try unfold LaunchFields) <;> (try unfold Blank) <;> (try unfold NoneThere) <;> (try unfold RoomSomewhere) <;>
    (try unfold InService) <;> decide +kernel

/-! ## Forms that complete -/

/-- For ControlFunctionAndRayFormsComplete: every special register of the list has its index in an encoding, every function and rounding has its operand and its mode in one, and the row runs alone; a degenerate ray. -/
theorem test_witness_forms_complete :
    (state0.team thread0.team).halted = false ∧ owesRegister thread0 = false ∧ thread0.job = none ∧ thread0.lane < 32 ∧ thread0.sr.dt.length = 8 ∧
    (let s := state0.updThread 10 (fun t => { t with sr := { t.sr with priv := true } })
     ∀ p ∈ specialValues s thread0, ∀ op ∈ [LongOp.getsr, .setsr], let o := { of op with b := BitVec.ofNat 9 (p.1 % 512), m4 := BitVec.ofNat 4 (p.1 / 512) }
       o.srIndex = p.1 ∧ (laneRuns op o s 10 = true ∨ op = .setsr)) ∧
    (∀ i ∈ [0x020, 0x021, 0x100, 0x102, 0x103, 0x070, 0x077], let s := state0.updThread 10 (fun t => { t with sr := { t.sr with priv := true } })
      laneRuns .setsr { of .setsr with b := BitVec.ofNat 9 (i % 512), m4 := BitVec.ofNat 4 (i / 512) } s 10 = true) ∧
    (∀ r ∈ functionResults, let s := withRegs state0 [(8, r.2.1)]; laneRuns r.1 (of r.1) s 10 = true ∧ src32 (th s) (of r.1) .a = r.2.1 ∧ (of r.1).sat = false ∧ (of r.1).ty = 8#4) ∧
    roundedHalf.all (fun r => let s := withRegs state0 [(8, 0x40200000#32)]; let o := { of .frnd with sub := BitVec.ofNat 13 (8 + 16 * r.1.toNat) }
      laneRuns .frnd o s 10 && decide (o.rm = r.1 ∧ o.ty = 8#4 ∧ src32 (th s) o .a = 0x40200000#32)) = true ∧
    [0x7F800001#32, 0xFFC00000#32].all (fun x => decide (x.extractLsb' 23 8 = 0xFF#8 ∧ x.extractLsb' 0 23 ≠ 0#23) &&
      [LongOp.frcp, .frsq, .fex2, .flg2, .fsin, .fcos, .ftanh, .frnd].all (fun op => laneRuns op (of op) (withRegs state0 [(8, x)]) 10)) = true ∧
    (rayRun thread0 (of .boxt)).degenerate = true ∧
    (∀ q < 16, (State.reset.host.rings[q]?).map (fun r => r.base.getLsbD 8) = some false) ∧
    (∀ ep ∈ [0, 2051], state0.isCore ep = true ∧ epPackage ep = Config.package ∧ epDie ep < 24 ∧ (state0.die (epDie ep)).present = true) := by
  refine ⟨?_, ?_, ?_, ?_, ?_, ?_, ?_, ?_, ?_, ?_, ?_, ?_, ?_⟩ <;> decide +kernel

/-! ## Boot -/

/-- Outcomes of boot: all is well; the image is bad, a stack fails, the mesh is cut, no core die stays. -/
def outcome0 : BootOutcome :=
  { imageOk := true, badStack := none, badLpddr := [22], failing := [(3, 5), (3, 79)] ++ (List.range 9).map (fun i => (5, i)), leakage := [(3, 7, 9)], badRouters := [], cutOff := [6], connected := true,
    badPorts := [3], hostPortOk := true }

/-- For HostEventsPowerAndReset: the steps of boot, each with the outcomes that its clauses name. -/
theorem test_witness_boot :
    (∀ st ∈ List.range 9, let s := { ready0 with obj := 1 }.updHost (fun h => { h with boot := some outcome0, bootstat := BitVec.ofNat 32 (st * 65536) })
      s.obj ≠ 0 ∧ s.host.boot = some outcome0 ∧ s.host.bootstat.toNat / 2 ^ 16 % 16 = st) ∧
    ((∃ d, d < 16 ∧ Stays outcome0 d) ∧ ¬ Stays outcome0 5 ∧ ¬ Stays outcome0 6 ∧ ∀ d, d < 16 → ¬ Stays { outcome0 with cutOff := List.range 16 } d) ∧
    (outcome0.imageOk = true ∧ outcome0.badStack = none ∧ outcome0.connected = true ∧ outcome0.hostPortOk = true) ∧ ready0.host.boot = none ∧
    (Current ready0 record0 ∧ ¬ Current (ready0.updDie 22 (fun d => { d with known := [] })) record0) ∧
    (let c : Core := { Core.reset with kicks := List.replicate 16 (0, 0, 7, 0#64) }; let s := { ready0 with cores := [(endpoint 22 3, c)] }; let pa := 0xF0016000000 + 3 * 0x10000 + 0x800
     s.host.posted = [] ∧ ¬ HostGone s ∧ hostTarget s pa 8 = .register (endpoint 22 3) 0x800 ∧ windowWrite s (endpoint 22 3) (hostWriter s) 0x800 (List.replicate 8 0#8) = none) := by
  refine ⟨?_, ?_, ?_, ?_, ?_, ?_⟩ <;> (try unfold HostGone) <;> (try unfold Stays) <;> (try unfold Current) <;> decide +kernel

/-- For SlicesRouteParkAndPage: a slice whose spill area is full.  For HostEventsPowerAndReset: a RESET of a die that a takeover finds under way.  For TaskBuildersEnqueueTheirRecord: a control word
with bits 31:26 set.  For SystemInstructionsActOnTheMachine: a trap that left a region, and a gateway core. -/
theorem test_witness_held_states :
    (∀ (n : Nat) (x : Parked), x.slot = some 0 → let s := slice7 { entry7 .paging [] none with parked := List.replicate n x }
      ((parkedRays (s.slice 1)).filterMap (·.slot)).length = n) ∧
    (let c := { inHand (command 8 0 [(17, [4#8])]) with waits := [] }; c.opcode = 8 ∧ ((ready0.updDie 4 (fun d => { d with loss := .drain, present := false })).die (field c.bytes 17 1)).loss ≠ .serving) ∧
    groupBits (th (withRegs state0 [(8, 0x04000000#32)])) { of .tmma with e := 8 } 0 31 26 ≠ 0 ∧
    (let t := { thread0 with sr := { thread0.sr with epc := 0x8000#64, region := 0x4000#64 }, atTrap := some (0x8000#64, 5#32, 6) }; indicesAt t = (5#32, 6)) ∧ onGateway 2051 = true := by
  refine ⟨fun n x h => ?_, ?_, ?_, ?_, ?_⟩
  · simp [parkedRays, slice7, entry7, State.slice, NMap.find, NMap.vals, h]
  all_goals decide +kernel

end Sys2Proof.Witness
end

section
/-! PROOFS. The host port, event records, service cores, the lifetime store, temperature, supply and boot (spec/00_scope.md): what leaves the host
port agent alone, plain memory as firmware and the host reach it, and one lemma on each row that HostEventsPowerAndReset speaks of. -/

namespace Sys2Proof.HostLaws

open Sys2Proof Sys2Proof.Machine Sys2Proof.Claims

/-! ### What leaves the host port agent alone -/

/-- The host port agent is as before, and every event record that was on its way still is. -/
structure KeepsHost (s s' : State) : Prop where
  host : s'.host = s.host
  reports : s.events ⊆ s'.events

namespace KeepsHost

theorem refl (s : State) : KeepsHost s s := ⟨rfl, fun _ h => h⟩

theorem trans {s u v : State} (h : KeepsHost s u) (k : KeepsHost u v) : KeepsHost s v :=
  ⟨k.host.trans h.host, fun _ m => k.reports (h.reports m)⟩

/-- A fold of operations that each leave the host port agent alone does. -/
theorem foldl {α : Type} (l : List α) (f : State → α → State) (h : ∀ s x, KeepsHost s (f s x)) (s : State) : KeepsHost s (l.foldl f s) :=
  List.foldlRecOn l f (refl s) (fun u hu x _ => hu.trans (h u x))

end KeepsHost

/-- A record that sets out joins those on their way. -/
theorem keepsHost_event (s : State) (src cls code sev : Nat) (thread : Bool) (d0 d1 : Nat) : KeepsHost s (s.event src cls code sev thread d0 d1) :=
  ⟨rfl, fun _ h => List.mem_append_left _ h⟩

theorem keepsHost_updDie (s : State) (d : Nat) (f : Die → Die) : KeepsHost s (s.updDie d f) := ⟨rfl, fun _ h => h⟩

theorem keepsHost_updCore (s : State) (ep : Nat) (f : Core → Core) : KeepsHost s (s.updCore ep f) := ⟨rfl, fun _ h => h⟩

theorem keepsHost_write (s : State) (a : Nat) (bs : List Byte) : KeepsHost s (s.write a bs) := ⟨rfl, fun _ h => h⟩

theorem keepsHost_homeWrite (s : State) (a : Nat) (bs : List Byte) : KeepsHost s (homeWrite s a bs) := ⟨rfl, fun _ h => h⟩

/-- A packet enters the mesh, waits at a port or is dropped. -/
theorem keepsHost_inject (s : State) (p : Packet) : KeepsHost s (s.inject p) := by
  unfold State.inject
  dsimp only
  split
  · exact .refl s
  split
  · exact ⟨rfl, fun _ h => h⟩
  split <;> exact ⟨rfl, fun _ h => h⟩

theorem keepsHost_send (s : State) (p : Packet) : KeepsHost s (s.send p) := by
  unfold State.send
  dsimp only
  split
  · exact (keepsHost_updCore ..).trans (keepsHost_inject ..)
  · exact keepsHost_inject ..

theorem keepsHost_sendFar (s : State) (ep pa : Nat) (a : Access) (d : DWord) (i : Nat) : KeepsHost s (sendFar s ep pa a d i) := by
  unfold sendFar
  split
  · exact .refl s
  · exact (keepsHost_updDie ..).trans (keepsHost_send ..)

/-! ### The L2 at a home -/

/-- An access at its home changes nothing outside the dies. -/
theorem touchL2_eq_dies (s : State) (pa hint : Nat) : touchL2 s pa hint = { s with dies := (touchL2 s pa hint).dies } := by
  unfold touchL2
  split
  · rfl
  dsimp only
  split <;> rfl

@[simp] theorem touchL2_mem (s : State) (pa hint : Nat) : (touchL2 s pa hint).mem = s.mem := by rw [touchL2_eq_dies]
@[simp] theorem touchL2_bad (s : State) (pa hint : Nat) : (touchL2 s pa hint).bad = s.bad := by rw [touchL2_eq_dies]
@[simp] theorem touchL2_host (s : State) (pa hint : Nat) : (touchL2 s pa hint).host = s.host := by rw [touchL2_eq_dies]
@[simp] theorem touchL2_events (s : State) (pa hint : Nat) : (touchL2 s pa hint).events = s.events := by rw [touchL2_eq_dies]
@[simp] theorem touchL2_threads (s : State) (pa hint : Nat) : (touchL2 s pa hint).threads = s.threads := by rw [touchL2_eq_dies]

theorem keepsHost_touchL2 (s : State) (pa hint : Nat) : KeepsHost s (touchL2 s pa hint) := ⟨by simp, by simp⟩

/-! ### Accesses of firmware and the host at a home, whatever they meet there -/

theorem keepsHost_foldLine (s : State) (ep l op kind n : Nat) (x : Line) : KeepsHost s (foldLine s ep l op kind n x) := by
  refine KeepsHost.foldl _ _ (fun u i => ?_) s
  dsimp only
  split
  · split
    · exact keepsHost_sendFar ..
    · split
      · exact keepsHost_event ..
      · exact (keepsHost_touchL2 ..).trans (keepsHost_homeWrite ..)
  · exact .refl u

theorem keepsHost_dropLine (s : State) (ep l : Nat) : KeepsHost s (s.dropLine ep l) := by
  unfold State.dropLine
  split
  · exact keepsHost_updCore ..
  · exact .refl s

theorem keepsHost_recallLine (s : State) (l : Nat) : KeepsHost s (recallLine s l) := by
  refine KeepsHost.foldl _ _ (fun u e => ?_) s
  split
  · split
    · exact (keepsHost_foldLine ..).trans (keepsHost_dropLine ..)
    · exact .refl u
  · exact .refl u

theorem keepsHost_testStep (s : State) (d : Nat) : KeepsHost s (testStep s d) := by
  unfold testStep
  dsimp only
  split
  · exact .refl s
  · exact (((keepsHost_write ..).trans (keepsHost_write ..)).trans (keepsHost_updDie ..)).trans (.foldl _ _ (fun u w => keepsHost_inject ..) _)

theorem keepsHost_testTouched (s : State) (pa n : Nat) : KeepsHost s (testTouched s pa n) := .foldl _ _ keepsHost_testStep s

/-- A store at its home. -/
theorem keepsHost_performHome_store {s : State} {pa : Nat} {bs : List Byte} {y : State × List Byte} (h : performHome s pa (.store bs) = some y) :
    KeepsHost s y.1 := by
  have key : KeepsHost s (touchL2 (recallLine s (lineOf pa)) pa 0) := (keepsHost_recallLine ..).trans (keepsHost_touchL2 ..)
  unfold performHome at h
  simp only [Access.writes, Nat.reduceBEq, Bool.false_and, Bool.false_eq_true, if_false, if_true] at h
  split at h
  · cases h
  · cases h
    exact (key.trans (keepsHost_homeWrite ..)).trans (keepsHost_testTouched ..)

/-- A write of firmware. -/
theorem keepsHost_memoryWrite {s u : State} {a : Nat} {bs : List Byte} (h : memoryWrite s a bs = some u) : KeepsHost s u := by
  unfold memoryWrite at h
  split at h
  · cases h
  · refine List.foldlRecOn (motive := fun r => ∀ v, r = some v → KeepsHost s v) _ _ ?_ ?_ u h
    · intro v hv; cases hv; exact .refl s
    · intro r hr p _ v hv
      obtain ⟨x, hx, hv⟩ := Option.bind_eq_some_iff.mp hv
      obtain ⟨y, hy, rfl⟩ := Option.map_eq_some_iff.mp hv
      exact (hr x hx).trans (keepsHost_performHome_store hy)

/-! ### Bytes of plain memory in one line -/

/-- Bytes that lie in one line are one piece. -/
theorem linePieces_one {a n : Nat} (hn : 0 < n) (hl : a / 128 = (a + n - 1) / 128) : linePieces a n = [(a, n)] := by
  have h0 : max a (a / 128 * 128) = a := by omega
  have h1 : min (a + n) (a / 128 * 128 + 128) - a = n := by omega
  have hrest : ∀ i, min (a + n) (a / 128 * 128 + 128 * (i + 1) + 128) - max a (a / 128 * 128 + 128 * (i + 1)) = 0 := by intro i; omega
  rw [linePieces, List.range_succ_eq_map, List.map_cons, List.filter_cons_of_pos (by simp [h0, h1, Nat.ne_of_gt hn]),
    List.filter_eq_nil_iff.mpr (by simp [hrest])]
  simp [h0, h1]

/-- With no update-only copy of a line there is nothing to recall. -/
theorem recallLine_none {s : State} {l : Nat} (h : ∀ e ∈ NMap.keys s.cores, ∀ x, s.line e l = some x → ∀ o k m, x.state ≠ .u o k m) :
    recallLine s l = s := by
  refine List.foldlRecOn (motive := (· = s)) _ _ rfl (fun u hu e he => ?_)
  subst hu
  split
  · rename_i x hx
    split
    · rename_i o k m hm
      exact absurd hm (h e he x hx o k m)
    · rfl
  · rfl

/-- A store whose words hold no error, be they covered whole or not. -/
theorem hitsError_whole {s : State} {a n : Nat} (h : hitsError s a n false = false) : hitsError s a n true = false := by
  simp only [hitsError, Bool.false_and, Bool.not_false, Bool.and_true, List.any_eq_false] at h ⊢
  intro w hw hc
  exact h w hw (by simp at hc ⊢; exact ⟨hc.1.1, hc.1.2⟩)

section
variable {s : State} {pa : Nat}

theorem boundDescriptors_visited : boundDescriptors (visited s pa) = boundDescriptors s := by simp [boundDescriptors, visited]

theorem hitsError_visited (n : Nat) (whole : Bool) : hitsError (visited s pa) pa n whole = hitsError s pa n whole := by simp [hitsError, visited]

theorem read_visited (n : Nat) : (visited s pa).read pa n = s.read pa n := by simp [State.read, visited]

/-- Where no thread is bound to a superstep, a store leaves the bytes written and closes no step. -/
theorem store_unbound {u : State} (h : boundDescriptors u = []) (bs old : List Byte) :
    testTouched (homeWrite u pa (storedBytes u pa old bs)) pa bs.length = homeWrite u pa bs := by
  have hb : boundDescriptors (homeWrite u pa bs) = [] := h
  simp [storedBytes, h, testTouched, hb, List.eraseDups_nil]

/-- A store of plain bytes at their home. -/
theorem performHome_store {bs : List Byte} (h : Plain s pa bs.length) : performHome s pa (.store bs) = some (putAt s pa bs, []) := by
  obtain ⟨hb, he, hu⟩ := h
  have hw : hitsError (visited s pa) pa bs.length true = false := by rw [hitsError_visited]; exact hitsError_whole he
  have hs := store_unbound (u := visited s pa) (pa := pa) (boundDescriptors_visited.trans hb) bs ((visited s pa).read pa bs.length)
  unfold visited at hw hs
  simp only [performHome, recallLine_none hu, Access.size, Access.writes, Access.apply, Nat.reduceBEq, Bool.false_and, Bool.false_eq_true,
    if_false, if_true, hw, hs]
  rfl

/-- A load of plain bytes at their home. -/
theorem performHome_load {n : Nat} (h : Plain s pa n) : performHome s pa (.load n) = some (visited s pa, s.read pa n) := by
  obtain ⟨-, he, hu⟩ := h
  have hw : hitsError (touchL2 s pa 0) pa n false = false := (hitsError_visited n false).trans he
  have hr : (touchL2 s pa 0).read pa n = s.read pa n := read_visited n
  simp only [performHome, recallLine_none hu, Access.size, Access.writes, Access.apply, Nat.reduceBEq, Bool.false_and, Bool.false_eq_true,
    if_false, hw, hr]
  rfl

/-- Firmware and the host reach such bytes. -/
theorem plainMemory_of_hostBytes {n : Nat} (h : HostBytes s pa n) : plainMemory s pa n = true := by
  obtain ⟨hn, hl, ht, hr, hm, -⟩ := h
  have hp : pa / 2 ^ 44 = Config.package := Nat.div_eq_of_lt (by omega)
  simp only [plainMemory, linePieces_one hn hl, List.all_cons, List.all_nil, hp, hm, beq_self_eq_true, Bool.true_and, Bool.and_true, Bool.or_eq_true, beq_iff_eq]
  exact hr

/-- A write of firmware or the host. -/
theorem memoryWrite_of_hostBytes {bs : List Byte} (h : HostBytes s pa bs.length) : memoryWrite s pa bs = some (putAt s pa bs) := by
  have hp := plainMemory_of_hostBytes h
  obtain ⟨hn, hl, -, -, -, hplain⟩ := h
  simp [memoryWrite, hp, linePieces_one hn hl, performHome_store hplain]

/-- A read of firmware or the host. -/
theorem memoryRead_of_hostBytes {n : Nat} (h : HostBytes s pa n) : memoryRead s pa n = some (visited s pa, s.read pa n) := by
  have hp := plainMemory_of_hostBytes h
  obtain ⟨hn, hl, -, -, -, hplain⟩ := h
  simp [memoryRead, hp, linePieces_one hn hl, performHome_load hplain]

@[simp] theorem putAt_host (bs : List Byte) : (putAt s pa bs).host = s.host := touchL2_host s pa 0
@[simp] theorem putAt_events (bs : List Byte) : (putAt s pa bs).events = s.events := touchL2_events s pa 0
@[simp] theorem putAt_mem (bs : List Byte) : (putAt s pa bs).mem = (s.write pa bs).mem := congrArg (memWrites · pa bs) (touchL2_mem s pa 0)

end

/-! ### Event records -/

/-- A record is among those on its way, once the event has been raised in a state of the same device time and incarnation. -/
theorem reported_of_event {s u s' : State} {src cls code sev d0 d1 : Nat} (ht : u.time = s.time)
    (hi : (u.die (epDie src)).inc = (s.die (epDie src)).inc) (h : (u.event src cls code sev false d0 d1).events ⊆ s'.events) :
    Reported s s' src cls code sev d0 d1 :=
  ⟨_, h (List.mem_append_right _ (List.mem_singleton_self _)), by simp [eventBytes, ht, hi]⟩

/-- An event reports itself. -/
theorem reported_event (s : State) (src cls code sev d0 d1 : Nat) : Reported s (s.event src cls code sev false d0 d1) src cls code sev d0 d1 :=
  reported_of_event rfl rfl (List.Subset.refl _)

/-- A change of a die that keeps a field of it keeps that field of every die. -/
theorem field_updDie {α : Type} (field : Die → α) (s : State) (d e : Nat) {f : Die → Die} (hf : ∀ x, field (f x) = field x) :
    field ((s.updDie d f).die e) = field (s.die e) := by
  by_cases h : e = d
  · subst h; rw [State.die_updDie_same, hf]
  · rw [State.die_updDie_other _ _ h]

/-- What a corrected error can do: it is counted, its class's count of its die is renewed, and a record may set out. -/
theorem corrected_cases (s : State) (src cls code d0 n : Nat) : ∃ p,
    let u := (s.count (lifeKey 4 (epDie src) cls) n).updDie (epDie src) (fun x => { x with reports := x.reports.put cls p })
    s.corrected src cls code d0 n = u ∨ ∃ k, s.corrected src cls code d0 n = u.record src cls code 0 false d0 k := by
  unfold State.corrected
  dsimp only
  split
  · split
    · exact ⟨_, .inl rfl⟩
    · exact ⟨_, .inr ⟨_, rfl⟩⟩
  · exact ⟨_, .inr ⟨_, rfl⟩⟩

section
variable (s : State) (src cls code d0 n : Nat)

@[simp] theorem corrected_host : (s.corrected src cls code d0 n).host = s.host := by
  obtain ⟨p, h | ⟨k, h⟩⟩ := corrected_cases s src cls code d0 n <;> rw [h] <;> rfl

@[simp] theorem corrected_mem : (s.corrected src cls code d0 n).mem = s.mem := by
  obtain ⟨p, h | ⟨k, h⟩⟩ := corrected_cases s src cls code d0 n <;> rw [h] <;> rfl

@[simp] theorem corrected_threads : (s.corrected src cls code d0 n).threads = s.threads := by
  obtain ⟨p, h | ⟨k, h⟩⟩ := corrected_cases s src cls code d0 n <;> rw [h] <;> rfl

/-- The errors are counted under their die and class. -/
theorem corrected_pkg : (s.corrected src cls code d0 n).pkg = (s.count (lifeKey 4 (epDie src) cls) n).pkg := by
  obtain ⟨p, h | ⟨k, h⟩⟩ := corrected_cases s src cls code d0 n <;> rw [h] <;> rfl

/-- At most one record sets out. -/
theorem corrected_events : ∃ l, (s.corrected src cls code d0 n).events = s.events ++ l ∧ l.length ≤ 1 := by
  obtain ⟨p, h | ⟨k, h⟩⟩ := corrected_cases s src cls code d0 n <;> rw [h]
  · exact ⟨[], by simp, by simp⟩
  · exact ⟨[_], rfl, by simp⟩

/-- Of a die only the counts of its reports change. -/
theorem corrected_stale (d : Nat) : ((s.corrected src cls code d0 n).die d).stale = (s.die d).stale := by
  obtain ⟨p, h | ⟨k, h⟩⟩ := corrected_cases s src cls code d0 n <;> rw [h] <;>
    exact field_updDie Die.stale (s.count _ n) (epDie src) d (f := fun x => { x with reports := x.reports.put cls p }) (fun _ => rfl)

end

/-! ### Requests of the host (R96, R163, R369) -/

/-- A message to the host goes out, or is held. -/
theorem toHost_eq (s : State) (m : HostMessage) : toHost s m = s.updHost (fun h => heldOrSent h m) := by
  simp [toHost, heldOrSent]

/-- The host is there: its link is trained and boot has not stopped. -/
theorem not_hostGone_iff (s : State) : ¬ HostGone s ↔ bootHalted s = false ∧ hostLinkUp s = true := by
  simp [HostGone, bootHalted, hostLinkUp]

section
variable {s u : State} {pa n : Nat} {data : List Byte} {poisoned : Bool}

/-- Over a link that is down no request arrives. -/
theorem hostAsks_down (h : s.host.gateway ∉ s.host.links) (r : HostRequest) : hostAsks s r = s := by simp [hostAsks, hostLinkUp, h]

/-- With every request performed, none waits. -/
theorem posted_none (h : u.host.posted = []) : u.updHost (fun h => { h with posted := [] }) = u := by
  show { u with host := { u.host with posted := [] } } = u
  rw [← h]

section
variable (hp : s.host.posted = []) (hl : hostLinkUp s = true)
include hp hl

/-- A posted write that finds none before it is performed. -/
theorem exec_hostPostedWrite (h : postedWrite s pa data poisoned = some u) (hu : u.host.posted = []) :
    exec (.hostPostedWrite pa data poisoned) s = .next u := by
  show Host.Outcome.next (hostAsks s _) = _
  simp [hostAsks, hl, hp, performPosted, h, posted_none hu]

/-- A posted write that must wait is held. -/
theorem exec_hostPostedWrite_waits (h : postedWrite s pa data poisoned = none) :
    exec (.hostPostedWrite pa data poisoned) s = .next (s.updHost (fun h => { h with posted := [.write pa data poisoned] })) := by
  show Host.Outcome.next (hostAsks s _) = _
  simp [hostAsks, hl, hp, performPosted, h]

/-- A read that finds no posted write before it is performed. -/
theorem exec_hostRead (hu : (readForHost s pa n).host.posted = []) : exec (.hostRead pa n) s = .next (readForHost s pa n) := by
  show Host.Outcome.next (hostAsks s _) = _
  simp [hostAsks, hl, hp, performPosted, posted_none hu]

end

/-- A host that is not there writes nothing. -/
theorem exec_hostPostedWrite_gone (hp : s.host.posted = []) (h : HostGone s) (poisoned : Bool) :
    exec (.hostPostedWrite pa data poisoned) s = .next s := by
  by_cases hl : s.host.gateway ∈ s.host.links
  · have hb : bootHalted s = true := h.resolve_right (not_not_intro hl)
    exact exec_hostPostedWrite hp (by simpa [hostLinkUp] using hl) (by simp [postedWrite, hb]) hp
  · exact congrArg Host.Outcome.next (hostAsks_down hl _)

/-- BAR2 shows memory below 1 TiB. -/
theorem hostTarget_memory (h : HostBytes s pa n) (ht : pa + n ≤ 2 ^ 40) : hostTarget s pa n = .memory := by
  have hbar : ¬ (0xF0016000000 ≤ pa ∧ pa + n ≤ 0xF0018000000 ∧ pa / 0x10000 = (pa + n - 1) / 0x10000) := by omega
  rw [hostTarget, if_neg hbar, if_pos ⟨ht, plainMemory_of_hostBytes h⟩]

/-- Below BAR0 and above 1 TiB there is nothing. -/
theorem hostTarget_nothing (ht : 2 ^ 40 < pa + n) (h : pa < 0xF0016000000) : hostTarget s pa n = .nothing := by
  rw [hostTarget, if_neg (by omega), if_neg (by omega)]

/-- Poisoned data is discarded with event 0x82. -/
theorem postedWrite_poisoned (h : bootHalted s = false) : postedWrite s pa data true = some (s.event (hostUnit s) 10 0x82 2 false pa 0) := by
  simp [postedWrite, h]

theorem postedWrite_memory (h : bootHalted s = false) (hb : HostBytes s pa data.length) (ht : pa + data.length ≤ 2 ^ 40) :
    postedWrite s pa data false = some (putAt s pa data) := by
  simp [postedWrite, h, hostTarget_memory hb ht, memoryWrite_of_hostBytes hb]

theorem postedWrite_register {ep off : Nat} (h : bootHalted s = false) (ht : hostTarget s pa data.length = .register ep off) :
    postedWrite s pa data false = windowWrite s ep (hostWriter s) off data := by
  simp [postedWrite, h, ht]

theorem readForHost_memory (h : bootHalted s = false) (hb : HostBytes s pa n) (ht : pa + n ≤ 2 ^ 40) :
    readForHost s pa n = (visited s pa).updHost (fun h => heldOrSent h (.completion pa (s.read pa n))) := by
  simp [readForHost, h, hostTarget_memory hb ht, memoryRead_of_hostBytes hb, toHost_eq]

theorem readForHost_nothing (h : bootHalted s = false) (ht : hostTarget s pa n = .nothing) :
    readForHost s pa n = (s.event (hostUnit s) 10 0x83 2 false pa 0).updHost (fun h => heldOrSent h (.unsupported pa)) := by
  simp [readForHost, h, ht, toHost_eq]

@[simp] theorem heldOrSent_posted (h : HostPort) (m : HostMessage) : (heldOrSent h m).posted = h.posted := by
  unfold heldOrSent; split <;> rfl

end

/-- Writes and reads of the host that find no posted write waiting. -/
theorem hostRequests_spec (s : State) (pa n : Nat) (data : List Byte) (hp : s.host.posted = []) :
    (¬ HostGone s → ∃ s', exec (.hostPostedWrite pa data true) s = .next s' ∧ s'.mem = s.mem ∧ Reported s s' (endpoint s.host.gateway 121) 10 0x82 2 pa 0) ∧
    (¬ HostGone s → HostBytes s pa data.length → pa + data.length ≤ 2 ^ 40 → exec (.hostPostedWrite pa data false) s = .next (putAt s pa data)) ∧
    (¬ HostGone s → HostBytes s pa n → pa + n ≤ 2 ^ 40 →
      exec (.hostRead pa n) s = .next ((visited s pa).updHost (fun h => heldOrSent h (.completion pa (s.read pa n))))) ∧
    (¬ HostGone s → 2 ^ 40 < pa + n → pa < 0xF0016000000 → ∃ s', exec (.hostRead pa n) s = .next s' ∧ s'.host = heldOrSent s.host (.unsupported pa) ∧
      s'.mem = s.mem ∧ Reported s s' (endpoint s.host.gateway 121) 10 0x83 2 pa 0) := by
  simp only [not_hostGone_iff]
  refine ⟨fun ⟨hb, hl⟩ => ?_, fun ⟨hb, hl⟩ hm ht => ?_, fun ⟨hb, hl⟩ hm ht => ?_, fun ⟨hb, hl⟩ ht hlow => ?_⟩
  · exact ⟨_, exec_hostPostedWrite hp hl (postedWrite_poisoned hb) hp, rfl, reported_event ..⟩
  · exact exec_hostPostedWrite hp hl (postedWrite_memory hb hm ht) (by simpa using hp)
  · rw [exec_hostRead hp hl] <;> rw [readForHost_memory hb hm ht]
    simpa [visited] using hp
  · have hr := readForHost_nothing hb (hostTarget_nothing ht hlow)
    exact ⟨_, exec_hostRead hp hl (by rw [hr]; simpa using hp), by rw [hr]; rfl, by rw [hr]; rfl, by rw [hr]; exact reported_event ..⟩

/-- A posted write to a register that cannot take it yet waits. -/
theorem hostPostedWrite_register_waits {s : State} {pa ep off : Nat} {data : List Byte} (hp : s.host.posted = []) (hg : ¬ HostGone s)
    (ht : hostTarget s pa data.length = .register ep off) (hw : windowWrite s ep (hostWriter s) off data = none) :
    exec (.hostPostedWrite pa data false) s = .next (s.updHost (fun h => { h with posted := [.write pa data false] })) := by
  obtain ⟨hb, hl⟩ := (not_hostGone_iff s).mp hg
  exact exec_hostPostedWrite_waits hp hl ((postedWrite_register hb ht).trans hw)

/-! ### The host link (R369) -/

@[simp] theorem retrainEvent_host (s : State) (outage : Nat) : (retrainEvent s outage).host = s.host := by
  unfold retrainEvent
  dsimp only
  split
  · split
    · exact corrected_host ..
    · rfl
  · rfl

/-- The first retraining of a link is reported. -/
theorem reported_retrainEvent {s : State} (outage : Nat) (h : (s.die s.host.gateway).reports.find 10 = none) :
    Reported s (retrainEvent s outage) (endpoint s.host.gateway 121) 10 0x81 0 0 outage := by
  unfold retrainEvent
  dsimp only
  rw [h]
  exact reported_of_event (u := s.updDie s.host.gateway (fun x => { x with reports := x.reports.put 10 (s.time, 0) })) rfl (field_updDie Die.inc _ _ _ (fun _ => rfl)) (List.Subset.refl _)

section
variable {s : State} {g : Nat}

/-- The link of the host port is down from now on. -/
def unlinked (s : State) : State :=
  s.updHost (fun h => { h with links := h.links.filter (fun x => x != s.host.gateway), downAt := s.time })

theorem linkDown_down (h : g ∉ s.host.links) : linkDown s g = s := by simp [linkDown, h]

/-- A link that is trained goes down; that of the host port is reported. -/
theorem linkDown_up (h : g ∈ s.host.links) : (linkDown s g).host.links = s.host.links.filter (fun x => x != g) ∧
    (g = s.host.gateway → (linkDown s g).host.downAt = s.time ∧ Reported s (linkDown s g) (endpoint s.host.gateway 121) 10 0x80 2 0 0) := by
  by_cases hg : g = s.host.gateway
  · subst hg
    have e : linkDown s s.host.gateway = (unlinked s).event (hostUnit s) 10 0x80 2 false 0 0 := by
      simp only [linkDown, List.contains_eq_mem, h, decide_true, Bool.not_true, Bool.false_eq_true, if_false, ne_eq, not_true_eq_false]
      rfl
    rw [e]
    exact ⟨rfl, fun _ => ⟨rfl, reported_of_event (u := unlinked s) rfl rfl (List.Subset.refl _)⟩⟩
  · simp [linkDown, h, hg]

theorem linkUp_up (h : g ∈ s.host.links ∨ (s.die g).present = false) : linkUp s g = s := by
  rcases h with h | h <;> simp [linkUp, h]

/-- A link that was down is trained again; over that of the host port what was held goes out. -/
theorem linkUp_down (h : g ∉ s.host.links) (hd : (s.die g).present = true) : g ∈ (linkUp s g).host.links ∧
    (g = s.host.gateway → (linkUp s g).host.held = [] ∧ (linkUp s g).host.toHost = s.host.held.reverse ++ s.host.toHost ∧
      ((s.die s.host.gateway).reports.find 10 = none → Reported s (linkUp s g) (endpoint s.host.gateway 121) 10 0x81 0 0 (s.time - s.host.downAt))) := by
  by_cases hg : g = s.host.gateway
  · subst hg
    have e : linkUp s s.host.gateway =
        (retrainEvent (s.updHost (fun h => { h with links := s.host.gateway :: h.links })) (s.time - s.host.downAt)).updHost
          (fun h => { h with toHost := h.held.reverse ++ h.toHost, held := [] }) := by
      simp [linkUp, h, hd, hostRelease, hostLinkUp]
    rw [e]
    refine ⟨by simp, fun _ => ⟨by simp, by simp, fun hr => ?_⟩⟩
    exact reported_retrainEvent (s := s.updHost (fun h => { h with links := s.host.gateway :: h.links })) _ hr
  · simp [linkUp, h, hd, hg]

end

/-! ### The event ring (R365, R366) -/

/-- The event ring takes no record: it is off, or each of its slots holds one. -/
def RingFull (h : HostPort) : Prop := h.evbase.getLsbD 8 = false ∨ ringSlots h ≤ (h.evtail - h.evhead).toNat

/-- The slot that the next record goes to. -/
def ringSlot (h : HostPort) : Nat := h.evbase.toNat / 2 ^ 12 % 2 ^ 40 * 4096 + h.evtail.toNat % ringSlots h * 32

/-- The host port agent once a record has been written: EVTAIL is advanced, what was lost is said, the vector is signalled. -/
def afterRecord (h : HostPort) (r : List Byte) : HostPort :=
  heldOrSent { h with evtail := h.evtail + 1#32, lost := h.lost.filter (fun x => x != field r 8 4 % 2 ^ 20) } (.vector (vectorOf r))

theorem eventSlots_eq (h : HostPort) : eventSlots h = ringSlots h := by simp [eventSlots, ringSlots]

theorem eventRingFull_iff (h : HostPort) : eventRingFull h = true ↔ RingFull h := by simp [eventRingFull, RingFull, eventSlots_eq]

theorem recordVector_eq (r : List Byte) : recordVector r = vectorOf r := by
  unfold recordVector vectorOf recordSev
  split
  · rename_i h; exact (if_pos h).symm
  · rename_i h; simp [h]
  · rename_i h3 h4; rw [if_neg h3, if_neg h4]; rfl

/-- The LOST bit changes one byte of a record. -/
theorem ringBytes_length {h : HostPort} {r : List Byte} (hr : r.length = 32) : (ringBytes h r).length = 32 := by
  unfold ringBytes
  split
  · simp [patch, hr]
  · exact hr

/-- A record is written to the slot at EVTAIL. -/
theorem writeRecord_eq {s : State} {r : List Byte} (hr : r.length = 32) (hb : HostBytes s (ringSlot s.host) 32) :
    writeRecord s r = (putAt s (ringSlot s.host) (ringBytes s.host r)).updHost (afterRecord · r) := by
  have hslot : (s.host.evbase.extractLsb' 12 40).toNat * 4096 + s.host.evtail.toNat % eventSlots s.host * 32 = ringSlot s.host := by
    simp [ringSlot, eventSlots_eq, Nat.shiftRight_eq_div_pow]
  have hbytes : (if s.host.lost.contains (recordSrc r) = true then patch r 15 [BitVec.ofNat 8 (field r 15 1) ||| 1#8] else r) = ringBytes s.host r := by
    simp [ringBytes, recordSrc]
  have hw : memoryWrite s (ringSlot s.host) (ringBytes s.host r) = some (putAt s (ringSlot s.host) (ringBytes s.host r)) :=
    memoryWrite_of_hostBytes (by rwa [ringBytes_length hr])
  simp only [writeRecord, hslot, hbytes, hw, toHost_eq, recordVector_eq]
  rfl

/-- What a record written leaves. -/
theorem writeRecord_writes {s : State} {r : List Byte} (hr : r.length = 32) (hb : HostBytes s (ringSlot s.host) 32) :
    (writeRecord s r).events = s.events ∧ (writeRecord s r).host = afterRecord s.host r ∧
      (writeRecord s r).mem = (s.write (ringSlot s.host) (ringBytes s.host r)).mem := by
  rw [writeRecord_eq hr hb]
  exact ⟨putAt_events (ringBytes s.host r), congrArg (afterRecord · r) (putAt_host _), putAt_mem _⟩

section
variable {s : State} {e : Event} {es : List Event}

/-- With none in flight no record arrives. -/
theorem arriving_nil (h : s.events = []) : arriving s = none := by simp [arriving, h]

/-- The record in front arrives. -/
theorem arriving_head (h0 : s.obj = 0) (h : s.events = e :: es) : arriving s = some (e, es) := by simp [arriving, h0, h]

/-- A record behind another of its die does not arrive (R149). -/
theorem arriving_behind {e' : Event} (h : s.events[s.obj]? = some e) (h' : e' ∈ s.events.take s.obj)
    (hd : field e'.bytes 8 4 % 2 ^ 20 / 128 % 32 = field e.bytes 8 4 % 2 ^ 20 / 128 % 32) : arriving s = none := by
  have hany : (s.events.take s.obj).any (fun x => epDie (recordSrc x.bytes) == epDie (recordSrc e.bytes)) = true :=
    List.any_eq_true.mpr ⟨e', h', beq_iff_eq.mpr hd⟩
  simp only [arriving, h, hany, if_true]

/-- A record of a current incarnation is given over. -/
theorem takeRecord_current {take : State → List Byte → State} (h : Current s e.bytes) : takeRecord s e take = take s e.bytes :=
  if_neg (by simpa [recordInc, recordSrc, epDie, bits, Current] using h)

/-- A record of another incarnation is dropped and counted (R152, R433). -/
theorem takeRecord_stale {take : State → List Byte → State} (h : ¬ Current s e.bytes) :
    takeRecord s e take = dropCounted s s.host.gateway (endpoint (field e.bytes 8 4 % 2 ^ 20 / 128 % 32) 0) :=
  if_pos (by simpa [recordInc, recordSrc, epDie, bits, Current] using h)

theorem epDie_endpoint {d l : Nat} (hd : d < 32) (hl : l < 128) : epDie (endpoint d l) = d := by
  simp only [epDie, endpoint, Config.package]; omega

theorem epPackage_endpoint {d l : Nat} (hd : d < 32) (hl : l < 128) : epPackage (endpoint d l) = Config.package := by
  simp only [epPackage, endpoint, Config.package]; omega

/-- A record dropped for its incarnation is counted at the fault unit that drops it, and no more changes than a report's setting out. -/
theorem dropCounted_stale {die src : Nat} (hs : src < 32) : let s' := dropCounted s die (endpoint src 0); let key := Config.package * 32 + src
    s'.mem = s.mem ∧ s'.host = s.host ∧ (s'.die die).stale.find key = some (((s.die die).stale.find key).getD 0 + 1) ∧
      ∃ l, s'.events = s.events ++ l ∧ l.length ≤ 1 := by
  simp only [dropCounted, epDie_endpoint hs, epPackage_endpoint hs, Nat.zero_lt_succ, corrected_mem, corrected_host, corrected_stale,
    State.die_updDie_same, NMap.find_put_same]
  exact ⟨rfl, rfl, trivial, corrected_events ..⟩

/-- A held record for which a slot is free is written before any that arrives. -/
theorem nextRecord_held {r : List Byte} {rest : List (List Byte)} (hh : s.host.holding = r :: rest) (hf : ¬ RingFull s.host) :
    nextRecord s = writeRecord (s.updHost (fun h => { h with holding := rest })) r := by
  have h := mt (eventRingFull_iff s.host).mp hf
  simp only [nextRecord, hh, h, Bool.not_false, if_true]

/-- With no record held, what arrives is written, or held or dropped where the ring is full. -/
theorem nextRecord_arriving (hh : s.host.holding = []) (ha : arriving s = some (e, es)) :
    nextRecord s = takeRecord { s with events := es } e (fun s r => if eventRingFull s.host then holdRecord s r else writeRecord s r) := by
  simp only [nextRecord, hh, ha]

/-- With records held and the ring full, what arrives is held or dropped. -/
theorem nextRecord_held_full {r : List Byte} {rest : List (List Byte)} (hh : s.host.holding = r :: rest) (hf : RingFull s.host)
    (ha : arriving s = some (e, es)) : nextRecord s = takeRecord { s with events := es } e holdRecord := by
  have h := (eventRingFull_iff s.host).mpr hf
  simp only [nextRecord, hh, ha, h, Bool.not_true, Bool.false_eq_true, if_false]

/-- With no record held and none arriving nothing happens. -/
theorem nextRecord_none (hh : s.host.holding = []) (ha : arriving s = none) : nextRecord s = s := by simp only [nextRecord, hh, ha]

/-- A stale record is dropped, whether the ring is full or no record is held. -/
theorem nextRecord_stale (hh : s.host.holding = [] ∨ RingFull s.host) (ha : arriving s = some (e, es)) (hc : ¬ Current s e.bytes) :
    nextRecord s = dropCounted { s with events := es } s.host.gateway (endpoint (field e.bytes 8 4 % 2 ^ 20 / 128 % 32) 0) := by
  have hc' : ¬ Current { s with events := es } e.bytes := hc
  cases hl : s.host.holding with
  | nil => rw [nextRecord_arriving hl ha, takeRecord_stale hc']
  | cons r rest => rw [nextRecord_held_full hl (hh.resolve_left (by simp [hl])) ha, takeRecord_stale hc']

/-- A record that finds the ring full is held or dropped. -/
theorem nextRecord_full (hf : RingFull s.host) (ha : arriving s = some (e, es)) (hc : Current s e.bytes) :
    nextRecord s = holdRecord { s with events := es } e.bytes := by
  have hc' : Current { s with events := es } e.bytes := hc
  cases hl : s.host.holding with
  | nil => rw [nextRecord_arriving hl ha, takeRecord_current hc', if_pos ((eventRingFull_iff _).mpr hf)]
  | cons r rest => rw [nextRecord_held_full hl hf ha, takeRecord_current hc']

/-- A record that finds a free slot and none held is written. -/
theorem nextRecord_free (hh : s.host.holding = []) (hf : ¬ RingFull s.host) (ha : arriving s = some (e, es)) (hc : Current s e.bytes) :
    nextRecord s = writeRecord { s with events := es } e.bytes := by
  have hc' : Current { s with events := es } e.bytes := hc
  rw [nextRecord_arriving hh ha, takeRecord_current hc', if_neg (mt (eventRingFull_iff _).mp hf)]

end

/-- What holding a record comes to: one of little weight is dropped, another is held while there is room, and else its source's loss is noted. -/
theorem holdRecord_cases (s : State) (r : List Byte) :
    (holdRecord s r).events = s.events ∧ (holdRecord s r).mem = s.mem ∧
    (field r 14 1 < 2 → (holdRecord s r).host = { s.host with evdrop := s.host.evdrop + 1#32 }) ∧
    (2 ≤ field r 14 1 → s.host.holding.length < 64 → (holdRecord s r).host = { s.host with holding := s.host.holding ++ [r] }) ∧
    (2 ≤ field r 14 1 → 64 ≤ s.host.holding.length → (holdRecord s r).host.evdrop = s.host.evdrop + 1#32 ∧
      (holdRecord s r).host.holding = s.host.holding ∧ field r 8 4 % 2 ^ 20 ∈ (holdRecord s r).host.lost) := by
  by_cases hsev : recordSev r < 2
  · have hs : ¬ 2 ≤ field r 14 1 := Nat.not_le.mpr hsev
    simp only [holdRecord, if_pos hsev, hs, false_imp_iff, and_true]
    exact ⟨rfl, rfl, fun _ => rfl⟩
  · have hs : ¬ field r 14 1 < 2 := hsev
    by_cases hroom : s.host.holding.length < 64
    · have hr : ¬ 64 ≤ s.host.holding.length := Nat.not_le.mpr hroom
      simp only [holdRecord, if_neg hsev, if_pos hroom, hs, hr, false_imp_iff, imp_true_iff, and_true, true_and]
      exact ⟨rfl, rfl, fun _ _ => rfl⟩
    · simp only [holdRecord, if_neg hsev, hs, hroom, if_false, false_imp_iff, imp_true_iff, true_and]
      refine ⟨rfl, rfl, fun _ _ => ⟨rfl, rfl, ?_⟩⟩
      show recordSrc r ∈ if s.host.lost.contains (recordSrc r) = true then s.host.lost else recordSrc r :: s.host.lost
      split
      · rename_i h; simpa using h
      · exact List.mem_cons_self ..

section
variable {s : State} {e : Event} {es : List Event}

/-- A record that arrives at a free slot is written there. -/
theorem exec_eventRecordWrite_free (hh : s.host.holding = []) (h0 : s.obj = 0) (he : s.events = e :: es) (hc : Current s e.bytes)
    (hr : e.bytes.length = 32) (hf : ¬ RingFull s.host) (hb : HostBytes s (ringSlot s.host) 32) :
    ∃ s', exec .eventRecordWrite s = .next s' ∧ s'.events = es ∧ s'.host = afterRecord s.host e.bytes ∧
      s'.mem = (s.write (ringSlot s.host) (ringBytes s.host e.bytes)).mem :=
  ⟨_, congrArg Host.Outcome.next (nextRecord_free hh hf (arriving_head h0 he) hc), writeRecord_writes (s := { s with events := es }) hr hb⟩

/-- A held record is written to a slot that is free. -/
theorem exec_eventRecordWrite_held {r : List Byte} {rest : List (List Byte)} (hh : s.host.holding = r :: rest) (hr : r.length = 32)
    (hf : ¬ RingFull s.host) (hb : HostBytes s (ringSlot s.host) 32) :
    ∃ s', exec .eventRecordWrite s = .next s' ∧ s'.events = s.events ∧ s'.host = afterRecord { s.host with holding := rest } r ∧
      s'.mem = (s.write (ringSlot s.host) (ringBytes s.host r)).mem :=
  ⟨_, congrArg Host.Outcome.next (nextRecord_held hh hf), writeRecord_writes (s := s.updHost (fun h => { h with holding := rest })) hr hb⟩

/-- A record of another incarnation is dropped and counted. -/
theorem exec_eventRecordWrite_stale (h0 : s.obj = 0) (he : s.events = e :: es) (hh : s.host.holding = [] ∨ RingFull s.host)
    (hc : ¬ Current s e.bytes) :
    ∃ s', exec .eventRecordWrite s = .next s' ∧ s'.mem = s.mem ∧ s'.host = s.host ∧
      (let key := Config.package * 32 + field e.bytes 8 4 % 2 ^ 20 / 128 % 32
       (s'.die s.host.gateway).stale.find key = some (((s.die s.host.gateway).stale.find key).getD 0 + 1)) ∧
      ∃ l, s'.events = es ++ l ∧ l.length ≤ 1 :=
  ⟨_, congrArg Host.Outcome.next (nextRecord_stale hh (arriving_head h0 he) hc), dropCounted_stale (s := { s with events := es }) (Nat.mod_lt _ (by decide))⟩

/-- A record that finds the ring full is held or dropped. -/
theorem exec_eventRecordWrite_full (h0 : s.obj = 0) (he : s.events = e :: es) (hc : Current s e.bytes) (hf : RingFull s.host) :
    ∃ s', exec .eventRecordWrite s = .next s' ∧ s'.events = es ∧ s'.mem = s.mem ∧
      (field e.bytes 14 1 < 2 → s'.host = { s.host with evdrop := s.host.evdrop + 1#32 }) ∧
      (2 ≤ field e.bytes 14 1 → s.host.holding.length < 64 → s'.host = { s.host with holding := s.host.holding ++ [e.bytes] }) ∧
      (2 ≤ field e.bytes 14 1 → 64 ≤ s.host.holding.length → s'.host.evdrop = s.host.evdrop + 1#32 ∧ s'.host.holding = s.host.holding ∧
        field e.bytes 8 4 % 2 ^ 20 ∈ s'.host.lost) :=
  ⟨_, congrArg Host.Outcome.next (nextRecord_full hf (arriving_head h0 he) hc), holdRecord_cases { s with events := es } e.bytes⟩

/-- Nothing happens where no record is held and none arrives. -/
theorem exec_eventRecordWrite_none (hh : s.host.holding = []) (ha : arriving s = none) : exec .eventRecordWrite s = .next s :=
  congrArg Host.Outcome.next (nextRecord_none hh ha)

end

/-! ### Service-core takeover (R371) -/

/-- A command that completes is no longer in progress; its end leaves the serving gateway and the records on their way. -/
theorem finish_settles (s : State) (c : Command) (status : Nat) :
    (finish s c status).host.command = none ∧ (finish s c status).host.serving = s.host.serving ∧ s.events ⊆ (finish s c status).events := by
  unfold finish
  split
  · exact ⟨rfl, rfl, (keepsHost_event (updRing s c.ring _) ..).reports⟩
  · rename_i u hu
    obtain ⟨v, hv, rfl⟩ := Option.map_eq_some_iff.mp hu
    have hk := keepsHost_memoryWrite hv
    refine ⟨rfl, ?_, hk.reports⟩
    show (toHost v _).host.serving = _
    rw [toHost_eq, ← hk.host]
    show (heldOrSent v.host _).serving = _
    unfold heldOrSent
    split <;> rfl

theorem keepsHost_undoCommand (s : State) (c : Command) : KeepsHost s (undoCommand s c) := by
  unfold undoCommand
  split
  · exact .refl s
  · rename_i a old _
    cases h : memoryWrite s a (leBytes 8 old) with
    | none => exact .refl s
    | some u => exact keepsHost_memoryWrite h

/-- The command goes on over a takeover: an UNMAP, and a RESET whose die is not back in service. -/
abbrev GoesOn (s : State) (c : Command) : Prop := c.opcode = 3 ∨ c.opcode = 8 ∧ (s.die (field c.bytes 17 1)).loss ≠ .serving

theorem settleCommand_none {s : State} (h : s.host.command = none) : settleCommand s = s := by simp only [settleCommand, h]

theorem settleCommand_goesOn {s : State} {c : Command} (h : s.host.command = some c) (hg : GoesOn s c) : settleCommand s = s := by
  rcases hg with hg | ⟨hg, hl⟩
  · simp only [settleCommand, h, hg, if_true]
  · simp [settleCommand, h, hg, hl]

/-- A command that does not go on completes. -/
theorem settleCommand_ends {s : State} {c : Command} (h : s.host.command = some c) (hg : ¬ GoesOn s c) :
    (settleCommand s).host.command = none ∧ (settleCommand s).host.serving = s.host.serving ∧ s.events ⊆ (settleCommand s).events := by
  obtain ⟨h3, h8⟩ := not_or.mp hg
  by_cases hop : c.opcode = 8
  · have hl : (s.die (field c.bytes 17 1)).loss = .serving := by simpa [hop] using h8
    obtain ⟨hc, hs, he⟩ := finish_settles s c 0
    have hk := keepsHost_event (finish s c 0) (lossUnit (finish s c 0)) 0 0x89 1 false
      (field c.bytes 17 1 + ((finish s c 0).die (field c.bytes 17 1)).inc * 256) 0
    simp only [settleCommand, h, if_neg h3, if_pos hop, if_pos hl]
    exact ⟨hc, hs, fun _ m => hk.reports (he m)⟩
  · obtain ⟨hc, hs, he⟩ := finish_settles (undoCommand s c) c 6
    have hk := keepsHost_undoCommand s c
    simp only [settleCommand, h, if_neg h3, if_neg hop]
    exact ⟨hc, hs.trans (by rw [hk.host]), fun _ m => he (hk.reports m)⟩

/-- Settling the command in progress leaves the serving gateway and the records on their way. -/
theorem settleCommand_keeps (s : State) : (settleCommand s).host.serving = s.host.serving ∧ s.events ⊆ (settleCommand s).events := by
  cases h : s.host.command with
  | none => rw [settleCommand_none h]; exact ⟨rfl, List.Subset.refl _⟩
  | some c =>
    by_cases hg : GoesOn s c
    · rw [settleCommand_goesOn h hg]; exact ⟨rfl, List.Subset.refl _⟩
    · exact (settleCommand_ends h hg).2

/-- What becomes of the command in progress. -/
theorem settleCommand_command {s : State} {c : Command} (h : s.host.command = some c) :
    (settleCommand s).host.command = if GoesOn s c then some c else none := by
  split
  · rename_i hg; rw [settleCommand_goesOn h hg, h]
  · rename_i hg; exact (settleCommand_ends h hg).1

/-- The other gateway's service cores serve, with event 0x85. -/
def served (s : State) : State :=
  (s.updHost (fun h => { h with serving := 45 - s.host.serving })).event (faultUnit (45 - s.host.serving)) 11 0x85 1 false s.host.serving 0

theorem takeOver_absent {s : State} (h : (s.die (45 - s.host.serving)).present = false) : takeOver s = s := by simp [takeOver, h]

theorem takeOver_present {s : State} (h : (s.die (45 - s.host.serving)).present = true) : takeOver s = settleCommand (served s) := by
  simp only [takeOver, h, Bool.not_true, Bool.false_eq_true, if_false]
  rfl

/-- Service-core takeover. -/
theorem serviceCoreTakeover_spec (s : State) : let other := 45 - s.host.serving
    (s.obj ≠ 1 → (s.die other).present = false → exec .serviceCoreTakeover s = .next s) ∧
    (s.obj ≠ 1 → (s.die other).present = true → ∃ s', exec .serviceCoreTakeover s = .next s' ∧ s'.host.serving = other ∧
      Reported s s' (endpoint other 121) 11 0x85 1 s.host.serving 0 ∧ ∀ c, s.host.command = some c → s'.host.command =
        if c.opcode = 3 ∨ c.opcode = 8 ∧ (s.die (field c.bytes 17 1)).loss ≠ .serving then some c else none) ∧
    (s.obj = 1 → s.host.command = none → exec .serviceCoreTakeover s = .next s) ∧
    (∀ c, s.obj = 1 → s.host.command = some c → ∃ s', exec .serviceCoreTakeover s = .next s' ∧ s'.host.command =
        if c.opcode = 3 ∨ c.opcode = 8 ∧ (s.die (field c.bytes 17 1)).loss ≠ .serving then some c else none) := by
  refine ⟨fun h1 hd => ?_, fun h1 hd => ?_, fun h1 hc => ?_, fun c h1 hc => ?_⟩
  · exact congrArg Host.Outcome.next ((if_neg h1).trans (takeOver_absent hd))
  · obtain ⟨hs, he⟩ := settleCommand_keeps (served s)
    refine ⟨_, congrArg Host.Outcome.next ((if_neg h1).trans (takeOver_present hd)), hs, reported_of_event (u := s.updHost _) rfl rfl he, fun c hc => ?_⟩
    exact settleCommand_command (s := served s) hc
  · exact congrArg Host.Outcome.next ((if_pos h1).trans (settleCommand_none hc))
  · exact ⟨_, congrArg Host.Outcome.next (if_pos h1), settleCommand_command hc⟩

/-! ### The lifetime fold (R176) -/

/-- A counter that is not folded into stays. -/
theorem find_foldl_addLifetime_absent (l : List (Nat × Nat)) (m : NMap Nat) {key : Nat} (h : key ∉ NMap.keys l) :
    (l.foldl (fun m p => addLifetime m p.1 p.2) m).find key = m.find key := by
  induction l generalizing m with
  | nil => rfl
  | cons p l ih =>
    obtain ⟨hp, hl⟩ := not_or.mp (mt List.mem_cons.mpr h)
    rw [List.foldl_cons, ih _ hl]
    exact NMap.find_put_other _ _ hp

/-- A counter that is folded into once gains what was counted, and saturates. -/
theorem find_foldl_addLifetime_once (l : List (Nat × Nat)) (m : NMap Nat) {key : Nat} (hn : (NMap.keys l).Nodup) (h : key ∈ NMap.keys l) :
    (l.foldl (fun m p => addLifetime m p.1 p.2) m).find key = some (min (2 ^ 32 - 1) ((m.find key).getD 0 + (NMap.find l key).getD 0)) := by
  induction l generalizing m with
  | nil => cases h
  | cons p l ih =>
    obtain ⟨k, v⟩ := p
    obtain ⟨hk, hl⟩ := List.nodup_cons.mp hn
    rw [List.foldl_cons]
    by_cases hkey : k = key
    · subst hkey
      rw [find_foldl_addLifetime_absent l _ hk, addLifetime, NMap.find_put_same, NMap.find, if_pos rfl, Option.getD_some]
    · have hmem : key ∈ NMap.keys l := (List.mem_cons.mp h).resolve_left (Ne.symm hkey)
      rw [ih _ hl hmem, addLifetime, NMap.find_put_other _ _ (Ne.symm hkey), NMap.find, if_neg hkey]

/-- The kind of a counter stands in the upper bits of its key. -/
theorem lifeKey_kind {kind a b : Nat} (ha : a < 2 ^ 15) (hb : b < 2 ^ 16) : lifeKey kind a b / 2 ^ 32 = kind := by
  unfold lifeKey; omega

/-- The hours and the temperature samples go to counters of kinds 1 and 2. -/
theorem fold_find (s : State) {key : Nat} (hn : (NMap.keys s.pkg.counts).Nodup) (h1 : key / 2 ^ 32 ≠ 1) (h2 : key / 2 ^ 32 ≠ 2)
    (h : key ∈ NMap.keys s.pkg.counts) :
    (fold s).pkg.lifetime.find key = some (min (2 ^ 32 - 1) ((s.pkg.lifetime.find key).getD 0 + (s.pkg.counts.find key).getD 0)) := by
  have hhours : key ≠ lifeKey 1 0 0 := fun e => h1 (e ▸ lifeKey_kind (by decide) (by decide))
  have hsamples : ∀ d < 24, ∀ x, key ≠ lifeKey 2 d (x % 16) := fun d hd x e => h2 (e ▸ lifeKey_kind (by omega) (by omega))
  show NMap.find (List.foldl _ _ _) key = _
  rw [List.append_assoc, List.foldl_append, find_foldl_addLifetime_absent _ _ ?_, find_foldl_addLifetime_once _ _ hn h]
  simp only [NMap.keys, presentDies, List.singleton_append, List.map_cons, List.map_map, List.mem_cons, List.mem_map, List.mem_filter,
    List.mem_range, Function.comp_apply, not_or, not_exists, not_and]
  exact ⟨hhours, fun d hd e => hsamples d hd.1 _ e.symm⟩

/-- Every 60 s of device time what has been counted is folded. -/
theorem lifetimeFold_due {s : State} (ht : s.pkg.foldAt + 60000000000 ≤ s.time) (hn : (NMap.keys s.pkg.counts).Nodup) :
    ∃ s', exec .lifetimeFold s = .next s' ∧ s'.pkg.counts = [] ∧ s'.pkg.foldAt = s.time ∧ s'.mem = s.mem ∧
      ∀ key, key / 2 ^ 32 ≠ 1 → key / 2 ^ 32 ≠ 2 → key ∈ NMap.keys s.pkg.counts →
        s'.pkg.lifetime.find key = some (min (2 ^ 32 - 1) ((s.pkg.lifetime.find key).getD 0 + (s.pkg.counts.find key).getD 0)) :=
  ⟨fold s, congrArg Host.Outcome.next (if_neg (Nat.not_lt.mpr ht)), rfl, rfl, rfl, fun _ h1 h2 h => fold_find s hn h1 h2 h⟩

/-! ### Temperature and supply (R7, R370) -/

/-- Listing a die's cores changes the list of cores alone. -/
theorem listCores_eq_cores (s : State) (die : Nat) : ∃ cs, listCores s die = { s with cores := cs } := by
  refine List.foldlRecOn (motive := fun (u : State) => ∃ cs, u = { s with cores := cs }) _ _ ⟨_, rfl⟩ ?_
  rintro u ⟨cs, rfl⟩ l -
  dsimp only
  split
  · exact ⟨_, rfl⟩
  · exact ⟨_, rfl⟩

/-- A die that is throttled already, or is not there, is left. -/
theorem throttle_none {s : State} {d : Nat} (h : 24 ≤ d ∨ (s.die d).present = false ∨ (s.die d).throttled = true) : throttle s d = s :=
  if_pos (by simpa using h)

/-- A die that is throttled. -/
def slowed (x : Die) : Die := { x with throttled := true }

/-- A hot die is throttled, with event 0x8B. -/
theorem throttle_hot {s : State} {d : Nat} (hd : d < 24) (hp : (s.die d).present = true) (ht : (s.die d).throttled = false) :
    ((throttle s d).die d).throttled = true ∧ (throttle s d).time = s.time ∧ Reported s (throttle s d) (endpoint d 121) 0 0x8B 1 0 0 := by
  have e : throttle s d = ((listCores s d).updDie d slowed).event (faultUnit d) 0 0x8B 1 false 0 0 := if_neg (by simp [hp, ht, hd])
  obtain ⟨cs, hcs⟩ := listCores_eq_cores s d
  have hinc := field_updDie Die.inc { s with cores := cs } d (epDie (faultUnit d)) (f := slowed) (fun _ => rfl)
  have hthr : ((State.updDie { s with cores := cs } d slowed).die d).throttled = true := by rw [State.die_updDie_same]; rfl
  rw [e, hcs]
  exact ⟨hthr, rfl, reported_of_event (u := State.updDie { s with cores := cs } d slowed) rfl hinc (List.Subset.refl _)⟩

/-- A die that is not throttled does not recover; one that is does. -/
theorem exec_temperatureRecover (s : State) : exec .temperatureRecover s =
    .next (if (s.die s.obj).throttled then s.updDie s.obj (fun x => { x with throttled := false }) else s) := rfl

/-- A droop of the supply is a corrected error of the die, counted besides. -/
theorem supplyDroop_counts (s : State) : ∃ s', exec .supplyDroop s = .next s' ∧
    (s.obj < 32 → s'.pkg.counts.find (3 * 2 ^ 32 + s.obj * 2 ^ 16) = some ((s.pkg.counts.find (3 * 2 ^ 32 + s.obj * 2 ^ 16)).getD 0 + 1)) ∧
    s'.mem = s.mem ∧ s'.threads = s.threads := by
  refine ⟨_, rfl, fun hd => ?_, corrected_mem .., corrected_threads ..⟩
  have hother : 3 * 2 ^ 32 + s.obj * 2 ^ 16 ≠ lifeKey 4 (epDie (faultUnit s.obj)) 0 := by unfold lifeKey; omega
  have hkey : lifeKey 3 s.obj 0 = 3 * 2 ^ 32 + s.obj * 2 ^ 16 := rfl
  rw [← hkey] at hother ⊢
  show NMap.find (NMap.put _ _ _) _ = _
  rw [NMap.find_put_same, corrected_pkg]
  exact congrArg (fun x => some (x.getD 0 + 1)) (NMap.find_put_other _ _ hother)

/-! ### The steps of boot (R172, R173, R372, R373) -/

/-- The step of R172 that BOOTSTAT shows. -/
def bootAt (s : State) : Nat := s.host.bootstat.toNat / 2 ^ 16 % 16

/-- Boot goes on at a step. -/
def BootsOn (s' : State) (x : BootOutcome) (n : Nat) : Prop := s'.host.bootstat = BitVec.ofNat 32 (n * 65536) ∧ s'.host.boot = some x

theorem bootField_eq (s : State) : (s.host.bootstat.extractLsb' 16 4).toNat = bootAt s := by
  simp [bootAt, Nat.shiftRight_eq_div_pow]

/-- Events of boot leave the host port agent as it is. -/
theorem bootsOn_atBootStep {s u : State} {x : BootOutcome} (n : Nat) (hx : s.host.boot = some x) (hu : KeepsHost s u) :
    BootsOn (atBootStep u n) x n := ⟨rfl, (congrArg HostPort.boot hu.host).trans hx⟩

/-- A step at which boot stops is said in BOOTSTAT. -/
theorem halts_haltBoot (s : State) {step code : Nat} (detail : Nat) (hs : step < 16) (hc : code < 256) :
    Halts (haltBoot s step code detail) step code detail := by
  refine ⟨?_, rfl, rfl⟩
  show (BitVec.ofNat 32 _).toNat = _
  rw [BitVec.toNat_ofNat, Nat.mod_eq_of_lt]
  omega

/-- The machine with the dies that harvesting leaves. -/
def harvest (s : State) (x : BootOutcome) : State := { s with dies := (List.range 24).map (fun d => (d, bootDie x d)) }

section
variable {s : State} {x : BootOutcome}

/-- Steps 0, 3 and 6 end with no effect here. -/
theorem bootStep_quiet (h : bootAt s ∈ [0, 3, 6]) : bootStep s x = atBootStep s (bootAt s + 1) := by
  simp only [List.mem_cons, List.not_mem_nil, or_false] at h
  rcases h with h | h | h <;> simp only [bootStep, bootField_eq, h]

/-- Step 1 checks the firmware's image. -/
theorem bootStep_image (h : bootAt s = 1) : bootStep s x = if x.imageOk then atBootStep s 2 else haltBoot s 1 0x86 0 := by
  simp only [bootStep, bootField_eq, h]

/-- Step 2 brings up memory: a stack that fails stops boot, an LPDDR that fails is reported. -/
theorem bootStep_memory_bad {k : Nat} (h : bootAt s = 2) (hk : x.badStack = some k) : bootStep s x = haltBoot s 2 0x86 k := by
  simp only [bootStep, bootField_eq, h, hk]

theorem bootStep_memory (h : bootAt s = 2) (hk : x.badStack = none) :
    bootStep s x = atBootStep (x.badLpddr.foldl (fun s d => s.event (lossUnit s) 7 0x86 2 false d 0) s) 3 := by
  simp only [bootStep, bootField_eq, h, hk]

/-- Step 4 harvests the core dies. -/
theorem bootStep_harvest (h : bootAt s = 4) : bootStep s x = if !(List.range 16).any (harvested x) then haltBoot s 4 0x87 0 else
    atBootStep (harvest s x) 5 := by
  simp only [bootStep, bootField_eq, h, harvest]

/-- Step 5 connects the mesh. -/
theorem bootStep_mesh (h : bootAt s = 5) : bootStep s x = if x.connected then atBootStep s 6 else haltBoot s 5 0x86 0 := by
  simp only [bootStep, bootField_eq, h]

/-- Step 7 trains the ports. -/
theorem bootStep_ports (h : bootAt s = 7) : bootStep s x = atBootStep (x.badPorts.foldl (fun s p => portEvent s p 0x88 2 0) s) 8 := by
  simp only [bootStep, bootField_eq, h]

/-- The last step trains the host port. -/
theorem bootStep_hostPort (h : 8 ≤ bootAt s) :
    bootStep s x = if x.hostPortOk then bootDone s x else s.updHost (fun h => { h with boot := none }) := by
  obtain ⟨n, hn⟩ := Nat.exists_eq_add_of_le' h
  simp only [bootStep, bootField_eq, hn]

/-- Once the host port is trained boot is over. -/
theorem bootDone_host (s : State) (x : BootOutcome) : (bootDone s x).host = { s.host with bootstat := 0x80080000#32, boot := none, links := [s.host.gateway] } :=
  (KeepsHost.foldl _ _ (fun _ _ => keepsHost_event ..) _).host

end

/-! ### Harvesting (R173, R373) -/

theorem harvested_iff (b : BootOutcome) (d : Nat) : harvested b d = true ↔ Stays b d := by
  simp [harvested, Stays, passing, List.countP_eq_length_filter]

/-- Dies stay unless none does. -/
theorem any_harvested_iff (b : BootOutcome) : (List.range 16).any (harvested b) = true ↔ ∃ d, d < 16 ∧ Stays b d := by
  simp [List.any_eq_true, harvested_iff]

/-- Without some of its elements, a list with no repetition is shorter by their number. -/
theorem length_filter_not_contains {α : Type} [DecidableEq α] {l off : List α} (hl : l.Nodup) (ho : off.Nodup) (hs : off ⊆ l) :
    (l.filter (fun c => !off.contains c)).length = l.length - off.length := by
  have hp : (l.filter (fun c => off.contains c)).Perm off :=
    (List.perm_ext_iff_of_nodup (hl.filter _) ho).mpr (fun c => by simpa using fun h => hs h)
  have hsum := List.length_eq_length_filter_add (l := l) (fun c => off.contains c)
  rw [hp.length_eq] at hsum
  omega

/-- Of a die that stays, 72 positions that pass are enabled. -/
theorem enabledAfter_spec {b : BootOutcome} {d : Nat} (h : Stays b d) :
    (enabledAfter b d).length = 72 ∧ ∀ c ∈ enabledAfter b d, (d, c) ∉ b.failing ∧ c < 80 := by
  have hlen : 72 ≤ (passing b d).length := by rw [passing, ← List.countP_eq_length_filter]; exact h.1
  have hnodup : (passing b d).Nodup := List.nodup_range.filter _
  constructor
  · unfold enabledAfter
    dsimp only
    rw [length_filter_not_contains hnodup]
    · simp only [List.length_take, List.length_mergeSort]; omega
    · exact ((List.mergeSort_perm _ _).nodup_iff.mpr hnodup).sublist (List.take_sublist _ _)
    · exact fun c hc => (List.mergeSort_perm _ _).subset (List.take_subset _ _ hc)
  · intro c hc
    have hp : c ∈ passing b d := (List.mem_filter.mp hc).1
    simpa [passing, and_comm] using hp

/-- A table made over a list of keys holds each of them. -/
theorem find_map_of_mem {α : Type} (f : Nat → α) {l : List Nat} {d : Nat} (h : d ∈ l) : NMap.find (l.map (fun d => (d, f d))) d = some (f d) := by
  induction l with
  | nil => cases h
  | cons e l ih =>
    by_cases he : e = d
    · subst he; exact if_pos rfl
    · exact (if_neg he).trans (ih ((List.mem_cons.mp h).resolve_left (Ne.symm he)))

/-- The dies after harvesting. -/
theorem die_harvest (s : State) (b : BootOutcome) {d : Nat} (hd : d < 24) : (harvest s b).die d = bootDie b d :=
  congrArg (·.getD (Die.reset d)) (find_map_of_mem (bootDie b) (List.mem_range.mpr hd))

/-- A die is present after boot where it is a gateway or stays; its incarnation is then 1. -/
theorem bootDie_spec (b : BootOutcome) (d : Nat) : ((bootDie b d).present = true ↔ 16 ≤ d ∨ Stays b d) ∧
    ((bootDie b d).inc = if (bootDie b d).present then 1 else 0) ∧
    (d < 16 → (bootDie b d).present = true → (bootDie b d).enabled.length = 72 ∧ ∀ c ∈ (bootDie b d).enabled, (d, c) ∉ b.failing ∧ c < 80) := by
  have hpresent : (bootDie b d).present = true ↔ 16 ≤ d ∨ Stays b d := by
    show (decide (16 ≤ d) || harvested b d) = true ↔ _
    simp [harvested_iff]
  refine ⟨hpresent, rfl, fun hd hp => ?_⟩
  have he : (bootDie b d).enabled = enabledAfter b d := (if_pos hd).trans (if_pos hp)
  rw [he]
  exact enabledAfter_spec ((hpresent.mp hp).resolve_left (Nat.not_le.mpr hd))

/-- What each step of boot comes to. -/
theorem boot_steps {s : State} {x : BootOutcome} (hx : s.host.boot = some x) : let s' := bootStep s x; let st := bootAt s
    (st ∈ [0, 3, 6, 7] → BootsOn s' x (st + 1)) ∧
    (st = 1 → x.imageOk = true → BootsOn s' x (st + 1)) ∧ (st = 1 → x.imageOk = false → Halts s' 1 0x86 0) ∧
    (st = 2 → x.badStack = none → BootsOn s' x (st + 1)) ∧ (∀ k, st = 2 → x.badStack = some k → Halts s' 2 0x86 k) ∧
    (st = 4 → (∀ d, d < 16 → ¬ Stays x d) → Halts s' 4 0x87 0) ∧
    (st = 4 → (∃ d, d < 16 ∧ Stays x d) → BootsOn s' x (st + 1) ∧ ∀ d, d < 24 → ((s'.die d).present = true ↔ 16 ≤ d ∨ Stays x d) ∧
      ((s'.die d).inc = if (s'.die d).present then 1 else 0) ∧
      (d < 16 → (s'.die d).present = true → (s'.die d).enabled.length = 72 ∧ ∀ c ∈ (s'.die d).enabled, (d, c) ∉ x.failing ∧ c < 80)) ∧
    (st = 5 → x.connected = true → BootsOn s' x (st + 1)) ∧ (st = 5 → x.connected = false → Halts s' 5 0x86 0) ∧
    (8 ≤ st → x.hostPortOk = true → s'.host.bootstat = 0x80080000#32 ∧ s'.host.boot = none ∧ s'.host.links = [s.host.gateway]) ∧
    (8 ≤ st → x.hostPortOk = false → s' = s.updHost (fun h => { h with boot := none })) := by
  have on (n : Nat) : BootsOn (atBootStep s n) x n := bootsOn_atBootStep n hx (.refl s)
  refine ⟨fun h => ?_, fun h hi => ?_, fun h hi => ?_, fun h hk => ?_, fun k h hk => ?_, fun h hd => ?_, fun h hd => ?_, fun h hc => ?_,
    fun h hc => ?_, fun h hp => ?_, fun h hp => ?_⟩
  · by_cases h7 : bootAt s = 7
    · rw [bootStep_ports h7, h7]
      exact bootsOn_atBootStep 8 hx (.foldl _ _ (fun _ _ => keepsHost_event ..) s)
    · rw [bootStep_quiet (by simpa [h7] using h)]
      exact on _
  · rw [bootStep_image h, if_pos hi, h]
    exact on 2
  · rw [bootStep_image h, hi]
    exact halts_haltBoot s 0 (by decide) (by decide)
  · rw [bootStep_memory h hk, h]
    exact bootsOn_atBootStep 3 hx (.foldl _ _ (fun _ _ => keepsHost_event ..) s)
  · rw [bootStep_memory_bad h hk]
    exact halts_haltBoot s k (by decide) (by decide)
  · have hn : (List.range 16).any (harvested x) = false :=
      Bool.eq_false_iff.mpr (mt (any_harvested_iff x).mp (fun ⟨d, hlt, hs⟩ => hd d hlt hs))
    rw [bootStep_harvest h, hn]
    exact halts_haltBoot s 0 (by decide) (by decide)
  · rw [bootStep_harvest h, (any_harvested_iff x).mpr hd, h]
    refine ⟨on 5, fun d hlt => ?_⟩
    have e : (atBootStep (harvest s x) 5).die d = bootDie x d := die_harvest s x hlt
    rw [Bool.not_true, if_neg Bool.false_ne_true, e]
    exact bootDie_spec x d
  · rw [bootStep_mesh h, if_pos hc, h]
    exact on 6
  · rw [bootStep_mesh h, hc]
    exact halts_haltBoot s 0 (by decide) (by decide)
  · rw [bootStep_hostPort h, if_pos hp, bootDone_host]
    exact ⟨rfl, rfl, rfl⟩
  · rw [bootStep_hostPort h, hp]
    rfl

/-! ### The statement -/

/-- Settles O58: each clause by the lemma on its row. -/
theorem hostEventsPowerAndReset : Obligations.HostEventsPowerAndReset := by
  intro s pa n data b h unit
  refine ⟨fun hp => ⟨fun poisoned hg => exec_hostPostedWrite_gone hp hg poisoned, hostRequests_spec s pa n data hp⟩, ?links,
    fun ep off hp hg ht hw => hostPostedWrite_register_waits hp hg ht hw, ?link, rfl, ?events, serviceCoreTakeover_spec s,
    fun ht => congrArg Host.Outcome.next (if_pos ht), fun ht hn => lifetimeFold_due ht hn, ?temperature, ?reset, ?noBoot, ?boot⟩
  case links =>
    exact fun hl => ⟨congrArg Host.Outcome.next (hostAsks_down hl _), fun _ => congrArg Host.Outcome.next (hostAsks_down hl _)⟩
  case link =>
    exact ⟨fun hg => congrArg Host.Outcome.next (linkDown_down hg), fun hg => ⟨_, rfl, linkDown_up hg⟩,
      fun hg => congrArg Host.Outcome.next (linkUp_up hg), fun hg hd => ⟨_, rfl, linkUp_down hg hd⟩⟩
  case events =>
    refine ⟨fun hh he => exec_eventRecordWrite_none hh (arriving_nil he),
      fun e es hh h0 he hc hr hf hb => exec_eventRecordWrite_free hh h0 he hc hr hf hb,
      fun r rest hh hr hf hb => exec_eventRecordWrite_held hh hr hf hb,
      fun e es h0 he hh hc => exec_eventRecordWrite_stale h0 he hh hc,
      fun e e' hh _ he he' hd => exec_eventRecordWrite_none hh (arriving_behind he he' hd),
      fun e es h0 he hc hf => exec_eventRecordWrite_full h0 he hc hf⟩
  case temperature =>
    refine ⟨fun hd => congrArg Host.Outcome.next (throttle_none hd), fun hd hp ht => ⟨_, rfl, throttle_hot hd hp ht⟩, fun ht => ?_, fun ht => ?_,
      ⟨_, rfl, rfl⟩, supplyDroop_counts s⟩
    · rw [exec_temperatureRecover, if_pos ht]
    · rw [exec_temperatureRecover, ht]; rfl
  case reset =>
    exact fun h0 => ⟨bootStart s b, congrArg Host.Outcome.next (if_pos h0), rfl, rfl, rfl, rfl, rfl, rfl, rfl, rfl, rfl⟩
  case noBoot =>
    intro h0 hb
    exact congrArg Host.Outcome.next ((if_neg h0).trans (by rw [hb]))
  case boot =>
    rintro x st h0 hb rfl
    exact ⟨bootStep s x, congrArg Host.Outcome.next ((if_neg h0).trans (by rw [hb])), boot_steps hb⟩

end Sys2Proof.HostLaws
end

section
/-! PROOFS. The execution model (spec/01_execution_model.md): the step (R19, R21). -/

namespace Sys2Proof.ExecutionLaws

open Sys2Proof Sys2Proof.Machine Sys2Proof.Claims

section
variable {s : State} {more : List Turn} (hp : s.powered = true)
include hp

/-- The agenda names an issue group. -/
theorem step_issue {ks : List Nat} (ha : s.agenda = .issue ks :: more) : step s = issueGroup { s with agenda := more } ks := by
  simp [step, hp, ha]

/-- The agenda names an event. -/
theorem step_event {i : Instr} {key : Nat} (ha : s.agenda = .event i key :: more) : step s = runEvent { s with agenda := more } i key := by
  simp [step, hp, ha]

/-- With an empty agenda the first event happens. -/
theorem step_firstEvent {r : Host.Outcome State Fault Refusal} (ha : s.agenda = []) (he : firstEvent s (autoEvents s) = some r) : step s = r := by
  simp [step, hp, ha, he]

/-- Without one a group issues, or a cycle passes. -/
theorem step_issueNext (ha : s.agenda = []) (he : firstEvent s (autoEvents s) = none) : step s = issueNext (settleAll issueGroup s) := by
  simp [step, hp, ha, he]

end

/-- An issue group runs the instruction that the words of its first thread decode to. -/
theorem issueGroup_of_standsAt {u : State} {all ks : List Nat} {k : Nat} {i : Instr} (hk : oneGroup u all = k :: ks) (hi : standsAt u k i) :
    issueGroup u all = thenState (exec i { u with cur := k :: ks }) (afterIssue u (k :: ks) (isHeader i)) := by
  obtain ⟨t, ws, rest, ht, hw, hd⟩ := hi
  have hc : chosen { u with cur := k :: ks } = .run { u with cur := k :: ks } i := by
    unfold chosen
    rw [show (k :: ks).head?.bind (State.thread { u with cur := k :: ks }) = some t from ht]
    dsimp only
    rw [hw]
    dsimp only
    rw [hd]
  simp only [issueGroup, hk, hc]

/-- Settles O5: the branches of a step, an issue by the words of the group's first thread. -/
theorem stepRunsTheDecodedInstruction : Obligations.StepRunsTheDecodedInstruction := by
  intro s all k ks i more
  refine ⟨fun hp => ⟨fun ha hk hi => ?agenda, fun ha he => ⟨fun hn hk hi => ?next, fun hn => ?tick⟩, fun key ha => ?named, fun r ha he => ?event⟩,
    fun hp => ⟨fun ha => ?idle, fun b ha => ?reset⟩⟩
  case agenda =>
    rw [step_issue hp ha]
    exact issueGroup_of_standsAt hk hi
  case next =>
    rw [step_issueNext hp ha he]
    simp only [issueNext, hn]
    exact issueGroup_of_standsAt hk hi
  case tick =>
    rw [step_issueNext hp ha he]
    simp only [issueNext, hn]
  case named =>
    rw [step_event hp ha]
    rfl
  case event => exact step_firstEvent hp ha he
  case idle => simp [step, hp, idleStep, ha]
  case reset =>
    simp only [step, hp, idleStep, ha]
    rfl

end Sys2Proof.ExecutionLaws
end

section
/-! PROOFS. The execution model: an issue group's lanes, and what the record of an issue leaves behind (R21, R211). -/

namespace Sys2Proof.ExecutionLaws

open Sys2Proof Sys2Proof.Machine Sys2Proof.Claims

/-- A lane opcode runs its effect in every lane of the issue group in turn. -/
theorem exec_laneOp {op : LongOp} (o : Long) (h : laneOp op) : ∃ eff : State → Nat → Thread → Out,
    ∀ s, exec (op.instr o) s = .next (restop (s.cur.foldl (laneStep op o o.bytes (word0 op o) eff) s)) := by
  cases op
  case vote | shfl | scan | redg | twmma => exact absurd h (by simp [laneOp])
  all_goals exact ⟨_, fun s => rfl⟩

/-- Only threads, and of cores only the mark of the cycle's issue and the performance counters, have changed. -/
structure IssueRecorded (s s' : State) : Prop where
  rest : { s' with threads := s.threads, cores := s.cores } = s
  cores : ∀ ep, { s'.core ep with issued := (s.core ep).issued, perf := (s.core ep).perf } = s.core ep

namespace IssueRecorded

theorem refl (s : State) : IssueRecorded s s := ⟨rfl, fun _ => rfl⟩

theorem trans {s u v : State} (h : IssueRecorded s u) (k : IssueRecorded u v) : IssueRecorded s v := by
  refine ⟨?_, fun ep => ?_⟩
  · rw [← h.rest, ← k.rest]
  · rw [← h.cores ep, ← k.cores ep]

theorem updThread (s : State) (k : Nat) (f : Thread → Thread) : IssueRecorded s (s.updThread k f) := ⟨rfl, fun _ => rfl⟩

/-- A change of a core's mark and counters. -/
theorem updCore (s : State) (ep : Nat) {f : Core → Core} (hf : ∀ c, { f c with issued := c.issued, perf := c.perf } = c) :
    IssueRecorded s (s.updCore ep f) := by
  refine ⟨rfl, fun e => ?_⟩
  by_cases h : e = ep
  · subst h; rw [State.core_updCore_same]; exact hf _
  · rw [State.core_updCore_other _ _ h]

theorem perfCount (s : State) (ep code n : Nat) : IssueRecorded s (perfCount s ep code n) := by
  unfold Machine.perfCount
  dsimp only
  split
  · exact refl s
  · exact updCore s ep (fun _ => rfl)

theorem foldl {α : Type} (l : List α) (f : State → α → State) (h : ∀ s x, IssueRecorded s (f s x)) (s : State) : IssueRecorded s (l.foldl f s) :=
  List.foldlRecOn l f (refl s) (fun u hu x _ => hu.trans (h u x))

end IssueRecorded

/-- Counting touches no thread. -/
theorem threads_perfCount (s : State) (ep code n : Nat) : (perfCount s ep code n).threads = s.threads := by
  unfold perfCount
  dsimp only
  split <;> rfl

/-- Counting the threads that were descheduled touches no thread. -/
theorem threads_countDescheduled (b : State) (ks : List Nat) (s : State) : (countDescheduled b ks s).threads = s.threads := by
  refine List.foldlRecOn (motive := fun u : State => u.threads = s.threads) ks _ rfl (fun u hu k _ => ?_)
  split
  · split
    · exact (threads_perfCount ..).trans hu
    · exact hu
  · exact hu

theorem issueRecorded_countDescheduled (b : State) (ks : List Nat) (s : State) : IssueRecorded s (countDescheduled b ks s) := by
  refine IssueRecorded.foldl _ _ (fun u k => ?_) s
  split
  · split
    · exact .perfCount ..
    · exact .refl u
  · exact .refl u

/-- A fold of idempotent changes, each of its own thread. -/
theorem thread_foldl_updThread (g : Nat → Thread → Thread) (hg : ∀ k t, g k (g k t) = g k t) (ks : List Nat) (s : State) (j : Nat) :
    (ks.foldl (fun s k => s.updThread k (g k)) s).thread j = (s.thread j).map (fun t => if j ∈ ks then g j t else t) := by
  induction ks generalizing s with
  | nil => simp
  | cons k ks ih =>
    rw [List.foldl_cons, ih]
    by_cases hj : j = k
    · subst hj
      rw [State.thread_updThread_same, Option.map_map]
      congr 1
      funext t
      by_cases hm : j ∈ ks <;> simp [hm, hg]
    · rw [State.thread_updThread_other _ _ hj]
      simp [hj]

/-- The header's turn of a thread: settled once, it is settled. -/
def headerSettled (moved : List Nat) (k : Nat) (t : Thread) : Thread := if moved.contains k then { t with atHeader := none } else backToHeader t

theorem backToHeader_backToHeader (t : Thread) : backToHeader (backToHeader t) = backToHeader t := by
  unfold backToHeader
  cases hc : t.clause <;> cases ha : t.atHeader <;> simp [hc, ha]

theorem headerSettled_headerSettled (moved : List Nat) (k : Nat) (t : Thread) :
    headerSettled moved k (headerSettled moved k t) = headerSettled moved k t := by
  unfold headerSettled
  split
  · rfl
  · exact backToHeader_backToHeader t

/-- Going back to the header has nothing to do with the record of the last issue. -/
theorem unissued_backToHeader (t : Thread) : unissued (backToHeader t) = backToHeader (unissued t) := by
  unfold backToHeader
  cases hc : t.clause <;> cases ha : t.atHeader <;> simp [unissued, hc, ha]

theorem unissued_headerSettled (moved : List Nat) (k : Nat) (t : Thread) :
    unissued (headerSettled moved k t) = headerSettled moved k (unissued t) := by
  unfold headerSettled
  split
  · rfl
  · exact unissued_backToHeader t

theorem settleHeader_eq (moved : List Nat) : settleHeader moved = fun s k => s.updThread k (headerSettled moved k) := rfl

/-- The threads of the issue that have moved on. -/
def movedOn (b s : State) (ks : List Nat) (h : Bool) : List Nat := if h then [] else ks.filter (progressed b s)

/-- Threads marked as having issued. -/
def threadsMarked (l : List Nat) (s : State) : State :=
  l.foldl (fun s k => s.updThread k (fun t => { t with lastIssue := s.now t, overdue := none })) s

/-- Those threads, and their core, marked as having issued. -/
def issueMarked (b s : State) (ks : List Nat) (h : Bool) : State :=
  let moved := movedOn b s ks h
  let s1 := threadsMarked moved s
  match moved.head?.bind b.thread with
  | some t =>
    let s2 := s1.updCore t.core (fun c => { c with issued := true })
    perfCount (perfCount s2 t.core 1 1) t.core 2 moved.length
  | none => s1

/-- The state after an issue but for the issue group and the agenda. -/
def issueSettled (b s : State) (ks : List Nat) (h : Bool) : State :=
  countDescheduled b ks (if h then issueMarked b s ks h else ks.foldl (settleHeader (movedOn b s ks h)) (issueMarked b s ks h))

theorem afterIssue_eq (b s : State) (ks : List Nat) (h : Bool) : afterIssue b ks h s =
    { issueSettled b s ks h with
      cur := []
      agenda := if (entered b s ks).isEmpty then (issueMarked b s ks h).agenda else .issue (entered b s ks) :: (issueMarked b s ks h).agenda } := rfl

theorem threads_issueMarked (b s : State) (ks : List Nat) (h : Bool) : (issueMarked b s ks h).threads = (threadsMarked (movedOn b s ks h) s).threads := by
  unfold issueMarked
  dsimp only
  split
  · rw [threads_perfCount, threads_perfCount, State.updCore_threads]
  · rfl

theorem issueRecorded_issueMarked (b s : State) (ks : List Nat) (h : Bool) : IssueRecorded s (issueMarked b s ks h) := by
  have hs : IssueRecorded s (threadsMarked (movedOn b s ks h) s) := .foldl _ _ (fun u k => .updThread u k _) s
  unfold issueMarked
  dsimp only
  split
  · rename_i t _
    have hc := IssueRecorded.updCore (threadsMarked (movedOn b s ks h) s) t.core (f := fun c => { c with issued := true }) (fun _ => rfl)
    exact ((hs.trans hc).trans (.perfCount ..)).trans (.perfCount ..)
  · exact hs

theorem issueRecorded_issueSettled (b s : State) (ks : List Nat) (h : Bool) : IssueRecorded s (issueSettled b s ks h) := by
  refine (issueRecorded_issueMarked b s ks h).trans (IssueRecorded.trans ?_ (issueRecorded_countDescheduled ..))
  split
  · exact .refl _
  · exact .foldl _ _ (fun u k => .updThread u k _) _

/-- The threads that have moved on are marked as having issued, and nothing else of a thread. -/
theorem unissued_threadsMarked (l : List Nat) (s : State) (j : Nat) :
    ((threadsMarked l s).thread j).map unissued = (s.thread j).map unissued := by
  refine List.foldlRecOn (motive := fun u => (State.thread u j).map unissued = (s.thread j).map unissued) l _ rfl (fun u hu k _ => ?_)
  by_cases hj : j = k
  · subst hj
    rw [State.thread_updThread_same, Option.map_map, ← hu]
    rfl
  · rw [State.thread_updThread_other _ _ hj, hu]

/-- What an issue leaves of a thread. -/
theorem unissued_issueSettled (b s : State) (ks : List Nat) (h : Bool) (j : Nat) :
    ((issueSettled b s ks h).thread j).map unissued =
      (s.thread j).map (fun t => unissued (if h ∨ j ∉ ks then t else headerSettled (movedOn b s ks h) j t)) := by
  have hm : ((issueMarked b s ks h).thread j).map unissued = (s.thread j).map unissued := by
    have e : (issueMarked b s ks h).thread j = State.thread _ j := congrArg (NMap.find · j) (threads_issueMarked ..)
    rw [e]
    exact unissued_threadsMarked _ s j
  have e : (issueSettled b s ks h).thread j = State.thread _ j := congrArg (NMap.find · j) (threads_countDescheduled ..)
  rw [e]
  cases h with
  | true => simpa using hm
  | false =>
    rw [if_neg Bool.false_ne_true, settleHeader_eq, thread_foldl_updThread (headerSettled (movedOn b s ks false)) (headerSettled_headerSettled _), Option.map_map]
    by_cases hj : j ∈ ks
    · have hc : (unissued ∘ fun t => if j ∈ ks then headerSettled (movedOn b s ks false) j t else t) =
          headerSettled (movedOn b s ks false) j ∘ unissued := by
        funext t; simp [hj, unissued_headerSettled]
      rw [hc, ← Option.map_map, hm, Option.map_map]
      congr 1
      funext t
      simp [hj, unissued_headerSettled]
    · simpa [hj, Function.comp_def] using hm

/-- The statement's two ends of a header are the model's. -/
theorem headerSettled_movedOn {b s : State} {ks : List Nat} {j : Nat} (hj : j ∈ ks) (t : Thread) :
    headerSettled (movedOn b s ks false) j t = if progressed b s j then { t with atHeader := none } else backAtHeader t := by
  have hc : (movedOn b s ks false).contains j = progressed b s j := by simp [movedOn, hj]
  rw [headerSettled, hc]
  rfl

/-- Settles O9: the lanes in turn, and the frame of an issue's record. -/
theorem issueGroupsExecuteLaneByLane : Obligations.IssueGroupsExecuteLaneByLane := by
  refine ⟨fun op o h => exec_laneOp o h, fun b s ks h => ?_⟩
  have hr := issueRecorded_issueSettled b s ks h
  have hm := issueRecorded_issueMarked b s ks h
  have hrest {α : Type} (f : State → α) (hf : ∀ u, f { u with threads := s.threads, cores := s.cores } = f u) : f (issueSettled b s ks h) = f s :=
    (hf _).symm.trans (congrArg f hr.rest)
  rw [afterIssue_eq]
  refine ⟨rfl, ?agenda, hrest (·.mem) fun _ => rfl, hrest (·.empty) fun _ => rfl, hrest (·.groups) fun _ => rfl, hrest (·.teams) fun _ => rfl,
    hrest (·.packets) fun _ => rfl, hrest (·.events) fun _ => rfl, hrest (·.dies) fun _ => rfl, hrest (·.slices) fun _ => rfl,
    hrest (·.pkg) fun _ => rfl, hrest (·.host) fun _ => rfl, fun j => ?thread, fun ep => hr.cores ep⟩
  case agenda =>
    have ha : (issueMarked b s ks h).agenda = s.agenda := congrArg (·.agenda) hm.rest
    rw [← ha]
  case thread =>
    refine (unissued_issueSettled b s ks h j).trans ?_
    congr 1
    funext t
    by_cases hc : h = true ∨ j ∉ ks
    · rw [if_pos hc, if_pos hc]
    · obtain ⟨hh, hj⟩ := not_or.mp hc
      obtain rfl : h = false := Bool.not_eq_true h ▸ hh
      rw [if_neg hc, if_neg hc, ← headerSettled_movedOn (not_not.mp hj)]

end Sys2Proof.ExecutionLaws
end

section
/-! PROOFS. The course of lanes: what settling, halting and YH leave of the threads, groups whose lanes compute in their own threads, and YIELD and
EXIT (R18, R21, R42, R204, R208, R247). -/

namespace Sys2Proof.ExecutionLaws

open Sys2Proof Sys2Proof.Machine Sys2Proof.Claims

/-! ### What changes nothing but threads -/

/-- Everything that is no thread is unchanged. -/
def OnlyThreads (s s' : State) : Prop := { s' with threads := s.threads } = s

namespace OnlyThreads

theorem refl (s : State) : OnlyThreads s s := rfl

theorem trans {s u v : State} (h : OnlyThreads s u) (k : OnlyThreads u v) : OnlyThreads s v := by
  have e : { v with threads := s.threads } = { u with threads := s.threads } := congrArg (fun x : State => { x with threads := s.threads }) k
  exact e.trans h

theorem updThread (s : State) (k : Nat) (f : Thread → Thread) : OnlyThreads s (s.updThread k f) := rfl

theorem foldl {α : Type} (l : List α) (f : State → α → State) (h : ∀ s x, OnlyThreads s (f s x)) (s : State) : OnlyThreads s (l.foldl f s) :=
  List.foldlRecOn l f (refl s) (fun u hu x _ => hu.trans (h u x))

/-- What does not read the threads is the same. -/
theorem congr {s s' : State} {α : Type} (h : OnlyThreads s s') (f : State → α) (hf : ∀ u l, f { u with threads := l } = f u) : f s' = f s :=
  (hf s' s.threads).symm.trans (congrArg f h)

end OnlyThreads

/-! ### Threads of a halted team stop at the end of the instruction (R28, R386) -/

theorem onlyThreads_restop (s : State) : OnlyThreads s (restop s) := by
  refine .foldl _ _ (fun u k => ?_) s
  split
  · exact .refl u
  · split
    · exact .updThread ..
    · exact .refl u

/-- What stopping leaves of a thread, an issue leaves. -/
theorem map_thread_restop {β : Type} (g : Thread → β) (hg : ∀ t, g t.stop = g t) (s : State) (j : Nat) :
    ((restop s).thread j).map g = (s.thread j).map g := by
  refine List.foldlRecOn (motive := fun u : State => (u.thread j).map g = (s.thread j).map g) s.cur _ rfl (fun u hu k _ => ?_)
  split
  · exact hu
  · split
    · by_cases hj : j = k
      · subst hj
        rw [State.thread_updThread_same, Option.map_map, show g ∘ Thread.stop = g from funext hg, hu]
      · rw [State.thread_updThread_other _ _ hj, hu]
    · exact hu

/-- A thread that has not issued does not stop. -/
theorem thread_restop_other {s : State} {j : Nat} (hj : j ∉ s.cur) : (restop s).thread j = s.thread j := by
  refine List.foldlRecOn (motive := fun u : State => u.thread j = s.thread j) s.cur _ rfl (fun u hu k hk => ?_)
  split
  · exact hu
  · split
    · rw [State.thread_updThread_other _ _ (by rintro rfl; exact hj hk), hu]
    · exact hu

/-- Where no team of the issue group is halted nothing stops. -/
theorem restop_eq_self {s : State} (h : ∀ k ∈ s.cur, ∀ t, s.thread k = some t → (s.team t.team).halted = false) : restop s = s := by
  refine List.foldlRecOn (motive := (· = s)) s.cur _ rfl (fun u hu k hk => ?_)
  subst hu
  split
  · rfl
  · rename_i t ht
    rw [if_neg (by simp [h k hk t ht])]

/-- The same for one thread that issues. -/
theorem restop_lone {s : State} {k : Nat} {t : Thread} (hc : s.cur = [k]) (ht : s.thread k = some t) (hh : (s.team t.team).halted = false) :
    restop s = s :=
  restop_eq_self fun j hj u hu => by
    obtain rfl : j = k := by simpa [hc] using hj
    obtain rfl := Option.some.inj (ht.symm.trans hu)
    exact hh

@[simp] theorem Thread.stop_still (t : Thread) : t.stop.still = t.still := by
  unfold Thread.stop
  split <;> rfl

@[simp] theorem Thread.stop_pc (t : Thread) : t.stop.pc = t.pc := by
  unfold Thread.stop
  split <;> rfl

/-! ### The arrival times that YH renews (R208) -/

theorem still_of_untimed {t u : Thread} (h : t.untimed = u.untimed) : t.still = u.still := by
  have e : t.untimed.still = u.untimed.still := congrArg Thread.still h
  exact e

theorem pc_of_untimed {t u : Thread} (h : t.untimed = u.untimed) : t.pc = u.pc := by
  have e : t.untimed.pc = u.untimed.pc := congrArg Thread.pc h
  exact e

/-- A thread found but for its time of arrival. -/
theorem exists_of_untimed {s s' : State} {k : Nat} {t : Thread} (h : (s'.thread k).map Thread.untimed = (s.thread k).map Thread.untimed)
    (ht : s.thread k = some t) : ∃ u, s'.thread k = some u ∧ u.untimed = t.untimed := by
  rw [ht] at h
  exact Option.map_eq_some_iff.mp h

/-- A renewed entry changes no thread but in its time of arrival. -/
theorem untimed_touchEntry (s : State) (k j : Nat) : ((touchEntry s k).thread j).map Thread.untimed = (s.thread j).map Thread.untimed := by
  unfold touchEntry
  split
  · rfl
  · rename_i t _
    have h := NMap.find_map s.threads (fun _ u =>
      if u.core == t.core && u.pc == t.pc && (s.team u.team).asid == (s.team t.team).asid then { u with arrival := s.now t, touch := false } else u) j
    have e : (s.threads.map fun p => (p.1, if p.2.core == t.core && p.2.pc == t.pc && (s.team p.2.team).asid == (s.team t.team).asid then
        { p.2 with arrival := s.now t, touch := false } else p.2)) = s.threads.map (fun p =>
        if p.2.core == t.core && p.2.pc == t.pc && (s.team p.2.team).asid == (s.team t.team).asid then
          (p.1, { p.2 with arrival := s.now t, touch := false }) else p) :=
      List.map_congr_left fun p _ => by split <;> rfl
    show Option.map _ (NMap.find _ j) = Option.map _ (NMap.find s.threads j)
    rw [← e, h, Option.map_map]
    congr 1
    funext u
    dsimp only [Function.comp_apply]
    split <;> rfl

theorem onlyThreads_touchEntry (s : State) (k : Nat) : OnlyThreads s (touchEntry s k) := by
  unfold touchEntry
  split <;> rfl

theorem untimed_arriveHeld (s : State) (k j : Nat) : ((arriveHeld s k).thread j).map Thread.untimed = (s.thread j).map Thread.untimed := by
  unfold arriveHeld
  split
  · rfl
  · split
    · exact untimed_touchEntry s k j
    · rfl

theorem onlyThreads_arriveHeld (s : State) (k : Nat) : OnlyThreads s (arriveHeld s k) := by
  unfold arriveHeld
  split
  · exact .refl s
  · split
    · exact onlyThreads_touchEntry s k
    · exact .refl s

/-! ### A lane that goes on -/

theorem onlyThreads_settle_go (op : LongOp) (o : Long) (t : Thread) (k : Nat) (s : State) : OnlyThreads s (settle op o t k (.go s)) := by
  simp only [settle]
  split
  · exact (OnlyThreads.updThread ..).trans (onlyThreads_touchEntry ..)
  · exact .updThread ..

/-- A lane that goes on is past its instruction. -/
theorem untimed_settle_go (op : LongOp) (o : Long) (t : Thread) (k : Nat) (s : State) :
    ((settle op o t k (.go s)).thread k).map Thread.untimed =
      (s.thread k).map (fun u => ((u.kept op o t).advance (s.now t)).untimed) := by
  have h : ((s.updThread k (fun u => (u.kept op o t).advance (s.now t))).thread k).map Thread.untimed =
      (s.thread k).map (fun u => ((u.kept op o t).advance (s.now t)).untimed) := by
    rw [State.thread_updThread_same, Option.map_map]; rfl
  simp only [settle]
  split
  · exact (untimed_touchEntry ..).trans h
  · exact h

/-- Every other thread is as it was, but for its time of arrival. -/
theorem untimed_settle_go_other (op : LongOp) (o : Long) (t : Thread) {k j : Nat} (s : State) (hj : j ≠ k) :
    ((settle op o t k (.go s)).thread j).map Thread.untimed = (s.thread j).map Thread.untimed := by
  have h : ((s.updThread k (fun u => (u.kept op o t).advance (s.now t))).thread j).map Thread.untimed = (s.thread j).map Thread.untimed := by
    rw [State.thread_updThread_other _ _ hj]
  simp only [settle]
  split
  · exact (untimed_touchEntry ..).trans h
  · exact h

/-! ### Groups whose lanes compute in their own threads -/

/-- The instruction executes in a lane whose thread is t. -/
def runsIn (op : LongOp) (o : Long) (s : State) (t : Thread) : Bool :=
  t.skip != some t.pc && (fieldTrap op o 0#32 t.sr.priv (s.team t.team).regs).isNone && !memberFault s t op o && !owedPred t op o &&
    guardHolds t o && (owed t (usedRegs op o)).isEmpty && (badRead t op o).isNone

/-- It does not depend on the time of the thread's arrival. -/
theorem laneRuns_eq (op : LongOp) (o : Long) (s : State) (k : Nat) :
    laneRuns op o s k = ((s.thread k).map Thread.untimed).elim false (runsIn op o s) := by
  unfold laneRuns
  cases s.thread k <;> rfl

/-- An effect in the lane's own thread that neither reads nor sets its course. -/
structure Inner (f : Thread → Thread) : Prop where
  still : ∀ t, (f t).still = f t.still
  after : ∀ t, (f t).after = t.after

theorem kept_still (op : LongOp) (o : Long) (u t : Thread) : (u.kept op o t).still = u.still.kept op o t.still := by
  unfold Thread.kept
  split <;> rfl

theorem kept_after (op : LongOp) (o : Long) (u t : Thread) : (u.kept op o t).after = u.after := by
  unfold Thread.kept
  split <;> rfl

section
variable {op : LongOp} {o : Long} {len : Nat} {w0 : Word} {f : Thread → Thread} (hf : Inner f)
include hf

/-- One lane: what it leaves of its thread, of the others and of the rest. -/
theorem laneStep_inner {s : State} {k : Nat} {t : Thread} (ht : s.thread k = some t) (hr : laneRuns op o s k = true) :
    let s' := laneStep op o len w0 (pureLane f) s k
    OnlyThreads s s' ∧ (∃ u, s'.thread k = some u ∧ u.still = ((f t).kept op o t).still ∧ u.pc = t.pc + BitVec.ofNat 64 len) ∧
      ∀ j, j ≠ k → (s'.thread j).map Thread.untimed = (s.thread j).map Thread.untimed := by
  intro s'
  let s1 := (s.began k t len).updThread k f
  have hs : s' = settle op o (t.begun len) k (.go s1) := laneStep_runs len w0 (pureLane f) ht hr
  have h1 : s1.thread k = some (f (t.begun len)) := by simp [s1, State.began, ht]
  have hone : OnlyThreads s s1 := rfl
  refine ⟨hs ▸ hone.trans (onlyThreads_settle_go ..), ?_, fun j hj => ?_⟩
  · have h := untimed_settle_go op o (t.begun len) k s1
    rw [← hs, h1, Option.map_some, Option.map_eq_some_iff] at h
    obtain ⟨u, hu, he⟩ := h
    refine ⟨u, hu, ?_, ?_⟩
    · calc u.still = (((f (t.begun len)).kept op o (t.begun len)).advance (s1.now (t.begun len))).still := still_of_untimed he
        _ = ((f (t.begun len)).kept op o (t.begun len)).still := rfl
        _ = ((f t).kept op o t).still := by rw [kept_still, kept_still, hf.still, hf.still t]; rfl
    · calc u.pc = ((f (t.begun len)).kept op o (t.begun len)).after := pc_of_untimed he
        _ = t.pc + BitVec.ofNat 64 len := by rw [kept_after, hf.after]; rfl
  · rw [hs, untimed_settle_go_other _ _ _ _ hj]
    simp [s1, State.began, State.thread_updThread_other _ _ hj]

/-- All lanes in turn. -/
theorem foldl_laneStep_inner {ks : List Nat} {s : State} (hn : ks.Nodup) (hr : ∀ k ∈ ks, laneRuns op o s k = true) :
    let s' := ks.foldl (laneStep op o len w0 (pureLane f)) s
    OnlyThreads s s' ∧
    (∀ k ∈ ks, ∀ t, s.thread k = some t → ∃ u, s'.thread k = some u ∧ u.still = ((f t).kept op o t).still ∧ u.pc = t.pc + BitVec.ofNat 64 len) ∧
    ∀ j, j ∉ ks → (s'.thread j).map Thread.untimed = (s.thread j).map Thread.untimed := by
  induction ks generalizing s with
  | nil => exact ⟨.refl s, by simp, fun _ _ => rfl⟩
  | cons k ks ih =>
    obtain ⟨hk, hn⟩ := List.nodup_cons.mp hn
    have hrk := hr k List.mem_cons_self
    obtain ⟨t, ht⟩ : ∃ t, s.thread k = some t := Option.ne_none_iff_exists'.mp (fun h => by simp [laneRuns, h] at hrk)
    obtain ⟨hrest, ⟨u, hu, hstill, hpc⟩, hother⟩ := laneStep_inner (w0 := w0) (len := len) hf ht hrk
    have hr' : ∀ j ∈ ks, laneRuns op o (laneStep op o len w0 (pureLane f) s k) j = true := fun j hj => by
      rw [laneRuns_eq, hother j (by rintro rfl; exact hk hj), hrest.congr (runsIn op o) (fun _ _ => rfl), ← laneRuns_eq]
      exact hr j (List.mem_cons_of_mem _ hj)
    obtain ⟨ihRest, ihIn, ihOut⟩ := ih hn hr'
    refine ⟨hrest.trans ihRest, fun j hj v hv => ?_, fun j hj => ?_⟩
    · rcases List.mem_cons.mp hj with rfl | hjs
      · obtain rfl := Option.some.inj (ht.symm.trans hv)
        obtain ⟨x, hx, he⟩ := exists_of_untimed (ihOut j hk) hu
        exact ⟨x, hx, (still_of_untimed he).trans hstill, (pc_of_untimed he).trans hpc⟩
      · have hjk : j ≠ k := by rintro rfl; exact hk hjs
        obtain ⟨x, hx, he⟩ := exists_of_untimed (hother j hjk) hv
        obtain ⟨y, hy, hys, hyp⟩ := ihIn j hjs x hx
        refine ⟨y, hy, ?_, by rw [hyp, pc_of_untimed he]⟩
        rw [hys, kept_still, kept_still, hf.still, hf.still v, still_of_untimed he]
    · obtain ⟨hjk, hjs⟩ := not_or.mp (mt List.mem_cons.mpr hj)
      rw [List.foldl_cons, ihOut j hjs, hother j hjk]

/-- A row whose lanes compute in their own threads. -/
theorem computes_inner {i : Instr} (hi : ∀ s, exec i s = .next (restop (s.cur.foldl (laneStep op o len w0 (pureLane f)) s))) :
    Computes i op o len (fun _ => f) := by
  intro s ⟨hn, hr⟩
  obtain ⟨hrest, hin, hout⟩ := foldl_laneStep_inner (w0 := w0) (len := len) hf hn hr
  have hcur : (s.cur.foldl (laneStep op o len w0 (pureLane f)) s).cur = s.cur := hrest.congr (·.cur) (fun _ _ => rfl)
  refine ⟨_, hi s, hrest.trans (onlyThreads_restop _), fun k hk t ht => ?_, fun j hj => ?_⟩
  · obtain ⟨u, hu, hs, hp⟩ := hin k hk t ht
    have hstop := map_thread_restop (fun t => (t.still, t.pc)) (fun t => by simp) (s.cur.foldl (laneStep op o len w0 (pureLane f)) s) k
    rw [hu, Option.map_some, Option.map_eq_some_iff] at hstop
    obtain ⟨v, hv, he⟩ := hstop
    obtain ⟨hvs, hvp⟩ := Prod.mk.inj he
    exact ⟨v, hv, hvs.trans hs, hvp.trans hp⟩
  · rw [thread_restop_other (by rw [hcur]; exact hj)]
    exact hout j hj

end

/-! ### NOP, YIELD and EXIT -/

/-- A row that runs as a long instruction, where one thread issues alone. -/
theorem alone_of_runLong {i : Instr} {op : LongOp} {o : Long} {cond : State → Nat → Thread → Prop} {body eff : State → Nat → Thread → Out}
    (hi : ∀ s, exec i s = runLong op o body s)
    (he : ∀ s k t, Lone op o s k t → cond s k t → body (s.began k t o.bytes) k (t.begun o.bytes) = eff (s.began k t o.bytes) k (t.begun o.bytes)) :
    Alone i op o o.bytes cond eff := fun s k t hl hc => by
  rw [hi, runLong_lone body hl, he s k t hl hc]

/-- The same of a short form. -/
theorem alone_of_runShort {i : Instr} {op : LongOp} {o : Long} {w : Word} {cond : State → Nat → Thread → Prop} {body eff : State → Nat → Thread → Out}
    (hi : ∀ s, exec i s = runShort op o w body s)
    (he : ∀ s k t, Lone op o s k t → cond s k t → body (s.began k t 4) k (t.begun 4) = eff (s.began k t 4) k (t.begun 4)) :
    Alone i op o 4 cond eff := fun s k t hl hc => by
  rw [hi, runShort_lone w body hl, he s k t hl hc]

/-- With no register owed and no job EXIT ends the thread. -/
theorem effExit_of_exitCond {o : Long} {s : State} {k : Nat} {t : Thread} (len : Nat) (h : exitCond s k t) :
    effExit o (s.began k t len) k (t.begun len) = .done (exitThread (s.began k t len) k) := by
  obtain ⟨hr, hj⟩ := h
  have hr' : owesRegister (t.begun len) = false := hr
  have hj' : (t.begun len).job = none := hj
  simp only [effExit, hr', hj', Bool.false_eq_true, if_false]

/-- An effect that does nothing is the identity in the lane's thread. -/
theorem effNop_eq (o : Long) : effNop o = pureLane id := by
  funext s k t
  simp [effNop, pureLane, State.updThread, NMap.adjust]

/-- Settles O25: NOP computes nothing, YIELD and EXIT by their effects. -/
theorem nopYieldAndExitSetTheThreadsCourse : Obligations.NopYieldAndExitSetTheThreadsCourse := by
  intro o
  refine ⟨computes_inner (f := id) (w0 := wordS 0x12#6 0#6 0#9 0#9) ⟨fun _ => rfl, fun _ => rfl⟩ fun s => ?_,
    alone_of_runLong (fun _ => rfl) (fun _ _ _ _ _ => rfl), alone_of_runShort (fun _ => rfl) (fun _ _ _ _ _ => rfl),
    alone_of_runLong (fun _ => rfl) (fun _ _ _ _ h => effExit_of_exitCond _ h),
    alone_of_runShort (fun _ => rfl) (fun _ _ _ _ h => effExit_of_exitCond _ h)⟩
  rw [← effNop_eq longZero]
  rfl

end Sys2Proof.ExecutionLaws
end

section
/-! PROOFS. Rejoin masks: the instructions, and what a mask does when its enrolled lanes have all arrived (R25, R241, R242, R384). -/

namespace Sys2Proof.ExecutionLaws

open Sys2Proof Sys2Proof.Machine Sys2Proof.Claims

/-! ### The instructions -/

/-- A thread that issues alone is the highest lane of its group that executes the mask write. -/
theorem lastWriter_lone {op : LongOp} {o : Long} {s : State} {k : Nat} {t : Thread} (len : Nat) (h : Lone op o s k t) :
    lastWriter o (s.began k t len) (t.begun len) = true := by
  obtain ⟨hc, ht, -⟩ := h
  have hc' : (s.began k t len).cur = [k] := hc
  have ht' : (s.began k t len).thread k = some (t.begun len) := by simp [State.began, ht]
  simp [lastWriter, hc', ht']

/-- KMOV of a thread that issues alone. -/
theorem effKmov_lone {o : Long} {s : State} {k : Nat} {t : Thread} (len : Nat) (h : Lone .kmov o s k t) :
    effKmov o (s.began k t len) k (t.begun len) = kmovDid o (s.began k t len) k (t.begun len) := by
  simp only [effKmov, kmovDid, lastWriter_lone len h, if_true]
  split <;> simp_all [Group.mask]

/-- WAITK by the statement's words. -/
theorem effWaitk_eq (m : Nat) (s : State) (k : Nat) (t : Thread) : effWaitk m s k t = waitkDid m s k t := by
  unfold effWaitk waitMask waitkDid
  dsimp only
  by_cases h : ((s.group t.group).masks.getD m default).enrolled.getLsbD t.lane = true
  · rw [if_neg (by simpa [Group.mask] using h), if_pos h]
    rfl
  · rw [if_pos (by simpa [Group.mask] using h), if_neg h]

/-! ### A complete mask -/

theorem maskCheck_incomplete {s : State} {g k : Nat} (h : allArrived ((s.group g).mask k) = false) : maskCheck s g k = s := by
  have hc : (((s.group g).mask k).arrived == 0#32 || ((s.group g).mask k).arrived != ((s.group g).mask k).enrolled) = true := by
    simp only [allArrived, Bool.and_eq_false_iff, bne_eq_false_iff_eq, beq_eq_false_iff_ne] at h
    simpa using h
  simp only [maskCheck]
  rw [if_pos hc]

/-- A lane goes on past its WAITK. -/
def released (s : State) (p : Nat × Thread) : State := arriveHeld (s.updThread p.1 (fun t => t.advance (s.now t))) p.1

/-- What a mask does once its enrolled lanes have all arrived. -/
theorem maskCheck_complete {s : State} {g k : Nat} (h : allArrived ((s.group g).mask k) = true) :
    maskCheck s g k =
      let m := (s.group g).mask k
      let ls := lanesOf s g m.arrived
      if ls.all (fun p => p.2.state == .maskWait k false) then
        joinLanes (ls.foldl released (s.updGroup g (fun g => g.setMask k { m with arrived := 0#32 }))) (ls.map (·.1))
      else if ls.all (fun p => p.2.state == .maskWait k true) && (ls.map (fun p => p.2.pc)).all (fun a => a == (ls.map (fun p => p.2.pc)).headD 0#64) then s
      else maskConflict s g k := by
  have hc : (((s.group g).mask k).arrived == 0#32 || ((s.group g).mask k).arrived != ((s.group g).mask k).enrolled) = false := by
    simp only [allArrived, Bool.and_eq_true, bne_iff_ne, beq_iff_eq] at h
    simpa using h
  simp only [maskCheck]
  rw [if_neg (by simp [hc])]
  rfl

/-- The lanes all wait at one group-wide instruction. -/
theorem all_at_one_iff (ls : List (Nat × Thread)) (k : Nat) :
    (ls.all (fun p => p.2.state == .maskWait k true) && (ls.map (fun p => p.2.pc)).all (fun a => a == (ls.map (fun p => p.2.pc)).headD 0#64)) = true ↔
      ∀ p ∈ ls, p.2.state = .maskWait k true ∧ ∀ q ∈ ls, q.2.pc = p.2.pc := by
  cases ls with
  | nil => simp
  | cons q ls =>
    simp only [Bool.and_eq_true, List.all_eq_true, beq_iff_eq, List.map_cons, List.headD_cons, List.mem_cons, List.mem_map, forall_eq_or_imp, forall_exists_index,
      and_imp, forall_apply_eq_imp_iff₂]
    constructor
    · rintro ⟨⟨h0, hs⟩, -, hp⟩
      exact ⟨⟨h0, trivial, hp⟩, fun p hm => ⟨hs p hm, (hp p hm).symm, fun r hr => (hp r hr).trans (hp p hm).symm⟩⟩
    · rintro ⟨⟨h0, -, hp⟩, hs⟩
      exact ⟨⟨h0, fun p hm => (hs p hm).1⟩, trivial, hp⟩

/-! ### The release of the lanes at a WAITK (R25) -/

theorem advance_untimed_congr {t u : Thread} (h : t.untimed = u.untimed) (a b : Nat) : (t.advance a).untimed = (u.advance b).untimed := by
  have e : (t.untimed.advance 0).untimed = (u.untimed.advance 0).untimed := congrArg (fun x : Thread => (x.advance 0).untimed) h
  exact e

theorem onlyThreads_released (s : State) (p : Nat × Thread) : OnlyThreads s (released s p) :=
  (OnlyThreads.updThread ..).trans (onlyThreads_arriveHeld ..)

theorem untimed_released_same (s : State) (p : Nat × Thread) :
    ((released s p).thread p.1).map Thread.untimed = (s.thread p.1).map (fun t => (t.advance 0).untimed) := by
  rw [released, untimed_arriveHeld, State.thread_updThread_same, Option.map_map]
  rfl

theorem untimed_released_other (s : State) {p : Nat × Thread} {j : Nat} (h : j ≠ p.1) :
    ((released s p).thread j).map Thread.untimed = (s.thread j).map Thread.untimed := by
  rw [released, untimed_arriveHeld, State.thread_updThread_other _ _ h]

/-- A list of lanes is released, each once. -/
theorem untimed_foldl_released {ls : List (Nat × Thread)} (hn : (ls.map (·.1)).Nodup) (s : State) (j : Nat) :
    ((ls.foldl released s).thread j).map Thread.untimed =
      (s.thread j).map (fun t => if j ∈ ls.map (·.1) then (t.advance 0).untimed else t.untimed) := by
  induction ls generalizing s with
  | nil => simp
  | cons p ls ih =>
    obtain ⟨hp, hn⟩ := List.nodup_cons.mp hn
    rw [List.foldl_cons, ih hn]
    by_cases hj : j = p.1
    · subst hj
      have h := untimed_released_same s p
      simp only [hp, if_false, List.map_cons, List.mem_cons, true_or, if_true]
      exact h
    · by_cases hm : j ∈ ls.map (·.1)
      · have h := untimed_released_other s hj
        simp only [hm, if_true, List.map_cons, List.mem_cons, or_true]
        cases hs : s.thread j with
        | none => rw [hs] at h; simpa using h
        | some t =>
          obtain ⟨u, hu, he⟩ := exists_of_untimed h hs
          simp [hu, advance_untimed_congr he 0 0]
      · simpa [hm, hj] using untimed_released_other s hj

/-- Lanes that leave a mask together. -/
theorem thread_joinLanes (s : State) (ks : List Nat) (j : Nat) :
    (joinLanes s ks).thread j = (s.thread j).map (fun t => if j ∈ ks then { t with joined := some s.fresh } else t) :=
  thread_foldl_updThread (fun _ t => { t with joined := some s.fresh }) (fun _ _ => rfl) ks { s with fresh := s.fresh + 1 } j

theorem untimed_joinLanes (s : State) (ks : List Nat) (j : Nat) :
    ((joinLanes s ks).thread j).map Thread.untimed =
      ((s.thread j).map Thread.untimed).map (fun t => if j ∈ ks then { t with joined := some s.fresh } else t) := by
  rw [thread_joinLanes, Option.map_map, Option.map_map]
  congr 1
  funext t
  by_cases h : j ∈ ks
  · simp only [Function.comp_apply, h, if_true]; rfl
  · simp [h]

/-- Releasing changes no mask. -/
theorem groups_joinLanes (s : State) (ks : List Nat) : (joinLanes s ks).groups = s.groups :=
  List.foldlRecOn (motive := fun u : State => u.groups = s.groups) ks _ rfl (fun _ h _ _ => h)

/-- A changed mask reads as changed. -/
theorem mask_updGroup_setMask {s : State} {g k : Nat} (hg : (s.groups.find g).isSome) (hk : k < (s.group g).masks.length) (m : Mask) :
    ((s.updGroup g (fun x => x.setMask k m)).group g).mask k = m := by
  obtain ⟨x, hx⟩ := Option.isSome_iff_exists.mp hg
  have he : s.group g = x := by simp [State.group, hx]
  rw [he] at hk
  have h : (s.updGroup g (fun x => x.setMask k m)).group g = x.setMask k m := by
    show (NMap.find (NMap.adjust s.groups g (fun x => x.setMask k m)) g).getD default = _
    rw [NMap.find_adjust_same, hx]
    rfl
  rw [h]
  simp [Group.mask, Group.setMask, hk]

section
variable {s : State} {g k : Nat}

/-- Lanes that all wait at WAITKs are released (R25). -/
theorem maskCheck_release (ha : allArrived ((s.group g).mask k) = true)
    (hw : ∀ p ∈ lanesOf s g ((s.group g).mask k).arrived, p.2.state = .maskWait k false) :
    maskCheck s g k = joinLanes ((lanesOf s g ((s.group g).mask k).arrived).foldl released
      (s.updGroup g (fun x => x.setMask k { (s.group g).mask k with arrived := 0#32 }))) ((lanesOf s g ((s.group g).mask k).arrived).map (·.1)) := by
  rw [maskCheck_complete ha]
  exact if_pos (by simpa using hw)

/-- Some lane does not wait at a WAITK. -/
theorem not_all_waitk {ls : List (Nat × Thread)} (h : ∃ p ∈ ls, p.2.state ≠ .maskWait k false) :
    ¬ ls.all (fun p => p.2.state == .maskWait k false) = true := by
  obtain ⟨p, hp, hs⟩ := h
  exact fun ha => hs (by simpa using List.all_eq_true.mp ha p hp)

/-- Lanes that all wait at one group-wide instruction stay (R26). -/
theorem maskCheck_wide (ha : allArrived ((s.group g).mask k) = true) (hn : lanesOf s g ((s.group g).mask k).arrived ≠ [])
    (hw : ∀ p ∈ lanesOf s g ((s.group g).mask k).arrived, p.2.state = .maskWait k true ∧
      ∀ q ∈ lanesOf s g ((s.group g).mask k).arrived, q.2.pc = p.2.pc) : maskCheck s g k = s := by
  obtain ⟨p, hp⟩ := List.exists_mem_of_ne_nil _ hn
  rw [maskCheck_complete ha]
  dsimp only
  rw [if_neg (not_all_waitk ⟨p, hp, by simp [(hw p hp).1]⟩), if_pos ((all_at_one_iff _ k).mpr hw)]

/-- Other lanes are in conflict (R384). -/
theorem maskCheck_conflict (ha : allArrived ((s.group g).mask k) = true)
    (hn : ∃ p ∈ lanesOf s g ((s.group g).mask k).arrived, p.2.state ≠ .maskWait k false)
    (hw : ∃ p ∈ lanesOf s g ((s.group g).mask k).arrived, p.2.state ≠ .maskWait k true ∨
      ∃ q ∈ lanesOf s g ((s.group g).mask k).arrived, q.2.pc ≠ p.2.pc) : maskCheck s g k = maskConflict s g k := by
  obtain ⟨p, hp, hw⟩ := hw
  rw [maskCheck_complete ha]
  dsimp only
  rw [if_neg (not_all_waitk hn), if_neg]
  intro h
  obtain ⟨hs, hq⟩ := (all_at_one_iff _ k).mp h p hp
  rcases hw with hw | ⟨q, hm, hne⟩
  · exact hw hs
  · exact hne (hq q hm)

end

/-- Settles O23: the instructions by their effects, a mask by what its lanes wait at. -/
theorem maskInstructionsEnrolLeaveWaitAndMove : Obligations.MaskInstructionsEnrolLeaveWaitAndMove := by
  refine ⟨fun o m => ⟨alone_of_runLong (fun _ => rfl) fun _ _ _ _ _ => rfl, alone_of_runLong (fun _ => rfl) fun _ _ _ _ _ => rfl,
      alone_of_runLong (fun _ => rfl) fun _ _ _ _ _ => effWaitk_eq .., alone_of_runLong (fun _ => rfl) fun _ _ _ h _ => effKmov_lone _ h,
      alone_of_runShort (fun _ => rfl) fun _ _ _ _ _ => rfl, alone_of_runShort (fun _ => rfl) fun _ _ _ _ _ => rfl,
      alone_of_runShort (fun _ => rfl) fun _ _ _ _ _ => effWaitk_eq ..⟩, fun s g k => ?_⟩
  intro m ls
  refine ⟨maskCheck_incomplete, fun ha hw hn hg hk => ?release, fun ha hn hw => maskCheck_wide ha hn hw, fun ha hn hw => maskCheck_conflict ha hn hw⟩
  rw [maskCheck_release ha hw]
  have hrest : OnlyThreads (s.updGroup g (fun x => x.setMask k { m with arrived := 0#32 })) (ls.foldl released
      (s.updGroup g (fun x => x.setMask k { m with arrived := 0#32 }))) := .foldl _ _ onlyThreads_released _
  have hfresh : (ls.foldl released (s.updGroup g (fun x => x.setMask k { m with arrived := 0#32 }))).fresh = s.fresh :=
    hrest.congr (·.fresh) (fun _ _ => rfl)
  have hthread (j : Nat) : ((joinLanes (ls.foldl released (s.updGroup g (fun x => x.setMask k { m with arrived := 0#32 }))) (ls.map (·.1))).thread j).map
      Thread.untimed = (s.thread j).map (fun t => if j ∈ ls.map (·.1) then { t.advance 0 with joined := some s.fresh }.untimed else t.untimed) := by
    rw [untimed_joinLanes, untimed_foldl_released hn, hfresh, Option.map_map]
    refine Option.map_congr fun t _ => ?_
    by_cases h : j ∈ ls.map (·.1)
    · simp only [Function.comp_apply, h, if_true]; rfl
    · simp only [Function.comp_apply, h, if_false]
  refine ⟨?_, fun p hp ht => ?_, fun j hj => ?_⟩
  · have hgroups := hrest.congr (fun u => (u.groups.find g).getD default) (fun _ _ => rfl)
    have h := mask_updGroup_setMask hg hk { m with arrived := 0#32 }
    show Group.mask ((NMap.find (joinLanes _ _).groups g).getD default) k = _
    rw [groups_joinLanes]
    exact (congrArg (Group.mask · k) hgroups).trans h
  · rw [hthread, ht, Option.map_some, if_pos (List.mem_map_of_mem hp)]
    rfl
  · rw [hthread]
    simp only [hj, if_false]

end Sys2Proof.ExecutionLaws
end

section
/-! PROOFS. A group-wide instruction at which a lane waits that is to stop (R26, R28). -/

namespace Sys2Proof.ExecutionLaws

open Sys2Proof Sys2Proof.Machine Sys2Proof.Claims

/-- The lane of a team that executes VOTE last: lane 0 of group 2. -/
def lastLane : Thread := mkThread 0 0 2 1 4 0 0x10004#64 0#64 (startSpecials true 0#64 0#64 0) 0

/-- A lane that waits for it there, and that is to stop when its wait ends (R28). -/
def stoppingLane : Thread := { lastLane with lane := 1, state := .maskWait 0 true, after := 0x10010#64, stopping := true }

/-- The two lanes are those enrolled in mask 0 of their group; the second has arrived. -/
def stoppingState : State :=
  { State.reset with
    cur := [10]
    threads := [(10, lastLane), (11, stoppingLane)]
    groups := [(2, { mkGroup 1 0 0 2 with masks := [{ enrolled := 3#32, arrived := 2#32 }] })]
    teams := [(1, mkTeam 0 0 0 0 0 1 4 1)] }

/-- The thread under a key after an instruction. -/
def threadAfter (i : Instr) (s : State) (k : Nat) : Option Thread :=
  match exec i s with
  | .next s' => s'.thread k
  | _ => none

/-- The lane stops where the statement has it Runnable. -/
theorem stoppingLane_stops : (threadAfter (LongOp.vote.instr longZero) stoppingState 11).map (·.state) = some .stopped := by decide +kernel

theorem stoppingState_lanes : lanesOf stoppingState 2 3#32 = [(10, lastLane), (11, stoppingLane)] := by decide +kernel

/-- Refutes O24: a lane that waits at the instruction and is to stop at the end of its wait (R28) does not go on Runnable, it enters Stopped. -/
theorem not_groupWideOperationsExecuteWhenAllHaveArrived : ¬ Obligations.GroupWideOperationsExecuteWhenAllHaveArrived := by
  intro h
  have hl : LoneWide .vote longZero stoppingState 10 lastLane := by
    refine ⟨rfl, rfl, ?_, ?_, ?_, ?_, ?_, ?_, rfl, rfl⟩ <;> decide +kernel
  obtain ⟨-, hall, -⟩ := h .vote (by decide) longZero stoppingState 10 lastLane hl
  obtain ⟨s', he, -, hlanes⟩ := hall (by decide) rfl rfl (by decide) [(10, lastLane), (11, stoppingLane)] stoppingState_lanes.symm (by decide) (by simp)
    (by decide) (by
      intro p hp
      rcases List.mem_cons.mp hp with rfl | hp
      · exact ⟨rfl, .inl rfl⟩
      · obtain rfl := List.mem_singleton.mp hp
        exact ⟨rfl, .inr ⟨rfl, rfl, rfl⟩⟩)
  obtain ⟨u, hu, -, hrun, -⟩ := hlanes (11, stoppingLane) (by simp)
  have hstop := stoppingLane_stops
  rw [threadAfter, he] at hstop
  simp only [hu, Option.map_some, hrun] at hstop
  cases hstop

end Sys2Proof.ExecutionLaws
end

section
/-! PROOFS. TWMMA of a lane that is not enrolled (R27, R306, R307). -/

namespace Sys2Proof.ExecutionLaws

open Sys2Proof Sys2Proof.Machine Sys2Proof.Claims

theorem thread_began {s : State} {k : Nat} {t : Thread} (len : Nat) (ht : s.thread k = some t) : (s.began k t len).thread k = some (t.begun len) := by
  simp [State.began, ht]

/-- A lane that is not enrolled executes a group-wide instruction alone, and goes on past it where its effect leaves it there (R26). -/
theorem runWide_alone {op : LongOp} {o : Long} {s : State} {k : Nat} {t u : Thread} (len : Nat) (w0 : Word) {apply : State → List Nat → State}
    (h : LoneWide op o s k t) (hg : guardHolds t o = true) (ha : ((s.group t.group).mask o.c.toNat).enrolled.getLsbD t.lane = false)
    (hu : (apply (s.began k t len) [k]).thread k = some u) :
    runWide op o len w0 apply s =
      restop (if u.state == .runnable && u.sr.intrap == t.sr.intrap && u.pc + BitVec.ofNat 64 len == u.after then
        settle op o (t.begun len) k (.go (apply (s.began k t len) [k])) else apply (s.began k t len) [k]) := by
  obtain ⟨hcur, ht, hstate, hskip, hfield, hpred, howed, hbad, -, -⟩ := h
  have hfield' : fieldTrap op o w0 true (s.team (t.begun len).team).regs = none := by
    have e := fieldTrap_isNone op o w0 0#32 true (s.team t.team).regs
    rw [hfield] at e
    exact Option.isNone_iff_eq_none.mp e
  have hskip' : ¬ (t.begun len).skip = some (t.begun len).pc := hskip
  have hpred' : owedPred (t.begun len) op o = false := hpred
  have howed' : owed (t.begun len) (usedRegs op o) = [] := howed
  have hbad' : badRead (t.begun len) op o = none := hbad
  have hg' : guardHolds (t.begun len) o = true := hg
  have ha' : (((s.began k t len).group (t.begun len).group).mask o.c.toNat).enrolled.getLsbD (t.begun len).lane = false := ha
  have hpc : (t.begun len).pc = t.pc := rfl
  have hpriv : (t.begun len).sr = t.sr := rfl
  have hb := thread_began len ht
  unfold State.began at *
  unfold runWide
  simp only [hcur, List.foldl_cons, List.foldl_nil, ht, hskip', hfield', hpred', howed', hbad', hg', ha', hb]
  simp only [hpc, Option.map_some, Bool.false_or, bne_self_eq_false, Bool.false_eq_true, if_false, if_true, List.isEmpty_nil,
    Bool.not_true, Bool.and_false, Option.isSome_none, Bool.not_false, Bool.or_true, hu, hg', hpriv, beq_eq_false_iff_ne.mpr hstate]

/-! ### The effect -/

/-- With nothing in its way the lane arrives. -/
theorem runTwmma_ready {o : Long} {s : State} {k : Nat} {t : Thread} (hc : s.cur = [k]) (ht : s.thread k = some t) (hr : twmmaReady o t = true) :
    runTwmma o s = runWide .twmma o o.bytes (word0 .twmma o) (applyTwmma o) s := by
  have hs : { s with cur := [k] } = s := by rw [← hc]
  simp [runTwmma, hc, ht, hr, hs, word0]

theorem twmmaReady_of_free {o : Long} {t : Thread} (hfull : flagFull t (flagOf t o.fs) = false) (hb : noBuilds t) (hp : t.polls = false)
    (ha : t.awaits (fun p => p.acquire.isSome) = false) (hf : t.fence = none) : twmmaReady o t = true := by
  have hb' : buildsPending t = false := by
    simp only [buildsPending, List.any_eq_false, Bool.or_eq_true, beq_iff_eq, not_or]
    exact hb
  simp [twmmaReady, hfull, hb', hp, ha, hf]

/-- The operation that owes a TWMMA's result to its lane. -/
def twmmaOp (o : Long) (t : Thread) (boff : Nat) : Op :=
  { mkOp t o with dst := some (o.d.toNat, runD o), size := 4 * runD o, reads := true, info := BitVec.ofNat 64 boff }

/-- The product of one lane as it waits for the array. -/
def twmmaWave (s : State) (o : Long) (k lk : Nat) (t : Thread) : WaveTask :=
  { team := lk, boff := (src32 t o .b).toNat, lanes := [(t.lane, k, s.fresh)], o := o, rows := [srcRun t o .a (runA o)]
    accs := if o.m4.getLsbD 2 then [regRun t o.d.toNat 32] else [], book := (s.team lk).books.getD o.e.toNat 0#256 }

section
variable {o : Long} {s : State} {k lk : Nat} {t : Thread}

/-- A region outside the column window traps (R350). -/
theorem applyTwmma_outside (ht : s.thread k = some t) (hl : lendingTeam s t.team = some lk)
    (hw : (s.team lk).columnSize < (src32 t o .b).toNat + 4 * widthOf (o.p5.toNat % 16)) :
    applyTwmma o s [k] = takeTrap s k (trapAt 0x41 (firstWord .twmma o) t.pc) := by
  simp [applyTwmma, ht, hl, hw]

/-- Inside it the runs wait for the array. -/
theorem applyTwmma_inside (ht : s.thread k = some t) (hl : lendingTeam s t.team = some lk)
    (hw : ¬ (s.team lk).columnSize < (src32 t o .b).toNat + 4 * widthOf (o.p5.toNat % 16)) :
    applyTwmma o s [k] =
      (addOp s k (twmmaOp o t (src32 t o .b).toNat)).1.updCore t.core (fun c => { c with waves := c.waves ++ [twmmaWave s o k lk t] }) := by
  simp only [applyTwmma, List.filterMap_cons, List.filterMap_nil, ht, Option.map_some]
  rw [hl]
  dsimp only
  rw [if_neg hw]
  rfl

end

/-! ### A thread that has taken a trap -/

/-- A stopped thread that is stopped stays stopped. -/
theorem stopped_foldl_stop {s : State} {k : Nat} {u : Thread} (l : List Nat) (hu : s.thread k = some u) (hs : u.state = .stopped) :
    ∃ v, (l.foldl (fun s j => s.updThread j Thread.stop) s).thread k = some v ∧ v.state = .stopped := by
  refine List.foldlRecOn (motive := fun x : State => ∃ v, x.thread k = some v ∧ v.state = .stopped) l _ ⟨u, hu, hs⟩ (fun x hx j _ => ?_)
  obtain ⟨v, hv, hs⟩ := hx
  by_cases hj : k = j
  · subst hj
    exact ⟨v.stop, by simp [hv], by simp [Thread.stop, hs]⟩
  · exact ⟨v, by rw [State.thread_updThread_other _ _ hj, hv], hs⟩

theorem threads_trapEvent (s : State) (core : Nat) (x : Trap) : (trapEvent s core x).threads = s.threads := by
  unfold trapEvent
  split
  · rfl
  · split <;> rfl

/-- A thread whose trap cannot be delivered (R386). -/
def undelivered (x : Trap) (t : Thread) : Thread :=
  let t' := trapRegs t x
  { t' with
    sr := { t'.sr with trapCause := 0x0E#32, info0 := BitVec.ofNat 64 x.code, epc := t.sr.epc }
    atTrap := t.atTrap
    state := .stopped }

/-- A trap stops its thread, or the thread is then inside its handler and was in none before. -/
theorem thread_takeTrap {s : State} {k : Nat} {t : Thread} (x : Trap) (ht : s.thread k = some t) :
    ∃ u, (takeTrap s k x).thread k = some u ∧ (u.state = .stopped ∨ (u.sr.intrap = true ∧ t.sr.intrap = false)) := by
  unfold takeTrap
  rw [ht]
  dsimp only
  split
  · obtain ⟨v, hv, hs⟩ := stopped_foldl_stop _
      (show (s.updThread k (undelivered x)).thread k = some (undelivered x t) by simp [ht]) rfl
    exact ⟨v, hv, .inl hs⟩
  · rename_i h
    refine ⟨enterTrap (handler (s.core t.core)) t x, ?_, .inr ⟨rfl, by simp at h; exact h.1⟩⟩
    show NMap.find (trapEvent _ _ _).threads k = _
    rw [threads_trapEvent]
    exact (State.thread_updThread_same ..).trans (by rw [ht]; rfl)

/-! ### The statement -/

section
variable (t : Thread) (f : Option Nat)
@[simp] theorem Thread.raise_pc : (t.raise f).pc = t.pc := by unfold Thread.raise; split <;> rfl
@[simp] theorem Thread.raise_after : (t.raise f).after = t.after := by unfold Thread.raise; split <;> rfl
@[simp] theorem Thread.raise_state : (t.raise f).state = t.state := by unfold Thread.raise; split <;> rfl
@[simp] theorem Thread.raise_regs : (t.raise f).regs = t.regs := by unfold Thread.raise; split <;> rfl
@[simp] theorem Thread.raise_sr : (t.raise f).sr = t.sr := by unfold Thread.raise; split <;> rfl
@[simp] theorem Thread.raise_ops : (t.raise f).ops = t.ops := by unfold Thread.raise; split <;> rfl
end

/-- An operation joins those of its thread under the next key. -/
theorem thread_addOp {s : State} {k : Nat} {t : Thread} (p : Op) (ht : s.thread k = some t) :
    (addOp s k p).1.thread k = some ({ t with ops := t.ops.put s.fresh { p with issued := s.ticks } }.raise p.flag) :=
  (State.thread_updThread_same { s with fresh := s.fresh + 1 } k _).trans (congrArg (Option.map _) ht)

@[simp] theorem kept_regs (op : LongOp) (o : Long) (u t : Thread) : (u.kept op o t).regs = u.regs := by
  unfold Thread.kept
  split <;> rfl

@[simp] theorem kept_ops (op : LongOp) (o : Long) (u t : Thread) : (u.kept op o t).ops = u.ops := by
  unfold Thread.kept
  split <;> rfl

theorem stop_course (t : Thread) : (t.stop.pc, t.stop.regs, t.stop.ops) = (t.pc, t.regs, t.ops) := by
  unfold Thread.stop
  split <;> rfl

/-- A lane that goes on has its registers and operations as its effect leaves them. -/
theorem restop_settle_go {op : LongOp} {o : Long} {t u : Thread} {k : Nat} {s : State} (hu : s.thread k = some u) :
    ∃ v, (restop (settle op o t k (.go s))).thread k = some v ∧ v.pc = u.after ∧ v.regs = u.regs ∧ v.ops = u.ops := by
  have h := untimed_settle_go op o t k s
  rw [hu, Option.map_some, Option.map_eq_some_iff] at h
  obtain ⟨w, hw, he⟩ := h
  have hstop := map_thread_restop (fun t => (t.pc, t.regs, t.ops)) stop_course (settle op o t k (.go s)) k
  rw [hw, Option.map_some, Option.map_eq_some_iff] at hstop
  obtain ⟨v, hv, hve⟩ := hstop
  have hwe : (w.pc, w.regs, w.ops) = (u.after, u.regs, u.ops) := by
    have e : (w.untimed.pc, w.untimed.regs, w.untimed.ops) = _ := congrArg (fun x : Thread => (x.pc, x.regs, x.ops)) he
    have e' : (w.untimed.pc, w.untimed.regs, w.untimed.ops) = ((u.kept op o t).after, (u.kept op o t).regs, (u.kept op o t).ops) := e
    rwa [kept_after, kept_regs, kept_ops] at e'
  obtain ⟨hpc, hrest⟩ := Prod.mk.inj (hve.trans hwe)
  obtain ⟨hregs, hops⟩ := Prod.mk.inj hrest
  exact ⟨v, hv, hpc, hregs, hops⟩

/-- Nothing but threads, after that. -/
theorem onlyThreads_restop_settle_go (op : LongOp) (o : Long) (t : Thread) (k : Nat) (s : State) :
    OnlyThreads s (restop (settle op o t k (.go s))) :=
  (onlyThreads_settle_go ..).trans (onlyThreads_restop _)

/-- Settles O38: the lane executes alone, and its product waits for the array or traps. -/
theorem twmmaTakesItsRunsToTheArray : Obligations.TwmmaTakesItsRunsToTheArray := by
  intro o s k lk t hl hg hfull hb hp ha hf hlend hm boff n
  have hn : n = runA o := by
    clear * -
    by_cases h16 : typeBits o.ty = 16
    · simp [n, runA, h16]
    · by_cases h8 : typeBits o.ty = 8
      · simp [n, runA, h8]
      · simp only [n, runA, if_neg h16, if_neg h8]
  have ⟨hc, ht, _⟩ := hl
  have hbegun := thread_began o.bytes ht
  have hrun : exec (.twmma o) s = .next (runWide .twmma o o.bytes (word0 .twmma o) (applyTwmma o) s) :=
    congrArg Host.Outcome.next (runTwmma_ready hc ht (twmmaReady_of_free hfull hb hp ha hf))
  have hwidth : widthOf (o.p5.toNat % 16) = typeBits (o.p5.setWidth 4) := by
    unfold widthOf
    congr 1
    apply BitVec.eq_of_toNat_eq
    simp
  refine ⟨fun hw => ?_, fun hw => ?_⟩
  · have happ : applyTwmma o (s.began k t o.bytes) [k] = takeTrap (s.began k t o.bytes) k (trapAt 0x41 ((word0 .twmma o).setWidth 64) t.pc) :=
      applyTwmma_outside (t := t.begun o.bytes) hbegun hlend (by rw [hwidth]; exact hw)
    obtain ⟨u, hu, hcase⟩ := thread_takeTrap (trapAt 0x41 ((word0 .twmma o).setWidth 64) t.pc) hbegun
    rw [hrun, runWide_alone _ _ hl hg hm (happ ▸ hu), if_neg, happ]
    rcases hcase with h | ⟨h, h'⟩
    · simp [h]
    · have h'' : t.sr.intrap = false := h'
      simp [h, h'']
  · have happ := applyTwmma_inside (o := o) hbegun hlend (by rw [hwidth]; exact Nat.not_lt.mpr hw)
    have hthread : (applyTwmma o (s.began k t o.bytes) [k]).thread k = _ :=
      (congrArg (State.thread · k) happ).trans (thread_addOp (twmmaOp o (t.begun o.bytes) boff) hbegun)
    rw [hrun, runWide_alone _ _ hl hg hm hthread, if_pos (by simp [Thread.begun])]
    obtain ⟨v, hv, hpc, hregs, hops⟩ := restop_settle_go (op := .twmma) (o := o) (t := t.begun o.bytes) hthread
    have hcore := (onlyThreads_restop_settle_go .twmma o (t.begun o.bytes) k (applyTwmma o (s.began k t o.bytes) [k])).congr
      (fun x => (x.core t.core).waves) (fun _ _ => rfl)
    refine ⟨_, v, { twmmaOp o (t.begun o.bytes) boff with issued := s.ticks }, rfl, hv, ?_, ?_, ?_, rfl, rfl, ?_⟩
    · rw [hpc, Thread.raise_after]; rfl
    · rw [hregs, Thread.raise_regs]; rfl
    · rw [hops, Thread.raise_ops]; exact NMap.find_put_same _ _ _
    · rw [hcore, happ, hn]
      exact congrArg Core.waves (State.core_updCore_same ..)

end Sys2Proof.ExecutionLaws
end

section
/-! PROOFS. A TLBI whose release still has a write-back on its way to another package (R66, R342). -/

namespace Sys2Proof.ExecutionLaws

open Sys2Proof Sys2Proof.Machine Sys2Proof.Claims

/-- The thread stands at a TLBI; its die has a write-back under way to another package. -/
def releasingState : State :=
  { State.reset with
    cur := [10]
    threads := [(10, lastLane)]
    teams := [(1, mkTeam 0 0 0 0 0 1 4 1)]
    dies := State.reset.dies.adjust 0 (fun d => { d with farWrites := [(0, 0, 0)] }) }

/-- The TLBI waits for it where it stands. -/
theorem tlbi_waits_releasing : (threadAfter (.tlbi longZero) releasingState 10).map (·.pc) = some lastLane.pc := by decide +kernel

/-- Refutes O44: a TLBI releases first (R342), so while a write-back to another package is under way it waits (R66); the statement, which leaves that
premise out, has it go on. -/
theorem not_systemInstructionsActOnTheMachine : ¬ Obligations.SystemInstructionsActOnTheMachine := by
  intro h
  obtain ⟨-, -, -, -, htlbi, -⟩ := h longZero
  have hl : Lone .tlbi longZero releasingState 10 lastLane := ⟨rfl, rfl, by decide +kernel⟩
  have hf : Free lastLane longZero false true := ⟨rfl, rfl, rfl, rfl, fun _ => rfl, fun _ => rfl⟩
  have hwait := tlbi_waits_releasing
  rw [threadAfter, htlbi _ _ _ hl hf] at hwait
  exact absurd hwait (by decide +kernel)

end Sys2Proof.ExecutionLaws
end

section
/-! PROOFS. Rows of which a state shows more than their statement says: a refusal to a requester in another package (R143, R410), a cluster of which some teams
have retired (R445), and an abort of a team whose threads have exited (R387). -/

namespace Sys2Proof.ExecutionLaws

open Sys2Proof Sys2Proof.Machine Sys2Proof.Claims

/-! ### A full/empty wait of a requester in another package -/

/-- What is found under a key is listed. -/
theorem mem_of_find {α : Type} {m : NMap α} {k : Nat} {x : α} (h : m.find k = some x) : (k, x) ∈ m := by
  induction m with
  | nil => cases h
  | cons p m ih =>
    rw [NMap.find] at h
    split at h
    · next hk => exact List.mem_cons.mpr (.inl (by cases h; rw [← hk]))
    · exact List.mem_cons_of_mem _ (ih h)

/-- A packet of this package that is no control packet is listed under the next fresh key. -/
theorem find_packets_inject {s : State} {p : Packet} (hc : p.cls ≠ 0) (hd : epPackage p.dst = Config.package) :
    ∃ q, (s.inject p).packets.find s.fresh = some q ∧ q.seq = p.seq := by
  have hc' : (p.cls == 0) = false := by simpa using hc
  simp only [State.inject, hc', hd, Bool.false_and, beq_self_eq_true, Bool.false_eq_true, if_false, if_true]
  exact ⟨_, NMap.find_put_same .., rfl⟩

/-- An access of another package, of SEQ 5, that waits in the retry list of die 16. -/
def farRetry : Retry := { order := 0, src := 0, thread := farThread, op := 5, loc := 0, access := .take 4 false, since := 0 }

/-- It has waited its limit. -/
def farWaitState : State :=
  { State.reset with
    obj := farThread
    time := 1024
    threads := [(farThread, lastLane)]
    dies := State.reset.dies.adjust 16 (fun d => { d with retry := [farRetry], fewait := 1#32 }) }

/-- Its refusal carries the SEQ by which the requester tells it apart. -/
theorem farWait_refusal_seq : ∀ p ∈ (feTimeout farWaitState farThread).packets, p.2.seq = 5 := by decide +kernel

/-- Refutes O48: the refusal of a full/empty wait that has run out carries the SEQ of a requester in another package (R143); the statement has the packet
without one. -/
theorem not_operationsMissesAndWaitsEnd : ¬ Obligations.OperationsMissesAndWaitsEnd := by
  intro h
  obtain ⟨-, -, -, -, -, -, -, -, -, -, -, htime, -⟩ := h farWaitState farThread 0 lastLane default rfl (by decide)
  obtain ⟨s', info, he, -, s1, hs, -, -⟩ := htime farRetry rfl rfl (by decide +kernel) rfl (by decide) (by decide +kernel) (by decide +kernel)
  obtain ⟨q, hq, hseq⟩ := find_packets_inject (s := s1) (p := mkPacket 2 0x22 (homeEndpoint farRetry.loc) farRetry.src 1 (.refusal 0x28 info farThread farRetry.op))
    (by simp [mkPacket]) (show epPackage farRetry.src = Config.package by decide)
  have hout : feTimeout farWaitState farThread = s' := by
    injection he
  rw [← hs, ← hout] at hq
  have h5 := farWait_refusal_seq _ (mem_of_find hq)
  rw [hseq] at h5
  cases h5

/-! ### A cluster that runs again -/

/-- A grid of one cluster of one team, which had retired when the cluster's die was lost. -/
def skippingGrid : Grid := { (default : Grid) with dies := 1, dimx := 1, dimy := 1, dimz := 1, cw := 1, ch := 1, again := [0], skip := [0] }

/-- Its cluster may start on core 0. -/
def skippingState : State :=
  { State.reset with
    grids := [(0, skippingGrid)]
    dies := State.reset.dies.adjust 0 (fun d => { d with enabled := [0] }) }

theorem skippingState_hasRoom : (chooseRect skippingState skippingGrid).isSome = true := by decide +kernel

/-- With the start the team is no longer to be left out. -/
theorem skippingState_started : ((startCluster skippingState 0).grids.find 0).map (·.skip) = some [] := by decide +kernel

/-- Refutes O49: of a cluster that runs again the teams that had retired are not started (R445), and the grid forgets them; the statement starts every team and
changes nothing of the grid but the count. -/
theorem not_teamsRecordsAndWavesStart : ¬ Obligations.TeamsRecordsAndWavesStart := by
  intro h
  obtain ⟨⟨n, ep, l⟩, hroom⟩ := Option.isSome_iff_exists.mp skippingState_hasRoom
  obtain ⟨-, -, hcluster, -⟩ := h skippingState skippingGrid n ep
  obtain ⟨s', he, hgrid, -⟩ := hcluster l rfl (by decide) (by decide) hroom
  have hs : startCluster skippingState 0 = s' := by injection he
  have hskip := skippingState_started
  rw [hs, show NMap.find s'.grids 0 = some (unitTaken skippingGrid) from hgrid] at hskip
  exact absurd hskip (by decide)

/-! ### An abort of a team whose threads have exited -/

/-- A thread that has exited while an access of it is still to be sent again. -/
def exitedLane : Thread := { lastLane with state := .exited, ops := [(7, { (default : Op) with status := .again 0 })] }

/-- The only thread of its team. -/
def exitedState : State := { State.reset with threads := [(10, exitedLane)], teams := [(1, mkTeam 0 0 0 0 0 1 4 1)] }

/-- The abort withdraws the access, and with it goes the thread. -/
theorem abort_forgets_exitedLane : (abortTeam exitedState 0 0).threads = [] := by decide +kernel

/-- Refutes O50: an abort withdraws what a thread that has exited still waits for too (R387); the statement has a team without live threads change in nothing but
its own flags. -/
theorem not_preemptionSwapsAndDebugActOnTeams : ¬ Obligations.PreemptionSwapsAndDebugActOnTeams := by
  intro h
  obtain ⟨-, -, -, -, -, -, -, -, -, -, -, -, -, -, -, -, habort⟩ := h exitedState 1 0 (mkTeam 0 0 0 0 0 1 4 1) rfl rfl
  have he := (habort 0 (by decide +kernel)).1 (by decide +kernel)
  have hs : abortTeam exitedState 0 0 = exitedState.updTeam 1 (fun m => { m with aborted := true, halted := false }) := by injection he
  exact absurd (hs ▸ abort_forgets_exitedLane) (by decide +kernel)

end Sys2Proof.ExecutionLaws
end

section
/-! PROOFS. What the course of threads leaves alone: traps, halts, requests and masks (R25, R28, R40, R386) change neither a core nor the host port; and what the
exit of a thread, or an abort, adds to that (R18, R387). -/

namespace Sys2Proof.ExecutionLaws

open Sys2Proof Sys2Proof.Machine Sys2Proof.Claims Sys2Proof.HostLaws

/-! ### Threads and teams -/

/-- Nothing but threads, teams, event records with their counts, and the fresh key has changed. -/
def Course (s s' : State) : Prop :=
  { s' with threads := s.threads, teams := s.teams, events := s.events, pkg := s.pkg, fresh := s.fresh } = s

namespace Course

theorem refl (s : State) : Course s s := rfl

theorem trans {s u v : State} (h : Course s u) (k : Course u v) : Course s v := by
  have e : { v with threads := s.threads, teams := s.teams, events := s.events, pkg := s.pkg, fresh := s.fresh } =
      { u with threads := s.threads, teams := s.teams, events := s.events, pkg := s.pkg, fresh := s.fresh } :=
    congrArg (fun x : State => { x with threads := s.threads, teams := s.teams, events := s.events, pkg := s.pkg, fresh := s.fresh }) k
  exact e.trans h

theorem foldl {α : Type} (l : List α) (f : State → α → State) (h : ∀ s x, Course s (f s x)) (s : State) : Course s (l.foldl f s) :=
  List.foldlRecOn l f (refl s) (fun u hu x _ => hu.trans (h u x))

theorem updThread (s : State) (k : Nat) (f : Thread → Thread) : Course s (s.updThread k f) := rfl
theorem updTeam (s : State) (k : Nat) (f : Team → Team) : Course s (s.updTeam k f) := rfl
theorem event (s : State) (src cls code sev : Nat) (thread : Bool) (d0 d1 : Nat) : Course s (s.event src cls code sev thread d0 d1) := rfl

theorem ofOnlyThreads {s s' : State} (h : OnlyThreads s s') : Course s s' := by
  have e : { s' with threads := s.threads, teams := s.teams, events := s.events, pkg := s.pkg, fresh := s.fresh } =
      { s with threads := s.threads, teams := s.teams, events := s.events, pkg := s.pkg, fresh := s.fresh } :=
    congrArg (fun x : State => { x with teams := s.teams, events := s.events, pkg := s.pkg, fresh := s.fresh }) h
  exact e

section
variable {s s' : State} (h : Course s s')
include h
theorem eq : { s' with threads := s.threads, teams := s.teams, events := s.events, pkg := s.pkg, fresh := s.fresh } = s := h
theorem groups : s'.groups = s.groups := (congrArg State.groups h.eq :)
theorem cores : s'.cores = s.cores := (congrArg State.cores h.eq :)
theorem host : s'.host = s.host := (congrArg State.host h.eq :)
theorem packets : s'.packets = s.packets := (congrArg State.packets h.eq :)
end

end Course

theorem course_trapEvent (s : State) (core : Nat) (x : Trap) : Course s (trapEvent s core x) := by
  unfold trapEvent
  split
  · exact .refl s
  · split <;> exact .event ..

theorem course_takeTrap (s : State) (k : Nat) (x : Trap) : Course s (takeTrap s k x) := by
  unfold takeTrap
  split
  · exact .refl s
  · dsimp only
    split
    · exact ((Course.updThread ..).trans (.foldl _ _ (fun s j => .updThread ..) _)).trans ((Course.updTeam ..).trans (.event ..))
    · exact (Course.updThread ..).trans (course_trapEvent ..)

theorem course_checkYielded (s : State) (team : Nat) : Course s (checkYielded s team) := by
  simp only [checkYielded]
  split
  · exact .updTeam ..
  · exact .refl s

theorem course_raiseRequest (s : State) (team cause : Nat) : Course s (raiseRequest s team cause) := by
  unfold raiseRequest
  split
  · exact .refl s
  · split
    · exact .refl s
    · dsimp only
      exact Course.trans (by exact rfl) (course_checkYielded ..)

theorem course_praise (s : State) (ep : Nat) (all : Bool) (slot : Nat) : Course s (praise s ep all slot) := by
  unfold praise
  split
  · exact .foldl _ _ (fun s m => course_raiseRequest ..) s
  · split
    · exact course_raiseRequest ..
    · exact .refl s

theorem course_resumeTeam (s : State) (ep : Nat) (v : Word) : Course s (resumeTeam s ep v) := by
  unfold resumeTeam
  split
  · exact .refl s
  · split
    · exact .refl s
    · split
      · rfl
      · exact .refl s

theorem course_resumeStopped (s : State) (ep slot : Nat) : Course s (resumeStopped s ep slot) := by
  unfold resumeStopped
  split
  · exact .refl s
  · rfl

theorem course_joinLanes (s : State) (ks : List Nat) : Course s (joinLanes s ks) :=
  Course.trans (u := { s with fresh := s.fresh + 1 }) rfl (.foldl ks _ (fun t k => .updThread t k _) { s with fresh := s.fresh + 1 })

theorem course_forgetThread (s : State) (k : Nat) : Course s (forgetThread s k) := by
  unfold forgetThread
  split
  · exact .refl s
  · split
    · rfl
    · exact .refl s

/-! ### Masks -/

/-- Cores, the host port and packets under way are unchanged. -/
structure KeepsCores (s s' : State) : Prop where
  cores : s'.cores = s.cores
  host : s'.host = s.host
  packets : s'.packets = s.packets

theorem KeepsCores.trans {s u v : State} (h : KeepsCores s u) (k : KeepsCores u v) : KeepsCores s v :=
  ⟨k.cores.trans h.cores, k.host.trans h.host, k.packets.trans h.packets⟩

/-- So are they, and no mask has another enrolled set. -/
structure KeepsEnrolled (s s' : State) : Prop extends KeepsCores s s' where
  enrolled : ∀ g i, ((s'.group g).mask i).enrolled = ((s.group g).mask i).enrolled

namespace KeepsEnrolled

theorem ofCourse {s s' : State} (h : Course s s') : KeepsEnrolled s s' :=
  ⟨⟨h.cores, h.host, h.packets⟩, fun g i => by rw [State.group, h.groups]; rfl⟩

theorem refl (s : State) : KeepsEnrolled s s := .ofCourse (.refl s)

theorem trans {s u v : State} (h : KeepsEnrolled s u) (k : KeepsEnrolled u v) : KeepsEnrolled s v :=
  ⟨h.toKeepsCores.trans k.toKeepsCores, fun g i => (k.enrolled g i).trans (h.enrolled g i)⟩

end KeepsEnrolled

/-- Mask i of a group after a write of mask k. -/
theorem mask_setMask (g : Group) (k i : Nat) (m : Mask) : (g.setMask k m).mask i = if i = k ∧ k < g.masks.length then m else g.mask i := by
  simp only [Group.mask, Group.setMask, List.getD_eq_getElem?_getD, List.getElem?_set]
  split
  · next h =>
    subst h
    split
    · next hl => simp [hl]
    · next hl => simp [hl]
  · next h => simp [Ne.symm h]

/-- The mask of a group after a change of that group. -/
theorem group_updGroup (s : State) (g j : Nat) (f : Group → Group) :
    (s.updGroup g f).group j = if j = g ∧ (s.groups.find g).isSome then f (s.group g) else s.group j := by
  simp only [State.group, State.updGroup_groups]
  by_cases h : j = g
  · subst h
    rw [NMap.find_adjust_same]
    cases s.groups.find j <;> simp
  · simp [h, NMap.find_adjust_other]

/-- A mask's arrived set is written. -/
theorem keepsEnrolled_setArrived (s : State) (g k : Nat) (a : Word) :
    KeepsEnrolled s (s.updGroup g (fun x => x.setMask k { (s.group g).mask k with arrived := a })) := by
  refine ⟨⟨rfl, rfl, rfl⟩, fun j i => ?_⟩
  rw [group_updGroup]
  split
  · next h =>
    obtain ⟨rfl, -⟩ := h
    rw [mask_setMask]
    split
    · next hi => rw [hi.1]
    · rfl
  · rfl

theorem keepsEnrolled_foldl {α : Type} (l : List α) (f : State → α → State) (h : ∀ s x, KeepsEnrolled s (f s x)) (s : State) :
    KeepsEnrolled s (l.foldl f s) :=
  List.foldlRecOn l f (.refl s) (fun u hu x _ => hu.trans (h u x))

theorem keepsEnrolled_maskConflict (s : State) (g k : Nat) : KeepsEnrolled s (maskConflict s g k) :=
  (keepsEnrolled_setArrived s g k _).trans (keepsEnrolled_foldl _ (fun u (p : Nat × Thread) => takeTrap u p.1 _) (fun u p => .ofCourse (course_takeTrap u p.1 _)) _)

theorem keepsEnrolled_maskCheck (s : State) (g k : Nat) : KeepsEnrolled s (maskCheck s g k) := by
  by_cases ha : allArrived ((s.group g).mask k) = true
  · rw [maskCheck_complete ha]
    dsimp only
    split
    · exact (keepsEnrolled_setArrived s g k _).trans ((keepsEnrolled_foldl _ released (fun u p => .ofCourse (.ofOnlyThreads (onlyThreads_released u p))) _).trans
        (.ofCourse (course_joinLanes ..)))
    · split
      · exact .refl s
      · exact keepsEnrolled_maskConflict s g k
  · rw [maskCheck_incomplete (Bool.not_eq_true _ ▸ ha)]
    exact .refl s

/-! ### A lane leaves its masks (R18, R25) -/

/-- After LEAVE of one mask the lane is enrolled where it was, but not there. -/
theorem leaveMask_enrolled (s : State) (g k : Nat) {lane : Nat} (hl : lane < 32) (i : Nat) :
    (((leaveMask s g k lane).group g).mask i).enrolled.getLsbD lane = (decide (i ≠ k) && ((s.group g).mask i).enrolled.getLsbD lane) := by
  rw [leaveMask, (keepsEnrolled_maskCheck _ g k).enrolled, group_updGroup]
  have hbit : (~~~(laneBit lane)).getLsbD lane = false := by simp [laneBit, hl]
  split
  · rw [mask_setMask]
    split
    · next h => simp [h.1, hbit]
    · next h =>
      by_cases hi : i = k
      · subst hi
        have hk : (s.group g).mask i = default := by
          have := not_lt.mp (fun hlt => h ⟨rfl, hlt⟩)
          simp [Group.mask, this]
        simp [hk, show (default : Mask).enrolled = 0#32 from rfl]
      · simp [hi]
  · next h =>
    by_cases hi : i = k
    · subst hi
      have hg : s.groups.find g = none := by simpa using h
      have hk : (s.group g).mask i = default := by simp [State.group, hg, Group.mask, show (default : Group).masks = [] from rfl]
      simp [hk, show (default : Mask).enrolled = 0#32 from rfl]
    · simp [hi]

/-- A lane that leaves every mask is enrolled in none. -/
theorem leaveAll_enrolled (s : State) {t : Thread} (hl : t.lane < 32) {i : Nat} (hi : i < 12) :
    (((leaveAll s t).group t.group).mask i).enrolled.getLsbD t.lane = false := by
  have main : ∀ (l : List Nat) (u : State),
      let v := l.foldl (fun s k => if ((s.group t.group).mask k).enrolled.getLsbD t.lane then leaveMask s t.group k t.lane else s) u
      (((v.group t.group).mask i).enrolled.getLsbD t.lane = true → ((u.group t.group).mask i).enrolled.getLsbD t.lane = true ∧ i ∉ l) := by
    intro l
    induction l with
    | nil => intro u v h; exact ⟨h, by simp⟩
    | cons k l ih =>
      intro u v h
      obtain ⟨h1, h2⟩ := ih _ h
      dsimp only at h1
      split at h1
      · rw [leaveMask_enrolled _ _ _ hl, Bool.and_eq_true, decide_eq_true_eq] at h1
        exact ⟨h1.2, by simp [h1.1, h2]⟩
      · next hk => exact ⟨h1, by rw [List.mem_cons, not_or]; exact ⟨by rintro rfl; exact hk h1, h2⟩⟩
  have h := main (List.range 12) s
  by_contra hne
  exact (h ((Bool.not_eq_false _).mp hne)).2 (List.mem_range.mpr hi)

theorem keepsCores_leaveMask (s : State) (g k lane : Nat) : KeepsCores s (leaveMask s g k lane) := by
  have h := keepsEnrolled_maskCheck (s.updGroup g (fun x => x.setMask k { enrolled := ((s.group g).mask k).enrolled &&& ~~~(laneBit lane), arrived := ((s.group g).mask k).arrived &&& ~~~(laneBit lane) })) g k
  exact ⟨h.cores, h.host, h.packets⟩

theorem keepsCores_leaveAll (s : State) (t : Thread) : KeepsCores s (leaveAll s t) := by
  refine List.foldlRecOn (motive := KeepsCores s) _ _ ⟨rfl, rfl, rfl⟩ (fun u hu k _ => ?_)
  split
  · exact hu.trans (keepsCores_leaveMask ..)
  · exact hu

/-! ### What the part's agents change -/

/-- Only cores, dies, slices, packets, memory, the package's tables, event records and the fresh key have changed: no thread, group or team, and nothing of the host
port. -/
def Agents (s s' : State) : Prop :=
  { s' with cores := s.cores, dies := s.dies, slices := s.slices, packets := s.packets, mem := s.mem, pkg := s.pkg, events := s.events, fresh := s.fresh } = s

namespace Agents

theorem refl (s : State) : Agents s s := rfl

theorem trans {s u v : State} (h : Agents s u) (k : Agents u v) : Agents s v := by
  have e : { v with cores := s.cores, dies := s.dies, slices := s.slices, packets := s.packets, mem := s.mem, pkg := s.pkg, events := s.events, fresh := s.fresh } =
      { u with cores := s.cores, dies := s.dies, slices := s.slices, packets := s.packets, mem := s.mem, pkg := s.pkg, events := s.events, fresh := s.fresh } :=
    congrArg (fun x : State => { x with
      cores := s.cores, dies := s.dies, slices := s.slices, packets := s.packets, mem := s.mem, pkg := s.pkg, events := s.events, fresh := s.fresh }) k
  exact e.trans h

theorem foldl {α : Type} (l : List α) (f : State → α → State) (h : ∀ s x, Agents s (f s x)) (s : State) : Agents s (l.foldl f s) :=
  List.foldlRecOn l f (refl s) (fun u hu x _ => hu.trans (h u x))

theorem updCore (s : State) (ep : Nat) (f : Core → Core) : Agents s (s.updCore ep f) := rfl
theorem updDie (s : State) (d : Nat) (f : Die → Die) : Agents s (s.updDie d f) := rfl
theorem updSlice (s : State) (i : Nat) (f : Slice → Slice) : Agents s (s.updSlice i f) := rfl
theorem updPkg (s : State) (f : Package → Package) : Agents s (s.updPkg f) := rfl
theorem write (s : State) (a : Nat) (bs : List Byte) : Agents s (s.write a bs) := rfl

section
variable {s s' : State} (h : Agents s s')
include h
theorem eq : { s' with cores := s.cores, dies := s.dies, slices := s.slices, packets := s.packets, mem := s.mem, pkg := s.pkg, events := s.events, fresh := s.fresh } = s := h
theorem threads : s'.threads = s.threads := (congrArg State.threads h.eq :)
theorem groups : s'.groups = s.groups := (congrArg State.groups h.eq :)
theorem teams : s'.teams = s.teams := (congrArg State.teams h.eq :)
theorem host : s'.host = s.host := (congrArg State.host h.eq :)
end

end Agents

theorem agents_touchL2 (s : State) (pa hint : Nat) : Agents s (touchL2 s pa hint) := by
  rw [touchL2_eq_dies]; rfl

theorem agents_inject (s : State) (p : Packet) : Agents s (s.inject p) := by
  simp only [State.inject]
  split
  · exact .refl s
  · split
    · rfl
    · split <;> rfl

theorem agents_ctl (s : State) (src dst typ : Nat) (body : Body) : Agents s (s.ctl src dst typ body) := agents_inject ..

theorem agents_writeRings (s : State) (ep q : Nat) (e : Entry) (state : Nat) : Agents s (writeRings s ep q e state) :=
  (agents_touchL2 ..).trans ((Agents.write ..).trans (.write ..))

theorem agents_dropEntry (s : State) (ep q k : Nat) : Agents s (dropEntry s ep q k) := by
  simp only [dropEntry]
  split
  · exact (agents_writeRings ..).trans (.updCore ..)
  · exact .updCore ..

theorem agents_purge (s : State) (ep : Nat) (d : DWord) : Agents s (purge s ep d) := by
  simp only [purge]
  split
  · split
    · exact .updSlice ..
    · exact .refl s
  · exact .updPkg ..
  · exact .updDie ..
  · exact (Agents.updDie ..).trans (.foldl _ (fun s l => purgeCore s (endpoint (epDie ep) l) d) (fun s l => .updCore ..) _)
  · exact .updCore ..

theorem agents_sendNotices (s : State) (core : Nat) (deriv : DWord) (places : List Nat) : Agents s (sendNotices s core deriv places) := by
  refine .foldl _ _ (fun u ep => ?_) s
  split
  · exact agents_purge ..
  · exact agents_inject ..

theorem agents_retireEntry (s : State) (t : Thread) : Agents s (retireEntry s t) := by
  unfold retireEntry
  split
  · exact .refl s
  · exact (agents_dropEntry ..).trans (agents_sendNotices ..)

theorem agents_reportLost (s : State) (ep id : Nat) : Agents s (reportLost s ep id) := by
  unfold reportLost
  split
  · split
    · exact (Agents.updCore ..).trans (agents_ctl ..)
    · exact .refl s
  · exact .refl s

/-! ### EXIT (R18, R247) -/

/-- A key that is dropped is not found. -/
theorem find_drop_same {α : Type} (m : NMap α) (k : Nat) : (m.drop k).find k = none := by
  induction m with
  | nil => rfl
  | cons p m ih =>
    by_cases h : p.1 = k
    · simpa [NMap.drop, h] using ih
    · have e : NMap.drop (p :: m) k = p :: NMap.drop m k := by simp [NMap.drop, h]
      rw [e]
      simpa [NMap.find, h] using ih

/-- Every thread under a key has exited. -/
def HasExited (s : State) (k : Nat) : Prop := ∀ p ∈ s.threads, p.1 = k → p.2.state = .exited

theorem HasExited.of_subset {s s' : State} {k : Nat} (h : HasExited s k) (hs : s'.threads ⊆ s.threads) : HasExited s' k :=
  fun p hp => h p (hs hp)

/-- No change of a thread that leaves it Exited brings it back. -/
theorem HasExited.map {s s' : State} {k : Nat} {f : Nat × Thread → Thread} (h : HasExited s k)
    (hf : ∀ p ∈ s.threads, p.2.state = .exited → (f p).state = .exited) (hs : s'.threads = s.threads.map (fun p => (p.1, f p))) : HasExited s' k := by
  intro p hp hk
  rw [hs] at hp
  obtain ⟨q, hq, rfl⟩ := List.mem_map.mp hp
  exact hf q hq (h q hq hk)

theorem HasExited.updThread {s : State} {k : Nat} (h : HasExited s k) (j : Nat) {f : Thread → Thread}
    (hf : ∀ t : Thread, t.state = .exited → (f t).state = .exited) : HasExited (s.updThread j f) k := by
  refine h.map (f := fun p => if p.1 = j then f p.2 else p.2) (fun p _ hp => ?_) ?_
  · split
    · exact hf p.2 hp
    · exact hp
  · rw [State.updThread_threads, NMap.adjust]
    exact List.map_congr_left fun p _ => by split <;> rfl

theorem HasExited.thread {s : State} {k : Nat} (h : HasExited s k) {t : Thread} (ht : s.thread k = some t) : t.state = .exited :=
  h _ (mem_of_find ht) rfl

/-- What EXIT does before a group that has lost its last thread is freed. -/
def leaving (s : State) (k : Nat) (t : Thread) : State :=
  let s3 := ((leaveAll s t).updThread k (fun t => { t with state := .exited, clause := none })).updCore t.core
    (fun c => { c with senders := c.senders.filter (fun p => p.2 != k) })
  retireEntry (match t.treelet with
    | some id => reportLost s3 t.core id
    | none => s3) t

theorem exitThread_eq {s : State} {k : Nat} {t : Thread} (ht : s.thread k = some t) :
    exitThread s k = checkYielded (freeGroup (leaving s k t) t.group) t.team := by
  rw [exitThread, ht]
  rfl

theorem agents_leaving (s : State) (k : Nat) (t : Thread) :
    Agents ((leaveAll s t).updThread k (fun t => { t with state := .exited, clause := none })) (leaving s k t) := by
  refine Agents.trans ?_ (agents_retireEntry ..)
  split
  · exact (Agents.updCore ..).trans (agents_reportLost ..)
  · exact .updCore ..

theorem freeGroup_threads_subset (s : State) (g : Nat) : (freeGroup s g).threads ⊆ s.threads := by
  unfold freeGroup
  split
  · exact List.Subset.refl _
  · exact List.filter_subset_self _

/-- A thread that exits stays so. -/
theorem hasExited_exitThread {s : State} {k : Nat} {t : Thread} (ht : s.thread k = some t) : HasExited (exitThread s k) k := by
  rw [exitThread_eq ht]
  have h : HasExited (leaving s k t) k := by
    intro p hp hk
    rw [(agents_leaving s k t).threads, State.updThread_threads, NMap.adjust] at hp
    obtain ⟨q, -, rfl⟩ := List.mem_map.mp hp
    by_cases hq : q.1 = k
    · rw [if_pos hq]
    · rw [if_neg hq] at hk
      exact absurd hk hq
  refine (h.of_subset (freeGroup_threads_subset _ t.group)).of_subset ?_
  dsimp only [checkYielded]
  split <;> exact List.Subset.refl _

/-- The lane of a thread that has exited is enrolled in no mask. -/
theorem exitThread_enrolled {s : State} {k : Nat} {t : Thread} (ht : s.thread k = some t) (hl : t.lane < 32) {i : Nat} (hi : i < 12) :
    (((exitThread s k).group t.group).mask i).enrolled.getLsbD t.lane = false := by
  rw [exitThread_eq ht]
  have hg : ∀ u : State, (checkYielded u t.team).group t.group = u.group t.group := fun u => by
    rw [State.group, (course_checkYielded u t.team).groups]; rfl
  have hleft : (leaving s k t).group t.group = (leaveAll s t).group t.group := by
    rw [State.group, (agents_leaving s k t).groups]; rfl
  rw [hg]
  by_cases hf : (leaving s k t).threads.any (fun p => p.2.group == t.group && p.2.state != .exited) = true
  · rw [freeGroup, if_pos hf, hleft]
    exact leaveAll_enrolled s hl hi
  · rw [freeGroup, if_neg hf]
    have hnone : NMap.find (NMap.drop (leaving s k t).groups t.group) t.group = none := find_drop_same ..
    simp [State.group, hnone, Group.mask, show (default : Group).masks = [] from rfl, show (default : Mask).enrolled = 0#32 from rfl]

/-! ### The host port does not see what happens to threads -/

theorem host_freeGroup (s : State) (g : Nat) : (freeGroup s g).host = s.host := by
  unfold freeGroup
  split <;> rfl

theorem host_exitThread (s : State) (k : Nat) : (exitThread s k).host = s.host := by
  cases ht : s.thread k with
  | none => rw [exitThread, ht]
  | some t =>
    rw [exitThread_eq ht, (course_checkYielded ..).host, host_freeGroup, (agents_leaving s k t).host]
    exact (keepsCores_leaveAll s t).host

theorem host_foldl {α : Type} (l : List α) (f : State → α → State) (h : ∀ s x, (f s x).host = s.host) (s : State) : (l.foldl f s).host = s.host :=
  List.foldlRecOn (motive := fun u : State => u.host = s.host) l f rfl (fun u hu x _ => (h u x).trans hu)

theorem host_withdraw (s : State) (k : Nat) : (withdraw s k).host = s.host := by
  unfold withdraw
  split
  · rfl
  · dsimp only
    rw [host_foldl]
    · rw [host_foldl]
      · exact host_foldl _ (fun s op => withdrawRetry s k op) (fun _ _ => rfl) s
      · intro u x
        split
        · exact (agents_inject ..).host
        · rfl
    · intro u p
      split <;> rfl

theorem host_abortTeam (s : State) (ep slot : Nat) : (abortTeam s ep slot).host = s.host := by
  unfold abortTeam
  split
  · rfl
  · rw [State.updTeam_host, host_foldl _ (fun u (p : Nat × Thread) => exitThread u p.1) (fun u p => host_exitThread u p.1)]
    exact host_foldl _ (fun u (p : Nat × Thread) => forgetThread (withdraw u p.1) p.1) (fun u p => (course_forgetThread ..).host.trans (host_withdraw u p.1)) s

end Sys2Proof.ExecutionLaws
end

section
/-! PROOFS. Bytes and register windows: numbers as bytes, one register written or read whole (R11, R13), and O57. -/

namespace Sys2Proof.ExecutionLaws

open Sys2Proof Sys2Proof.Machine Sys2Proof.Claims Sys2Proof.HostLaws

/-! ### Numbers as bytes (R11) -/

@[simp] theorem leBytes_length (n v : Nat) : (leBytes n v).length = n := by
  induction n generalizing v with
  | zero => rfl
  | succ n ih => simp [leBytes, ih]

/-- The bytes of a number give back what of it they have room for. -/
theorem leNat_leBytes (n v : Nat) : leNat (leBytes n v) = v % 2 ^ (8 * n) := by
  induction n generalizing v with
  | zero => simp [leBytes, leNat, Nat.mod_one]
  | succ n ih =>
    simp only [leBytes, leNat, ih, BitVec.toNat_ofNat]
    rw [show 8 * (n + 1) = 8 + 8 * n by ring, pow_add, Nat.mod_mul]
    norm_num

/-- Byte by byte. -/
theorem leBytes_eq_map (n v : Nat) : leBytes n v = (List.range n).map (fun i => BitVec.ofNat 8 (v / 2 ^ (8 * i))) := by
  induction n generalizing v with
  | zero => rfl
  | succ n ih =>
    rw [leBytes, ih, List.range_succ_eq_map, List.map_cons, List.map_map]
    congr 1
    · simp
    · refine List.map_congr_left fun i _ => ?_
      rw [Function.comp_apply, Nat.div_div_eq_div_mul, show 8 * (i + 1) = 8 + 8 * i by ring, pow_add]
      norm_num

/-! ### One register, whole (R13) -/

/-- n bytes at an offset are one register of a window. -/
abbrev WholeRegister (w : Window) (off n : Nat) : Prop := ∀ i < n, regAt w (off + i) = (off, n)

section
variable {s : State} {ep off n : Nat}

theorem windowRead_register (h : WholeRegister (windowOf s ep) off n) : windowRead s ep off n = leBytes n (readReg s ep off) := by
  rw [leBytes_eq_map, windowRead]
  refine List.map_congr_left fun i hi => ?_
  rw [windowByte, h i (List.mem_range.mp hi)]
  simp

/-- The same thing over and over is one thing. -/
theorem eraseDups_map_const {α β : Type} [BEq β] [LawfulBEq β] {l : List α} (h : l ≠ []) {f : α → β} {b : β} (hf : ∀ a ∈ l, f a = b) :
    (l.map f).eraseDups = [b] := by
  cases l with
  | nil => exact absurd rfl h
  | cons a l =>
    rw [List.map_cons, List.eraseDups_cons, hf a List.mem_cons_self, List.filter_eq_nil_iff.mpr, List.eraseDups_nil]
    intro c hc
    obtain ⟨x, hx, rfl⟩ := List.mem_map.mp hc
    simp [hf x (List.mem_cons_of_mem _ hx)]

theorem windowWrite_register {who : Writer} {bs : List Byte} (h : WholeRegister (windowOf s ep) off n) (hn : bs.length = n) (h0 : 0 < n) :
    windowWrite s ep who off bs = writeReg s ep who off (leNat bs) := by
  have hregs : ((List.range bs.length).map (fun i => regAt (windowOf s ep) (off + i))).eraseDups = [(off, n)] :=
    eraseDups_map_const (by rw [hn, Ne, List.range_eq_nil]; omega) (fun i hi => h i (by simpa [hn] using hi))
  have hnew : ∀ old : List Byte, (List.range n).map (fun i => if off ≤ off + i ∧ off + i < off + bs.length then bs.getD (off + i - off) 0#8 else old.getD i 0#8) = bs := by
    intro old
    refine List.ext_getElem (by simp [hn]) fun i h1 h2 => ?_
    simp [h2]
  simp only [windowWrite, hregs, List.foldl_cons, List.foldl_nil, Option.bind_some]
  rw [hnew]

/-- The bytes of a write lie in one register. -/
theorem windowWrite_within {who : Writer} {bs : List Byte} {r : Nat} (h0 : bs ≠ []) (h : ∀ i < bs.length, regAt (windowOf s ep) (off + i) = (r, n)) :
    ∃ v, windowWrite s ep who off bs = writeReg s ep who r v := by
  have hregs : ((List.range bs.length).map (fun i => regAt (windowOf s ep) (off + i))).eraseDups = [(r, n)] :=
    eraseDups_map_const (by simpa [List.range_eq_nil] using h0) (fun i hi => h i (by simpa using hi))
  simp only [windowWrite, hregs, List.foldl_cons, List.foldl_nil, Option.bind_some]
  exact ⟨_, rfl⟩

/-- A register write that is not held back. -/
theorem exec_registerWrite {s' : State} {v : Nat} (h : WholeRegister (windowOf s ep) off n) (h0 : 0 < n) (hv : v < 2 ^ (8 * n))
    (hw : writeReg s ep (hostWriter s) off v = some s') : exec (.registerWrite ep off (leBytes n v)) s = .next s' := by
  show Host.Outcome.next ((windowWrite s ep (hostWriter s) off (leBytes n v)).getD s) = _
  rw [windowWrite_register h (leBytes_length ..) h0, leNat_leBytes, Nat.mod_eq_of_lt hv, hw]
  rfl

end

/-! ### Windows (R60) -/

section
variable {s : State} {ep : Nat}

theorem windowOf_core (h : s.isCore ep = true) : windowOf s ep = .core := by
  have hc := h
  simp only [State.isCore, Bool.and_eq_true, decide_eq_true_eq] at hc
  obtain ⟨⟨⟨⟨-, hd⟩, hl⟩, hp⟩, -⟩ := hc
  simp only [windowOf, hp, h]
  rw [if_neg (by omega), if_neg (by simp; omega), if_pos trivial]

/-- The window of an agent of a present die that is no slice's. -/
theorem windowOf_agent {d l : Nat} (hd : d < 24) (hl : 80 ≤ l) (hl' : l < 128) (h25 : l ≠ 125) (hp : (s.die d).present = true) :
    windowOf s (endpoint d l) = if isHart (endpoint d l) then .hart else if l = 124 then .tlb else if l = 127 then .controller
      else if l = 122 ∧ 22 ≤ d then .host else .none := by
  have hed : epDie (endpoint d l) = d := epDie_endpoint (by omega) hl'
  have hel : epLocal (endpoint d l) = l := by simp only [epLocal, endpoint, Config.package]; omega
  have hc : s.isCore (endpoint d l) = false := by simp [State.isCore, hel, hl]
  simp only [windowOf, hed, hel, hc, hp]
  rw [if_neg (by simp [h25]), if_neg (by simp; omega), if_neg (by simp)]

theorem windowOf_controller {d : Nat} (hd : d < 24) (hp : (s.die d).present = true) : windowOf s (endpoint d 127) = .controller := by
  rw [windowOf_agent hd (by decide) (by decide) (by decide) hp, if_neg, if_neg (by decide), if_pos rfl]
  have hel : epLocal (endpoint d 127) = 127 := by simp only [epLocal, endpoint, Config.package]; omega
  simp [isHart, hel]

theorem windowOf_host {d : Nat} (hd : d = 22 ∨ d = 23) (hp : (s.die d).present = true) : windowOf s (endpoint d 122) = .host := by
  rw [windowOf_agent (by omega) (by decide) (by decide) (by decide) hp, if_neg, if_neg (by decide), if_neg (by decide), if_pos (by omega)]
  have hed : epDie (endpoint d 122) = d := epDie_endpoint (by omega) (by decide)
  simp [isHart, hed]
  omega

theorem windowOf_slice {i : Nat} (hi : i < 6) (hp : (s.die (16 + i)).present = true) : windowOf s (endpoint (16 + i) 125) = .slice := by
  have hed : epDie (endpoint (16 + i) 125) = 16 + i := epDie_endpoint (by omega) (by decide)
  have hel : epLocal (endpoint (16 + i) 125) = 125 := by simp only [epLocal, endpoint, Config.package]; omega
  simp only [windowOf, hed, hel]
  rw [if_pos ⟨trivial, by omega, by omega, .inl hp⟩]

end

/-! ### Core registers (R50, R340, R346, R397) -/

section
variable (s : State) (ep : Nat) (v : Word)

theorem perf_writePerfsel {n : Nat} (hn : n < 8) : ((writePerfsel s ep v).core ep).perf.getD n 0#64 =
    if v.toNat / 16 ^ n % 16 = (s.core ep).perfsel.toNat / 16 ^ n % 16 then (s.core ep).perf.getD n 0#64 else 0#64 := by
  have hb : ∀ x : Nat, bits x (4 * n + 3) (4 * n) = x / 16 ^ n % 16 := fun x => by
    rw [bits, show 4 * n + 3 + 1 - 4 * n = 4 by omega, pow_mul]; norm_num
  simp [writePerfsel, hb, hn, List.getD_eq_getElem?_getD]

theorem perf_writePerfclr {n : Nat} (hn : n < 8) : ((writePerfclr s ep v).core ep).perf.getD n 0#64 =
    if v.getLsbD n then 0#64 else (s.core ep).perf.getD n 0#64 := by
  simp [writePerfclr, hn, List.getD_eq_getElem?_getD]

/-- Four fields of 16 bits, some of them cleared. -/
theorem fields_mod {a b c d : Nat} (ha : a < 2 ^ 16) (hb : b < 2 ^ 16) (hc : c < 2 ^ 16) (hd : d < 2 ^ 16) {n : Nat} (hn : n < 4) :
    (a * 2 ^ 0 + b * 2 ^ 16 + c * 2 ^ 32 + d * 2 ^ 48) % 2 ^ 64 / 2 ^ (16 * n) % 2 ^ 16 = [a, b, c, d].getD n 0 := by
  interval_cases n <;> simp <;> omega

/-- Field n of MXEXC after a write of MXCLR. -/
def keptField (v : Word) (x n : Nat) : Nat := if v.getLsbD n then 0 else x / 2 ^ (16 * n) % 2 ^ 16

theorem keptField_lt (v : Word) (x n : Nat) : keptField v x n < 2 ^ 16 := by
  unfold keptField
  split
  · decide
  · exact Nat.mod_lt _ (by decide)

theorem mxexc_writeMxclr {n : Nat} (hn : n < 4) : ((writeMxclr s ep v).core ep).mxexc.toNat / 2 ^ (16 * n) % 2 ^ 16 =
    if v.getLsbD n then 0 else (s.core ep).mxexc.toNat / 2 ^ (16 * n) % 2 ^ 16 := by
  have hkeep : ∀ i, (if v.getLsbD i then 0 else bits (s.core ep).mxexc.toNat (16 * i + 15) (16 * i) * 2 ^ (16 * i)) =
      keptField v (s.core ep).mxexc.toNat i * 2 ^ (16 * i) := fun i => by
    rw [keptField, bits, show 16 * i + 15 + 1 - 16 * i = 16 by omega]
    split <;> simp
  unfold writeMxclr
  rw [State.core_updCore_same]
  dsimp only
  rw [hkeep 0, hkeep 1, hkeep 2, hkeep 3, BitVec.toNat_ofNat, fields_mod (keptField_lt ..) (keptField_lt ..) (keptField_lt ..) (keptField_lt ..) hn]
  interval_cases n <;> rfl

end

/-! ### Registers of each window, written and read whole -/

section
variable {s : State} {ep off : Nat}

theorem write_core (hc : s.isCore ep = true) {n v : Nat} (hr : WholeRegister .core off n) (h0 : 0 < n) (hk : off ≠ 0x800) (hv : v < 2 ^ (8 * n)) :
    exec (.registerWrite ep off (leBytes n v)) s = .next (writeCore s ep off v) := by
  have hw := windowOf_core hc
  refine exec_registerWrite (hw ▸ hr) h0 hv ?_
  simp only [writeReg, hw]
  rw [if_neg hk]

theorem read_core (hc : s.isCore ep = true) {n : Nat} (hr : WholeRegister .core off n) : windowRead s ep off n = leBytes n (readCore s ep off) := by
  have hw := windowOf_core hc
  rw [windowRead_register (hw ▸ hr), readReg, hw]

theorem write_slice {i : Nat} (hi : i < 6) (hp : (s.die (16 + i)).present = true) {n v : Nat} (hr : WholeRegister .slice off n) (h0 : 0 < n) (hv : v < 2 ^ (8 * n)) :
    exec (.registerWrite (endpoint (16 + i) 125) off (leBytes n v)) s = .next (writeSlice s i off v) := by
  have hw := windowOf_slice hi hp
  have hed : epDie (endpoint (16 + i) 125) = 16 + i := epDie_endpoint (by omega) (by decide)
  refine exec_registerWrite (hw ▸ hr) h0 hv ?_
  simp only [writeReg, hw, hed, Nat.add_sub_cancel_left]

theorem read_slice {i : Nat} (hi : i < 6) (hp : (s.die (16 + i)).present = true) {n : Nat} (hr : WholeRegister .slice off n) :
    windowRead s (endpoint (16 + i) 125) off n = leBytes n (readSlice (s.slice i) off) := by
  have hw := windowOf_slice hi hp
  have hed : epDie (endpoint (16 + i) 125) = 16 + i := epDie_endpoint (by omega) (by decide)
  rw [windowRead_register (hw ▸ hr), readReg, hw]
  simp only [hed, Nat.add_sub_cancel_left]

/-- Registers that take no write while the slice serves (R120). -/
theorem writeSlice_on {i v : Nat} (h : (s.slice i).dsize.getLsbD 31 = true) (ho : off ∈ [0x00, 0x28, 0x30]) : writeSlice s i off v = s := by
  simp only [List.mem_cons, List.not_mem_nil, or_false] at ho
  rcases ho with rfl | rfl | rfl
  · simp only [writeSlice, h, if_true]
  · rfl
  · simp only [writeSlice, h, if_true]

theorem write_slice_on {i : Nat} (hi : i < 6) (hp : (s.die (16 + i)).present = true) (h : (s.slice i).dsize.getLsbD 31 = true) {bs : List Byte} (h0 : bs ≠ [])
    {r n : Nat} (hr : ∀ j < bs.length, regAt .slice (off + j) = (r, n)) (ho : r ∈ [0x00, 0x28, 0x30]) :
    exec (.registerWrite (endpoint (16 + i) 125) off bs) s = .next s := by
  have hw := windowOf_slice hi hp
  have hed : epDie (endpoint (16 + i) 125) = 16 + i := epDie_endpoint (by omega) (by decide)
  show Host.Outcome.next ((windowWrite s _ _ off bs).getD s) = _
  obtain ⟨v, hv⟩ := windowWrite_within (s := s) (ep := endpoint (16 + i) 125) (who := hostWriter s) h0 (hw ▸ hr)
  rw [hv]
  simp only [writeReg, hw, hed, Nat.add_sub_cancel_left, writeSlice_on h ho, Option.getD_some]

theorem write_controller {d : Nat} (hd : d < 24) (hp : (s.die d).present = true) {v : Nat} (hr : WholeRegister .controller off 4) (hv : v < 2 ^ 32) :
    exec (.registerWrite (endpoint d 127) off (leBytes 4 v)) s = .next (writeController s d off v) := by
  have hw := windowOf_controller hd hp
  refine exec_registerWrite (hw ▸ hr) (by decide) hv ?_
  simp only [writeReg, hw, epDie_endpoint (show d < 32 by omega) (show 127 < 128 by decide)]

theorem write_host {d : Nat} (hd : d = 22 ∨ d = 23) (hp : (s.die d).present = true) {n v : Nat} (hr : WholeRegister .host off n) (h0 : 0 < n) (hv : v < 2 ^ (8 * n)) :
    exec (.registerWrite (endpoint d 122) off (leBytes n v)) s = .next (writeHost s off v) := by
  have hw := windowOf_host hd hp
  refine exec_registerWrite (hw ▸ hr) h0 hv ?_
  simp only [writeReg, hw]

end

/-! ### A write through the host's window (R163) -/

section
variable {s u : State} {ep : Nat} {who : Writer}

theorem host_writeDbgctl (v : Word) : (writeDbgctl s ep v).host = s.host := by
  unfold writeDbgctl
  split
  · exact (course_resumeStopped ..).host
  · rfl

theorem host_writeTabort (v : Word) : (writeTabort s ep v).host = s.host := by
  unfold writeTabort
  split
  · exact host_abortTeam ..
  · rfl

theorem host_writeCore (off v : Nat) : (writeCore s ep off v).host = s.host := by
  unfold writeCore
  split
  case h_3 => exact (course_praise ..).host
  case h_4 => exact (course_resumeTeam ..).host
  case h_9 => exact host_writeDbgctl ..
  case h_12 => exact host_writeTabort ..
  all_goals rfl

theorem host_sendHeld (s : State) : (sendHeld s).host = s.host := by
  refine host_foldl _ _ (fun u p => ?_) s
  split <;> rfl

theorem host_writeController (die off v : Nat) : (writeController s die off v).host = s.host := by
  unfold writeController
  split
  · rfl
  · split
    · exact host_sendHeld _
    · split <;> rfl

theorem posted_writeHost (off v : Nat) : (writeHost s off v).host.posted = s.host.posted := by
  unfold writeHost
  repeat' split
  all_goals rfl

theorem host_queueKick {asid root scope : Nat} {desc : DWord} (h : queueKick s ep asid root scope desc = some u) : u.host = s.host := by
  unfold queueKick at h
  split at h
  · cases h
  · cases h
    rfl

/-- At a link gateway no write of a register touches the requests of the host that wait. -/
theorem posted_writeReg {off v : Nat} (hd : 22 ≤ epDie ep) (h : writeReg s ep who off v = some u) : u.host.posted = s.host.posted := by
  have hslice : windowOf s ep ≠ .slice := fun hw => by
    unfold windowOf at hw
    dsimp only at hw
    rw [if_neg (by omega)] at hw
    revert hw
    repeat' split
    all_goals simp
  unfold writeReg at h
  dsimp only at h
  split at h
  case h_1 =>
    split at h
    · split at h
      · exact congrArg HostPort.posted (host_queueKick h)
      · cases h; rfl
    · cases h
      exact congrArg HostPort.posted (host_writeCore ..)
  case h_2 =>
    split at h
    · exact congrArg HostPort.posted (host_queueKick h)
    · cases h; rfl
  case h_3 =>
    split at h <;> cases h <;> rfl
  case h_4 hw => exact absurd hw hslice
  case h_5 =>
    cases h
    exact congrArg HostPort.posted (host_writeController ..)
  case h_6 =>
    cases h
    exact posted_writeHost ..
  case h_7 =>
    cases h
    rfl

theorem posted_windowWrite {off : Nat} {bs : List Byte} (hd : 22 ≤ epDie ep) (h : windowWrite s ep who off bs = some u) : u.host.posted = s.host.posted := by
  have main : ∀ (l : List (Nat × Nat)) (r : Option State) (f : State → Nat × Nat → Option State), (∀ x s1 u, f s1 x = some u → u.host.posted = s1.host.posted) →
      (∀ u, r = some u → u.host.posted = s.host.posted) → ∀ u, l.foldl (fun r x => r.bind (fun s1 => f s1 x)) r = some u → u.host.posted = s.host.posted := by
    intro l
    induction l with
    | nil => intro r f _ hr u hu; exact hr u hu
    | cons x l ih =>
      intro r f hf hr u hu
      refine ih _ f hf (fun w hw => ?_) u hu
      obtain ⟨s1, h1, h2⟩ := Option.bind_eq_some_iff.mp hw
      exact (hf x s1 w h2).trans (hr s1 h1)
  exact main _ (some s) _ (fun x s1 u hu => posted_writeReg hd hu) (fun u hu => by cases hu; rfl) u h

/-- An address in BAR0's window of a link gateway's endpoint names the register there. -/
theorem hostTarget_window {off n : Nat} (h22 : 22 ≤ epDie ep) (h24 : epDie ep < 24) (hp : epPackage ep = 0) (hn : 0 < n) (ho : off + n ≤ 0x10000) :
    hostTarget s (0xF0000000000 + epDie ep * 0x1000000 + epLocal ep * 0x10000 + off) n = .register ep off := by
  have hl : epLocal ep < 128 := Nat.mod_lt _ (by decide)
  have hep : endpoint (epDie ep) (epLocal ep) = ep := by
    simp only [epPackage, epDie, epLocal, endpoint, Config.package] at *
    omega
  generalize epDie ep = d at *
  generalize epLocal ep = l at *
  have hw : windowAt (0xF0000000000 + d * 0x1000000 + l * 0x10000 + off) = some (d, l) := by
    have hx : (0xF0000000000 + d * 0x1000000 + l * 0x10000 + off) % 2 ^ 44 - 0xF0000000000 = d * 0x1000000 + l * 0x10000 + off := by omega
    simp only [windowAt, hx]
    rw [if_pos (by omega), show (d * 0x1000000 + l * 0x10000 + off) / 0x1000000 = d by omega,
      show (d * 0x1000000 + l * 0x10000 + off) / 0x10000 % 128 = l by omega]
  rw [hostTarget, if_pos (by omega), hw]
  simp only [hep]
  rw [show (0xF0000000000 + d * 0x1000000 + l * 0x10000 + off) % 0x10000 = off by omega]

end

/-! ### O57 -/

/-- What a list holds at a place is changed there. -/
theorem modify_of_getElem? {α : Type} {l : List α} {i : Nat} {a : α} {f : α → α} (h : l[i]? = some a) : l.modify i f = l.set i (f a) := by
  refine List.ext_getElem? fun j => ?_
  rw [List.getElem?_modify, List.getElem?_set]
  split
  · next hj =>
    subst hj
    obtain ⟨hi, ha⟩ := List.getElem?_eq_some_iff.mp h
    simp [hi, ha]
  · simp

section
variable {s : State}

/-- Core registers (R47, R48, R50, R340, R346, R397). -/
theorem coreRegisters {ep : Nat} (hc : s.isCore ep = true) (v : Word) (x : DWord) :
    let w (off : Nat) : Host.Outcome State Fault Refusal := exec (.registerWrite ep off (leBytes 4 v.toNat)) s
    w 0x000 = .next (s.updCore ep (fun c => { c with xctl := v &&& 0xFFFF01FF#32 })) ∧ w 0x004 = .next (s.updCore ep (fun c => { c with pdline := v &&& 0x00FFFFFF#32 })) ∧
      w 0x040 = .next (s.updCore ep (fun c => { c with spool := v &&& 0x03FF01FF#32 })) ∧ w 0x044 = .next (s.updCore ep (fun c => { c with qdepth := v })) ∧
      w 0x04C = .next (s.updCore ep (fun c => { c with allowcfg := v &&& 0x03FF000F#32 })) ∧ w 0x080 = .next (s.updCore ep (fun c => { c with fewait := v &&& 0x00FFFFFF#32 })) ∧
      exec (.registerWrite ep 0x050 (leBytes 8 x.toNat)) s = .next (s.updCore ep (fun c => { c with tvec := x &&& 0x00FFFFFFFFFFFFFC#64 })) ∧
      w 0x060 = exec (.perfsel ep v) s ∧ w 0x064 = exec (.perfclr ep v) s ∧ w 0x078 = exec (.mxclr ep v) s ∧
      w 0x00C = .next s ∧ w 0x048 = .next s ∧ w 0x084 = .next s := by
  intro w
  have hw : ∀ off, WholeRegister .core off 4 → off ≠ 0x800 → w off = .next (writeCore s ep off v.toNat) :=
    fun off hr hk => write_core hc hr (by decide) hk v.isLt
  have hv : BitVec.ofNat 32 v.toNat = v := BitVec.ofNat_toNat .. |>.trans (BitVec.setWidth_eq v)
  have hx : BitVec.ofNat 64 x.toNat = x := BitVec.ofNat_toNat .. |>.trans (BitVec.setWidth_eq x)
  rw [write_core hc (n := 8) (by decide) (by decide) (by decide) x.isLt]
  rw [hw 0x000 (by decide) (by decide), hw 0x004 (by decide) (by decide), hw 0x040 (by decide) (by decide), hw 0x044 (by decide) (by decide),
    hw 0x04C (by decide) (by decide), hw 0x080 (by decide) (by decide), hw 0x060 (by decide) (by decide), hw 0x064 (by decide) (by decide),
    hw 0x078 (by decide) (by decide), hw 0x00C (by decide) (by decide), hw 0x048 (by decide) (by decide), hw 0x084 (by decide) (by decide)]
  simp only [writeCore, hv, hx]
  exact ⟨trivial, trivial, trivial, trivial, trivial, trivial, trivial, rfl, rfl, rfl, trivial, trivial, trivial⟩

/-- Slice registers (R120, R122). -/
theorem sliceRegisters {i : Nat} (hi : i < 6) (hp : (s.die (16 + i)).present = true) (v : Word) (x : DWord) :
    let ep := endpoint (16 + i) 125
    let w (off : Nat) : Host.Outcome State Fault Refusal := exec (.registerWrite ep off (leBytes 4 v.toNat)) s
    ((s.slice i).dsize.getLsbD 31 = true → ∀ off, off ∈ [0x00, 0x28, 0x34] → w off = .next s) ∧
      ((s.slice i).dsize.getLsbD 31 = false → w 0x00 = .next (s.updSlice i (fun y => { y with dctl := v })) ∧
        exec (.registerWrite ep 0x08 (leBytes 8 x.toNat)) s = .next (s.updSlice i (fun y => { y with ttbase := x &&& 0x000FFFFFFFFFF000#64 })) ∧
        exec (.registerWrite ep 0x10 (leBytes 8 x.toNat)) s = .next (s.updSlice i (fun y => { y with plbase := x &&& 0x000FFFFFFFFFF000#64 })) ∧
        exec (.registerWrite ep 0x18 (leBytes 8 x.toNat)) s = .next (s.updSlice i (fun y => { y with fqbase := x &&& 0x000FFFFFFFFFF000#64 })) ∧
        exec (.registerWrite ep 0x30 (leBytes 8 x.toNat)) s = .next (s.updSlice i (fun y => { y with pkbase := x &&& 0x000FFFFFFFFFF000#64 }))) ∧
      w 0x20 = .next (s.updSlice i (fun y => { y with fqhead := v })) ∧ w 0x04 = exec (.dsize i v) s ∧ w 0x40 = exec (.repage i v) s ∧
      windowRead s ep 0x04 4 = leBytes 4 (s.slice i).dsize.toNat ∧ windowRead s ep 0x24 4 = leBytes 4 (s.slice i).fqtail.toNat := by
  intro ep w
  have hw : ∀ off, WholeRegister .slice off 4 → w off = .next (writeSlice s i off v.toNat) := fun off hr => write_slice hi hp hr (by decide) v.isLt
  have hx : ∀ off, WholeRegister .slice off 8 → exec (.registerWrite ep off (leBytes 8 x.toNat)) s = .next (writeSlice s i off x.toNat) :=
    fun off hr => write_slice hi hp hr (by decide) x.isLt
  have hv : BitVec.ofNat 32 v.toNat = v := BitVec.ofNat_toNat .. |>.trans (BitVec.setWidth_eq v)
  have hb : baseBits x.toNat = x &&& 0x000FFFFFFFFFF000#64 := by simp [baseBits]
  refine ⟨fun h off ho => ?_, fun h => ?_, ?_, ?_, ?_, read_slice hi hp (by decide), read_slice hi hp (by decide)⟩
  · have hne : leBytes 4 v.toNat ≠ [] := fun h => by cases h
    simp only [List.mem_cons, List.not_mem_nil, or_false] at ho
    rcases ho with rfl | rfl | rfl
    · exact write_slice_on hi hp h hne (r := 0x00) (n := 4) (by rw [leBytes_length]; decide) (by decide)
    · exact write_slice_on hi hp h hne (r := 0x28) (n := 4) (by rw [leBytes_length]; decide) (by decide)
    · exact write_slice_on hi hp h hne (r := 0x30) (n := 8) (by rw [leBytes_length]; decide) (by decide)
  · rw [hw _ (by decide), hx _ (by decide), hx _ (by decide), hx _ (by decide), hx _ (by decide)]
    simp only [writeSlice, h, hb, Bool.false_eq_true, if_false, BitVec.ofNat_toNat, BitVec.setWidth_eq, and_self]
  · rw [hw _ (by decide)]
    simp [writeSlice]
  · rw [hw _ (by decide), writeSlice, hv]
    rfl
  · rw [hw _ (by decide), writeSlice, hv]
    rfl

/-- Registers of a die controller (R152, R155). -/
theorem controllerRegisters {d : Nat} (hd : d < 24) (hp : (s.die d).present = true) (v : Word) :
    let ep := endpoint d 127
    let w (off : Nat) : Host.Outcome State Fault Refusal := exec (.registerWrite ep off (leBytes 4 v.toNat)) s
    windowRead s ep 0 4 = leBytes 4 (s.die d).inc ∧ w 0 = .next s ∧
      ∀ n q, d = 22 ∨ d = 23 → n < 8 → s.pkg.ports[(d - 22) * 8 + n]? = some q → w (0x100 + 4 * n) =
        .next (sendHeld (s.updPkg (fun k => { k with ports := k.ports.set ((d - 22) * 8 + n) { q with cfg := v &&& 0x800101FF#32, up := q.up && v.getLsbD 31 } }))) := by
  intro ep w
  have hw := windowOf_controller hd hp
  refine ⟨?_, ?_, fun n q hg hn hq => ?_⟩
  · rw [windowRead_register (hw ▸ (by decide : WholeRegister .controller 0 4)), readReg, hw]
    simp only [ep, epDie_endpoint (show d < 32 by omega) (show 127 < 128 by decide), readController, if_true]
  · show exec _ s = _
    rw [write_controller hd hp (by decide) v.isLt]
    simp [writeController]
  · show exec _ s = _
    have hr : ∀ n < 8, WholeRegister .controller (0x100 + 4 * n) 4 := by decide
    rw [write_controller hd hp (hr n hn) v.isLt, writeController, if_neg (by omega), if_pos (by omega), show (0x100 + 4 * n - 0x100) / 4 = n by omega, setPortcfg]
    simp only [BitVec.ofNat_toNat, BitVec.setWidth_eq, State.updPkg, modify_of_getElem? hq]

/-- Registers of the host port agent (R165, R366). -/
theorem hostRegisters {d : Nat} (hd : d = 22 ∨ d = 23) (hp : (s.die d).present = true) (v : Word) (x : DWord) :
    let ep := endpoint d 122
    let w (off : Nat) : Host.Outcome State Fault Refusal := exec (.registerWrite ep off (leBytes 4 v.toNat)) s
    w 0x08C = exec (.evhead v) s ∧ w 0x040 = .next s ∧
      ∀ q, q < 16 → exec (.registerWrite ep (0x100 + 16 * q) (leBytes 8 x.toNat)) s = exec (.crbase q x) s := by
  intro ep w
  have hv : BitVec.ofNat 32 v.toNat = v := BitVec.ofNat_toNat .. |>.trans (BitVec.setWidth_eq v)
  have hx : BitVec.ofNat 64 x.toNat = x := BitVec.ofNat_toNat .. |>.trans (BitVec.setWidth_eq x)
  refine ⟨?_, ?_, fun q hq => ?_⟩
  · show exec _ s = _
    rw [write_host hd hp (n := 4) (by decide) (by decide) v.isLt, writeHost, hv]
    rfl
  · show exec _ s = _
    rw [write_host hd hp (n := 4) (by decide) (by decide) v.isLt]
    simp [writeHost]
  · have hr : ∀ q < 16, WholeRegister .host (0x100 + 16 * q) 8 := by decide
    rw [write_host hd hp (hr q hq) (by decide) x.isLt, writeHost, if_neg (by omega), if_neg (by omega), if_pos (by omega),
      show (0x100 + 16 * q - 0x100) / 16 = q by omega, hx]
    rfl

/-- A posted write of the host to a register of a link gateway is that write (R163). -/
theorem hostPostedWrite_register {ep off : Nat} {data : List Byte} (hg : ¬ HostGone s) (hp : s.host.posted = []) (hw : windowWrite s ep (hostWriter s) off data ≠ none)
    (h22 : 22 ≤ epDie ep) (h24 : epDie ep < 24) (hpk : epPackage ep = 0) (hn : 0 < data.length) (ho : off + data.length ≤ 0x10000) :
    exec (.hostPostedWrite (0xF0000000000 + epDie ep * 0x1000000 + epLocal ep * 0x10000 + off) data false) s = exec (.registerWrite ep off data) s := by
  obtain ⟨hb, hl⟩ := (not_hostGone_iff s).mp hg
  obtain ⟨u, hu⟩ := Option.ne_none_iff_exists'.mp hw
  have ht := hostTarget_window (s := s) h22 h24 hpk hn ho
  rw [exec_hostPostedWrite hp hl ((postedWrite_register hb ht).trans hu) ((posted_windowWrite h22 hu).trans hp)]
  show _ = Host.Outcome.next ((windowWrite s ep (hostWriter s) off data).getD s)
  rw [hu]
  rfl

end

/-- Settles O57: every register is one that its window's bytes cover whole, so a write is that of the register and a read gives its bytes. -/
theorem registersTakeTheirFields : Obligations.RegistersTakeTheirFields := by
  intro s ep v x w
  refine ⟨⟨_, rfl, by simp [writePerfsel], fun n hn => perf_writePerfsel s ep v hn⟩, ⟨_, rfl, by simp [writePerfclr], fun n hn => perf_writePerfclr s ep v hn⟩,
    ⟨_, rfl, fun n hn => mxexc_writeMxclr s ep v hn⟩, rfl, fun q r hr => ⟨_, rfl, ?_, rfl⟩, fun hc _ _ _ => ?_, fun i hi he hp => ?_, fun d hd hp he => ?_,
    fun d hd hp he => ?_, fun off data hg hp hw h22 h24 hpk hn ho => hostPostedWrite_register hg hp hw h22 h24 hpk hn ho⟩
  · exact modify_of_getElem? hr
  · obtain ⟨h1, h2, h3, h4, h5, h6, h7, h8, h9, h10, h11, h12, h13⟩ := coreRegisters hc v x
    refine ⟨h1, h2, h3, h4, h5, h6, h7, h8, h9, h10, h11, h12, h13, fun off f hf => ?_, read_core hc (by decide), read_core hc (by decide)⟩
    simp only [List.mem_cons, Prod.mk.injEq, List.not_mem_nil, or_false] at hf
    rcases hf with ⟨rfl, rfl⟩ | ⟨rfl, rfl⟩ | ⟨rfl, rfl⟩ | ⟨rfl, rfl⟩ | ⟨rfl, rfl⟩ | ⟨rfl, rfl⟩ | ⟨rfl, rfl⟩ <;> exact read_core hc (by decide)
  · subst he
    exact sliceRegisters hi hp v x
  · subst he
    exact controllerRegisters hd hp v
  · subst he
    exact hostRegisters hd hp v x

end Sys2Proof.ExecutionLaws
end

section
/-! PROOFS. Packets and queues: what a packet carries once it has left, what its arrival does (R152, R156), and what the acceptance of an entry leaves of its core
(R33, R119, R439). -/

namespace Sys2Proof.ExecutionLaws

open Sys2Proof Sys2Proof.Machine Sys2Proof.Claims Sys2Proof.HostLaws

/-! ### Packets that leave (R143, R155) -/

/-- The packet on its way says what its sender gave it to say. -/
structure Carries (p r : Packet) : Prop where
  cls : r.cls = p.cls
  typ : r.typ = p.typ
  src : r.src = p.src
  dst : r.dst = p.dst
  seq : r.seq = p.seq
  deriv : r.deriv = p.deriv
  origin : r.origin = p.origin
  body : r.body = p.body

/-- A packet goes by an enabled port. -/
theorem portFor_lt {s : State} {src dst n : Nat} (h : portFor s src dst = some n) : n < s.pkg.ports.length := by
  have hports : ∀ gw pkg, n ∈ portsOf s gw pkg → n < s.pkg.ports.length := fun gw pkg hm => by
    simp only [portsOf, List.mem_filter, Bool.and_eq_true] at hm
    by_contra hlt
    have hr : s.pkg.ports.getD n Port.reset = Port.reset := by simp [not_lt.mp hlt]
    rw [hr] at hm
    exact absurd hm.2.2 (by decide)
  simp only [portFor, portFrom] at h
  have hm := List.mem_of_getElem? h
  split at hm
  · exact hports _ _ hm
  · exact hports _ _ hm

/-- A packet that is no control packet to a die that is gone is on its way. -/
theorem inFlight_inject {s : State} {p : Packet} (h : p.cls ≠ 0 ∨ (s.die (epDie p.dst)).present = true) : InFlight (s.inject p) (Carries p) := by
  have hdrop : (p.cls == 0 && epPackage p.dst == Config.package && !(s.die (epDie p.dst)).present) = false := by
    rcases h with h | h
    · simp [h]
    · simp [h]
  simp only [State.inject, hdrop, Bool.false_eq_true, if_false]
  have hput : ∀ (m : NMap Packet) (k : Nat) (r : Packet), r ∈ NMap.vals (m.put k r) := fun m k r =>
    List.mem_map.mpr ⟨_, mem_of_find (NMap.find_put_same m k r), rfl⟩
  split
  · exact ⟨_, .inl (hput ..), ⟨rfl, rfl, rfl, rfl, rfl, rfl, rfl, rfl⟩⟩
  · split
    · next port hp =>
      refine ⟨_, .inr ⟨_, List.mem_set (portFor_lt hp) _, List.mem_append_right _ (List.mem_singleton.mpr rfl)⟩, ⟨rfl, rfl, rfl, rfl, rfl, rfl, rfl, rfl⟩⟩
    · exact ⟨_, .inl (hput ..), ⟨rfl, rfl, rfl, rfl, rfl, rfl, rfl, rfl⟩⟩

theorem InFlight.mono {s : State} {a b : Packet → Prop} (h : InFlight s a) (hab : ∀ r, a r → b r) : InFlight s b := by
  obtain ⟨r, hr, ha⟩ := h
  exact ⟨r, hr, hab r ha⟩

theorem core_inject (s : State) (p : Packet) (ep : Nat) : (s.inject p).core ep = s.core ep := by
  simp only [State.inject]
  split
  · rfl
  · split
    · rfl
    · split <;> rfl

theorem fresh_inject (s : State) (p : Packet) : s.fresh ≤ (s.inject p).fresh := by
  simp only [State.inject]
  split
  · exact le_rfl
  · split
    · exact Nat.le_succ _
    · split
      · exact le_rfl
      · exact Nat.le_succ _

/-- A packet listed under a key that is not the fresh one stays. -/
theorem find_inject_other {s : State} {p r : Packet} {k : Nat} (h : s.packets.find k = some r) (hk : k ≠ s.fresh) : (s.inject p).packets.find k = some r := by
  simp only [State.inject]
  split
  · exact h
  · split
    · rw [NMap.find_put_other _ _ hk, h]
    · split
      · exact h
      · rw [NMap.find_put_other _ _ hk, h]

/-- A packet of this package that is no control packet is listed under the fresh key. -/
theorem find_inject_same {s : State} {p : Packet} (hc : p.cls ≠ 0) (hd : epPackage p.dst = Config.package) :
    (∃ r, (s.inject p).packets.find s.fresh = some r ∧ Carries p r) ∧ (s.inject p).fresh = s.fresh + 1 := by
  have hc' : (p.cls == 0) = false := by simpa using hc
  simp only [State.inject, hc', hd, Bool.false_and, beq_self_eq_true, Bool.false_eq_true, if_false, if_true]
  exact ⟨⟨_, NMap.find_put_same .., ⟨rfl, rfl, rfl, rfl, rfl, rfl, rfl, rfl⟩⟩, trivial⟩

theorem inFlight_of_find {s : State} {r : Packet} {k : Nat} {has : Packet → Prop} (h : s.packets.find k = some r) (hr : has r) : InFlight s has :=
  ⟨r, .inl (List.mem_map.mpr ⟨_, mem_of_find h, rfl⟩), hr⟩

/-! ### Arrival (R149, R152) -/

/-- A packet that is at hand and not stale is acted on, where its kind is the row's. -/
theorem arrive_eq {s : State} {p : Packet} {accept : Packet → Bool} {act : State → Nat → Packet → Option State} (h : AtHand s p) (hs : ¬ Stale s p)
    (ha : accept p = true) : arrive s accept act = (act (gone s) s.obj p).getD s := by
  obtain ⟨hf, hpkg, hdie, hb⟩ := h
  have ho : overtakes s s.obj p = false := by
    by_contra hne
    have ht := (Bool.not_eq_false _).mp hne
    simp only [overtakes, Bool.and_eq_true, List.any_eq_true, decide_eq_true_eq, beq_iff_eq] at ht
    obtain ⟨h1, q, hq, ⟨⟨⟨h2, h3⟩, h4⟩, h5⟩, h6⟩ := ht
    exact hb ⟨h1, q, hq, h2, h3, h4, h5, h6⟩
  have hst : (!p.far && p.typ != 0x09 && ((s.die (epDie p.dst)).known.find (epPackage p.src * 32 + epDie p.src)).getD 0 != p.inc) = false := by
    by_contra hne
    have ht := (Bool.not_eq_false _).mp hne
    simp only [Bool.and_eq_true, Bool.not_eq_true', bne_iff_ne] at ht
    exact hs ⟨ht.1.1, ht.1.2, ht.2⟩
  simp only [arrive, hf, ha, ho, hpkg, hdie, hst]
  simp [gone]

/-! ### The answer to the sender (R33, R408) -/

/-- A reply is on its way. -/
theorem replied_reply (s : State) (p : Packet) (typ : Nat) (body : Body) : Replied (s.reply p typ body) p typ body :=
  InFlight.mono (inFlight_inject (.inl (by simp [mkPacket]))) fun _ ⟨hc, ht, hs, hd, hq, _, _, hb⟩ => ⟨hc, ht, hs, hd, hq, hb⟩

theorem core_reply (s : State) (p : Packet) (typ : Nat) (body : Body) (ep : Nat) : (s.reply p typ body).core ep = s.core ep := core_inject ..
theorem core_ctl (s : State) (src dst typ : Nat) (body : Body) (ep : Nat) : (s.ctl src dst typ body).core ep = s.core ep := core_inject ..

/-- What a core has sunk changes no queue and no treelet of it. -/
theorem queues_sinkPacket (s : State) (p : Packet) (ep : Nat) :
    (∀ q, ((sinkPacket s p).core ep).queue q = (s.core ep).queue q) ∧ ((sinkPacket s p).core ep).pool = (s.core ep).pool := by
  have hupd : ∀ (f : Core → Core), (∀ c, (∀ q, (f c).queue q = c.queue q) ∧ (f c).pool = c.pool) →
      (∀ q, ((s.updCore p.dst f).core ep).queue q = (s.core ep).queue q) ∧ ((s.updCore p.dst f).core ep).pool = (s.core ep).pool := fun f hf => by
    by_cases he : ep = p.dst
    · subst he
      simp only [State.core_updCore_same]
      exact hf _
    · simp [State.core_updCore_other _ _ he]
  have hsunk : ∀ (m : NMap (Nat × Nat)) (c : Core), (∀ q, ({ c with sunk := m } : Core).queue q = c.queue q) ∧ ({ c with sunk := m } : Core).pool = c.pool := fun m c =>
    ⟨fun q => by rcases q with _ | _ | _ | q <;> rfl, rfl⟩
  simp only [sinkPacket, sink]
  split
  · split
    · exact ⟨fun _ => rfl, rfl⟩
    · split
      · rw [core_ctl]
        exact hupd _ fun c => hsunk _ c
      · exact hupd _ fun c => hsunk _ c
  · exact ⟨fun _ => rfl, rfl⟩

theorem packets_sinkPacket {s : State} {p r : Packet} {k : Nat} (h : s.packets.find k = some r) (hk : k ≠ s.fresh) : (sinkPacket s p).packets.find k = some r := by
  simp only [sinkPacket, sink]
  split
  · split
    · exact h
    · split
      · exact find_inject_other (by exact h) hk
      · exact h
  · exact h

/-- A state whose queues of a core and whose pool are another's. -/
structure SameQueues (s s' : State) (ep : Nat) : Prop where
  queue : ∀ q, (s'.core ep).queue q = (s.core ep).queue q
  pool : (s'.core ep).pool = (s.core ep).pool

/-- An accepted enqueue is acknowledged, without data by TYPE 0x21. -/
theorem answerSender_accepted (s u : State) (p : Packet) (th op : Nat) (data : List Byte) : ∃ s', answerSender s p th op (.accepted u) data = some s' ∧ SameQueues u s' p.dst ∧
    (data = [] → Told s' p th op) ∧ (data ≠ [] → th ≠ 0 → Replied s' p 0x20 (.data data th op)) := by
  obtain ⟨hq, hp⟩ := queues_sinkPacket u p p.dst
  by_cases h0 : th = 0
  · exact ⟨sinkPacket u p, by simp [answerSender, h0], ⟨hq, hp⟩, fun _ h => absurd h0 h, fun _ h => absurd h0 h⟩
  · by_cases hd : data = []
    · refine ⟨(sinkPacket u p).reply p 0x21 (.acknowledgment th op), by simp [answerSender, h0, hd], ?_, fun _ _ => replied_reply .., fun h => absurd hd h⟩
      rw [← core_reply (sinkPacket u p) p 0x21 (.acknowledgment th op)] at hq hp
      exact ⟨hq, hp⟩
    · refine ⟨(sinkPacket u p).reply p 0x20 (.data data th op), by simp [answerSender, h0, hd], ?_, fun h => absurd h hd, fun _ _ => replied_reply ..⟩
      rw [← core_reply (sinkPacket u p) p 0x20 (.data data th op)] at hq hp
      exact ⟨hq, hp⟩

theorem remoteInfo_zero (ep : Nat) : remoteInfo ep 0 = BitVec.ofNat 64 (ep * 2 ^ 32) := by simp [remoteInfo]

/-- A refused enqueue changes no queue, and its sender is told. -/
theorem answerSender_refused (s : State) (p : Packet) (th op : Nat) (data : List Byte) :
    ∃ s', answerSender s p th op .refused data = some s' ∧ SameQueues s s' p.dst ∧ Declined s' p th op := by
  obtain ⟨hq, hp⟩ := queues_sinkPacket s p p.dst
  by_cases h0 : th = 0
  · exact ⟨sinkPacket s p, by simp [answerSender, h0], ⟨hq, hp⟩, fun h => absurd h0 h⟩
  · refine ⟨refuse (sinkPacket s p) p 0x27 (remoteInfo p.dst 0) th op, by simp [answerSender, h0], ?_, fun _ => ?_⟩
    · rw [← core_reply (sinkPacket s p) p 0x22 (.refusal 0x27 (remoteInfo p.dst 0) th op)] at hq hp
      exact ⟨hq, hp⟩
    · rw [← remoteInfo_zero]
      exact replied_reply ..

theorem answerSender_full (s : State) (p : Packet) (th op : Nat) (data : List Byte) : answerSender s p th op .full data = none := rfl

/-! ### Acceptance (R33, R119, R439) -/

theorem queue_setQueue_same (c : Core) (q : Nat) (v : Queue) : (c.setQueue q v).queue q = v := by rcases q with _ | _ | _ | q <;> rfl

theorem pool_setQueue (c : Core) (q : Nat) (v : Queue) : (c.setQueue q v).pool = c.pool := by rcases q with _ | _ | _ | q <;> rfl

theorem queue_updQueue (s : State) (ep q : Nat) (f : Queue → Queue) : ((s.updQueue ep q f).core ep).queue q = f ((s.core ep).queue q) := by
  rw [State.updQueue, State.core_updCore_same, queue_setQueue_same]

theorem pool_updQueue (s : State) (ep q : Nat) (f : Queue → Queue) : ((s.updQueue ep q f).core ep).pool = (s.core ep).pool := by
  rw [State.updQueue, State.core_updCore_same, pool_setQueue]

theorem sameQueues_perfCount (s : State) (ep code n : Nat) : SameQueues s (perfCount s ep code n) ep := by
  simp only [perfCount]
  split
  · exact ⟨fun _ => rfl, rfl⟩
  · constructor
    · intro q
      rw [State.core_updCore_same]
      rcases q with _ | _ | _ | q <;> rfl
    · rw [State.core_updCore_same]

theorem core_touchL2 (s : State) (pa hint ep : Nat) : (touchL2 s pa hint).core ep = s.core ep := by rw [touchL2_eq_dies]; rfl

theorem core_writeRings (s : State) (ep q : Nat) (e : Entry) (state k : Nat) : (writeRings s ep q e state).core k = s.core k :=
  core_touchL2 s (ringAddress ((s.core ep).queue q) e.ringSlot) 0 k

theorem core_sendSpill (s : State) (ep q : Nat) (e : Entry) (k : Nat) : (sendSpill s ep q e).core k = s.core k := by
  simp only [sendSpill]
  split <;> split
  · rfl
  · rw [core_inject]
  · rw [core_inject]
  · rw [core_inject, core_inject]

/-- What acceptance keeps of the entry that it is given. -/
structure Stored (e x : Entry) : Prop where
  typ : x.typ = e.typ
  bytes : x.bytes = e.bytes
  prio : x.prio = e.prio
  src : x.src = e.src
  deriv : x.deriv = e.deriv
  live : x.live = e.live
  wide : x.wide = e.wide
  key : x.key = e.key

/-- The entry as its queue holds it once accepted. -/
def enqueued (s : State) (ep q : Nat) (e : Entry) : Entry :=
  let c := s.core ep
  let u := c.queue q
  let place := if (NMap.vals u.entries).any (fun x => x.slot.isNone && !x.live) then none else freePlace c q
  Machine.withRecord ep q u { e with order := u.next, slot := place, ring := place.isNone, ringSlot := freeRingSlot u, arrived := c.cycles }

theorem stored_enqueued (s : State) (ep q : Nat) (e : Entry) : Stored e (enqueued s ep q e) := by
  simp only [enqueued, Machine.withRecord]
  split <;> exact ⟨rfl, rfl, rfl, rfl, rfl, rfl, rfl, rfl⟩

/-- A queue with an entry at its end. -/
def appendEntry (u : Queue) (x : Entry) : Queue := { u with entries := u.entries.put u.next x, next := u.next + 1 }

theorem core_acceptEntry (s : State) (ep q : Nat) (e : Entry) (k : Nat) :
    (acceptEntry s ep q e).core k = ((if q = 1 then perfCount s ep 15 1 else s).updQueue ep q (fun u => appendEntry u (enqueued s ep q e))).core k := by
  simp only [acceptEntry]
  split
  · rw [core_writeRings]; rfl
  · rw [core_sendSpill, core_writeRings]; rfl

/-- An accepted entry is the last of its queue, which keeps the rest of itself. -/
theorem queue_acceptEntry (s : State) (ep q : Nat) (e : Entry) :
    ((acceptEntry s ep q e).core ep).queue q = appendEntry ((s.core ep).queue q) (enqueued s ep q e) ∧ ((acceptEntry s ep q e).core ep).pool = (s.core ep).pool := by
  have hcount : SameQueues s (if q = 1 then perfCount s ep 15 1 else s) ep := by
    split
    · exact sameQueues_perfCount ..
    · exact ⟨fun _ => rfl, rfl⟩
  rw [core_acceptEntry, queue_updQueue, pool_updQueue, hcount.queue, hcount.pool]
  exact ⟨rfl, rfl⟩

/-- A queue has accepted what stands at its end. -/
theorem accepted_of_append {g s' : State} {ep q : Nat} {u : Queue} {e x : Entry} (h : (s'.core ep).queue q = appendEntry u x) (hu : u.next = ((g.core ep).queue q).next)
    (hx : Stored e x) (hl : e.live = false) : Accepted g s' ep q e.typ e.bytes e.prio e.src e.deriv := by
  refine ⟨x, ?_, hx.typ, hx.bytes, hx.prio, hx.src, hx.deriv, hx.live.trans hl, ?_⟩
  · rw [h, ← hu]
    exact NMap.find_put_same ..
  · rw [h, ← hu]
    rfl

/-! ### Delivery (R33, R442) -/

section
variable {s : State} {ep q : Nat} {e : Entry} {parent : Option DWord}

theorem ringFull_of_accepts (h : Accepts s ep q) : ringFull ((s.core ep).queue q) = false := by
  obtain ⟨-, -, -, hr⟩ := h
  simpa [ringFull] using hr

theorem deliver_unbound (h : ((s.core ep).queue q).bound = false) : deliver s ep q e parent = .refused := by simp [deliver, h]

theorem deliver_ringFull (hb : ((s.core ep).queue q).bound = true) (h : 2 ^ ((s.core ep).queue q).ringLog ≤ ((s.core ep).queue q).entries.length) :
    deliver s ep q e parent = .full := by simp [deliver, hb, ringFull, h]

/-- A bound queue with room and no spill write under way takes the entry. -/
theorem deliver_room (hb : ((s.core ep).queue q).bound = true) (hs : spilling s ep q = false) (hl : ((s.core ep).queue q).entries.length < 2 ^ ((s.core ep).queue q).ringLog) :
    deliver s ep q e none = .accepted (acceptEntry s ep q e) := by
  have hr : ringFull ((s.core ep).queue q) = false := by simpa [ringFull] using hl
  simp [deliver, hb, hs, hr]

theorem deliver_fresh (h : Accepts s ep q) : deliver s ep q e none = .accepted (acceptEntry s ep q e) := by
  obtain ⟨-, hb, hs, hl⟩ := h
  exact deliver_room hb hs hl

theorem deliver_duplicate {d : DWord} (h : Accepts s ep q) (hd : ∃ x ∈ ((s.core ep).queue q).seen, x.1 = e.deriv) :
    deliver s ep q e (some d) = .accepted (s.corrected ep 0 0x6C ep 1) := by
  have hr := ringFull_of_accepts h
  obtain ⟨-, hb, hs, -⟩ := h
  have hdoubt : doubtful ((s.core ep).queue q) e.deriv = true := by simpa [doubtful] using hd
  simp [deliver, hb, hs, hr, hdoubt]

theorem deliver_doubted {d : DWord} (h : Accepts s ep q) (hd : ∀ x ∈ ((s.core ep).queue q).seen, x.1 ≠ e.deriv) (hl : ((s.core ep).queue q).seen.length < 4096) :
    deliver s ep q e (some d) = .accepted (acceptEntry (s.updQueue ep q (fun u => { u with seen := (e.deriv, d) :: u.seen })) ep q e) := by
  have hr := ringFull_of_accepts h
  obtain ⟨-, hb, hs, -⟩ := h
  have hdoubt : doubtful ((s.core ep).queue q) e.deriv = false := by simpa [doubtful] using hd
  simp [deliver, hb, hs, hr, hdoubt, Nat.not_le.mpr hl]

end

theorem core_corrected (s : State) (src cls code d0 n ep : Nat) : (s.corrected src cls code d0 n).core ep = s.core ep := by
  obtain ⟨p, h | ⟨k, h⟩⟩ := corrected_cases s src cls code d0 n <;> rw [h] <;> rfl

/-- The sender of an accepted entry is told, and the queue holds it at its end. -/
theorem answerSender_stored (s v : State) (p : Packet) (th op q : Nat) {e : Entry} (hl : e.live = false)
    (hn : ((v.core p.dst).queue q).next = ((s.core p.dst).queue q).next) :
    ∃ s', answerSender s p th op (.accepted (acceptEntry v p.dst q e)) [] = some s' ∧ Accepted s s' p.dst q e.typ e.bytes e.prio e.src e.deriv ∧
      (s'.core p.dst).queue q = appendEntry ((v.core p.dst).queue q) (enqueued v p.dst q e) ∧ (s'.core p.dst).pool = (v.core p.dst).pool ∧ Told s' p th op := by
  obtain ⟨s', hs', hsame, htold, -⟩ := answerSender_accepted s (acceptEntry v p.dst q e) p th op []
  obtain ⟨hqueue, hpool⟩ := queue_acceptEntry v p.dst q e
  have hq := (hsame.queue q).trans hqueue
  exact ⟨s', hs', accepted_of_append hq hn (stored_enqueued ..) hl, hq, hsame.pool.trans hpool, htold rfl⟩

/-! ### Hits and messages (R33, R408, R442) -/

section
variable {s : State} {p : Packet} {bs : List Byte} {q typ prio th op : Nat} {i : Instr}

theorem exec_entryArrival (hm : (q, typ, i) ∈ [(1, 0x40, Instr.hitArrival), (2, 0x41, Instr.messageArrival)]) (h : Arrives s typ p) :
    exec i s = .next ((entryArrives q (gone s) p).getD s) := by
  obtain ⟨hh, hs, ht⟩ := h
  simp only [List.mem_cons, Prod.mk.injEq, List.not_mem_nil, or_false] at hm
  rcases hm with ⟨rfl, rfl, rfl⟩ | ⟨rfl, rfl, rfl⟩
  · exact congrArg Host.Outcome.next (arrive_eq hh hs (by simp [ht]))
  · exact congrArg Host.Outcome.next (arrive_eq hh hs (by simp [ht]))

/-- A hit or message at a core is delivered to its queue. -/
theorem entryArrives_core (hb : p.body = .hit typ bs prio th op) (hc : s.isCore p.dst = true) :
    entryArrives q s p = answerSender s p th op (deliver s p.dst q (packetEntry p bs prio) p.parent) [] := by
  simp only [entryArrives, hb, hc, if_true]

theorem hitsAndMessagesEnter (hm : (q, typ, i) ∈ [(1, 0x40, Instr.hitArrival), (2, 0x41, Instr.messageArrival)]) (h : Arrives s typ p) (hb : p.body = .hit typ bs prio th op) :
    (Accepts (gone s) p.dst q → p.parent = none → ∃ s', exec i s = .next s' ∧ Accepted (gone s) s' p.dst q typ bs prio p.src p.deriv ∧ Told s' p th op) ∧
    (∀ d, Accepts (gone s) p.dst q → p.parent = some d → (∃ x ∈ (((gone s).core p.dst).queue q).seen, x.1 = p.deriv) →
      ∃ s', exec i s = .next s' ∧ ((s'.core p.dst).queue q).entries = ((s.core p.dst).queue q).entries ∧ Told s' p th op) ∧
    (∀ d, Accepts (gone s) p.dst q → p.parent = some d → (∀ x ∈ (((gone s).core p.dst).queue q).seen, x.1 ≠ p.deriv) → (((gone s).core p.dst).queue q).seen.length < 4096 →
      ∃ s', exec i s = .next s' ∧ Accepted (gone s) s' p.dst q typ bs prio p.src p.deriv ∧ (p.deriv, d) ∈ ((s'.core p.dst).queue q).seen ∧ Told s' p th op) ∧
    (s.isCore p.dst = true → ((s.core p.dst).queue q).bound = true → 2 ^ ((s.core p.dst).queue q).ringLog ≤ ((s.core p.dst).queue q).entries.length → exec i s = .next s) ∧
    (s.isCore p.dst = true → ((s.core p.dst).queue q).bound = false →
      ∃ s', exec i s = .next s' ∧ ((s'.core p.dst).queue q).entries = ((s.core p.dst).queue q).entries ∧ Declined s' p th op) := by
  have ht : (packetEntry p bs prio).typ = typ := h.2.2
  have hstep : ∀ r, s.isCore p.dst = true → deliver (gone s) p.dst q (packetEntry p bs prio) p.parent = r → exec i s = .next ((answerSender (gone s) p th op r []).getD s) :=
    fun r hc hr => by rw [exec_entryArrival hm h, entryArrives_core (s := gone s) hb hc, hr]
  refine ⟨?_, ?_, ?_, ?_, ?_⟩
  · intro ha hp
    obtain ⟨s', hs', hacc, -, -, htold⟩ := answerSender_stored (gone s) (gone s) p th op q (e := packetEntry p bs prio) rfl rfl
    rw [ht] at hacc
    exact ⟨s', by rw [hstep _ ha.1 (hp ▸ deliver_fresh ha), hs', Option.getD_some], hacc, htold⟩
  · intro d ha hp hd
    obtain ⟨s', hs', hsame, htold, -⟩ := answerSender_accepted (gone s) ((gone s).corrected p.dst 0 0x6C p.dst 1) p th op []
    refine ⟨s', by rw [hstep _ ha.1 (hp ▸ deliver_duplicate ha hd), hs', Option.getD_some], ?_, htold rfl⟩
    rw [hsame.queue, core_corrected]
    rfl
  · intro d ha hp hd hl
    obtain ⟨s', hs', hacc, hq, -, htold⟩ := answerSender_stored (gone s) ((gone s).updQueue p.dst q (fun u => { u with seen := (p.deriv, d) :: u.seen })) p th op q
      (e := packetEntry p bs prio) rfl (by rw [queue_updQueue])
    rw [ht] at hacc
    refine ⟨s', by rw [hstep _ ha.1 (hp ▸ deliver_doubted ha hd hl)]; exact congrArg (fun x => Host.Outcome.next (Option.getD x s)) hs', hacc, ?_, htold⟩
    rw [hq, queue_updQueue]
    exact List.mem_cons_self
  · intro hc hbound hr
    rw [hstep _ hc (deliver_ringFull hbound hr), answerSender_full, Option.getD_none]
  · intro hc hbound
    obtain ⟨s', hs', hsame, hdec⟩ := answerSender_refused (gone s) p th op []
    refine ⟨s', by rw [hstep _ hc (deliver_unbound hbound), hs', Option.getD_some], ?_, hdec⟩
    rw [hsame.queue]
    rfl

end

/-! ### Records and RECJ (R34, R324, R325) -/

section
variable {s : State} {p : Packet} {bs : List Byte} {prio th op : Nat}

theorem exec_recordArrival (h : Arrives s 0x42 p) (hb : p.body = .hit 0x42 bs prio th op) (hc : s.isCore p.dst = true) {r : Delivery × Nat}
    (hr : deliverRecord (gone s) p.dst bs p.src p.parent = r) :
    exec .remoteRecordArrival s = .next ((answerSender (gone s) p th op r.1 (if recHeld bs then handleOf p.dst r.2 else [])).getD s) := by
  obtain ⟨hh, hs, ht⟩ := h
  refine (congrArg Host.Outcome.next (arrive_eq hh hs (by simp [ht, hb]))).trans ?_
  have hc' : (gone s).isCore p.dst = true := hc
  simp [recordArrives, hb, hc', hr]

/-- The record queue with the receipt counted (R324). -/
def counted (s : State) (ep : Nat) : State := s.updQueue ep 3 (fun u => { u with ticket := ((s.core ep).recs.ticket + 1) % 2 ^ 32 })

theorem recs_counted (s : State) (ep : Nat) : ((counted s ep).core ep).recs = { (s.core ep).recs with ticket := ((s.core ep).recs.ticket + 1) % 2 ^ 32 } :=
  queue_updQueue s ep 3 _

theorem accepts_counted {ep : Nat} (h : Accepts s ep 3) : Accepts (counted s ep) ep 3 := by
  obtain ⟨hc, hb, hs, hl⟩ := h
  have hq : ((counted s ep).core ep).queue 3 = { (s.core ep).recs with ticket := ((s.core ep).recs.ticket + 1) % 2 ^ 32 } := recs_counted s ep
  exact ⟨hc, by rw [hq]; exact hb, hs, by rw [hq]; exact hl⟩

/-- A record that is not held is delivered as an entry. -/
theorem deliverRecord_passed {ep src : Nat} {parent : Option DWord} (hh : recHeld bs = false) :
    deliverRecord s ep bs src parent = (deliver (counted s ep) ep 3 (recEntry bs src) parent, ((s.core ep).recs.ticket + 1) % 2 ^ 32) := by
  simp only [deliverRecord, hh, Bool.not_false, if_true, counted]
  split
  · next h => rw [h]
  · rfl

/-- The record queue with a held record under its ticket (R34). -/
def holding (s : State) (ep src : Nat) (bs : List Byte) : State :=
  (counted s ep).updQueue ep 3 (fun u => { u with held := u.held.put (((s.core ep).recs.ticket + 1) % 2 ^ 32) { bytes := bs, prio := recPrio bs, src := src, applied := [], wide := 0 } })

theorem recs_holding (s : State) (ep src : Nat) (bs : List Byte) : ((holding s ep src bs).core ep).recs = { (s.core ep).recs with
    ticket := ((s.core ep).recs.ticket + 1) % 2 ^ 32
    held := (s.core ep).recs.held.put (((s.core ep).recs.ticket + 1) % 2 ^ 32) { bytes := bs, prio := recPrio bs, src := src, applied := [], wide := 0 } } :=
  (queue_updQueue (counted s ep) ep 3 _).trans (congrArg (fun u : Queue => { u with
    held := u.held.put (((s.core ep).recs.ticket + 1) % 2 ^ 32) { bytes := bs, prio := recPrio bs, src := src, applied := [], wide := 0 } }) (recs_counted s ep))

theorem deliverRecord_held {ep src : Nat} (hh : recHeld bs = true) (hb : (s.core ep).recs.bound = true) :
    deliverRecord s ep bs src none = (.accepted (holding s ep src bs), ((s.core ep).recs.ticket + 1) % 2 ^ 32) := by
  simp only [deliverRecord, hh, hb, Bool.not_true, Bool.false_eq_true, if_false, holding, counted]

theorem deliverRecord_unbound {ep src : Nat} {parent : Option DWord} (hb : (s.core ep).recs.bound = false) : (deliverRecord s ep bs src parent).1 = .refused := by
  by_cases hh : recHeld bs = true
  · simp [deliverRecord, hh, hb]
  · rw [deliverRecord_passed ((Bool.not_eq_true _).mp hh)]
    exact deliver_unbound (q := 3) (by simpa only [Core.queue, recs_counted] using hb)

theorem handleOf_ne_nil (ep n : Nat) : handleOf ep n ≠ [] := fun h => by
  have := congrArg List.length h
  rw [handleOf, leBytes_length] at this
  exact absurd this (by decide)

theorem recordsEnter (h : Arrives s 0x42 p) (hb : p.body = .hit 0x42 bs prio th op) (hp : p.parent = none) :
    (recHeld bs = false → Accepts (gone s) p.dst 3 → ∃ s', exec .remoteRecordArrival s = .next s' ∧ Accepted (gone s) s' p.dst 3 0x42 bs (recPrio bs) p.src (recDeriv bs) ∧
      (s'.core p.dst).recs.ticket = (((gone s).core p.dst).recs.ticket + 1) % 2 ^ 32 ∧ Told s' p th op) ∧
    (recHeld bs = true → s.isCore p.dst = true → ((gone s).core p.dst).recs.bound = true → ∃ s' h, exec .remoteRecordArrival s = .next s' ∧
      (s'.core p.dst).recs.held.find ((((gone s).core p.dst).recs.ticket + 1) % 2 ^ 32) = some h ∧ h.bytes = bs ∧ (s'.core p.dst).recs.entries = ((gone s).core p.dst).recs.entries ∧
      (th ≠ 0 → Replied s' p 0x20 (.data (leBytes 8 (p.dst % 2 ^ 20 * 2 ^ 44 + (((gone s).core p.dst).recs.ticket + 1) % 2 ^ 32)) th op))) ∧
    (s.isCore p.dst = true → ((gone s).core p.dst).recs.bound = false →
      ∃ s', exec .remoteRecordArrival s = .next s' ∧ (s'.core p.dst).recs.entries = ((gone s).core p.dst).recs.entries ∧ Declined s' p th op) := by
  refine ⟨?_, ?_, ?_⟩
  · intro hh ha
    have hq := recs_counted (gone s) p.dst
    obtain ⟨s', hs', hacc, hqueue, -, htold⟩ := answerSender_stored (gone s) (counted (gone s) p.dst) p th op 3 (e := recEntry bs p.src) rfl (congrArg Queue.next hq :)
    have hex := exec_recordArrival h hb ha.1 (deliverRecord_passed hh)
    rw [hp, deliver_fresh (accepts_counted ha), hh] at hex
    refine ⟨s', hex.trans (congrArg (fun x => Host.Outcome.next (Option.getD x s)) hs'), hacc, ?_, htold⟩
    exact (congrArg Queue.ticket hqueue).trans (congrArg Queue.ticket hq)
  · intro hh hc hbound
    have hq := recs_holding (gone s) p.dst p.src bs
    obtain ⟨s', hs', hsame, -, hdata⟩ := answerSender_accepted (gone s) (holding (gone s) p.dst p.src bs) p th op
      (handleOf p.dst ((((gone s).core p.dst).recs.ticket + 1) % 2 ^ 32))
    have hex := exec_recordArrival h hb hc (r := (.accepted (holding (gone s) p.dst p.src bs), (((gone s).core p.dst).recs.ticket + 1) % 2 ^ 32))
      (by rw [hp]; exact deliverRecord_held hh hbound)
    rw [hh] at hex
    have hrecs := (hsame.queue 3).trans hq
    refine ⟨s', { bytes := bs, prio := recPrio bs, src := p.src, applied := [], wide := 0 }, hex.trans (congrArg (fun x => Host.Outcome.next (Option.getD x s)) hs'), ?_, rfl,
      (congrArg Queue.entries hrecs :), fun hth => ?_⟩
    · exact (congrArg (fun u : Queue => u.held.find ((((gone s).core p.dst).recs.ticket + 1) % 2 ^ 32)) hrecs :).trans (NMap.find_put_same ..)
    · have := hdata (handleOf_ne_nil _ _) hth
      rwa [handleOf, Nat.mod_mod] at this
  · intro hc hbound
    obtain ⟨s', hs', hsame, hdec⟩ := answerSender_refused (gone s) p th op
      (if recHeld bs then handleOf p.dst (deliverRecord (gone s) p.dst bs p.src p.parent).2 else [])
    have hex := exec_recordArrival h hb hc rfl
    rw [deliverRecord_unbound hbound, hs', Option.getD_some] at hex
    exact ⟨s', hex, congrArg Queue.entries (hsame.queue 3), hdec⟩

end

section
variable {s : State} {p : Packet} {ticket dec th op : Nat} {h : Held}

theorem exec_recjArrival (hh : AtHand s p) (hs : ¬ Stale s p) (hb : p.body = .join ticket dec th op) (hc : s.isCore p.dst = true) {r : Delivery}
    (hr : joinHeld (gone s) p.dst p.src ticket dec p.deriv p.parent = r) : exec .recjArrival s = .next ((answerSender (gone s) p th op r []).getD s) := by
  refine (congrArg Host.Outcome.next (arrive_eq hh hs (by simp [hb]))).trans ?_
  have hc' : (gone s).isCore p.dst = true := hc
  simp [hb, hc', hr]

/-- What is left of a held record's join count after a RECJ (R325). -/
def joined (h : Held) (dec : Nat) : Nat := (recJoin h.bytes + 65536 - dec % 65536) % 65536

theorem joinHeld_again {ep src : Nat} {deriv : DWord} (hb : (s.core ep).recs.bound = true) (hf : (s.core ep).recs.held.find ticket = some h) (hd : deriv ∈ h.applied) :
    joinHeld s ep src ticket dec deriv none = .accepted s := by
  simp [joinHeld, hb, hf, hd]

theorem joinHeld_counts {ep src : Nat} {deriv : DWord} (hb : (s.core ep).recs.bound = true) (hf : (s.core ep).recs.held.find ticket = some h) (hd : deriv ∉ h.applied) (hj : joined h dec ≠ 0) :
    joinHeld s ep src ticket dec deriv none = .accepted (s.updQueue ep 3 (fun u => { u with
      held := u.held.put ticket { h with bytes := patch h.bytes 24 (leBytes 2 (joined h dec)), applied := deriv :: h.applied, wide := max h.wide (betweenScope src ep) } })) := by
  rw [joined] at hj
  simp [joinHeld, hb, hf, hd, hj, joined]

theorem joinHeld_releases {ep src : Nat} {deriv : DWord} (hb : (s.core ep).recs.bound = true) (hf : (s.core ep).recs.held.find ticket = some h) (hd : deriv ∉ h.applied) (hj : joined h dec = 0) :
    joinHeld s ep src ticket dec deriv none = .accepted (acceptEntry (s.updQueue ep 3 (fun u => { u with held := u.held.drop ticket })) ep 3
      { recEntry (clearHeld (patch h.bytes 24 (leBytes 2 0))) h.src with wide := max h.wide (betweenScope src ep) }) := by
  rw [joined] at hj
  simp [joinHeld, hb, hf, hd, hj]

theorem recjCountsDown (hh : AtHand s p) (hs : ¬ Stale s p) (hb : p.body = .join ticket dec th op) (hc : s.isCore p.dst = true) (hbound : ((gone s).core p.dst).recs.bound = true)
    (hp : p.parent = none) (hf : ((gone s).core p.dst).recs.held.find ticket = some h) (hd : p.deriv ∉ h.applied) :
    (joined h dec ≠ 0 → ∃ s', exec .recjArrival s = .next s' ∧ (s'.core p.dst).recs.held.find ticket =
      some { h with bytes := patch h.bytes 24 (leBytes 2 (joined h dec)), applied := p.deriv :: h.applied, wide := max h.wide (betweenScope p.src p.dst) } ∧ Told s' p th op) ∧
    (joined h dec = 0 → ∃ s', exec .recjArrival s = .next s' ∧ (s'.core p.dst).recs.held.find ticket = none ∧ Told s' p th op ∧
      ∃ x, (s'.core p.dst).recs.entries.find ((gone s).core p.dst).recs.next = some x ∧ x.wide = max h.wide (betweenScope p.src p.dst) ∧
        x.bytes = clearHeld (patch h.bytes 24 (leBytes 2 0))) := by
  have hex : ∀ {r}, joinHeld (gone s) p.dst p.src ticket dec p.deriv none = r → _ := fun hr => exec_recjArrival hh hs hb hc (hp ▸ hr)
  constructor
  · intro hj
    obtain ⟨s', hs', hsame, htold, -⟩ := answerSender_accepted (gone s) ((gone s).updQueue p.dst 3 (fun u => { u with
      held := u.held.put ticket { h with bytes := patch h.bytes 24 (leBytes 2 (joined h dec)), applied := p.deriv :: h.applied, wide := max h.wide (betweenScope p.src p.dst) } })) p th op []
    refine ⟨s', (hex (joinHeld_counts hbound hf hd hj)).trans (congrArg (fun x => Host.Outcome.next (Option.getD x s)) hs'), ?_, htold rfl⟩
    exact (congrArg (fun u : Queue => u.held.find ticket) ((hsame.queue 3).trans (queue_updQueue ..)) :).trans (NMap.find_put_same ..)
  · intro hj
    have hq := queue_updQueue (gone s) p.dst 3 (fun u => { u with held := u.held.drop ticket })
    obtain ⟨s', hs', -, hqueue, -, htold⟩ := answerSender_stored (gone s) ((gone s).updQueue p.dst 3 (fun u => { u with held := u.held.drop ticket })) p th op 3
      (e := { recEntry (clearHeld (patch h.bytes 24 (leBytes 2 0))) h.src with wide := max h.wide (betweenScope p.src p.dst) }) rfl (congrArg Queue.next hq :)
    have hst := stored_enqueued ((gone s).updQueue p.dst 3 (fun u => { u with held := u.held.drop ticket })) p.dst 3
      { recEntry (clearHeld (patch h.bytes 24 (leBytes 2 0))) h.src with wide := max h.wide (betweenScope p.src p.dst) }
    rw [hq] at hqueue
    refine ⟨s', (hex (joinHeld_releases hbound hf hd hj)).trans (congrArg (fun x => Host.Outcome.next (Option.getD x s)) hs'), ?_, htold, _, ?_, hst.wide, hst.bytes⟩
    · exact (congrArg (fun u : Queue => u.held.find ticket) hqueue :).trans (find_drop_same ..)
    · exact (congrArg (fun u : Queue => u.entries.find ((gone s).core p.dst).recs.next) hqueue :).trans (NMap.find_put_same ..)

theorem recjCountsOnce (hh : AtHand s p) (hs : ¬ Stale s p) (hb : p.body = .join ticket dec th op) (hc : s.isCore p.dst = true) (hbound : ((gone s).core p.dst).recs.bound = true)
    (hp : p.parent = none) (hf : ((gone s).core p.dst).recs.held.find ticket = some h) (hd : p.deriv ∈ h.applied) :
    ∃ s', exec .recjArrival s = .next s' ∧ (s'.core p.dst).recs.held = (s.core p.dst).recs.held ∧ Told s' p th op := by
  obtain ⟨s', hs', hsame, htold, -⟩ := answerSender_accepted (gone s) (gone s) p th op []
  exact ⟨s', (exec_recjArrival hh hs hb hc (hp ▸ joinHeld_again hbound hf hd)).trans (congrArg (fun x => Host.Outcome.next (Option.getD x s)) hs'),
    (congrArg Queue.held (hsame.queue 3) :), htold rfl⟩

end

/-! ### Rays at a core (R103, R110, R115) -/

section
variable {s : State} {p : Packet} {bs : List Byte} {prio th op : Nat}

theorem exec_rayArrival (h : Arrives s 0x30 p) (hl : epLocal p.dst < 80) : exec .rayArrivalAtCore s = .next ((rayArrives (gone s) p).getD s) := by
  obtain ⟨hh, hs, ht⟩ := h
  exact congrArg Host.Outcome.next (arrive_eq hh hs (by simp only [ht, beq_self_eq_true, Bool.true_and, decide_eq_true_eq]; omega))

/-- A core that counts an arrival of a treelet in its pool. -/
def noticed (s : State) (ep id : Nat) : State :=
  { s.updCore ep (fun c => { c with pool := c.pool.adjust id (fun x => { x with lastArrival := s.fresh }) }) with fresh := s.fresh + 1 }

theorem sameQueues_noticed (s : State) (ep id : Nat) {x : Treelet} (hx : (s.core ep).pool.find id = some x) :
    (∀ q, ((noticed s ep id).core ep).queue q = (s.core ep).queue q) ∧ ((noticed s ep id).core ep).pool.find id = some { x with lastArrival := s.fresh } := by
  have hcore : (noticed s ep id).core ep = _ := State.core_updCore_same s ep (fun c => { c with pool := c.pool.adjust id (fun x => { x with lastArrival := s.fresh }) })
  constructor
  · intro q
    rw [hcore]
    rcases q with _ | _ | _ | q <;> rfl
  · rw [hcore, NMap.find_adjust_same, hx]
    rfl

/-- A ray of a slice is not counted against its core. -/
theorem countDirect_ofSlice {ep id : Nat} (h : epLocal p.src = 125) : countDirect s ep id p = s := by simp [countDirect, h]

/-- A ray whose treelet is resident is delivered to the ray queue. -/
theorem rayArrives_resident {x : Treelet} (hb : p.body = .ray bs prio th op) (hc : s.isCore p.dst = true) (hbound : (s.core p.dst).rays.bound = true)
    (hx : (s.core p.dst).pool.find (rayTreelet bs) = some x) (hr : x.resident = true) (hsrc : epLocal p.src = 125) :
    rayArrives s p = answerSender (perfCount (noticed s p.dst (rayTreelet bs)) p.dst 6 1) p th op
      (deliver (perfCount (noticed s p.dst (rayTreelet bs)) p.dst 6 1) p.dst 0 (packetEntry p bs prio) p.parent) [] := by
  simp only [rayArrives, hb, hc, hbound, hx, hr, countDirect_ofSlice hsrc, noticed]
  rfl

theorem rayArrives_absent (hb : p.body = .ray bs prio th op) (hc : s.isCore p.dst = true) (hbound : (s.core p.dst).rays.bound = true)
    (hx : (s.core p.dst).pool.find (rayTreelet bs) = none) :
    rayArrives s p = some (sinkPacket (returnRay s p.dst p.origin bs prio p.attempt p.deriv p.parent th op) p) := by
  simp only [rayArrives, hb, hc, hbound, hx, rayArrives.back]
  rfl

theorem rayArrives_unbound (hb : p.body = .ray bs prio th op) (hbound : (s.core p.dst).rays.bound = false) : rayArrives s p = answerSender s p th op .refused [] := by
  simp [rayArrives, hb, hbound]

theorem packets_perfCount (s : State) (ep code n : Nat) : (perfCount s ep code n).packets = s.packets := by
  simp only [perfCount]
  split <;> rfl

theorem dies_perfCount (s : State) (ep code n : Nat) : (perfCount s ep code n).dies = s.dies := by
  simp only [perfCount]
  split <;> rfl

/-- A state that takes an entry where another does. -/
theorem accepts_of_same {u : State} {ep q : Nat} (h : Accepts s ep q) (hq : (u.core ep).queue q = (s.core ep).queue q) (hp : u.packets = s.packets) (hd : u.isCore ep = s.isCore ep) :
    Accepts u ep q := by
  obtain ⟨hc, hb, hs, hl⟩ := h
  refine ⟨hd.trans hc, by rw [hq]; exact hb, ?_, by rw [hq]; exact hl⟩
  rw [spilling, hp]
  exact hs

theorem isCore_of_dies {s u : State} (h : u.dies = s.dies) (ep : Nat) : u.isCore ep = s.isCore ep := by simp only [State.isCore, State.die, h]

theorem epPackage_servingSlice (s : State) (id : Nat) : epPackage (servingSlice s id) = Config.package := by
  have h6 : id % 6 < 6 := Nat.mod_lt _ (by decide)
  have hm : ∀ n < 6, epPackage (endpoint (16 + n) 125) = Config.package ∧ epPackage (endpoint (mirrorGateway (16 + n)) 125) = Config.package := by decide
  simp only [servingSlice]
  split
  · exact (hm _ h6).1
  · exact (hm _ h6).2

theorem raysEnter (h : Arrives s 0x30 p) (hb : p.body = .ray bs prio th op) (hl : epLocal p.dst < 80) :
    (∀ x, Accepts (gone s) p.dst 0 → ((gone s).core p.dst).pool.find (rayTreelet bs) = some x → x.resident = true → p.parent = none → epLocal p.src = 125 →
      ∃ s', exec .rayArrivalAtCore s = .next s' ∧ Accepted (gone s) s' p.dst 0 0x30 bs prio p.src p.deriv ∧
        (s'.core p.dst).pool.find (rayTreelet bs) = some { x with lastArrival := s.fresh } ∧ Told s' p th op) ∧
    (s.isCore p.dst = true → (s.core p.dst).rays.bound = true → ((gone s).core p.dst).pool.find (rayTreelet bs) = none →
      ∃ s', exec .rayArrivalAtCore s = .next s' ∧ (s'.core p.dst).rays.entries = (s.core p.dst).rays.entries ∧
        InFlight s' (fun r => r.typ = 0x30 ∧ r.src = p.dst ∧ r.dst = servingSlice s (rayTreelet bs) ∧ r.deriv = p.deriv ∧ r.origin = p.origin ∧ r.body = .ray (setFwd bs) prio th op)) ∧
    (s.isCore p.dst = true → (s.core p.dst).rays.bound = false →
      ∃ s', exec .rayArrivalAtCore s = .next s' ∧ (s'.core p.dst).rays.entries = (s.core p.dst).rays.entries ∧ Declined s' p th op) := by
  rw [exec_rayArrival h hl]
  refine ⟨?_, ?_, ?_⟩
  · intro x ha hx hr hp hsrc
    obtain ⟨hqueue, hpool⟩ := sameQueues_noticed (gone s) p.dst (rayTreelet bs) hx
    have hperf := sameQueues_perfCount (noticed (gone s) p.dst (rayTreelet bs)) p.dst 6 1
    have hq := (hperf.queue 0).trans (hqueue 0)
    have ha' : Accepts (perfCount (noticed (gone s) p.dst (rayTreelet bs)) p.dst 6 1) p.dst 0 := accepts_of_same ha hq (packets_perfCount ..) (isCore_of_dies (dies_perfCount ..) _)
    obtain ⟨s', hs', hacc, -, hp', htold⟩ := answerSender_stored (perfCount (noticed (gone s) p.dst (rayTreelet bs)) p.dst 6 1)
      (perfCount (noticed (gone s) p.dst (rayTreelet bs)) p.dst 6 1) p th op 0 (e := packetEntry p bs prio) rfl rfl
    refine ⟨s', ?_, ?_, ?_, htold⟩
    · rw [rayArrives_resident hb ha.1 ha.2.1 hx hr hsrc, hp, deliver_fresh ha', hs', Option.getD_some]
    · have ht : (packetEntry p bs prio).typ = 0x30 := h.2.2
      rw [ht, Accepted, hq] at hacc
      exact hacc
    · rw [hp', hperf.pool, hpool]
      rfl
  · intro hc hbound hx
    rw [rayArrives_absent hb (s := gone s) hc hbound hx, Option.getD_some]
    refine ⟨_, rfl, ?_, ?_⟩
    · refine (congrArg Queue.entries ((queues_sinkPacket _ p p.dst).1 0) :).trans ?_
      rw [returnRay, core_inject]
      rfl
    · obtain ⟨⟨r, hr, hcarry⟩, hf⟩ := find_inject_same (s := gone s) (p := { mkPacket 3 0x30 p.dst (servingSlice (gone s) (rayTreelet bs)) 2 (.ray (setFwd bs) prio th op) with
        deriv := p.deriv, parent := p.parent, attempt := p.attempt, origin := p.origin }) (by simp [mkPacket]) (epPackage_servingSlice ..)
      have hstay := packets_sinkPacket (p := p) hr (by rw [hf]; omega)
      exact inFlight_of_find hstay ⟨hcarry.typ, hcarry.src, hcarry.dst, hcarry.deriv, hcarry.origin, hcarry.body⟩
  · intro hc hbound
    obtain ⟨s', hs', hsame, hdec⟩ := answerSender_refused (gone s) p th op []
    exact ⟨s', by rw [rayArrives_unbound (s := gone s) hb hbound, hs', Option.getD_some], (congrArg Queue.entries (hsame.queue 0) :), hdec⟩

end

/-! ### Collective blocks (R161, R332, R457) -/

section
variable {s : State} {p : Packet} {bs : List Byte} {th op : Nat} {d : Domain}

theorem exec_blockArrival (h : Arrives s 0x43 p) : exec .collectiveBlockArrival s = .next ((blockArrives (gone s) p).getD s) := by
  obtain ⟨hh, hs, ht⟩ := h
  exact congrArg Host.Outcome.next (arrive_eq hh hs (by simp [ht]))

theorem domains_inject (s : State) (p : Packet) : (s.inject p).pkg.domains = s.pkg.domains := by
  simp only [State.inject]
  split
  · rfl
  · split
    · rfl
    · split <;> rfl

/-- The acknowledgment of a block. -/
def blockAck (s : State) (p : Packet) (th op : Nat) : State := if th = 0 then s else s.reply p 0x21 (.acknowledgment th op)

theorem told_blockAck (s : State) (p : Packet) (th op : Nat) : Told (blockAck s p th op) p th op := fun h => by
  rw [blockAck, if_neg h]
  exact replied_reply ..

theorem domains_blockAck (s : State) (p : Packet) (th op : Nat) : (blockAck s p th op).pkg.domains = s.pkg.domains := by
  simp only [blockAck]
  split
  · rfl
  · exact domains_inject ..

/-- The block that a packet brings to a link gateway. -/
def blockOf (p : Packet) (bs : List Byte) : Block :=
  { gateway := epDie p.dst, seq := blockSeq p.addr, index := blockIndex p.addr, addr := p.addr, bytes := bs, deriv := p.deriv }

theorem blockArrives_link (hb : p.body = .block bs th op) (hl : epLocal p.dst = 126) (hg : epDie p.dst = 22 ∨ epDie p.dst = 23) (hp : p.parent = none) :
    blockArrives s p = some (blockAck (takeBlock s (epDie p.dst) (blockOf p bs)) p th op) := by
  simp only [blockArrives, hb, hl, hg, hp, and_self, if_true, blockAck, blockOf]

theorem domainOf_updDomain {dom : Nat} {f : Domain → Domain} (h : domainOf s dom = some d) : domainOf (updDomain s dom f) dom = some (f d) := by
  have hfind : ∀ l : List (Nat × Domain), (l.find? (fun p => p.1 == dom)).map (·.2) = some d →
      ((l.map (fun p => if p.1 = dom then (p.1, f p.2) else p)).find? (fun p => p.1 == dom)).map (·.2) = some (f d) := fun l hl => by
    induction l with
    | nil => simp at hl
    | cons x xs ih =>
      by_cases hx : x.1 = dom
      · simp only [List.find?_cons, hx, beq_self_eq_true, Option.map_some, Option.some.injEq] at hl
        simp [hx, hl]
      · simp only [List.find?_cons, beq_eq_false_iff_ne.mpr hx] at hl
        simp only [List.map_cons, if_neg hx, List.find?_cons, beq_eq_false_iff_ne.mpr hx]
        exact ih hl
  exact hfind _ h

/-- A sequence that is among those held is admitted with nothing to leave. -/
theorem admitSeq_held {gw seq : Nat} (h : (gw, seq) ∈ d.latest) : admitSeq d gw seq = some d := by
  have hc : ((d.latest.filter (fun p => p.1 == gw)).map (·.2)).contains seq = true := by
    rw [List.contains_iff_mem, List.mem_map]
    exact ⟨(gw, seq), List.mem_filter.mpr ⟨h, beq_self_eq_true _⟩, rfl⟩
  simp only [admitSeq, hc, if_true]

theorem domainOf_takeBlock {gw : Nat} {b : Block} (hd : domainOf s (blockDomain b.addr) = some d) (hv : blockView b.addr = viewAt s gw (blockDomain b.addr)) (hm : (gw, b.seq) ∈ d.latest)
    (ha : ∀ y ∈ d.assigned, ¬ (y.1 = gw ∧ y.2.1 = b.seq ∧ y.2.2.1 = b.index)) :
    domainOf (takeBlock s gw b) (blockDomain b.addr) = some { d with blocks := d.blocks ++ [b] } := by
  have hfind : d.assigned.find? (fun x => x.1 == gw && x.2.1 == b.seq && x.2.2.1 == b.index) = none := by
    rw [List.find?_eq_none]
    intro y hy
    simpa only [Bool.and_eq_true, beq_iff_eq, and_assoc] using ha y hy
  simp only [takeBlock, hd, hv, bne_self_eq_false, Bool.false_eq_true, if_false, admitSeq_held hm, hfind]
  exact domainOf_updDomain (domainOf_updDomain hd)

theorem takeBlock_otherView {gw : Nat} {b : Block} (hv : blockView b.addr ≠ viewAt s gw (blockDomain b.addr)) : takeBlock s gw b = s := by
  simp only [takeBlock, bne_iff_ne.mpr hv, if_true]
  split <;> rfl

theorem blocksEnter (h : Arrives s 0x43 p) (hb : p.body = .block bs th op) (hl : epLocal p.dst = 126) (hg : epDie p.dst = 22 ∨ epDie p.dst = 23) (hp : p.parent = none)
    (hd : domainOf (gone s) (blockDomain p.addr) = some d) :
    (blockView p.addr = viewAt s (epDie p.dst) (blockDomain p.addr) → (epDie p.dst, blockSeq p.addr) ∈ d.latest →
      (∀ y ∈ d.assigned, ¬ (y.1 = epDie p.dst ∧ y.2.1 = blockSeq p.addr ∧ y.2.2.1 = blockIndex p.addr)) →
      ∃ s', exec .collectiveBlockArrival s = .next s' ∧ domainOf s' (blockDomain p.addr) = some { d with blocks := d.blocks ++ [blockOf p bs] } ∧ Told s' p th op) ∧
    (blockView p.addr ≠ viewAt s (epDie p.dst) (blockDomain p.addr) → ∃ s', exec .collectiveBlockArrival s = .next s' ∧ s'.pkg.domains = s.pkg.domains ∧ Told s' p th op) := by
  rw [exec_blockArrival h, blockArrives_link hb hl hg hp, Option.getD_some]
  constructor
  · intro hv hm ha
    refine ⟨_, rfl, ?_, told_blockAck _ _ _ _⟩
    rw [domainOf, domains_blockAck]
    exact domainOf_takeBlock (s := gone s) (b := blockOf p bs) hd hv hm ha
  · intro hv
    refine ⟨_, rfl, ?_, told_blockAck _ _ _ _⟩
    rw [domains_blockAck, takeBlock_otherView (s := gone s) (b := blockOf p bs) hv]
    rfl

/-- A forwarded block enters the message queue of a gateway core. -/
theorem forwardedBlockEnters (h : Arrives s 0x43 p) (hb : p.body = .block bs 0 0) (hl : epLocal p.dst < 80) (ha : Accepts (gone s) p.dst 2)
    (hv : blockView p.addr = viewAt s (epDie p.dst) (blockDomain p.addr)) :
    ∃ s', exec .collectiveBlockArrival s = .next s' ∧ Accepted (gone s) s' p.dst 2 0x43 bs 3 p.src p.deriv := by
  have ht : (packetEntry p bs 3).typ = 0x43 := h.2.2
  have hv' : blockView p.addr = viewAt (gone s) (epDie p.dst) (blockDomain p.addr) := hv
  have harr : blockArrives (gone s) p = some (acceptEntry (gone s) p.dst 2 (packetEntry p bs 3)) := by
    simp only [blockArrives, hb, hv', deliver_fresh ha, show ¬ epLocal p.dst = 126 by omega, false_and, if_false, ne_eq, not_true_eq_false, bne_self_eq_false, Bool.false_eq_true]
  refine ⟨_, (exec_blockArrival h).trans (by rw [harr, Option.getD_some]), ?_⟩
  have := accepted_of_append (g := gone s) (queue_acceptEntry (gone s) p.dst 2 (packetEntry p bs 3)).1 rfl (stored_enqueued ..) rfl
  rwa [ht] at this

end

/-- Settles O52, queue by queue: an arrival that is at hand is acted on, its entry stands at the end of its queue, and the answer leaves after it. -/
theorem arrivalsEnterTheirQueues : Obligations.ArrivalsEnterTheirQueues := by
  unfold Obligations.ArrivalsEnterTheirQueues
  intro s p bs prio th op
  refine ⟨fun q typ i hm h hb => hitsAndMessagesEnter hm h hb, recordsEnter, ?_, ?_, ?_, ?_, forwardedBlockEnters⟩
  · exact fun ticket dec h hh hs hb hc hbound hp hf hd => recjCountsDown hh hs hb hc hbound hp hf hd
  · exact fun ticket dec h hh hs hb hc hbound hp hf hd => recjCountsOnce hh hs hb hc hbound hp hf hd
  · intro x h hb hl
    obtain ⟨hres, habs, hun⟩ := raysEnter h hb hl
    exact ⟨hres x, habs, hun⟩
  · intro d h hb hl hg hp a dom seq hd b
    exact blocksEnter h hb hl hg hp hd

end Sys2Proof.ExecutionLaws
end

section
/-! PROOFS. Records, messages and allowance slots at the issuing core (R34, R35, R321, R324 to R329, R157). -/

namespace Sys2Proof.ExecutionLaws

open Sys2Proof Sys2Proof.Machine Sys2Proof.Claims Sys2Proof.HostLaws

/-! ### The bytes of a record (R12, R321, R326) -/

theorem leNat_append (a b : List Byte) : leNat (a ++ b) = leNat a + 256 ^ a.length * leNat b := by
  induction a with
  | nil => simp [leNat]
  | cons x a ih =>
    simp only [List.cons_append, leNat, ih, List.length_cons, pow_succ]
    ring

theorem leNat_lt (a : List Byte) : leNat a < 256 ^ a.length := by
  induction a with
  | nil => simp [leNat]
  | cons x a ih =>
    have hx : x.toNat < 256 := x.isLt
    simp only [leNat, List.length_cons, pow_succ]
    omega

/-- A field that stands between others. -/
theorem field_append {pre mid post : List Byte} {off n : Nat} (hp : pre.length = off) (hm : mid.length = n) : field (pre ++ mid ++ post) off n = leNat mid := by
  subst hp hm
  simp [field]

/-- The unassigned bits of a record's bytes 7 and 27 are zero, and HELD is as asked (R12). -/
theorem ofNat_mod_sixteen : ∀ b : Byte, BitVec.ofNat 8 (b.toNat % 16) = b &&& 0x0F#8 := by decide

theorem flags_code : ∀ (b : Byte) (held : Bool),
    BitVec.ofNat 8 (b.toNat % 16 - bit ((b.toNat % 16).testBit 2) 2 + bit held 2) = (b &&& 0x0B#8) ||| (if held then 4#8 else 0#8) := by decide

theorem field_one {r : List Byte} {i : Nat} (h : i < r.length) : field r i 1 = (r.getD i 0#8).toNat := by
  have hd : r.drop i = r[i] :: r.drop (i + 1) := List.drop_eq_getElem_cons h
  rw [field, hd, List.take_succ_cons, List.take_zero, List.getD_eq_getElem _ _ h]
  simp [leNat]

theorem fillRecord_eq_filled {bs : List Byte} (did : DWord) (held : Bool) (h : bs.length = 32) : fillRecord bs did held = filled bs did held := by
  have hl : (leBytes 8 did.toNat).length = 8 := leBytes_length ..
  simp only [fillRecord, filled, field_one (show 7 < bs.length by omega), field_one (show 27 < bs.length by omega), ofNat_mod_sixteen, flags_code]
  simp [patch, List.take_append, List.drop_append, List.drop_drop, List.take_take, h, hl, List.drop_take, List.take_of_length_le (show (leBytes 8 did.toNat).length ≤ 10 by omega),
    List.drop_of_length_le (show (leBytes 8 did.toNat).length ≤ 12 by omega)]

/-! ### What the fields of a filled record say -/

theorem leNat_single (b : Byte) : leNat [b] = b.toNat := by simp [leNat]

theorem flags_testBit_two : ∀ (b : Byte) (held : Bool), ((b &&& 0x0B#8) ||| (if held then 4#8 else 0#8)).toNat.testBit 2 = held := by decide

theorem and_fifteen_mod_four : ∀ b : Byte, (b &&& 0x0F#8).toNat % 4 = b.toNat % 4 := by decide

/-- Eight bytes as the number of the first seven and the last. -/
theorem prio_of_split {r a c : List Byte} {b : Byte} (hr : r = a ++ [b] ++ c) (ha : a.length = 7) : recPrio r = b.toNat % 4 := by
  have hf : field r 0 8 = leNat (a ++ [b]) := by
    rw [hr, ← List.nil_append (a ++ [b] ++ c), ← List.append_assoc]
    exact field_append rfl (by simp [ha])
  have hlt := leNat_lt a
  rw [ha] at hlt
  rw [recPrio, hf, leNat_append, leNat_single, ha, bits]
  omega

section
variable {bs : List Byte} (did : DWord) (held : Bool) (h : bs.length = 32)
include h

theorem recHeld_filled : recHeld (filled bs did held) = held := by
  have hf : field (filled bs did held) 27 1 = leNat [(bs.getD 27 0#8 &&& 0x0B#8) ||| (if held then 4#8 else 0#8)] := by
    have e : filled bs did held = (bs.take 7 ++ [bs.getD 7 0#8 &&& 0x0F#8] ++ (bs.drop 8).take 8 ++ leBytes 8 did.toNat ++ (bs.drop 24).take 2 ++ [0#8]) ++
        [(bs.getD 27 0#8 &&& 0x0B#8) ||| (if held then 4#8 else 0#8)] ++ bs.drop 28 := by simp [filled]
    rw [e]
    exact field_append (by simp [h, leBytes_length]) rfl
  rw [recHeld, hf, leNat_single, flags_testBit_two]

theorem recDeriv_filled : recDeriv (filled bs did held) = did := by
  have hf : field (filled bs did held) 16 8 = leNat (leBytes 8 did.toNat) := by
    have e : filled bs did held = (bs.take 7 ++ [bs.getD 7 0#8 &&& 0x0F#8] ++ (bs.drop 8).take 8) ++ leBytes 8 did.toNat ++
        ((bs.drop 24).take 2 ++ [0#8, (bs.getD 27 0#8 &&& 0x0B#8) ||| (if held then 4#8 else 0#8)] ++ bs.drop 28) := by simp [filled]
    rw [e]
    exact field_append (by simp [h]) (leBytes_length ..)
  rw [recDeriv, hf, leNat_leBytes, Nat.mod_eq_of_lt did.isLt, BitVec.ofNat_toNat, BitVec.setWidth_eq]

theorem recPrio_filled : recPrio (filled bs did held) = recPrio bs := by
  have hd : bs = bs.take 7 ++ [bs.getD 7 0#8] ++ bs.drop 8 := by
    have hc : bs.drop 7 = bs.getD 7 0#8 :: bs.drop 8 := by
      rw [List.getD_eq_getElem _ _ (show 7 < bs.length by omega)]
      exact List.drop_eq_getElem_cons _
    rw [List.append_assoc, List.singleton_append, ← hc, List.take_append_drop]
  rw [prio_of_split (a := bs.take 7) (b := bs.getD 7 0#8 &&& 0x0F#8) (r := filled bs did held)
    (c := (bs.drop 8).take 8 ++ leBytes 8 did.toNat ++ (bs.drop 24).take 2 ++ [0#8, (bs.getD 27 0#8 &&& 0x0B#8) ||| (if held then 4#8 else 0#8)] ++ bs.drop 28)
    (by simp [filled]) (by simp [h]), prio_of_split hd (by simp [h]), and_fifteen_mod_four]

end

/-! ### What stands before an access (R66, R81, R323) -/

theorem memGate_clear {s : State} {k : Nat} {t : Thread} {global release : Bool} (h : Clear t global release) : memGate s k t global release = .pass s := by
  obtain ⟨hf, hp, ha, hr, hg⟩ := h
  have hr' : (release && t.awaits (fun p => p.token != 15)) = false := by
    cases release
    · rfl
    · exact hr rfl
  have hg' : (global && t.awaits (·.global)) = false := by
    cases global
    · rfl
    · exact hg rfl
  simp [memGate, hf, hp, ha, hr', hg']

theorem clear_of_free {t : Thread} {o : Long} {global release : Bool} (h : Free t o global release) : Clear t global release := by
  obtain ⟨-, hf, hp, ha, hr, hg⟩ := h
  exact ⟨hf, hp, ha, hr, hg⟩

/-- An access that nothing holds back, and whose release is no wide one, begins. -/
theorem memStart_free {s : State} {k : Nat} {t : Thread} {o : Long} {global : Bool} {release : Option Nat} {go : State → Thread → Out}
    (h : Free t o global release.isSome) (hr : ∀ n ∈ release, wideScope n = false) : memStart s k t o global release go = go s t := by
  have hfence : { t with fence := none } = t := by rw [← h.2.1]
  have hwide : release.any (releaseWaits s t.core) = false := by
    rcases release with _ | n
    · rfl
    · simp [releaseWaits, hr n rfl]
  simp [memStart, h.1, memGate_clear (clear_of_free h), hwide, hfence]

/-- The payload that is read, register run or scratch. -/
theorem payloadOf_eq {s : State} {k : Nat} {t : Thread} {o : Long} {n : Nat} {bs : List Byte} (h : payloadAt s t o n = some bs) : payloadOf s k t o n = .ok bs := by
  simp only [payloadAt] at h
  simp only [payloadOf]
  split at h
  · next hm =>
    rw [Option.some.injEq] at h
    simp only [hm, Bool.not_false, if_true, h]
  · next hm =>
    split at h
    · cases h
    · next ha =>
      obtain ⟨off, hoff, hread⟩ := Option.bind_eq_some_iff.mp h
      split at hread
      · cases hread
      · next he =>
        rw [Option.some.injEq] at hread
        simp [hm, ha, hoff, he, hread]

theorem length_wordsToBytes (l : List Word) : (wordsToBytes l).length = 4 * l.length := by
  simp [wordsToBytes, bytesOfWord, List.length_flatMap, Nat.mul_comm]

theorem length_payloadAt {s : State} {t : Thread} {o : Long} {n : Nat} {bs : List Byte} (h : payloadAt s t o n = some bs) (hn : n % 4 = 0) : bs.length = n := by
  simp only [payloadAt] at h
  split at h
  · rw [Option.some.injEq] at h
    have hr : (srcRun t o .b (n / 4)).length = n / 4 := by
      unfold srcRun
      split <;> simp [regRun]
    rw [← h, List.length_take, length_wordsToBytes, hr]
    omega
  · split at h
    · cases h
    · obtain ⟨off, -, hread⟩ := Option.bind_eq_some_iff.mp h
      split at hread
      · cases hread
      · rw [Option.some.injEq] at hread
        simp [← hread, readScratch]

/-! ### Operations that complete at once -/

/-- An operation that is ready at once stands under the fresh key, and its lane has gone on. -/
theorem settled_addReady {op : LongOp} {o : Long} {t u : Thread} {k : Nat} {v : State} (p : Op) (data : List Byte) (hu : v.thread k = some u) :
    ∃ w, (restop (settle op o t k (.go (addReady v k p data)))).thread k = some w ∧ w.pc = u.after ∧ w.regs = u.regs ∧
      w.ops = u.ops.put v.fresh { p with status := .ready data, issued := v.ticks } ∧
      ∀ ep, (restop (settle op o t k (.go (addReady v k p data)))).core ep = v.core ep := by
  obtain ⟨w, hw, hpc, hregs, hops⟩ := restop_settle_go (op := op) (o := o) (t := t) (thread_addOp { p with status := .ready data } hu)
  refine ⟨w, hw, ?_, ?_, ?_, fun ep => ?_⟩
  · rw [hpc, Thread.raise_after]
  · rw [hregs, Thread.raise_regs]
  · rw [hops, Thread.raise_ops]
  · exact (onlyThreads_restop_settle_go op o t k (addReady v k p data)).congr (fun x => x.core ep) (fun _ _ => rfl)

/-! ### What acceptance leaves of the threads -/

theorem agents_perfCount (s : State) (ep code n : Nat) : Agents s (perfCount s ep code n) := by
  simp only [perfCount]
  split
  · exact .refl s
  · exact .updCore ..

theorem agents_sendSpill (s : State) (ep q : Nat) (e : Entry) : Agents s (sendSpill s ep q e) := by
  simp only [sendSpill]
  split <;> split
  · exact .refl s
  · exact agents_inject ..
  · exact agents_inject ..
  · exact (agents_inject ..).trans (agents_inject ..)

theorem agents_acceptEntry (s : State) (ep q : Nat) (e : Entry) : Agents s (acceptEntry s ep q e) := by
  have hcount : Agents s (if q = 1 then perfCount s ep 15 1 else s) := by
    split
    · exact agents_perfCount ..
    · exact .refl s
  simp only [acceptEntry]
  split
  · exact hcount.trans ((Agents.updCore ..).trans ((Agents.write ..).trans (agents_writeRings ..)))
  · exact hcount.trans ((Agents.updCore ..).trans ((agents_writeRings ..).trans (agents_sendSpill ..)))

theorem fresh_sendSpill (s : State) (ep q : Nat) (e : Entry) : s.fresh ≤ (sendSpill s ep q e).fresh := by
  simp only [sendSpill]
  split <;> split
  · exact le_rfl
  · exact fresh_inject ..
  · exact fresh_inject ..
  · exact (fresh_inject ..).trans (fresh_inject ..)

theorem fresh_writeRings (s : State) (ep q : Nat) (e : Entry) (state : Nat) : (writeRings s ep q e state).fresh = s.fresh := by
  show (touchL2 s _ 0).fresh = s.fresh
  rw [touchL2_eq_dies]

theorem fresh_acceptEntry (s : State) (ep q : Nat) (e : Entry) : s.fresh ≤ (acceptEntry s ep q e).fresh := by
  have hcount : (if q = 1 then perfCount s ep 15 1 else s).fresh = s.fresh := by
    split
    · simp only [perfCount]
      split <;> rfl
    · rfl
  simp only [acceptEntry]
  split
  · exact (fresh_writeRings ..).symm ▸ hcount.ge
  · exact le_trans ((fresh_writeRings ..).symm ▸ hcount.ge) (fresh_sendSpill ..)

/-! ### RECQ for the issuing core (R34, R321, R322, R324) -/

/-- The state of a launched thread's enqueue: SENDIX and the core's send counter have moved on (R322). -/
def numbered (s : State) (k : Nat) (t : Thread) : State :=
  (s.updThread k (fun u => { u with sr := { u.sr with sendix := u.sr.sendix + 1#32 } })).updCore t.core (fun c => { c with sendCount := ((s.core t.core).sendCount + 1) % 2 ^ 44 })

theorem nextId_launched {s : State} {k : Nat} {t : Thread} (h : t.prio = none) : nextId s k t = (derivedId s t, numbered s k t) := by
  simp only [nextId, derivedId, h, numbered]
  rfl

theorem queue_numbered (s : State) (k : Nat) (t : Thread) (q : Nat) : ((numbered s k t).core t.core).queue q = (s.core t.core).queue q := by
  rw [numbered, State.core_updCore_same]
  rcases q with _ | _ | _ | q <;> rfl

/-- The state in which the own queue of a launched thread's core takes its record. -/
def enqueuing (s : State) (k : Nat) (t : Thread) : State := (numbered s k t).updThread k (fun u => u.visit t.core)

theorem queue_enqueuing (s : State) (k : Nat) (t : Thread) (q : Nat) : ((enqueuing s k t).core t.core).queue q = (s.core t.core).queue q := queue_numbered s k t q

/-- A record for the issuing core is accepted or held, and RECQ completes at once. -/
theorem queueRecord_own {op : LongOp} {held : Bool} {o : Long} {s v : State} {k n : Nat} {t : Thread} {bs : List Byte} (hfree : Free t o false true)
    (hpay : payloadAt s t o 32 = some bs) (hkind : recKind bs % 2 = 0) (hqueue : recQueue bs = 0) (hhome : recHome bs = t.core) (hprio : t.prio = none)
    (hv : deliverRecord (enqueuing s k t) t.core (filled bs (derivedId s t) held) t.core none = (.accepted v, n)) :
    queueRecord op held o s k t = .go (addReady v k (if held then { mkOp t o with dst := some (o.d.toNat, 2), size := 8 } else mkOp t o) (if held then handleOf t.core n else [])) := by
  have hparent : parentOf t = none := by simp [parentOf, hprio]
  rw [queueRecord, memStart_free hfree (by simp [wideScope])]
  rw [enqueuing] at hv
  simp only [payloadOf_eq hpay, hkind, hqueue, hhome, nextId_launched hprio, fillRecord_eq_filled _ _ (length_payloadAt hpay rfl), hparent, hv, ownDelivery]
  simp

/-- A thread whose enqueue has taken its number. -/
def Thread.numbered (t : Thread) : Thread := { t with sr := { t.sr with sendix := t.sr.sendix + 1#32 } }

theorem thread_numbered {s : State} {k : Nat} {t : Thread} (ht : s.thread k = some t) : (numbered s k t).thread k = some (Thread.numbered t) := by
  show (s.updThread k Thread.numbered).thread k = _
  rw [State.thread_updThread_same, ht, Option.map_some]

theorem thread_enqueuing {s : State} {k : Nat} {t : Thread} (ht : s.thread k = some t) : (enqueuing s k t).thread k = some ((Thread.numbered t).visit t.core) := by
  rw [enqueuing, State.thread_updThread_same, thread_numbered ht, Option.map_some]

theorem agents_holding (s : State) (ep src : Nat) (bs : List Byte) : Agents s (holding s ep src bs) := (Agents.updCore ..).trans (.updCore ..)

/-- What a record for the issuing core leaves: its operation is ready, and the queue has taken it as `v` has. -/
theorem recq_done {i : Instr} {op : LongOp} {held : Bool} {o : Long} {s v : State} {k n : Nat} {t : Thread} {bs : List Byte}
    (hi : exec i s = runLong op o (queueRecord op held o) s) (hl : Lone op o s k t) (hfree : Free t o false true)
    (hpay : payloadAt s t o 32 = some bs) (hkind : recKind bs % 2 = 0) (hqueue : recQueue bs = 0) (hhome : recHome bs = t.core) (hprio : t.prio = none)
    (hv : deliverRecord (enqueuing (s.began k t o.bytes) k (t.begun o.bytes)) t.core (filled bs (derivedId s t) held) t.core none = (.accepted v, n))
    (hagents : Agents (enqueuing (s.began k t o.bytes) k (t.begun o.bytes)) v) (hfresh : s.fresh ≤ v.fresh) :
    ∃ s' u key p, exec i s = .next s' ∧ s'.thread k = some u ∧ s.fresh ≤ key ∧ u.ops.find key = some p ∧ p.status = .ready (if held then handleOf t.core n else []) ∧
      ∀ ep, s'.core ep = v.core ep := by
  have hthread : v.thread k = _ := (congrArg (NMap.find · k) hagents.threads :).trans (thread_enqueuing (thread_began o.bytes hl.2.1))
  have heff := queueRecord_own (op := op) (s := s.began k t o.bytes) (t := t.begun o.bytes) hfree hpay hkind hqueue hhome hprio hv
  obtain ⟨w, hw, -, -, hops, hcore⟩ := settled_addReady (op := op) (o := o) (t := t.begun o.bytes)
    (if held then { mkOp (t.begun o.bytes) o with dst := some (o.d.toNat, 2), size := 8 } else mkOp (t.begun o.bytes) o) (if held then handleOf t.core n else []) hthread
  refine ⟨_, w, v.fresh, { (if held then { mkOp (t.begun o.bytes) o with dst := some (o.d.toNat, 2), size := 8 } else mkOp (t.begun o.bytes) o) with
    status := .ready (if held then handleOf t.core n else []), issued := v.ticks }, ?_, hw, hfresh, ?_, rfl, hcore⟩
  · rw [hi, runLong_lone _ hl, heff]
    rfl
  · rw [hops]
    exact NMap.find_put_same ..

/-- A record for the issuing core: accepted by its own queue at once, or held under its ticket. -/
theorem recordsOfTheCore {o : Long} {s : State} {k : Nat} {t : Thread} (held : Bool) (bs : List Byte) (hl : Lone (if held then .recqHeld else .recq) o s k t) (hfree : Free t o false true)
    (hpay : payloadAt s t o 32 = some bs) (hkind : recKind bs % 2 = 0) (hqueue : recQueue bs = 0) (hhome : recHome bs = t.core) (hprio : t.prio = none)
    (hbound : (s.core t.core).recs.bound = true) (hspill : spilling s t.core 3 = false) (hroom : (s.core t.core).recs.entries.length < 2 ^ (s.core t.core).recs.ringLog) :
    ∃ s' u key p, exec (if held then .recqHeld o else .recq o) s = .next s' ∧ s'.thread k = some u ∧ s.fresh ≤ key ∧ u.ops.find key = some p ∧
      (s'.core t.core).recs.ticket = ((s.core t.core).recs.ticket + 1) % 2 ^ 32 ∧
      (if held then p.status = .ready (leBytes 8 (t.core % 2 ^ 20 * 2 ^ 44 + ((s.core t.core).recs.ticket + 1) % 2 ^ 32)) ∧
          ∃ h, (s'.core t.core).recs.held.find (((s.core t.core).recs.ticket + 1) % 2 ^ 32) = some h ∧ h.bytes = filled bs (derivedId s t) true
        else p.status = .ready [] ∧ ∃ e, (s'.core t.core).recs.entries.find (s.core t.core).recs.next = some e ∧ e.bytes = filled bs (derivedId s t) false ∧
          e.prio = recPrio bs ∧ e.deriv = derivedId s t) := by
  have hlen := length_payloadAt hpay rfl
  let u := enqueuing (s.began k t o.bytes) k (t.begun o.bytes)
  have hu : (u.core t.core).recs = (s.core t.core).recs := queue_enqueuing (s.began k t o.bytes) k (t.begun o.bytes) 3
  cases held with
  | true =>
    have hd := deliverRecord_held (s := u) (ep := t.core) (src := t.core) (recHeld_filled (derivedId s t) true hlen) (by rw [hu]; exact hbound)
    obtain ⟨s', w, key, p, hex, hw, hkey, hop, hst, hcore⟩ := recq_done (i := .recqHeld o) (op := .recqHeld) (held := true) rfl hl hfree hpay hkind hqueue hhome hprio hd (agents_holding ..) le_rfl
    have hrecs := (congrArg Core.recs (hcore t.core) :).trans (recs_holding u t.core t.core (filled bs (derivedId s t) true))
    rw [hu] at hrecs hst
    refine ⟨s', w, key, p, hex, hw, hkey, hop, (congrArg Queue.ticket hrecs :), ?_, ?_⟩
    · rw [hst, if_pos rfl, handleOf, Nat.mod_mod]
    · exact ⟨_, (congrArg (fun x : Queue => x.held.find (((s.core t.core).recs.ticket + 1) % 2 ^ 32)) hrecs :).trans (NMap.find_put_same ..), rfl⟩
  | false =>
    have hc := recs_counted u t.core
    rw [hu] at hc
    have hd := deliverRecord_passed (s := u) (ep := t.core) (src := t.core) (parent := none) (recHeld_filled (derivedId s t) false hlen)
    have hq : ((counted u t.core).core t.core).queue 3 = _ := hc
    have hin := deliver_room (s := counted u t.core) (ep := t.core) (q := 3) (e := recEntry (filled bs (derivedId s t) false) t.core) (by rw [hq]; exact hbound) hspill (by rw [hq]; exact hroom)
    rw [hin] at hd
    obtain ⟨s', w, key, p, hex, hw, hkey, hop, hst, hcore⟩ := recq_done (i := .recq o) (op := .recq) (held := false) rfl hl hfree hpay hkind hqueue hhome hprio hd
      ((Agents.updCore ..).trans (agents_acceptEntry ..)) (fresh_acceptEntry (counted u t.core) ..)
    have hstored := stored_enqueued (counted u t.core) t.core 3 (recEntry (filled bs (derivedId s t) false) t.core)
    have hrecs := (congrArg Core.recs (hcore t.core) :).trans (queue_acceptEntry (counted u t.core) t.core 3 _).1
    rw [hq] at hrecs
    refine ⟨s', w, key, p, hex, hw, hkey, hop, (congrArg Queue.ticket hrecs :), hst, _, (congrArg (fun x : Queue => x.entries.find (s.core t.core).recs.next) hrecs :).trans (NMap.find_put_same ..),
      hstored.bytes, ?_, ?_⟩
    · rw [hstored.prio]
      exact recPrio_filled _ _ hlen
    · rw [hstored.deriv]
      exact recDeriv_filled _ _ hlen

/-! ### What a thread leaves of its core's queues when it ends (R18) -/

/-- A queue is what its core holds; that of a core which holds nothing is the reset one. -/
theorem queue_of_cores {s s' : State} (h : s'.cores = s.cores) (ep q : Nat) : (s'.core ep).queue q = (s.core ep).queue q := by
  simp only [State.core, h]
  cases s.cores.find ep with
  | some c => rfl
  | none => rcases q with _ | _ | _ | q <;> rfl

theorem queue_exitThread {s : State} {k : Nat} {t : Thread} (ht : s.thread k = some t) (he : t.entry = none) (hr : t.treelet = none) (ep q : Nat) :
    ((exitThread s k).core ep).queue q = (s.core ep).queue q := by
  have hfree : ∀ u g, ((freeGroup u g).core ep).queue q = (u.core ep).queue q := fun u g => by
    unfold freeGroup
    split <;> rfl
  have hleave := queue_of_cores (keepsCores_leaveAll s t).cores ep q
  have hleft : ((leaving s k t).core ep).queue q = (s.core ep).queue q := by
    simp only [leaving, hr, retireEntry, he]
    by_cases h : ep = t.core
    · subst h
      rw [State.core_updCore_same]
      rcases q with _ | _ | _ | q <;> exact hleave
    · rw [State.core_updCore_other _ _ h]
      exact hleave
  rw [exitThread_eq ht, queue_of_cores (course_checkYielded ..).cores, hfree, hleft]

theorem HasExited.touchEntry {s : State} {k : Nat} (h : HasExited s k) (j : Nat) : HasExited (touchEntry s j) k := by
  unfold Machine.touchEntry
  split
  · exact h
  · next t _ =>
    refine h.map (f := fun p => if p.2.core == t.core && p.2.pc == t.pc && (s.team p.2.team).asid == (s.team t.team).asid then
      { p.2 with arrival := s.now t, touch := false } else p.2) (fun p _ hp => ?_) (List.map_congr_left fun p _ => ?_)
    · split
      · exact hp
      · exact hp
    · split <;> rfl

theorem HasExited.keepTouch {s : State} {k : Nat} (h : HasExited s k) (yh : BitVec 1) (t : Thread) (j : Nat) : HasExited (keepTouch yh t j s) k := by
  unfold Machine.keepTouch
  split
  · exact h
  · split
    · exact h
    · split
      · exact h.updThread j fun _ hx => hx
      · exact h.touchEntry j

theorem kept_state (op : LongOp) (o : Long) (u t : Thread) : (u.kept op o t).state = u.state := by
  unfold Thread.kept
  split <;> rfl

theorem HasExited.restop {s : State} {k : Nat} (h : HasExited s k) : HasExited (restop s) k := by
  refine List.foldlRecOn (motive := fun u => HasExited u k) s.cur _ h (fun u hu j _ => ?_)
  split
  · exact hu
  · split
    · exact hu.updThread j fun x hx => by simp [Thread.stop, hx]
    · exact hu

/-- A thread that has ended stays so when its instruction is settled. -/
theorem HasExited.settled {s : State} {k : Nat} (h : HasExited s k) (op : LongOp) (o : Long) (t : Thread) (j : Nat) : HasExited (Machine.restop (settle op o t j (.done s))) k :=
  ((h.updThread j fun u hu => (kept_state op o u t).trans hu).keepTouch o.yh t j).restop

theorem onlyThreads_keepTouch (yh : BitVec 1) (t : Thread) (k : Nat) (s : State) : OnlyThreads s (keepTouch yh t k s) := by
  unfold keepTouch
  split
  · exact .refl s
  · split
    · exact .refl s
    · split
      · exact .updThread ..
      · exact onlyThreads_touchEntry ..

theorem onlyThreads_restop_settle_done (op : LongOp) (o : Long) (t : Thread) (k : Nat) (s : State) : OnlyThreads s (restop (settle op o t k (.done s))) :=
  ((OnlyThreads.updThread ..).trans (onlyThreads_keepTouch ..)).trans (onlyThreads_restop _)

/-! ### RQUE (R35, R326) -/

/-- The key of the record that RQUE leaves. -/
theorem key_queuedSelf (o : Long) (t : Thread) (len prio src : Nat) (deriv : DWord) :
    (recEntry (queuedSelf o t len prio deriv) src).key = some ((src32 t o .a).toNat % 4096) := by
  have hflags : field (queuedSelf o t len prio deriv) 27 1 = 8 :=
    (field_append (by simp [leBytes_length]) (leBytes_length ..)).trans (by rw [leNat_leBytes]; rfl)
  have hhome : field (queuedSelf o t len prio deriv) 28 4 = t.core % 2 ^ 20 + (src32 t o .a).toNat % 4096 * 2 ^ 20 := by
    refine (congrArg (field · 28 4) (List.append_nil _).symm).trans ((field_append (by simp [leBytes_length]) (leBytes_length ..)).trans ?_)
    rw [leNat_leBytes]
    omega
  have hkeyed : recKeyed (queuedSelf o t len prio deriv) = true := by rw [recKeyed, hflags]; rfl
  have hkey : recKey (queuedSelf o t len prio deriv) = (src32 t o .a).toNat % 4096 := by
    rw [recKey, hhome, bits]
    omega
  simp only [recEntry, hkeyed, if_true, hkey]

/-- The state in which RQUE's thread ends: a launched thread's enqueue has taken its number. -/
def requeued (s : State) (k : Nat) (t : Thread) : State := if t.prio.isSome then s else numbered s k t

theorem queue_requeued (s : State) (k : Nat) (t : Thread) (q : Nat) : ((requeued s k t).core t.core).queue q = (s.core t.core).queue q := by
  unfold requeued
  split
  · rfl
  · exact queue_numbered ..

/-- What stands in RQUE's thread as it ends, apart from its send index, is what stood in it. -/
theorem thread_requeued {s : State} {k : Nat} {t : Thread} (ht : s.thread k = some t) :
    ∃ u, (requeued s k t).thread k = some u ∧ u.entry = t.entry ∧ u.treelet = t.treelet ∧ u.core = t.core := by
  unfold requeued
  split
  · exact ⟨t, ht, rfl, rfl, rfl⟩
  · exact ⟨_, thread_numbered ht, rfl, rfl, rfl⟩

/-- The state after RQUE's thread has ended and its receipt is counted. -/
def ended (s : State) (k : Nat) (t : Thread) : State := (exitThread (requeued s k t) k).updQueue t.core 3 (fun u => { u with ticket := (u.ticket + 1) % 2 ^ 32 })

theorem recs_ended {s : State} {k : Nat} {t : Thread} (ht : s.thread k = some t) (he : t.entry = none) (hr : t.treelet = none) :
    ((ended s k t).core t.core).queue 3 = { (s.core t.core).recs with ticket := ((s.core t.core).recs.ticket + 1) % 2 ^ 32 } := by
  obtain ⟨u, hu, hue, hur, -⟩ := thread_requeued ht
  rw [ended, queue_updQueue, queue_exitThread hu (hue.trans he) (hur.trans hr), queue_requeued]
  rfl

theorem effRque_ends {o : Long} {s : State} {k : Nat} {t : Thread} (hc : Clear t false true) (howes : owesRegister t = false) (hb : (s.core t.core).recs.bound = true)
    (hl : (s.core t.core).recs.entries.length < 2 ^ (s.core t.core).recs.ringLog) :
    effRque o s k t = .done (acceptEntry (ended s k t) t.core 3 (recEntry (rqueRecord o t (if o.m4.getLsbD 2 then o.m4.toNat % 4 else prioOf s t)
      (if t.prio.isSome then t.sr.deriv else derivedId s t)) t.core)) := by
  have hr : ringFull (s.core t.core).recs = false := by simpa [ringFull] using hl
  simp only [effRque, howes, memGate_clear hc, hb, hr, Bool.not_true, Bool.false_eq_true, if_false, Bool.false_and]
  by_cases hp : t.prio.isSome = true
  · simp only [hp, if_true, ended, requeued, taskPrio, prioOf]
  · have hn : t.prio = none := by simpa using hp
    simp only [hp, nextId_launched hn, ended, requeued, taskPrio, prioOf, Bool.false_eq_true, if_false]

theorem rqueLeavesItsContinuation {o : Long} {s : State} {k : Nat} {t : Thread} (hl : Lone .rque o s k t) (hc : Clear t false true) (howes : owesRegister t = false)
    (hb : (s.core t.core).recs.bound = true) (hroom : (s.core t.core).recs.entries.length < 2 ^ (s.core t.core).recs.ringLog) (he : t.entry = none) (hr : t.treelet = none) :
    ∃ s' e, exec (.rque o) s = .next s' ∧ (s'.core t.core).recs.entries.find (s.core t.core).recs.next = some e ∧
      e.bytes = queuedSelf o t o.bytes (if o.m4.getLsbD 2 then o.m4.toNat % 4 else prioOf s t) (if t.prio.isSome then t.sr.deriv else derivedId s t) ∧
      e.key = some ((src32 t o .a).toNat % 4096) ∧ ∀ u, s'.thread k = some u → u.state = .exited := by
  have hbegun := thread_began o.bytes hl.2.1
  let v := ended (s.began k t o.bytes) k (t.begun o.bytes)
  let e := recEntry (queuedSelf o t o.bytes (if o.m4.getLsbD 2 then o.m4.toNat % 4 else prioOf s t) (if t.prio.isSome then t.sr.deriv else derivedId s t)) t.core
  have heff : effRque o (s.began k t o.bytes) k (t.begun o.bytes) = .done (acceptEntry v t.core 3 e) := effRque_ends hc howes hb hroom
  have hrecs : (v.core t.core).queue 3 = _ := recs_ended hbegun he hr
  have hstored := stored_enqueued v t.core 3 e
  have hq := (queue_acceptEntry v t.core 3 e).1
  rw [hrecs] at hq
  obtain ⟨u, hu, -⟩ := thread_requeued hbegun
  have hexit : HasExited v k := (hasExited_exitThread hu).of_subset (List.Subset.refl _)
  have hexit' : HasExited (acceptEntry v t.core 3 e) k := hexit.of_subset (by rw [(agents_acceptEntry v t.core 3 e).threads]; exact List.Subset.refl _)
  have hcore := (onlyThreads_restop_settle_done .rque o (t.begun o.bytes) k (acceptEntry v t.core 3 e)).congr (fun x => (x.core t.core).recs) (fun _ _ => rfl)
  refine ⟨restop (settle .rque o (t.begun o.bytes) k (.done (acceptEntry v t.core 3 e))), enqueued v t.core 3 e, ?_, ?_, hstored.bytes, ?_, fun u hu => HasExited.thread (hexit'.settled _ _ _ _) hu⟩
  · refine (runLong_lone (effRque o) hl).trans ?_
    rw [heff]
    rfl
  · exact (congrArg (fun x : Queue => x.entries.find (s.core t.core).recs.next) (hcore.trans hq) :).trans (NMap.find_put_same ..)
  · rw [hstored.key]
    exact key_queuedSelf ..

/-! ### RECV (R327) -/

theorem queue_acquireAction (s : State) (ep scope q : Nat) : ((acquireAction s ep scope).core ep).queue q = (s.core ep).queue q := by
  unfold acquireAction
  split
  · rw [State.core_updCore_same]
    rcases q with _ | _ | _ | q <;> rfl
  · rfl

theorem agents_acquireAction (s : State) (ep scope : Nat) : Agents s (acquireAction s ep scope) := by
  unfold acquireAction
  split
  · exact .updCore ..
  · exact .refl s

/-- An entry that is used up is in its queue no more. -/
theorem entries_takeGone (s : State) (ep q k : Nat) (e : Entry) : (((takeGone s ep q k e).core ep).queue q).entries.find k = none := by
  rw [takeGone, dropEntry, queue_updQueue]
  exact find_drop_same ..

/-- Nothing is discarded from a queue whose head is no block of a view that has been left. -/
theorem dropStale_eq_self {s : State} {ep : Nat} (h : ∀ j e, nextEntry (s.core ep).msgs = some (j, e) → staleBlock s ep e = false) (n : Nat) : dropStale s ep n = s := by
  rcases n with _ | n
  · rfl
  · unfold dropStale
    split
    · next j e hn => simp [h j e hn]
    · rfl

/-- What the sender of a message is to its receiver. -/
def senderOf (e : Entry) : List Word := if e.typ = 0x43 then pair e.addr.toNat else pair (e.src % 2 ^ 20)

theorem pair_toNat (a : DWord) : [a.setWidth 32, a.extractLsb' 32 32] = pair a.toNat := by
  have h0 : a.setWidth 32 = BitVec.ofNat 32 a.toNat := by rw [BitVec.ofNat_toNat]
  have h1 : a.extractLsb' 32 32 = BitVec.ofNat 32 (a.toNat / 2 ^ 32) := by
    apply BitVec.eq_of_toNat_eq
    rw [BitVec.extractLsb'_toNat, BitVec.toNat_ofNat, Nat.shiftRight_eq_div_pow]
  rw [pair, h0, h1]

theorem pair_endpoint (n : Nat) : [BitVec.ofNat 32 (n % 2 ^ 20), 0#32] = pair (n % 2 ^ 20) := by
  rw [pair, Nat.div_eq_of_lt (by omega)]

/-- The registers and the predicate of a thread that has received an entry. -/
def received (o : Long) (e : Entry) (t : Thread) : Thread := ((t.setRegs o.d.toNat (bytesToWords 16 e.bytes)).setRegs o.e.toNat (senderOf e)).setPred o.c.toNat true

section
variable {o : Long} {s : State} {k : Nat} {t : Thread}

theorem effRecv_takes {j : Nat} {e : Entry} (hc : Clear t false false) (hn : nextEntry (s.core t.core).msgs = some (j, e)) (hs : staleBlock s t.core e = false) :
    effRecv o s k t = .go ((acquireAction (takeGone s t.core 2 j e) t.core (entryScope t.core e)).updThread k (received o e)) := by
  have hd := dropStale_eq_self (s := s) (ep := t.core) (fun j' e' h => by
    obtain ⟨-, rfl⟩ := Prod.mk.inj (Option.some.inj (hn.symm.trans h))
    exact hs) (s.core t.core).msgs.entries.length
  simp only [effRecv, memGate_clear hc, hd, hn, pair_toNat, pair_endpoint]
  rfl

theorem effRecv_empty (hc : Clear t false false) (hn : nextEntry (s.core t.core).msgs = none) :
    (o.m4.getLsbD 0 = true → effRecv o s k t = .go (s.updThread k (fun t => t.setPred o.c.toNat false))) ∧
    (o.m4.getLsbD 0 = false → (s.team t.team).preq = false → effRecv o s k t = .wait s .waiting) := by
  have hd := dropStale_eq_self (s := s) (ep := t.core) (fun j e h => by rw [hn] at h; cases h) (s.core t.core).msgs.entries.length
  constructor
  · intro hm
    simp only [effRecv, memGate_clear hc, hd, hn, hm, if_true]
  · intro hm hp
    simp only [effRecv, memGate_clear hc, hd, hn, hm, hp, Bool.false_eq_true, if_false]

end

/-- A lane that goes on is what its effect leaves, but for its course and its operand buffer. -/
theorem restop_settle_go_still {op : LongOp} {o : Long} {t u : Thread} {k : Nat} {s : State} (hu : s.thread k = some u) :
    ∃ v, (restop (settle op o t k (.go s))).thread k = some v ∧ v.pc = u.after ∧ v.still = (u.kept op o t).still := by
  have h := untimed_settle_go op o t k s
  rw [hu, Option.map_some, Option.map_eq_some_iff] at h
  obtain ⟨w, hw, he⟩ := h
  have hstop := map_thread_restop (fun t => (t.still, t.pc)) (fun t => by simp) (settle op o t k (.go s)) k
  rw [hw, Option.map_some, Option.map_eq_some_iff] at hstop
  obtain ⟨v, hv, hve⟩ := hstop
  obtain ⟨hs, hp⟩ := Prod.mk.inj hve
  refine ⟨v, hv, ?_, hs.trans (Eq.trans (still_of_untimed he) rfl)⟩
  rw [hp, pc_of_untimed he]
  exact kept_after op o u t

@[simp] theorem kept_preds (op : LongOp) (o : Long) (u t : Thread) : (u.kept op o t).preds = u.preds := by
  unfold Thread.kept
  split <;> rfl

theorem setPred_after (t : Thread) (i : Nat) (v : Bool) : (t.setPred i v).after = t.after := by
  unfold Thread.setPred
  split <;> rfl

theorem setPred_regs (t : Thread) (i : Nat) (v : Bool) : (t.setPred i v).regs = t.regs := by
  unfold Thread.setPred
  split <;> rfl

theorem setPred_preds (t u : Thread) (i : Nat) (v : Bool) (h : u.preds = t.preds) : (u.setPred i v).preds = (t.setPred i v).preds := by
  unfold Thread.setPred
  split
  · exact h
  · simp only [h]

/-- What a lane that goes on has in its registers and predicates. -/
theorem restop_settle_go_preds {op : LongOp} {o : Long} {t u : Thread} {k : Nat} {s : State} (hu : s.thread k = some u) :
    ∃ v, (restop (settle op o t k (.go s))).thread k = some v ∧ v.pc = u.after ∧ v.regs = u.regs ∧ v.preds = u.preds := by
  obtain ⟨v, hv, hpc, hs⟩ := restop_settle_go_still (op := op) (o := o) (t := t) hu
  refine ⟨v, hv, hpc, ?_, ?_⟩
  · exact (congrArg Thread.regs hs :).trans (kept_regs ..)
  · exact (congrArg Thread.preds hs :).trans (kept_preds ..)

/-- A lane that waits without yielding stands where it stood. -/
theorem restop_settle_wait {op : LongOp} {o : Long} {t u : Thread} {k : Nat} {s : State} (hc : s.cur = [k]) (hu : s.thread k = some u) (hh : (s.team u.team).halted = false) :
    (restop (settle op o t k (.wait s .waiting))).thread k = some { u with state := .waiting } := by
  have hw : waitIn s k .waiting = s.updThread k (fun t => { t with state := .waiting, yielded := t.yielded || ((s.team u.team).preq && false) }) := by
    simp [waitIn, hu]
  have hthread : (waitIn s k .waiting).thread k = some { u with state := .waiting } := by
    rw [hw, State.thread_updThread_same, hu]
    simp
  show (restop (waitIn s k .waiting)).thread k = _
  rw [restop_lone (by rw [hw]; exact hc) hthread (by rw [hw]; exact hh), hthread]

theorem recvTakesTheNextMessage {o : Long} {s : State} {k : Nat} {t : Thread} (hh : (s.team t.team).halted = false) (hl : Lone .recv o s k t) (hc : Clear t false false) :
    (∀ j e, nextEntry (s.core t.core).msgs = some (j, e) → staleBlock s t.core e = false →
      ∃ s' u, exec (.recv o) s = .next s' ∧ s'.thread k = some u ∧ u.pc = t.pc + BitVec.ofNat 64 o.bytes ∧ u.regs = (received o e t).regs ∧
        u.preds = (t.setPred o.c.toNat true).preds ∧ (s'.core t.core).msgs.entries.find j = none) ∧
    (nextEntry (s.core t.core).msgs = none → o.m4.getLsbD 0 = true →
      ∃ s' u, exec (.recv o) s = .next s' ∧ s'.thread k = some u ∧ u.pc = t.pc + BitVec.ofNat 64 o.bytes ∧ u.regs = t.regs ∧ u.preds = (t.setPred o.c.toNat false).preds) ∧
    (nextEntry (s.core t.core).msgs = none → o.m4.getLsbD 0 = false → (s.team t.team).preq = false →
      ∃ s' u, exec (.recv o) s = .next s' ∧ s'.thread k = some u ∧ u.pc = t.pc ∧ u.state = .waiting ∧ u.regs = t.regs) := by
  have hbegun := thread_began o.bytes hl.2.1
  have hex : exec (.recv o) s = _ := runLong_lone (effRecv o) hl
  refine ⟨?_, ?_, ?_⟩
  · intro j e hn hs
    rw [effRecv_takes (s := s.began k t o.bytes) (t := t.begun o.bytes) hc hn hs] at hex
    let v := acquireAction (takeGone (s.began k t o.bytes) t.core 2 j e) t.core (entryScope t.core e)
    have hv : v.thread k = some (t.begun o.bytes) :=
      (congrArg (NMap.find · k) ((Agents.updCore ..).trans ((agents_dropEntry ..).trans (agents_acquireAction ..))).threads :).trans hbegun
    obtain ⟨w, hw, hpc, hregs, hpreds⟩ := restop_settle_go_preds (op := .recv) (o := o) (t := t.begun o.bytes)
      (show (v.updThread k (received o e)).thread k = some (received o e (t.begun o.bytes)) by rw [State.thread_updThread_same, hv, Option.map_some])
    refine ⟨_, w, hex, hw, ?_, ?_, ?_, ?_⟩
    · rw [hpc, received, setPred_after]
      rfl
    · rw [hregs, received, received, setPred_regs, setPred_regs]
      rfl
    · rw [hpreds, received]
      exact setPred_preds t _ _ _ rfl
    · have hcore := (onlyThreads_restop_settle_go .recv o (t.begun o.bytes) k (v.updThread k (received o e))).congr (fun x => (x.core t.core).msgs) (fun _ _ => rfl)
      refine (congrArg (fun x : Queue => x.entries.find j) hcore :).trans ?_
      exact (congrArg (fun x : Queue => x.entries.find j) (queue_acquireAction _ t.core _ 2) :).trans (entries_takeGone ..)
  · intro hn hm
    rw [(effRecv_empty (s := s.began k t o.bytes) (t := t.begun o.bytes) hc hn).1 hm] at hex
    obtain ⟨w, hw, hpc, hregs, hpreds⟩ := restop_settle_go_preds (op := .recv) (o := o) (t := t.begun o.bytes)
      (show ((s.began k t o.bytes).updThread k (fun t => t.setPred o.c.toNat false)).thread k = some ((t.begun o.bytes).setPred o.c.toNat false) by
        rw [State.thread_updThread_same, hbegun, Option.map_some])
    refine ⟨_, w, hex, hw, ?_, ?_, ?_⟩
    · rw [hpc, setPred_after]
      rfl
    · rw [hregs, setPred_regs]
      rfl
    · rw [hpreds]
      exact setPred_preds t _ _ _ rfl
  · intro hn hm hp
    rw [(effRecv_empty (s := s.began k t o.bytes) (t := t.begun o.bytes) hc hn).2 hm hp] at hex
    exact ⟨_, _, hex, restop_settle_wait hl.1 hbegun hh, rfl, rfl, rfl⟩

/-! ### Allowance slots (R157, R328, R329) -/

/-- The flits that a destination admits are the rule's: 1,023 where it is not metered, else its entry's or ALLOWCFG.INIT. -/
theorem allowanceOf_eq (s : State) (ep dst n : Nat) (hn : n ≤ 1023) :
    decide (n ≤ allowanceOf s ep dst) = (!meteredEp dst || decide (n ≤ ((s.core ep).allow.find dst).elim ((s.core ep).allowcfg.toNat / 2 ^ 16 % 2 ^ 10) (·.flits))) := by
  have hinit : allowInit (s.core ep) = (s.core ep).allowcfg.toNat / 2 ^ 16 % 2 ^ 10 := by
    rw [allowInit, BitVec.extractLsb'_toNat, Nat.shiftRight_eq_div_pow]
  unfold allowanceOf
  by_cases hm : meteredEp dst = true
  · rw [hm, hinit]
    cases (s.core ep).allow.find dst <;> rfl
  · rw [(Bool.not_eq_true _).mp hm]
    simpa using hn

/-- A destination that is not metered, or has its entry, is bound at once. -/
theorem effAbind_binds {o : Long} {s : State} {k : Nat} {t : Thread} (h : meteredEp (destination t o) = false ∨ ((s.core t.core).allow.find (destination t o)).isSome = true) :
    effAbind o s k t = .go (s.updThread k (fun u => { u with sr := { u.sr with slots := u.sr.slots.set o.d.toNat (some (destination t o)) } })) := by
  have hdst : destOf t o = destination t o := rfl
  simp only [effAbind, hdst]
  rcases h with h | h
  · simp [h]
  · obtain ⟨a, ha⟩ := Option.isSome_iff_exists.mp h
    have hentry : allowEntry s t.core (destination t o) = some s := by simp [allowEntry, ha]
    simp [hentry]

/-- Settles O42, form by form. -/
theorem recordsMessagesAndSlotsAreServedAtTheCore : Obligations.RecordsMessagesAndSlotsAreServedAtTheCore := by
  unfold Obligations.RecordsMessagesAndSlotsAreServedAtTheCore
  intro o s k t hh
  refine ⟨recordsOfTheCore, rqueLeavesItsContinuation, recvTakesTheNextMessage hh, ?_, ?_, ?_⟩
  · exact alone_of_runLong (fun _ => rfl) (fun s k t _ hallow => effAbind_binds (s := s.began k t o.bytes) hallow)
  · exact computes_inner (op := .abindUn) (w0 := word0 .abindUn o) (f := fun t => { t with sr := { t.sr with slots := t.sr.slots.set o.d.toNat none } }) ⟨fun _ => rfl, fun _ => rfl⟩ (fun _ => rfl)
  · refine alone_of_runLong (fun _ => rfl) (fun s k t _ _ => ?_)
    have hslots : (t.begun o.bytes).sr.slots = t.sr.slots := rfl
    simp only [effBalw, hslots]
    cases hs : t.sr.slots.getD o.a.toNat none with
    | none => rfl
    | some dst =>
      dsimp only
      rw [allowanceOf_eq _ _ _ _ (by omega)]
      cases ((s.began k t o.bytes).core (t.begun o.bytes).core).allow.find dst <;> rfl

end Sys2Proof.ExecutionLaws
end

section
/-! PROOFS. Forms that complete (R18, R42, R197, R247, R248, R258, R259, R317 to R320, R346, R366, R397): what a lone thread is once its instruction is settled, and the
effect of each form in its own terms. -/

namespace Sys2Proof.ExecutionLaws

open Sys2Proof Sys2Proof.Machine Sys2Proof.Claims Sys2Proof.HostLaws

/-! ### A lone thread that goes on -/

/-- But for its operand buffer a thread that has executed is what its effect leaves. -/
theorem kept_eq (op : LongOp) (o : Long) (u t : Thread) : ∃ b r, u.kept op o t = { u with buf := b, badRegs := r } := by
  unfold Thread.kept
  split
  · exact ⟨u.buf, u.badRegs, rfl⟩
  · exact ⟨_, _, rfl⟩

section
variable {op : LongOp} {o : Long} {t u : Thread} {len k : Nat} {v : State}

/-- A lane that goes on is past its instruction, runnable, and otherwise what its effect leaves. -/
theorem settled_go (hc : v.cur = [k]) (hu : v.thread k = some u) (hh : (v.team u.team).halted = false) (hs : u.stopping = false) :
    ∃ w b r, (settled op o t len k (.go v)).thread k = some w ∧ w.pc = u.after ∧ w.state = .runnable ∧ w.still = ({ u with buf := b, badRegs := r } : Thread).still := by
  obtain ⟨b, r, hk⟩ := kept_eq op o u (t.begun len)
  have h := untimed_settle_go op o (t.begun len) k v
  rw [hu, Option.map_some, hk, Option.map_eq_some_iff] at h
  obtain ⟨w, hw, he⟩ := h
  have honly := onlyThreads_settle_go op o (t.begun len) k v
  have hteam : w.team = u.team := (congrArg Thread.team he :)
  have hrest : settled op o t len k (.go v) = settle op o (t.begun len) k (.go v) :=
    restop_lone ((honly.congr (·.cur) (fun _ _ => rfl)).trans hc) hw (by
      rw [hteam, honly.congr (·.team u.team) (fun _ _ => rfl)]
      exact hh)
  refine ⟨w, b, r, by rw [hrest, hw], (congrArg Thread.pc he :), (congrArg Thread.state he :).trans ?_, Eq.trans (still_of_untimed he) rfl⟩
  show (if u.stopping then ThreadState.stopped else .runnable) = _
  rw [hs]
  rfl

theorem untimed_keepTouch (yh : BitVec 1) (x : Thread) (j : Nat) (s : State) : ((keepTouch yh x k s).thread j).map Thread.untimed = (s.thread j).map Thread.untimed := by
  unfold keepTouch
  split
  · rfl
  · split
    · rfl
    · split
      · by_cases hj : j = k
        · subst hj
          rw [State.thread_updThread_same, Option.map_map]
          rfl
        · rw [State.thread_updThread_other _ _ hj]
      · exact untimed_touchEntry ..

/-- A lane whose effect has set its course is what its effect leaves. -/
theorem settled_done (hc : v.cur = [k]) (hu : v.thread k = some u) (hh : (v.team u.team).halted = false) :
    ∃ w b r, (settled op o t len k (.done v)).thread k = some w ∧ w.untimed = ({ u with buf := b, badRegs := r } : Thread).untimed := by
  obtain ⟨b, r, hk⟩ := kept_eq op o u (t.begun len)
  have h := untimed_keepTouch o.yh (t.begun len) k (k := k) (v.updThread k (fun u => u.kept op o (t.begun len)))
  rw [State.thread_updThread_same, hu, Option.map_some, Option.map_some, hk, Option.map_eq_some_iff] at h
  obtain ⟨w, hw, he⟩ := h
  have honly : OnlyThreads v (settle op o (t.begun len) k (.done v)) := (OnlyThreads.updThread ..).trans (onlyThreads_keepTouch ..)
  have hteam : w.team = u.team := (congrArg Thread.team he :)
  have hrest : settled op o t len k (.done v) = settle op o (t.begun len) k (.done v) :=
    restop_lone ((honly.congr (·.cur) (fun _ _ => rfl)).trans hc) hw (by
      rw [hteam, honly.congr (·.team u.team) (fun _ _ => rfl)]
      exact hh)
  exact ⟨w, b, r, by rw [hrest]; exact hw, he⟩

end

/-- The same where the effect is one in the lane's own thread. -/
theorem settled_pure {op : LongOp} {o : Long} {s : State} {t u : Thread} {len k : Nat} {f : Thread → Thread} (hh : (s.team t.team).halted = false) (hl : Lone op o s k t)
    (hf : f (t.begun len) = u) (hteam : u.team = t.team) (hstop : u.stopping = false) :
    ∃ w b r, (settled op o t len k (.go ((s.began k t len).updThread k f))).thread k = some w ∧ w.pc = u.after ∧ w.state = .runnable ∧
      w.still = ({ u with buf := b, badRegs := r } : Thread).still := by
  have hu : ((s.began k t len).updThread k f).thread k = some u := by rw [State.thread_updThread_same, thread_began len hl.2.1, Option.map_some, hf]
  exact settled_go hl.1 hu (by rw [hteam]; exact hh) hstop

/-! ### NOP and YIELD (R42, R247) -/

section
variable {o : Long} {s : State} {k : Nat} {t : Thread}

theorem nopShortGoesOn (hh : (s.team t.team).halted = false) (hl : Lone .nop longZero s k t) :
    ∃ s' u, exec .nopShort s = .next s' ∧ GoesOn s' k t 4 t.regs u ∧ u.preds = t.preds ∧ u.sr = t.sr ∧ s'.mem = s.mem := by
  obtain ⟨w, b, r, hw, hpc, hst, he⟩ := settled_go (op := .nop) (o := longZero) (t := t) (len := 4) (v := s.began k t 4) hl.1 (thread_began 4 hl.2.1) hh rfl
  exact ⟨_, w, runShort_lone _ (effNop longZero) hl, ⟨hw, hpc, hst, (congrArg Thread.regs he :)⟩, (congrArg Thread.preds he :), (congrArg Thread.sr he :),
    (onlyThreads_restop_settle_go ..).congr (·.mem) (fun _ _ => rfl)⟩

theorem halted_checkYielded (s : State) (m j : Nat) : ((checkYielded s m).team j).halted = (s.team j).halted := by
  dsimp only [checkYielded]
  split
  · by_cases hj : j = m
    · subst hj
      rw [State.team, State.updTeam, NMap.find_adjust_same, State.team]
      cases s.teams.find j <;> rfl
    · rw [State.team, State.updTeam, NMap.find_adjust_other _ _ hj, State.team]
  · rfl

/-- A thread that yields under a request stands past its YIELD. -/
def yielding (s : State) (t : Thread) : Thread := { t.advance (s.now t) with yielded := true }

theorem effYield_requested (hp : (s.team t.team).preq = true) (ht : s.thread k = some t) :
    effYield s k t = .done (checkYielded ((s.updThread k (fun u => u.advance (s.now t))).updThread k (fun u => { u with yielded := true })) t.team) := by
  have hadv : (s.updThread k (fun u => u.advance (s.now t))).thread k = some (t.advance (s.now t)) := by rw [State.thread_updThread_same, ht, Option.map_some]
  rw [effYield, if_pos hp, yieldAt, hadv]
  rfl

theorem mem_checkYielded (s : State) (m : Nat) : (checkYielded s m).mem = s.mem := (congrArg State.mem (course_checkYielded s m).eq :)

theorem thread_checkYielded (s : State) (m j : Nat) : (checkYielded s m).thread j = s.thread j := by
  dsimp only [checkYielded]
  split <;> rfl

theorem cur_checkYielded (s : State) (m : Nat) : (checkYielded s m).cur = s.cur := (congrArg State.cur (course_checkYielded s m).eq :)

/-- YIELD, of either length. -/
theorem yieldSets {i : Instr} {len : Nat} (hh : (s.team t.team).halted = false) (hl : Lone .yield o s k t)
    (hi : exec i s = .next (settled .yield o t len k (effYield (s.began k t len) k (t.begun len)))) :
    ∃ s' u, exec i s = .next s' ∧ GoesOn s' k t len t.regs u ∧ u.yielded = ((s.team t.team).preq || t.yielded) ∧ s'.mem = s.mem := by
  have hb := thread_began len hl.2.1
  cases hp : (s.team t.team).preq with
  | false =>
    have heff : effYield (s.began k t len) k (t.begun len) = .go (s.began k t len) := by
      have hp' : ((s.began k t len).team (t.begun len).team).preq = false := hp
      rw [effYield, hp']
      rfl
    obtain ⟨w, b, r, hw, hpc, hst, he⟩ := settled_go (op := .yield) (o := o) (t := t) (len := len) (v := s.began k t len) hl.1 hb hh rfl
    rw [heff] at hi
    exact ⟨_, w, hi, ⟨hw, hpc, hst, (congrArg Thread.regs he :)⟩, (congrArg Thread.yielded he :), (onlyThreads_restop_settle_go ..).congr (·.mem) (fun _ _ => rfl)⟩
  | true =>
    rw [effYield_requested (s := s.began k t len) (t := t.begun len) hp hb] at hi
    let v := (s.began k t len).updThread k (fun u => u.advance ((s.began k t len).now (t.begun len)))
    have hv : (v.updThread k (fun u => { u with yielded := true })).thread k = some (yielding (s.began k t len) (t.begun len)) := by
      rw [State.thread_updThread_same, State.thread_updThread_same, hb]
      rfl
    obtain ⟨w, b, r, hw, he⟩ := settled_done (op := .yield) (o := o) (t := t) (len := len)
      (v := checkYielded (v.updThread k (fun u => { u with yielded := true })) t.team) ((cur_checkYielded ..).trans hl.1) ((thread_checkYielded ..).trans hv)
      ((halted_checkYielded ..).trans hh)
    refine ⟨_, w, hi, ⟨hw, (congrArg Thread.pc he :), (congrArg Thread.state he :), (congrArg Thread.regs he :)⟩, (congrArg Thread.yielded he :), ?_⟩
    exact ((onlyThreads_restop_settle_done ..).congr (·.mem) (fun _ _ => rfl)).trans (mem_checkYielded ..)

/-! ### EXIT (R18, R247) -/

/-- EXIT, of either length: the thread has exited and its lane is enrolled nowhere. -/
theorem exitEnds {i : Instr} {len : Nat} (hl : Lone .exit o s k t) (howes : owesRegister t = false) (hjob : t.job = none) (hlane : t.lane < 32)
    (hi : exec i s = .next (settled .exit o t len k (effExit o (s.began k t len) k (t.begun len)))) :
    ∃ s', exec i s = .next s' ∧ (∀ u, s'.thread k = some u → u.state = .exited) ∧ ∀ j < 12, ((s'.group t.group).mask j).enrolled.getLsbD t.lane = false := by
  have hb := thread_began len hl.2.1
  rw [effExit_of_exitCond len ⟨howes, hjob⟩] at hi
  refine ⟨_, hi, fun u hu => HasExited.thread ((hasExited_exitThread hb).settled _ _ _ _) hu, fun j hj => ?_⟩
  have hgroup : (settled .exit o t len k (.done (exitThread (s.began k t len) k))).group t.group = _ :=
    (onlyThreads_restop_settle_done ..).congr (·.group t.group) (fun _ _ => rfl)
  rw [hgroup]
  exact exitThread_enrolled hb hlane hj

/-! ### Special registers (R248) -/

/-- The registers of the list read as it says. -/
theorem readSpecial_of_mem : ∀ p ∈ specialValues s t, readSpecial s t p.1 = p.2 := by
  have hdt : ∀ i < 8, readSpecial s t (0x070 + i) = (t.sr.dt.getD i 0#64).toNat := by
    intro i hi
    interval_cases i <;> rfl
  have hpreq : readSpecial s t 0x030 = (s.team t.team).cause * 2 + (if (s.team t.team).preq then 1 else 0) := by
    show (if (s.team t.team).preq then (s.team t.team).cause * 2 + 1 else (s.team t.team).cause * 2) = _
    split <;> rfl
  intro p hp
  rcases List.mem_append.mp hp with h | h
  · clear hp
    revert p
    simp only [List.forall_mem_cons, List.not_mem_nil, false_imp_iff, implies_true, and_true]
    exact ⟨rfl, rfl, rfl, rfl, rfl, rfl, rfl, rfl, rfl, rfl, rfl, rfl, hpreq, rfl, rfl, rfl, rfl, rfl, rfl, rfl, rfl, rfl, rfl, rfl, rfl, rfl, rfl, rfl, rfl, rfl⟩
  · obtain ⟨i, hi, rfl⟩ := List.mem_map.mp h
    exact hdt i (List.mem_range.mp hi)

/-- Nothing of a thread but its registers is changed where a code is stored. -/
theorem setCode_eq (t : Thread) (wide : Bool) (d v : Nat) : ∃ r, t.setCode wide d v = { t with regs := stores t wide d v, badRegs := r } := by
  unfold Thread.setCode stores Thread.setRegs
  split
  · exact ⟨_, rfl⟩
  · exact ⟨_, rfl⟩

theorem getsrReads (hh : (s.team t.team).halted = false) (hl : Lone .getsr o s k t) {p : Nat × Nat} (hp : p ∈ specialValues s t) (hi : o.srIndex = p.1) :
    ∃ s' u, exec (.getsr o) s = .next s' ∧ GoesOn s' k t o.bytes (stores t (isWide o.ty) o.d.toNat p.2) u ∧ u.sr = t.sr ∧ u.preds = t.preds := by
  have hv : readSpecial (s.began k t o.bytes) (t.begun o.bytes) o.srIndex = p.2 := by
    rw [hi]
    exact readSpecial_of_mem p hp
  obtain ⟨x, hx⟩ := setCode_eq (t.begun o.bytes) (isWide o.ty) o.d.toNat p.2
  obtain ⟨w, b, r, hw, hpc, hst, he⟩ := settled_pure (len := o.bytes) (f := fun u => u.setCode (isWide o.ty) o.d.toNat p.2) hh hl hx rfl rfl
  have hex : exec (.getsr o) s = _ := runLong_lone (effGetsr o) hl
  rw [effGetsr, hv] at hex
  exact ⟨_, w, hex, ⟨hw, hpc, hst, (congrArg Thread.regs he :)⟩, (congrArg Thread.sr he :), (congrArg Thread.preds he :)⟩

/-- A 64-bit register after a write of 64 or 32 bits is what R248 says. -/
theorem writeWide_eq (old v : DWord) (wide : Bool) : writeWide old v wide = written old v wide := by
  unfold writeWide written
  split
  · rfl
  · apply BitVec.eq_of_getLsbD_eq
    intro i hi
    have hlow : (0xFFFFFFFF#64).getLsbD i = decide (i < 32) := by
      interval_cases i <;> rfl
    have hhigh : (0xFFFFFFFF00000000#64).getLsbD i = !decide (i < 32) := by
      interval_cases i <;> rfl
    rw [BitVec.getLsbD_or, BitVec.getLsbD_and, BitVec.getLsbD_and, hlow, hhigh, BitVec.getLsbD_append]
    by_cases h : i < 32
    · simp [h]
    · have h' : i - 32 < 32 := by omega
      have e : 32 + (i - 32) = i := by omega
      simp [h, h', e]

theorem low_eq (v : DWord) : v.setWidth 32 = v.extractLsb' 0 32 := by
  apply BitVec.eq_of_toNat_eq
  simp

/-- What SETSR leaves of a thread: its special registers and, of FPCR, its generator. -/
theorem writeSpecial_eq (t : Thread) (i tid : Nat) (v : DWord) (wide : Bool) :
    writeSpecial t i tid v wide = { t with sr := specialsAfter t.sr i v wide, gen := if i = 0x020 then (v.extractLsb' 0 32 &&& 0xFFFF0000#32) ||| BitVec.ofNat 32 (tid + 1) else t.gen } := by
  have hseed : (v.extractLsb' 0 32 &&& 0xFFFF0001#32) &&& 0xFFFF0000#32 = v.extractLsb' 0 32 &&& 0xFFFF0000#32 := by
    rw [BitVec.and_assoc]
    rfl
  unfold writeSpecial
  split
  · simp only [seedGen, low_eq, hseed, specialsAfter, if_true]
  · simp only [low_eq, specialsAfter]
    rfl
  · simp only [writeWide_eq, specialsAfter]
    rfl
  · simp only [writeWide_eq, specialsAfter]
    rfl
  · simp only [writeWide_eq, specialsAfter]
    rfl
  · next h20 h21 h100 h102 h103 =>
    have hn : ¬ i = 0x020 := h20
    have hafter : specialsAfter t.sr i v wide =
        if 0x070 ≤ i ∧ i < 0x078 then { t.sr with dt := t.sr.dt.set (i - 0x070) (written (t.sr.dt.getD (i - 0x070) 0#64) v wide &&& 0xFFFFF0FFFFFFFFFF#64) } else t.sr := by
      unfold specialsAfter
      split
      · contradiction
      · contradiction
      · contradiction
      · contradiction
      · contradiction
      · rfl
    rw [hafter, if_neg hn]
    by_cases hd : 0x070 ≤ i ∧ i < 0x078
    · have hd' : 0x70 ≤ i ∧ i ≤ 0x77 := ⟨hd.1, by omega⟩
      have hm : i % 8 = i - 0x070 := by omega
      rw [if_pos hd, if_pos hd', hm, writeWide_eq]
    · have hd' : ¬ (0x70 ≤ i ∧ i ≤ 0x77) := fun h => hd ⟨h.1, by omega⟩
      rw [if_neg hd, if_neg hd']

theorem setsrWrites (hh : (s.team t.team).halted = false) (hl : Lone .setsr o s k t) :
    ∃ s' u, exec (.setsr o) s = .next s' ∧ GoesOn s' k t o.bytes t.regs u ∧ u.preds = t.preds ∧
      u.sr = specialsAfter t.sr o.srIndex (if isWide o.ty then src64 t o .a else (src32 t o .a).setWidth 64) (isWide o.ty) ∧
      u.gen = (if o.srIndex = 0x020 then ((if isWide o.ty then src64 t o .a else (src32 t o .a).setWidth 64).extractLsb' 0 32 &&& 0xFFFF0000#32) |||
        BitVec.ofNat 32 ((s.group t.group).gid * 32 + t.lane + 1) else t.gen) := by
  obtain ⟨w, b, r, hw, hpc, hst, he⟩ := settled_pure (len := o.bytes)
    (f := fun u => writeSpecial u o.srIndex ((s.group t.group).gid * 32 + t.lane) (if isWide o.ty then src64 t o .a else (src32 t o .a).setWidth 64) (isWide o.ty))
    hh hl (writeSpecial_eq ..) rfl rfl
  exact ⟨_, w, runLong_lone (effSetsr o) hl, ⟨hw, hpc, hst, (congrArg Thread.regs he :)⟩, (congrArg Thread.preds he :), (congrArg Thread.sr he :), (congrArg Thread.gen he :)⟩

/-! ### Float functions and FRND (R197, R258, R259) -/

/-- What a float instruction leaves of a lone thread: its result, its flags and its generator. -/
theorem floatSettles {op : LongOp} {i : Instr} {f : Thread → Nat × Nat × Word} (hh : (s.team t.team).halted = false) (hl : Lone op o s k t)
    (hi : exec i s = runLong op o (floatLane o f) s) (hf : f (t.begun o.bytes) = f t) :
    ∃ s' u, exec i s = .next s' ∧ GoesOn s' k t o.bytes (stores t false o.d.toNat (f t).1) u ∧ u.preds = t.preds ∧
      u.sr = { t.sr with fpsr := t.sr.fpsr ||| BitVec.ofNat 32 ((f t).2.1 % 32) } ∧ u.gen = (f t).2.2 := by
  obtain ⟨w, b, r, hw, hpc, hst, he⟩ := settled_pure (len := o.bytes) (f := fun u => finishLane o u (f u)) hh hl rfl rfl rfl
  rw [runLong_lone _ hl] at hi
  rw [← hf]
  exact ⟨_, w, hi, ⟨hw, hpc, hst, (congrArg Thread.regs he :)⟩, (congrArg Thread.preds he :), (congrArg Thread.sr he :), (congrArg Thread.gen he :)⟩

/-- The function of an opcode of R258. -/
def functionOf : LongOp → Mode → Word → Nat × Nat
  | .frcp => frcpOp
  | .frsq => frsqOp
  | .fex2 => fex2Op
  | .flg2 => flg2Op
  | .fsin => fsinOp false
  | .fcos => fsinOp true
  | _ => ftanhOp

/-- The opcodes of R258. -/
def functions : List LongOp := [.frcp, .frsq, .fex2, .flg2, .fsin, .fcos, .ftanh]

theorem exec_function : ∀ op ∈ functions, exec (op.instr o) s = runLong op o (approxLane o (functionOf op)) s := by
  simp only [functions, List.forall_mem_cons, List.not_mem_nil, false_imp_iff, implies_true, and_true]
  exact ⟨rfl, rfl, rfl, rfl, rfl, rfl, rfl⟩

theorem stores_congr {a b : Nat} (d : Nat) (h : BitVec.ofNat 32 a = BitVec.ofNat 32 b) : stores t false d a = stores t false d b := by
  simp only [stores, Bool.false_eq_true, if_false, h]

/-- The results of the list, whether subnormals are flushed or not. -/
theorem functionResults_hold : ∀ ftz : Bool, ∀ r ∈ functionResults, r.1 ∈ functions ∧
    BitVec.ofNat 32 (functionOf r.1 ⟨0, false, ftz⟩ r.2.1).1 = r.2.2.1 ∧ BitVec.ofNat 32 ((functionOf r.1 ⟨0, false, ftz⟩ r.2.1).2 % 32) = r.2.2.2 := by decide +kernel

theorem functionsWrite (hh : (s.team t.team).halted = false) {r : LongOp × Word × Word × Word} (hr : r ∈ functionResults) (hl : Lone r.1 o s k t) (hsat : o.sat = false)
    (ha : src32 t o .a = r.2.1) : ∃ s', exec (r.1.instr o) s = .next s' ∧ Wrote s' k t o r.2.2.1 r.2.2.2 := by
  obtain ⟨hop, hv, hflags⟩ := functionResults_hold t.ftz r hr
  obtain ⟨s', u, hex, hgo, hpreds, hsr, hgen⟩ := floatSettles hh hl (exec_function _ hop) rfl
  dsimp only at hgo hsr
  rw [hsat, ha] at hgo hsr
  refine ⟨s', hex, u, ?_, ?_, hpreds, hgen⟩
  · rwa [← stores_congr o.d.toNat (show BitVec.ofNat 32 (functionOf r.1 ⟨0, false, t.ftz⟩ r.2.1).1 = BitVec.ofNat 32 r.2.2.1.toNat by rw [hv, BitVec.ofNat_toNat, BitVec.setWidth_eq])]
  · rw [hsr, hflags]

/-- 2.5 to a whole number, by mode. -/
def wholeHalf : List (Nat × Nat) := [(0, 2), (1, 2), (2, 2), (3, 3), (4, 3), (6, 3)]

/-- Only stochastic rounding, which is not among them, looks at the generator (R186). -/
theorem roundSteps_half (u : Nat) : ∀ r ∈ wholeHalf, roundSteps r.1 false 10485760 22 false u = (r.2, false) := by
  simp only [wholeHalf, List.forall_mem_cons, List.not_mem_nil, false_imp_iff, implies_true, and_true]
  exact ⟨rfl, rfl, rfl, rfl, rfl, rfl⟩

theorem decode_half : ∀ ftz : Bool, decodeF f32 ftz 0x40200000 = .num false 10485760 (-22) false := by decide

theorem frndOp_half {md : Mode} {ex : Bool} {gen : Word} : ∀ r ∈ wholeHalf, md.rm = r.1 → r.1 ≠ 5 → r.2 ≠ 0 →
    frndOp f32 md ex gen 0x40200000 = ((roundTo f32 rne 0#32 (.num false r.2 0 false)).1, if ex then flagNX else 0, gen) := by
  intro r hr hrm h5 h0
  have hm : 10485760 * 2 ^ (-22 : Int).toNat = 10485760 := by decide
  have hs : (-(-22) : Int).toNat = 22 := by decide
  simp only [frndOp, decode_half, hrm, if_neg h5, hm, hs, roundSteps_half _ r hr, if_neg h0, Bool.not_false, Bool.and_true]

/-- FRND of 2.5. -/
theorem frnd_half : ∀ r ∈ roundedHalf, let n := if r.1.toNat < 3 then 2 else 3
    (r.1.toNat, n) ∈ wholeHalf ∧ r.1.toNat ≠ 5 ∧ n ≠ 0 ∧ (roundTo f32 rne 0#32 (.num false n 0 false)).1 = r.2.toNat := by
  simp only [roundedHalf, List.forall_mem_cons, List.not_mem_nil, false_imp_iff, implies_true, and_true]
  decide +kernel

theorem frndRounds (hh : (s.team t.team).halted = false) {r : BitVec 3 × Word} (hr : r ∈ roundedHalf) (hl : Lone .frnd o s k t) (hty : o.ty = 8#4) (hrm : o.rm = r.1)
    (ha : src32 t o .a = 0x40200000#32) : ∃ s', exec (.frnd o) s = .next s' ∧ Wrote s' k t o r.2 (if o.m4.getLsbD 0 then 16#32 else 0#32) := by
  obtain ⟨hmem, h5, h0, hv⟩ := frnd_half r hr
  obtain ⟨s', u, hex, hgo, hpreds, hsr, hgen⟩ := floatSettles (i := .frnd o) (f := fun t => frndOp (fmt o) (modeOf o t) (o.m4.getLsbD 0) t.gen (elem t o .a o.ty)) hh hl rfl rfl
  have hc : elem t o .a o.ty = 0x40200000 := by
    rw [elem, ha, hty]
    rfl
  have hf : fmt o = f32 := by
    rw [fmt, hty]
    rfl
  have hval := frndOp_half (md := modeOf o t) (ex := o.m4.getLsbD 0) (gen := t.gen) _ hmem (congrArg BitVec.toNat hrm) h5 h0
  dsimp only at hgo hsr hgen
  rw [hc, hf, hval] at hgo hsr hgen
  rw [hv] at hgo
  refine ⟨s', hex, u, hgo, ?_, hpreds, hgen⟩
  rw [hsr]
  cases o.m4.getLsbD 0 <;> rfl

/-- A quiet NaN raises nothing, a signalling one IV (R188). -/
def nanFlag (x : Word) : Nat := if x.getLsbD 22 then 0 else 1

section
variable {x : Word} (he : x.extractLsb' 23 8 = 0xFF#8) (hm : x.extractLsb' 0 23 ≠ 0#23)
include he hm

theorem nan_fields : x.toNat / 2 ^ 23 % 2 ^ 8 = 255 ∧ x.toNat % 2 ^ 23 ≠ 0 := by
  constructor
  · have h := congrArg BitVec.toNat he
    rw [BitVec.extractLsb'_toNat, Nat.shiftRight_eq_div_pow] at h
    exact h
  · intro h0
    apply hm
    apply BitVec.eq_of_toNat_eq
    rw [BitVec.extractLsb'_toNat, Nat.shiftRight_eq_div_pow, Nat.pow_zero, Nat.div_one, h0]
    rfl

theorem decode_nan (ftz : Bool) : decodeF f32 ftz x.toNat = .nan := by
  obtain ⟨hexp, hfrac⟩ := nan_fields he hm
  simp only [decodeF, splitCode, f32, hexp]
  rw [if_pos ⟨rfl, trivial⟩, if_neg hfrac]

theorem signal_nan : signalFlag f32 [x.toNat] = nanFlag x := by
  obtain ⟨hexp, hfrac⟩ := nan_fields he hm
  have hbit : x.getLsbD 22 = decide (x.toNat / 2 ^ 22 % 2 = 1) := by
    rw [BitVec.getLsbD, Nat.testBit_eq_decide_div_mod_eq]
  have hlow : decide (x.toNat % 2 ^ 23 < 2 ^ 22) = !x.getLsbD 22 := by
    rw [hbit, ← decide_not]
    congr 1
    apply propext
    omega
  have hsig : isSignalling f32 x.toNat = !x.getLsbD 22 := by
    simp only [isSignalling, splitCode, f32, hexp]
    rw [bne_iff_ne.mpr hfrac, show (23 : Nat) - 1 = 22 from rfl, hlow]
    rfl
  simp only [signalFlag, List.any_cons, List.any_nil, Bool.or_false, hsig, nanFlag, flagIV]
  cases x.getLsbD 22 <;> rfl

theorem function_nan (md : Mode) : ∀ op ∈ functions, functionOf op md x = (0x7FC00000, nanFlag x) := by
  simp only [functions, List.forall_mem_cons, List.not_mem_nil, false_imp_iff, implies_true, and_true, functionOf, frcpOp, frsqOp, fex2Op, flg2Op, fsinOp, ftanhOp,
    decode_nan he hm, signal_nan he hm]
  exact ⟨rfl, rfl, rfl, rfl, rfl, rfl, rfl⟩

theorem frnd_nan (md : Mode) (ex : Bool) (gen : Word) : frndOp f32 md ex gen x.toNat = (0x7FC00000, nanFlag x, gen) := by
  simp only [frndOp, decode_nan he hm, signal_nan he hm]
  rfl

end

theorem nanFlag_code (x : Word) : BitVec.ofNat 32 (nanFlag x % 32) = if x.getLsbD 22 then 0#32 else 1#32 := by
  unfold nanFlag
  split <;> rfl

theorem or_and_self (a b : Word) : (a ||| b) &&& a = a := by
  apply BitVec.eq_of_getLsbD_eq
  intro i _
  rw [BitVec.getLsbD_and, BitVec.getLsbD_or]
  cases a.getLsbD i <;> simp

/-- A float form of one F32 operand completes; it does nothing else to its thread, and of a NaN it gives the quiet one. -/
def FloatForm (s' : State) (k : Nat) (t : Thread) (o : Long) (u : Thread) (w : Nat) : Prop :=
  GoesOn s' k t o.bytes (stores t false o.d.toNat w) u ∧ u.preds = t.preds ∧ u.sr = { t.sr with fpsr := u.sr.fpsr } ∧ u.sr.fpsr &&& t.sr.fpsr = t.sr.fpsr ∧
    ((src32 t o .a).extractLsb' 23 8 = 0xFF#8 → (src32 t o .a).extractLsb' 0 23 ≠ 0#23 →
      w = 0x7FC00000 ∧ u.sr.fpsr = t.sr.fpsr ||| (if (src32 t o .a).getLsbD 22 then 0#32 else 1#32))

theorem floatForm {op : LongOp} {i : Instr} {f : Thread → Nat × Nat × Word} (hh : (s.team t.team).halted = false) (hl : Lone op o s k t)
    (hi : exec i s = runLong op o (floatLane o f) s) (hf : f (t.begun o.bytes) = f t)
    (hnan : (src32 t o .a).extractLsb' 23 8 = 0xFF#8 → (src32 t o .a).extractLsb' 0 23 ≠ 0#23 → (f t).1 = 0x7FC00000 ∧ (f t).2.1 = nanFlag (src32 t o .a)) :
    ∃ s' u w, exec i s = .next s' ∧ FloatForm s' k t o u w := by
  obtain ⟨s', u, hex, hgo, hpreds, hsr, -⟩ := floatSettles hh hl hi hf
  have hfpsr : u.sr.fpsr = t.sr.fpsr ||| BitVec.ofNat 32 ((f t).2.1 % 32) := by rw [hsr]
  refine ⟨s', u, (f t).1, hex, hgo, hpreds, ?_, ?_, fun he hm => ?_⟩
  · rw [hfpsr]
    exact hsr
  · rw [hfpsr, or_and_self]
  · obtain ⟨hv, hflags⟩ := hnan he hm
    exact ⟨hv, by rw [hfpsr, hflags, nanFlag_code]⟩

theorem floatFormsComplete (hh : (s.team t.team).halted = false) {op : LongOp} (hop : op ∈ functions ++ [.frnd]) (hl : Lone op o s k t) (hty : o.ty = 8#4) :
    ∃ s' u w, exec (op.instr o) s = .next s' ∧ FloatForm s' k t o u w := by
  rcases List.mem_append.mp hop with h | h
  · refine floatForm hh hl (exec_function _ h) rfl fun he hm => ?_
    rw [function_nan he hm _ _ h]
    exact ⟨rfl, rfl⟩
  · obtain rfl := List.mem_singleton.mp h
    refine floatForm (i := .frnd o) (f := fun t => frndOp (fmt o) (modeOf o t) (o.m4.getLsbD 0) t.gen (elem t o .a o.ty)) hh hl rfl rfl fun he hm => ?_
    have hc : elem t o .a o.ty = (src32 t o .a).toNat := by
      rw [elem, hty]
      exact Nat.mod_eq_of_lt (src32 t o .a).isLt
    have hf : fmt o = f32 := by
      rw [fmt, hty]
      rfl
    rw [hc, hf, frnd_nan he hm]
    exact ⟨rfl, rfl⟩

end

/-! ### Operations that a lone thread issues (R317 to R320) -/

/-- Threads, teams, the issue group and the fresh key are as before. -/
structure SameCourse (s v : State) : Prop where
  cur : v.cur = s.cur
  threads : v.threads = s.threads
  teams : v.teams = s.teams
  fresh : v.fresh = s.fresh

theorem SameCourse.trans {s u v : State} (h : SameCourse s u) (k : SameCourse u v) : SameCourse s v :=
  ⟨k.cur.trans h.cur, k.threads.trans h.threads, k.teams.trans h.teams, k.fresh.trans h.fresh⟩

theorem sameCourse_perfCount (s : State) (ep code n : Nat) : SameCourse s (perfCount s ep code n) := by
  simp only [perfCount]
  split
  · exact ⟨rfl, rfl, rfl, rfl⟩
  · exact ⟨rfl, rfl, rfl, rfl⟩

theorem sameCourse_free (s : State) (n : Nat) : SameCourse s { s with free := n } := ⟨rfl, rfl, rfl, rfl⟩

theorem owes_mono {s s' : State} {k : Nat} {t : Thread} {o : Long} {n : Nat} {a b : OpStatus → Prop} (h : Owes s s' k t o n a) (hab : ∀ x, a x → b x) : Owes s s' k t o n b := by
  obtain ⟨u, q, hgo, hq, hd, hst⟩ := h
  exact ⟨u, q, hgo, hq, hd, hab _ hst⟩

/-- A thread with an operation under the fresh key, as its instruction leaves it. -/
def owing (s : State) (t : Thread) (q : Op) : Thread := ({ t with ops := t.ops.put s.fresh q } : Thread).raise q.flag

theorem raise_team (t : Thread) (f : Option Nat) : (t.raise f).team = t.team := by unfold Thread.raise; split <;> rfl
theorem raise_stopping (t : Thread) (f : Option Nat) : (t.raise f).stopping = t.stopping := by unfold Thread.raise; split <;> rfl

section
variable {op : LongOp} {o : Long} {s v : State} {k : Nat} {t : Thread}

/-- A thread as it began an instruction of len bytes, but for its operations and flags. -/
structure Stands (u t : Thread) (len : Nat) : Prop where
  team : u.team = t.team
  stopping : u.stopping = false
  after : u.after = t.pc + BitVec.ofNat 64 len
  regs : u.regs = t.regs

theorem stands_owing (s : State) (t : Thread) (len : Nat) (q : Op) : Stands (owing s (t.begun len) q) t len :=
  ⟨raise_team .., raise_stopping .., Thread.raise_after .., Thread.raise_regs ..⟩

theorem ops_owing (s : State) (t : Thread) (q : Op) : (owing s t q).ops = t.ops.put s.fresh q := Thread.raise_ops ..

/-- A lone thread that has issued an operation owes its registers once it has gone on. -/
theorem owes_settled {n : Nat} {u : Thread} {q : Op} (hl : Lone op o s k t) (hh : (s.team t.team).halted = false) (hc : v.cur = s.cur) (ht : v.teams = s.teams)
    (hv : v.thread k = some u) (hu : Stands u t o.bytes) (hq : u.ops.find s.fresh = some q) (hd : q.dst = some (o.d.toNat, n)) :
    Owes s (settled op o t o.bytes k (.go v)) k t o n (· = q.status) := by
  have hteam : (v.team u.team).halted = false := by
    rw [hu.team, State.team, ht]
    exact hh
  obtain ⟨w, b, r, hw, hpc, hst, he⟩ := settled_go (op := op) (o := o) (t := t) (len := o.bytes) (hc.trans hl.1) hv hteam hu.stopping
  refine ⟨w, q, ⟨hw, hpc.trans hu.after, hst, Eq.trans (congrArg Thread.regs he :) hu.regs⟩, ?_, hd, rfl⟩
  exact (congrArg (fun x : Thread => x.ops.find s.fresh) he :).trans hq

/-- The thread of an operation that has just been issued. -/
theorem thread_issued {p : Op} (hl : Lone op o s k t) (hv : SameCourse (s.began k t o.bytes) v) :
    (addOp v k p).1.thread k = some (owing s (t.begun o.bytes) { p with issued := v.ticks }) := by
  have ht : v.thread k = some (t.begun o.bytes) := by
    rw [State.thread, hv.threads]
    exact thread_began o.bytes hl.2.1
  have hf : v.fresh = s.fresh := hv.fresh
  rw [thread_addOp p ht, hf]
  rfl

theorem owes_ready {n : Nat} (p : Op) (data : List Byte) (hl : Lone op o s k t) (hh : (s.team t.team).halted = false) (hv : SameCourse (s.began k t o.bytes) v)
    (hd : p.dst = some (o.d.toNat, n)) : Owes s (settled op o t o.bytes k (.go (addReady v k p data))) k t o n (· = .ready data) :=
  owes_settled (q := { p with status := .ready data, issued := v.ticks }) hl hh hv.cur hv.teams (thread_issued (p := { p with status := .ready data }) hl hv) (stands_owing ..)
    (by rw [ops_owing]; exact NMap.find_put_same ..) hd

theorem adjust_put_same {α : Type} (m : NMap α) (i : Nat) (x : α) (f : α → α) : ((m.put i x).adjust i f).find i = some (f x) := by
  rw [NMap.find_adjust_same, NMap.find_put_same, Option.map_some]

theorem owes_refused {n code : Nat} {info : DWord} (p : Op) (hl : Lone op o s k t) (hh : (s.team t.team).halted = false) (hv : SameCourse (s.began k t o.bytes) v)
    (hd : p.dst = some (o.d.toNat, n)) : Owes s (settled op o t o.bytes k (.go (opRefused (addOp v k p).1 k (addOp v k p).2 code info))) k t o n (· = .refused code info) := by
  have hkey : (addOp v k p).2 = s.fresh := hv.fresh
  let f : Op → Op := fun p => { p with status := .refused code info, pieces := [], line := none }
  have hthread : (opRefused (addOp v k p).1 k (addOp v k p).2 code info).thread k =
      some { owing s (t.begun o.bytes) { p with issued := v.ticks } with ops := (owing s (t.begun o.bytes) { p with issued := v.ticks }).ops.adjust s.fresh f } := by
    rw [opRefused, updOp, State.thread_updThread_same, thread_issued hl hv, hkey, Option.map_some]
  have hs := stands_owing s t o.bytes { p with issued := v.ticks }
  exact owes_settled (q := f { p with issued := v.ticks }) hl hh hv.cur hv.teams hthread ⟨hs.team, hs.stopping, hs.after, hs.regs⟩
    (by rw [ops_owing]; exact adjust_put_same ..) hd

/-! ### BOXT and TRIT (R317, R318) -/

theorem unitRead_reads {s : State} {k : Nat} {t : Thread} {o : Long} {unit n align off : Nat} {go : State → List Byte → Out} (h : UnitReads s t o n align off) :
    unitRead s k t o unit n align go = go (perfCount s t.core unit 1) (readScratch s t.core off n) := by
  obtain ⟨ha, ho, he⟩ := h
  simp [unitRead, ha, ho, he]

theorem length_boxResult (node : List Byte) (l : List (Nat × Word)) : (boxResult node l).length = 8 := by simp [boxResult]

/-- What a degenerate ray finds of a node. -/
theorem boxResult_nil (node : List Byte) : wordsToBytes (boxResult node []) = List.replicate 30 0#8 ++ [0x80#8, 0x7F#8] := by
  have h : boxResult node [] = List.replicate 7 0#32 ++ [0x7F800000#32] := by simp [boxResult, List.map_const']
  rw [h]
  decide

theorem boxtOwes {off : Nat} (hh : (s.team t.team).halted = false) (hl : Lone .boxt o s k t) (hf : Free t o false false) (hu : UnitReads s t o 128 128 off) :
    ∃ s', exec (.boxt o) s = .next s' ∧ Owes s s' k t o 8 (fun st =>
      (∃ bs, st = .ready bs ∧ bs.length = 32 ∧ ((rayRun t o).degenerate = true → onGateway t.core = false → bs = List.replicate 30 0#8 ++ [0x80#8, 0x7F#8])) ∨ ∃ x, st = .refused 0x50 x) := by
  let p := eightRegs (t.begun o.bytes) o
  let v := perfCount (s.began k t o.bytes) t.core 7 1
  have hv : SameCourse (s.began k t o.bytes) v := sameCourse_perfCount ..
  have hex : exec (.boxt o) s = _ := runLong_lone (effBoxt o) hl
  rw [effBoxt, unitStart, memStart_free (release := none) (s := s.began k t o.bytes) (t := t.begun o.bytes) hf (by simp),
    unitRead_reads (s := s.began k t o.bytes) (t := t.begun o.bytes) hu] at hex
  have hcore : (t.begun o.bytes).core = t.core := rfl
  have hrun : rayRun (t.begun o.bytes) o = rayRun t o := rfl
  rw [hcore, hrun] at hex
  refine ⟨_, hex, ?_⟩
  by_cases hg : onGateway t.core = true
  · rw [if_pos hg]
    exact owes_mono (owes_ready p _ hl hh (hv.trans (sameCourse_free ..)) rfl) fun st hst => .inl ⟨_, hst, by simp [freeBytes], fun _ h => by simp [hg] at h⟩
  · rw [if_neg hg]
    dsimp only
    split
    · exact owes_mono (owes_refused p hl hh hv rfl) fun st hst => .inr ⟨_, hst⟩
    · split
      · exact owes_mono (owes_ready p _ hl hh hv rfl) fun st hst => .inl ⟨_, hst, by rw [length_wordsToBytes, length_boxResult], fun _ _ => boxResult_nil _⟩
      · next hd =>
        split
        · exact owes_mono (owes_refused p hl hh (hv.trans (sameCourse_free ..)) rfl) fun st hst => .inr ⟨_, hst⟩
        · exact owes_mono (owes_ready p _ hl hh (hv.trans (sameCourse_free ..)) rfl) fun st hst => .inl ⟨_, hst, by rw [length_wordsToBytes, length_boxResult], fun h _ => absurd h hd⟩

/-- The eight words of a triangle test. -/
def triWords (hit : Option (Nat × Nat × Nat × Nat)) (prim : Nat) : List Word :=
  match hit with
  | some (kind, tc, u, v) => [kind, tc, u, v, prim, 0, 0, 0].map (BitVec.ofNat 32)
  | none => List.replicate 8 0#32

theorem length_triWords (hit : Option (Nat × Nat × Nat × Nat)) (prim : Nat) : (triWords hit prim).length = 8 := by
  rcases hit with _ | ⟨kind, tc, u, v⟩ <;> rfl

theorem tritOwes {off : Nat} (hh : (s.team t.team).halted = false) (hl : Lone .trit o s k t) (hf : Free t o false false) (hu : UnitReads s t o 48 16 off) :
    ∃ s', exec (.trit o) s = .next s' ∧ Owes s s' k t o 8 (fun st =>
      ∃ bs, st = .ready bs ∧ bs.length = 32 ∧ ((rayRun t o).degenerate = true → onGateway t.core = false → bs = List.replicate 32 0#8)) := by
  let p := eightRegs (t.begun o.bytes) o
  let v := perfCount (s.began k t o.bytes) t.core 8 1
  have hv : SameCourse (s.began k t o.bytes) v := sameCourse_perfCount ..
  have hex : exec (.trit o) s = _ := runLong_lone (effTrit o) hl
  rw [effTrit, unitStart, memStart_free (release := none) (s := s.began k t o.bytes) (t := t.begun o.bytes) hf (by simp),
    unitRead_reads (s := s.began k t o.bytes) (t := t.begun o.bytes) hu] at hex
  have hcore : (t.begun o.bytes).core = t.core := rfl
  have hrun : rayRun (t.begun o.bytes) o = rayRun t o := rfl
  rw [hcore, hrun] at hex
  refine ⟨_, hex, ?_⟩
  by_cases hg : onGateway t.core = true
  · rw [if_pos hg]
    exact owes_mono (owes_ready p _ hl hh (hv.trans (sameCourse_free ..)) rfl) fun st hst => ⟨_, hst, by simp [freeBytes], fun _ h => by simp [hg] at h⟩
  · rw [if_neg hg]
    let tri := readScratch (s.began k t o.bytes) t.core off 48
    let c := srcRun (t.begun o.bytes) o .c 4
    let hit := if (rayRun t o).degenerate then none else triHit (rayRun t o) tri ((c.getD 0 0#32).toNat % 65536) (c.getD 1 0#32) (c.getD 2 0#32).toNat
    have hready := owes_ready p (wordsToBytes (triWords hit (field tri 36 4))) hl hh hv rfl
    refine owes_mono hready fun st hst => ⟨_, hst, by rw [length_wordsToBytes, length_triWords], fun hd _ => ?_⟩
    have hnone : hit = none := if_pos hd
    rw [hnone]
    rfl

/-! ### TLOOK and RESID (R319, R320) -/

theorem tlookOwes (hh : (s.team t.team).halted = false) (hl : Lone .tlook o s k t) (hf : flagFull t (flagOf t o.fs) = false) :
    ∃ s', exec (.tlook o) s = .next s' ∧ Owes s s' k t o 1 (fun st => ∃ bs, st = .ready bs ∧ bs.length = 4) := by
  have hex : exec (.tlook o) s = _ := runLong_lone (effTlook o) hl
  have hf' : flagFull (t.begun o.bytes) (flagOf (t.begun o.bytes) o.fs) = false := hf
  rw [effTlook, hf'] at hex
  refine ⟨_, hex, ?_⟩
  rw [if_neg (by simp)]
  dsimp only
  split
  · exact owes_mono (owes_ready _ _ hl hh (v := (s.began k t o.bytes).updCore _ _) ⟨rfl, rfl, rfl, rfl⟩ rfl) fun st hst => ⟨_, hst, leBytes_length ..⟩
  · exact owes_mono (owes_ready _ _ hl hh (v := s.began k t o.bytes) ⟨rfl, rfl, rfl, rfl⟩ rfl) fun st hst => ⟨_, hst, leBytes_length ..⟩

theorem agents_send (s : State) (p : Packet) : Agents s (s.send p) := by
  unfold State.send
  dsimp only
  split
  · exact (Agents.updCore ..).trans (agents_inject ..)
  · exact agents_inject ..

/-- What a packet that is sent carries of its sender's words. -/
theorem inFlight_send {s : State} {p : Packet} (h : (s.die (epDie p.dst)).present = true) :
    InFlight (s.send p) (fun r => r.typ = p.typ ∧ r.src = p.src ∧ r.dst = p.dst) := by
  unfold State.send
  dsimp only
  split
  · exact InFlight.mono (inFlight_inject (.inr h)) fun r hr => ⟨hr.typ, hr.src, hr.dst⟩
  · exact InFlight.mono (inFlight_inject (.inr h)) fun r hr => ⟨hr.typ, hr.src, hr.dst⟩

theorem inFlight_of_onlyThreads {s s' : State} {has : Packet → Prop} (h : OnlyThreads s s') (hf : InFlight s has) : InFlight s' has := by
  have hpackets : s'.packets = s.packets := h.congr (·.packets) (fun _ _ => rfl)
  have hports : s'.pkg.ports = s.pkg.ports := h.congr (·.pkg.ports) (fun _ _ => rfl)
  unfold InFlight
  rw [hpackets, hports]
  exact hf

theorem residOwes {op : LongOp} {i : Instr} {request : Bool} (hi : exec i s = runLong op o (askResidency o request) s) (hh : (s.team t.team).halted = false) (hl : Lone op o s k t)
    (hf : flagFull t (flagOf t o.fs) = false) (hp : (s.die (epDie (servingSlice s (src32 t o .a).toNat))).present = true) :
    ∃ s', exec i s = .next s' ∧ Owes s s' k t o 1 (fun st => st = .sent) ∧
      InFlight s' (fun p => p.typ = 0x0D ∧ p.src = t.core ∧ p.dst = servingSlice s (src32 t o .a).toNat) := by
  rw [runLong_lone _ hl] at hi
  have hf' : flagFull (t.begun o.bytes) (flagOf (t.begun o.bytes) o.fs) = false := hf
  rw [askResidency, hf', if_neg (by simp)] at hi
  let q := { mkOp (t.begun o.bytes) o with dst := some (o.d.toNat, 1), size := 4, info := BitVec.ofNat 64 (src32 t o .a).toNat, seq := ((s.began k t o.bytes).core t.core).seq }
  let pk := mkPacket 0 0x0D t.core (servingSlice s (src32 t o .a).toNat) 1
    (.residency (src32 t o .a).toNat request (some (freeUnits ((s.began k t o.bytes).core t.core))) k (addOp (s.began k t o.bytes) k q).2)
  let v := (addOp (s.began k t o.bytes) k q).1.send pk
  have hagents : Agents (addOp (s.began k t o.bytes) k q).1 v := agents_send ..
  have hthread : v.thread k = some (owing s (t.begun o.bytes) { q with issued := s.ticks }) :=
    (congrArg (NMap.find · k) hagents.threads :).trans (thread_issued (p := q) hl ⟨rfl, rfl, rfl, rfl⟩)
  refine ⟨_, hi, ?_, ?_⟩
  · exact owes_settled (v := v) hl hh (congrArg State.cur hagents.eq :) hagents.teams hthread (stands_owing ..) (by rw [ops_owing]; exact NMap.find_put_same ..) rfl
  · exact inFlight_of_onlyThreads (onlyThreads_restop_settle_go ..) (inFlight_send (s := (addOp (s.began k t o.bytes) k q).1) (p := pk) hp)

end

/-- Settles O60, form by form and register by register. -/
theorem controlFunctionAndRayFormsComplete : Obligations.ControlFunctionAndRayFormsComplete := by
  unfold Obligations.ControlFunctionAndRayFormsComplete
  intro o s k t hh
  refine ⟨nopShortGoesOn hh, ?_, ?_, ?_, ?_, ?_, ?_, ?_, ?_, ?_, ?_, ?_, ?_, ?_, ?_⟩
  · simp only [List.forall_mem_cons, List.not_mem_nil, false_imp_iff, implies_true, and_true]
    exact ⟨fun hl => yieldSets hh hl (runLong_lone effYield hl), fun hl => yieldSets hh hl (runShort_lone _ effYield hl)⟩
  · simp only [List.forall_mem_cons, List.not_mem_nil, false_imp_iff, implies_true, and_true]
    exact ⟨fun hl ho hj hlane => exitEnds hl ho hj hlane (runLong_lone (effExit o) hl), fun hl ho hj hlane => exitEnds hl ho hj hlane (runShort_lone _ (effExit longZero) hl)⟩
  · exact fun hl p hp hi => getsrReads hh hl hp hi
  · exact fun hl _ => setsrWrites hh hl
  · exact fun r hr hl hsat ha => functionsWrite hh hr hl hsat ha
  · exact fun r hr hl hty hrm ha => frndRounds hh hr hl hty hrm ha
  · exact fun op hop hl hty => floatFormsComplete hh hop hl hty
  · exact fun off hl hf hu => boxtOwes hh hl hf hu
  · exact fun off hl hf hu => tritOwes hh hl hf hu
  · exact tlookOwes hh
  · intro request hl hf hp
    cases request
    · exact residOwes rfl hh hl hf hp
    · exact residOwes rfl hh hl hf hp
  · exact fun v => ⟨_, rfl, rfl, rfl, rfl, rfl, rfl⟩
  · intro q r x hr _
    refine ⟨_, rfl, ?_, fun p hp => ?_, rfl, rfl, rfl⟩
    · refine (List.getElem?_modify ..).trans ?_
      rw [hr]
      simp
    · refine (List.getElem?_modify ..).trans ?_
      simp [Ne.symm hp]
  · intro ep v c fieldOf
    refine ⟨⟨_, rfl, ?_, rfl, rfl, fun n hn => perf_writePerfsel s ep v hn⟩, ⟨_, rfl, ?_, rfl, rfl, fun n hn => perf_writePerfclr s ep v hn⟩,
      ⟨_, rfl, rfl, rfl, fun n hn => mxexc_writeMxclr s ep v hn⟩, fun hc _ _ _ => ?_⟩
    · exact congrArg Core.perfsel (State.core_updCore_same ..)
    · exact (congrArg Core.perfsel (State.core_updCore_same ..) :)
    · obtain ⟨-, hpd, -, hqd, -⟩ := coreRegisters hc v 0#64
      exact ⟨⟨_, hpd, congrArg Core.pdline (State.core_updCore_same ..), rfl, rfl⟩, ⟨_, hqd, congrArg Core.qdepth (State.core_updCore_same ..), rfl, rfl⟩⟩

end Sys2Proof.ExecutionLaws
end

section
/-! PROOFS. Bytes of the memory and full/empty bits read as they were last written
(spec/02 R59, R70). -/

namespace Sys2Proof.MemoryLaws

open Sys2Proof Sys2Proof.Machine Sys2Proof.Claims

/-! ### Bytes -/

theorem length_memReads (m : List Host.Cell) (a n : Nat) : (memReads m a n).length = n := by
  induction n generalizing a with
  | zero => rfl
  | succ n ih => simp [memReads, ih]

theorem getElem_memReads (m : List Host.Cell) {n : Nat} : ∀ (a i : Nat) (h : i < (memReads m a n).length), (memReads m a n)[i] = memRead m (a + i) := by
  induction n with
  | zero => intro a i h; simp [memReads] at h
  | succ n ih =>
    intro a i h
    cases i with
    | zero => rfl
    | succ i => simp only [memReads, List.getElem_cons_succ, ih]; congr 1; omega

/-- Bytes written to a canonical memory are read back. -/
theorem read_write_same {s : State} (h : s.Inv) (a : Nat) (bs : List Byte) : (s.write a bs).read a bs.length = bs :=
  List.ext_getElem (length_memReads ..) fun i _ hi => (getElem_memReads ..).trans (memRead_memWrites_inside bs h i hi)

/-! ### Full/empty bits (R70) -/

/-- Two addresses share a full/empty bit exactly when they lie in one aligned 8-byte word. -/
theorem word_eq_iff (a b : Nat) : b - b % 8 = a - a % 8 ↔ a / 8 = b / 8 := by omega

theorem mem_insertWord (l : List Nat) (a b : Nat) : b ∈ insertWord l a ↔ b = a ∨ b ∈ l := by
  induction l with
  | nil => simp [insertWord]
  | cons k l ih =>
    unfold insertWord
    split
    · simp
    · split <;> simp_all [or_left_comm]

/-- A full/empty bit that is set reads as set, and every other one as before. -/
theorem full_setFull (s : State) (a b : Nat) (f : Bool) : (s.setFull a f).full b = if a / 8 = b / 8 then f else s.full b := by
  cases f <;> by_cases h : a / 8 = b / 8 <;> simp [State.full, State.setFull, mem_insertWord, word_eq_iff, h]

/-- Settles O4. -/
theorem memoryHoldsWhatIsWritten : Obligations.MemoryHoldsWhatIsWritten :=
  ⟨fun _ a _ bs h => ⟨State.write_wf a bs h, read_write_same h a bs, memRead_memWrites_outside bs, rfl⟩,
    fun s a b f => ⟨fun h => by rw [full_setFull, if_pos h], fun h => by rw [full_setFull, if_neg h]⟩⟩

end Sys2Proof.MemoryLaws
end

section
/-! PROOFS. The canonical form of the memory (spec/02 R59), of a state and of what the model's functions answer with.  Every step is put
together from functions that each keep it: one lemma per function, in the order of the model's definitions.  The memory changes only by
`memWrites`, so that most of the lemmas follow a function's branches and no more. -/

namespace Sys2Proof.Machine

/-- The state of an outcome has a canonical memory. -/
def Out.Inv : Out → Prop
  | .go s | .jump s _ | .wait s _ | .trap s _ | .done s => s.Inv

def Pass.Inv : Pass → Prop
  | .ok s | .hold s _ => s.Inv

def Delivery.Inv : Delivery → Prop
  | .accepted s => s.Inv
  | .refused | .full => True

def Trans.Inv : Trans → Prop
  | .ok s _ _ | .refuse s _ => s.Inv
  | .miss => True

def Placing.Inv : Placing → Prop
  | .ok s _ _ | .wait s | .refused s _ => s.Inv

def Gate.Inv : Gate → Prop
  | .pass s | .hold s _ => s.Inv

def Placed.Inv : Placed → Prop
  | .ok s _ => s.Inv
  | .out r => r.Inv

def FeResult.Inv : FeResult → Prop
  | .done s _ | .parked s => s.Inv
  | .again | .error => True

def AtomResult.Inv : AtomResult → Prop
  | .done s _ | .held s => s.Inv
  | .error => True

def Fetched.Inv : Fetched → Prop
  | .ok s _ => s.Inv
  | .out r => r.Inv

def Chosen.Inv : Chosen → Prop
  | .run s _ | .ended s => s.Inv

def Found.Inv : Found → Prop
  | .ok s _ | .wait s | .refused s _ _ => s.Inv

def Stepped.Inv {α : Type} : Stepped α → Prop
  | .ok s _ | .wait s | .fault s _ _ => s.Inv

def Bound.Inv : Bound → Prop
  | .ok s => s.Inv
  | .status _ => True

def Hand.Inv : Hand → Prop
  | .none | .unreadable _ _ => True
  | .some s _ => s.Inv

def Payload.Inv : Payload → Prop
  | .ok _ => True
  | .out r => r.Inv

def Done.Inv : Done → Prop
  | .status s _ | .stays s => s.Inv

end Sys2Proof.Machine

namespace Sys2Proof.MemoryLaws

open Sys2Proof Sys2Proof.Machine Sys2Proof.Claims

/-- What an option holds keeps `inv`. -/
def optInv {α : Type} (inv : α → Prop) : Option α → Prop
  | none => True
  | some a => inv a

/-- What a value holds that is no error has a canonical memory. -/
def exceptInv : Except Nat State → Prop
  | .ok s => s.Inv
  | .error _ => True

/-- An outcome that is a next state has a canonical memory. -/
def outcomeInv : Host.Outcome State Fault Refusal → Prop
  | .next s => s.Inv
  | .fault _ | .refused _ => True

section
variable {α β : Type} {inv : α → Prop} {inv' : β → Prop} {o : Option α}

theorem optInv_getD {a : α} (h : optInv inv o) (ha : inv a) : inv (o.getD a) := by cases o <;> assumption

theorem optInv_some {a : α} (h : optInv inv o) (e : o = some a) : inv a := by
  subst e
  exact h

theorem optInv_map {f : α → β} (h : optInv inv o) (hf : ∀ a, inv a → inv' (f a)) : optInv inv' (o.map f) := by
  cases o with
  | none => trivial
  | some a => exact hf a h

theorem optInv_bind {f : α → Option β} (h : optInv inv o) (hf : ∀ a, inv a → optInv inv' (f a)) : optInv inv' (o.bind f) := by
  cases o with
  | none => trivial
  | some a => exact hf a h

/-- What every application of a function keeps, a fold of it keeps. -/
theorem foldl_keeps {P : β → Prop} {b : β} (h : P b) (l : List α) (f : β → α → β) (hf : ∀ b x, P b → P (f b x)) : P (l.foldl f b) :=
  List.foldlRecOn l f h (fun b hb x _ => hf b x hb)
end

section
variable {α β : Type} {l : List α}

theorem foldl_optInv {inv : β → Prop} {o : Option β} {f : Option β → α → Option β} (hf : ∀ {o x}, optInv inv o → optInv inv (f o x))
    (h : optInv inv o) : optInv inv (l.foldl f o) :=
  foldl_keeps h l f fun _ _ => hf

theorem foldl_fst_wf {a : State × β} {f : State × β → α → State × β} (hf : ∀ {a x}, a.1.Inv → (f a x).1.Inv) (h : a.1.Inv) :
    (l.foldl f a).1.Inv :=
  foldl_keeps (P := fun a => a.1.Inv) h l f fun _ _ => hf

theorem foldl_found_wf {r : Found} {f : Found → α → Found} (hf : ∀ {r x}, r.Inv → (f r x).Inv) (h : r.Inv) : (l.foldl f r).Inv :=
  foldl_keeps h l f fun _ _ => hf

theorem foldl_wf {s : State} {f : State → α → State} (hf : ∀ {u x}, u.Inv → (f u x).Inv) (h : s.Inv) : (l.foldl f s).Inv :=
  State.foldl_wf l f (fun _ _ => hf) h
end

theorem inv_iff {s : State} : s.Inv ↔ Memory.wf s.mem = true := Iff.rfl

theorem ite_wf {c : Prop} {_ : Decidable c} {s u : State} (hs : s.Inv) (hu : u.Inv) : (if c then s else u).Inv := by split <;> assumption

theorem ite_opt {c : Prop} {_ : Decidable c} {r r' : Option State} (hr : optInv State.Inv r) (hr' : optInv State.Inv r') :
    optInv State.Inv (if c then r else r') := by
  split <;> assumption

theorem ite_out {c : Prop} {_ : Decidable c} {r r' : Out} (hr : r.Inv) (hr' : r'.Inv) : (if c then r else r').Inv := by split <;> assumption

end Sys2Proof.MemoryLaws
end

section
/-! PROOFS. The memory stays canonical under the operations of the state, traps, lanes, packets, queues and threads. -/

namespace Sys2Proof.MemoryLaws

open Sys2Proof Sys2Proof.Machine Sys2Proof.Claims

variable {s : State}

/-! ### The named operations over memory, registers and the tables of State, event records, and taking a trap -/

theorem setFull_wf {a f} (h : s.Inv) : (State.setFull s a f).Inv := h
theorem updCore_wf {ep f} (h : s.Inv) : (State.updCore s ep f).Inv := h
theorem updThread_wf {k f} (h : s.Inv) : (State.updThread s k f).Inv := h
theorem updTeam_wf {k f} (h : s.Inv) : (State.updTeam s k f).Inv := h
theorem updGroup_wf {k f} (h : s.Inv) : (State.updGroup s k f).Inv := h
theorem updDie_wf {d f} (h : s.Inv) : (State.updDie s d f).Inv := h
theorem updSlice_wf {i f} (h : s.Inv) : (State.updSlice s i f).Inv := h
theorem updPkg_wf {f} (h : s.Inv) : (State.updPkg s f).Inv := h
theorem updHost_wf {f} (h : s.Inv) : (State.updHost s f).Inv := h
theorem count_wf {key n} (h : s.Inv) : (State.count s key n).Inv := h
theorem record_wf {src cls code sev thread d0 d1} (h : s.Inv) : (State.record s src cls code sev thread d0 d1).Inv := h
theorem event_wf {src cls code sev thread d0 d1} (h : s.Inv) : (State.event s src cls code sev thread d0 d1).Inv := h

theorem corrected_wf {src cls code d0 n} (h : s.Inv) : (State.corrected s src cls code d0 n).Inv := by
  unfold State.corrected
  grind only [updDie_wf, record_wf, count_wf]

theorem trapEvent_wf {core x} (h : s.Inv) : (trapEvent s core x).Inv := ite_wf h (ite_wf h h)

theorem takeTrap_wf {k x} (h : s.Inv) : (takeTrap s k x).Inv := by
  unfold takeTrap
  grind only [trapEvent_wf, updThread_wf, updTeam_wf, event_wf, foldl_wf]

theorem stopShadow_wf {k} (h : s.Inv) : (stopShadow s k).Inv := by
  unfold stopShadow
  grind only [trapEvent_wf, updThread_wf, updTeam_wf, foldl_wf]

theorem checkShadow_wf {here} (h : s.Inv) : (checkShadow s here).Inv := foldl_wf stopShadow_wf h
theorem perfCount_wf {ep code n} (h : s.Inv) : (perfCount s ep code n).Inv := ite_wf h h
theorem coreCycle_wf {ep} (h : s.Inv) : (coreCycle s ep).Inv := perfCount_wf h
theorem tick_wf (h : s.Inv) : (tick s).Inv := foldl_wf (fun h1 => ite_wf h1 (coreCycle_wf h1)) h

/-! ### How an instruction runs in the lanes of an issue group -/

theorem checkYielded_wf {team} (h : s.Inv) : (checkYielded s team).Inv := ite_wf h h

theorem waitIn_wf {k st} (h : s.Inv) : (waitIn s k st).Inv := by
  unfold waitIn
  grind only [updThread_wf, checkYielded_wf]

theorem yieldAt_wf {k} (h : s.Inv) : (yieldAt s k).Inv := by
  unfold yieldAt
  grind only [updThread_wf, checkYielded_wf]

theorem touchEntry_wf {k} (h : s.Inv) : (touchEntry s k).Inv := by
  unfold touchEntry
  grind only [inv_iff]

theorem arriveHeld_wf {k} (h : s.Inv) : (arriveHeld s k).Inv := by
  unfold arriveHeld
  grind only [touchEntry_wf]

theorem keepTouch_wf {yh t k} (h : s.Inv) : (keepTouch yh t k s).Inv := by
  unfold keepTouch
  grind only [updThread_wf, touchEntry_wf]

theorem settle_wf {op o t k r} (hr : r.Inv) : (settle op o t k r).Inv := by
  unfold settle
  grind only [takeTrap_wf, updThread_wf, keepTouch_wf, touchEntry_wf, waitIn_wf, Out.Inv]

theorem laneChecked_wf {op o w0 body k t} (hbody : ∀ {u x y}, u.Inv → (body u x y).Inv) (h : s.Inv) :
    (laneChecked op o w0 body s k t).Inv := by
  unfold laneChecked
  grind only [takeTrap_wf, settle_wf, updThread_wf, waitIn_wf, Out.Inv]

theorem laneStep_wf {op o len w0 body k} (hbody : ∀ {u x y}, u.Inv → (body u x y).Inv) (h : s.Inv) :
    (laneStep op o len w0 body s k).Inv := by
  unfold laneStep
  grind only [laneChecked_wf, updThread_wf, Out.Inv]

theorem restop_wf (h : s.Inv) : (restop s).Inv := by
  unfold restop
  grind only [updThread_wf, foldl_wf]

theorem runLong_wf {op o body} (hbody : ∀ {u x y}, u.Inv → (body u x y).Inv) (h : s.Inv) : outcomeInv (runLong op o body s) := by
  unfold runLong
  grind only [restop_wf, laneStep_wf, foldl_wf, Out.Inv, outcomeInv]

theorem runShort_wf {op o w body} (hbody : ∀ {u x y}, u.Inv → (body u x y).Inv) (h : s.Inv) : outcomeInv (runShort op o w body s) := by
  unfold runShort
  grind only [restop_wf, laneStep_wf, foldl_wf, Out.Inv, outcomeInv]

theorem joinLanes_wf {ks} (h : s.Inv) : (joinLanes s ks).Inv := foldl_wf id h
theorem maskConflict_wf {g k} (h : s.Inv) : (maskConflict s g k).Inv := foldl_wf takeTrap_wf h
theorem otherMasks_wf {g pc} (h : s.Inv) : (otherMasks s g pc).Inv := foldl_wf maskConflict_wf h
theorem maskCheck_wf {g k} (h : s.Inv) : (maskCheck s g k).Inv :=
  ite_wf h (ite_wf (joinLanes_wf (foldl_wf (fun h1 => arriveHeld_wf h1) h)) (ite_wf h (maskConflict_wf h)))
theorem leaveMask_wf {g k lane} (h : s.Inv) : (leaveMask s g k lane).Inv := maskCheck_wf h
theorem waitMask_wf {k t m} (h : s.Inv) : (waitMask s k t m).Inv := ite_out h (maskCheck_wf (waitIn_wf h))
theorem leaveAll_wf {t} (h : s.Inv) : (leaveAll s t).Inv := foldl_wf (fun h1 => ite_wf (leaveMask_wf h1) h1) h

theorem writeMask_wf {g k set} (h : s.Inv) : (writeMask s g k set).Inv := by
  unfold writeMask
  grind only [arriveHeld_wf, updGroup_wf, updThread_wf, maskCheck_wf, foldl_wf]

/-- Lanes that are left at the instruction's end settle one by one. -/
theorem foldl_settle_wf {op o len} {before : State} {ks : List Nat} (h : s.Inv) : (ks.foldl (fun s j =>
    match before.thread j, s.thread j with
    | some t, some u => if u.state == .runnable && u.sr.intrap == t.sr.intrap && u.pc + BitVec.ofNat 64 len == u.after then
        settle op (if guardHolds t o then o else { o with ret := 0#2 }) t j (.go s) else s
    | _, _ => s) s).Inv := by
  refine foldl_wf (fun {u j} hu => ?_) h
  split
  · split
    · exact settle_wf hu
    · exact hu
  · exact hu

theorem runWide_wf {op o len w0 apply} (happly : ∀ {u ks}, u.Inv → (apply u ks).Inv) (h : s.Inv) : (runWide op o len w0 apply s).Inv := by
  refine restop_wf (State.foldl_wf _ _ (fun u j hu => ?_) h)
  cases hj : u.thread j with
  | none => exact hu
  | some t =>
    have hb : (u.updThread j fun _ => t.begun len).Inv := hu
    have hw (g f) : (waitIn ((u.updThread j fun _ => t.begun len).updGroup g f) j (.maskWait o.c.toNat true)).Inv := waitIn_wf hb
    refine ite_wf hu (ite_wf hb ?_)
    cases fieldTrap op o w0 true (u.team (t.begun len).team).regs with
    | some x => exact takeTrap_wf hb
    | none =>
      refine ite_wf (waitIn_wf hb) (ite_wf (waitIn_wf hb) (ite_wf (takeTrap_wf hb) (ite_wf (foldl_settle_wf (ite_wf (happly hb) hb))
        (ite_wf ?_ (otherMasks_wf (maskCheck_wf (hw _ _)))))))
      exact joinLanes_wf (foldl_settle_wf (happly (foldl_wf (f := fun u i => u.updThread i _) id (hw _ _))))

theorem goPast_wf {k} (h : s.Inv) : (goPast s k).Inv := by
  unfold goPast
  grind only [settle_wf, updThread_wf, Out.Inv]

/-! ### The physical map -/

theorem queueAtPort_wf {port p} (h : s.Inv) : (queueAtPort s port p).Inv := h

theorem inject_wf {p} (h : s.Inv) : (State.inject s p).Inv := by
  unfold State.inject
  grind only [queueAtPort_wf, inv_iff]

theorem send_wf {p} (h : s.Inv) : (State.send s p).Inv := ite_wf (inject_wf h) (inject_wf h)
theorem reply_wf {p typ body} (h : s.Inv) : (State.reply s p typ body).Inv := inject_wf h
theorem ctl_wf {src dst typ body} (h : s.Inv) : (State.ctl s src dst typ body).Inv := inject_wf h
theorem evictTreelet_wf {ep id} (h : s.Inv) : (evictTreelet s ep id).Inv := ctl_wf h

theorem reportLost_wf {ep id} (h : s.Inv) : (reportLost s ep id).Inv := by
  unfold reportLost
  grind only [evictTreelet_wf]

theorem dropCounted_wf {die src} (h : s.Inv) : (dropCounted s die src).Inv := corrected_wf h

theorem arrive_wf {accept act} (h : s.Inv) (hact : ∀ {u k p}, u.Inv → optInv State.Inv (act u k p)) : (arrive s accept act).Inv := by
  unfold arrive
  grind only [inv_iff, optInv_getD, dropCounted_wf]

theorem allowEntry_wf {ep dst} (h : s.Inv) : optInv State.Inv (allowEntry s ep dst) := by
  unfold allowEntry
  grind only [updCore_wf, foldl_wf, optInv]

theorem takeAllowance_wf {k t dst f} (h : s.Inv) : (takeAllowance s k t dst f).Inv := by
  unfold takeAllowance
  grind only [updCore_wf, allowEntry_wf, Pass.Inv, optInv]

theorem passTo_wf {k t dst f} (h : s.Inv) : (passTo s k t dst f).Inv := by
  unfold passTo
  grind only [takeAllowance_wf, Pass.Inv]

theorem sink_wf {ep src f} (h : s.Inv) : (sink s ep src f).Inv := ite_wf h (ite_wf (ctl_wf h) h)
theorem touchL2_wf {pa hint} (h : s.Inv) : (touchL2 s pa hint).Inv := ite_wf h (ite_wf h h)

/-! ### The arrival queues of a core -/

theorem updQueue_wf {ep q f} (h : s.Inv) : (State.updQueue s ep q f).Inv := h
theorem writePlace_wf {ep q i bs} (h : s.Inv) : (writePlace s ep q i bs).Inv := State.write_wf _ _ h
theorem writeRings_wf {ep q e state} (h : s.Inv) : (writeRings s ep q e state).Inv := State.write_wf _ _ (State.write_wf _ _ (touchL2_wf h))
theorem sendSpill_wf {ep q e} (h : s.Inv) : (sendSpill s ep q e).Inv := ite_wf (ite_wf h (inject_wf h)) (inject_wf (ite_wf h (inject_wf h)))

theorem acceptEntry_wf {ep q e} (h : s.Inv) : (acceptEntry s ep q e).Inv := by
  unfold acceptEntry
  grind only [writeRings_wf, sendSpill_wf, writePlace_wf, updQueue_wf, perfCount_wf]

theorem deliver_wf {ep q e parent} (h : s.Inv) : (deliver s ep q e parent).Inv := by
  unfold deliver
  grind only [acceptEntry_wf, corrected_wf, updQueue_wf, Delivery.Inv]

theorem deliverRecord_wf {ep r src parent} (h : s.Inv) : (deliverRecord s ep r src parent).1.Inv := by
  unfold deliverRecord
  grind only [corrected_wf, updQueue_wf, deliver_wf, Delivery.Inv]

theorem joinHeld_wf {ep src ticket dec deriv parent} (h : s.Inv) : (joinHeld s ep src ticket dec deriv parent).Inv := by
  unfold joinHeld
  grind only [acceptEntry_wf, corrected_wf, updQueue_wf, Delivery.Inv]

theorem takeLive_wf {ep q k e} (h : s.Inv) : (takeLive s ep q k e).1.Inv := by
  unfold takeLive
  grind only [writeRings_wf, writePlace_wf, updQueue_wf]

theorem dropEntry_wf {ep q k} (h : s.Inv) : (dropEntry s ep q k).Inv := by
  unfold dropEntry
  grind only [writeRings_wf, updQueue_wf]

theorem takeGone_wf {ep q k e} (h : s.Inv) : (takeGone s ep q k e).Inv := dropEntry_wf h
theorem purgeCore_wf {ep d} (h : s.Inv) : (purgeCore s ep d).Inv := h

theorem purge_wf {ep d} (h : s.Inv) : (purge s ep d).Inv := by
  unfold purge
  grind only [updDie_wf, purgeCore_wf, updSlice_wf, updPkg_wf, foldl_wf]

theorem sendNotices_wf {core deriv places} (h : s.Inv) : (sendNotices s core deriv places).Inv :=
  foldl_wf (fun h1 => ite_wf (purge_wf h1) (inject_wf h1)) h

theorem retireEntry_wf {t} (h : s.Inv) : (retireEntry s t).Inv := by
  unfold retireEntry
  grind only [sendNotices_wf, dropEntry_wf]

/-! ### Room on a core, creating threads, groups and teams, and what EXIT frees -/

theorem startGroup_wf {team m code frame gid} (h : s.Inv) : (startGroup team m code frame s gid).Inv := foldl_wf id h
theorem startScratch_wf {ep off size} (h : s.Inv) : (startScratch s ep off size).Inv := State.write_wf _ _ h
theorem startTeam_wf {grid g ep p teamid gx gy gz cluster} (h : s.Inv) : (startTeam s grid g ep p teamid gx gy gz cluster).Inv :=
  foldl_wf startGroup_wf (startScratch_wf h)
theorem freeGroup_wf {g} (h : s.Inv) : (freeGroup s g).Inv := ite_wf h h

theorem exitThread_wf {k} (h : s.Inv) : (exitThread s k).Inv := by
  unfold exitThread
  grind only [leaveAll_wf, freeGroup_wf, updThread_wf, updCore_wf, retireEntry_wf, checkYielded_wf, reportLost_wf]

theorem retireTeam_wf {k} (h : s.Inv) : (retireTeam s k).Inv := by
  unfold retireTeam
  grind only [updCore_wf, foldl_wf, inv_iff]

/-! ### Branches, calls, rejoin masks, group-wide operations, YIELD and special registers -/

theorem callTo_wf {k t target} (h : s.Inv) : (callTo s k t target).Inv := ite_out h h
theorem effCall_wf {o k t} (h : s.Inv) : (effCall o s k t).Inv := ite_out h (callTo_wf h)

theorem effRet_wf {k t} (h : s.Inv) : (effRet s k t).Inv := by
  unfold effRet
  grind only [updThread_wf, Out.Inv]

theorem effLeave_wf {m k t} (h : s.Inv) : (effLeave m s k t).Inv := leaveMask_wf h
theorem effWaitk_wf {m k t} (h : s.Inv) : (effWaitk m s k t).Inv := waitMask_wf h

theorem effKmov_wf {o k t} (h : s.Inv) : (effKmov o s k t).Inv := by
  unfold effKmov
  grind only [writeMask_wf, updThread_wf, Out.Inv]

theorem applyVote_wf {o ks} (h : s.Inv) : (applyVote o s ks).Inv := foldl_wf id h
theorem applyShfl_wf {o ks} (h : s.Inv) : (applyShfl o s ks).Inv := foldl_wf id h
theorem giveResult_wf {o k v fl gen} (h : s.Inv) : (giveResult o s k v fl gen).Inv := h
theorem applyScan_wf {o ks} (h : s.Inv) : (applyScan o s ks).Inv := foldl_wf (fun h1 => ite_wf h1 h1) h

theorem applyRedg_wf {o ks} (h : s.Inv) : (applyRedg o s ks).Inv := by
  unfold applyRedg
  grind only [giveResult_wf, foldl_wf]

theorem runWideLong_wf {op o apply} (happly : ∀ {u x}, u.Inv → (apply u x).Inv) (h : s.Inv) : outcomeInv (runWideLong op o apply s) := by
  unfold runWideLong
  grind only [runWide_wf, outcomeInv]

theorem effYield_wf {k t} (h : s.Inv) : (effYield s k t).Inv := ite_out (yieldAt_wf h) h

end Sys2Proof.MemoryLaws
end

section
/-! PROOFS. The memory stays canonical under caches, translation, accesses, remote operations, barriers and clauses. -/

namespace Sys2Proof.MemoryLaws

open Sys2Proof Sys2Proof.Machine Sys2Proof.Claims

variable {s : State}

/-! ### What one access does to bytes -/

theorem loseTreelet_wf {ep off ray} (h : s.Inv) : (loseTreelet s ep off ray).Inv := by
  unfold loseTreelet
  grind only [updCore_wf, reportLost_wf, event_wf]

theorem writeScratch_wf {ep o bs} (h : s.Inv) : (writeScratch s ep o bs).Inv := State.write_wf _ _ h

/-! ### The L1 data caches, the die directories and the homes of memory -/

theorem setLine_wf {ep l x} (h : s.Inv) : (State.setLine s ep l x).Inv := h
theorem dropLine_wf {ep l} (h : s.Inv) : (State.dropLine s ep l).Inv := ite_wf h h
theorem homeWrite_wf {a bs} (h : s.Inv) : (homeWrite s a bs).Inv := State.write_wf _ _ h
theorem testStep_wf {d} (h : s.Inv) : (testStep s d).Inv := ite_wf h (foldl_wf inject_wf (State.write_wf _ _ (State.write_wf _ _ h)))
theorem testTouched_wf {pa n} (h : s.Inv) : (testTouched s pa n).Inv := foldl_wf testStep_wf h
theorem sendFar_wf {ep pa a deriv index} (h : s.Inv) : (sendFar s ep pa a deriv index).Inv := ite_wf h (send_wf h)

theorem storeBack_wf {ep l x} (h : s.Inv) : (storeBack s ep l x).Inv := by
  unfold storeBack
  split
  · exact foldl_wf sendFar_wf h
  · exact testTouched_wf (show Memory.wf _ = true from memWrites_wf _ _ h)

theorem foldLine_wf {ep l op kind n x} (h : s.Inv) : (foldLine s ep l op kind n x).Inv :=
  foldl_wf (fun h1 => ite_wf (ite_wf (sendFar_wf h1) (ite_wf h1 (homeWrite_wf (touchL2_wf h1)))) h1) h

theorem recallLine_wf {l} (h : s.Inv) : (recallLine s l).Inv := by
  unfold recallLine
  grind only [foldLine_wf, dropLine_wf, foldl_wf]

theorem writeBack_wf {ep l x} (h : s.Inv) : (writeBack s ep l x).Inv := storeBack_wf (recallLine_wf h)

theorem evictLine_wf {ep l} (h : s.Inv) : (evictLine s ep l).Inv := by
  unfold evictLine
  grind only [foldLine_wf, writeBack_wf, dropLine_wf]

theorem cleanLine_wf {ep l} (h : s.Inv) : (cleanLine s ep l).Inv := by
  unfold cleanLine
  grind only [setLine_wf, writeBack_wf]

theorem recallOther_wf {l op kind n} (h : s.Inv) : (recallOther s l op kind n).Inv := by
  unfold recallOther
  grind only [evictLine_wf, foldl_wf]

theorem clearIsland_wf {ep l} (h : s.Inv) : (clearIsland s ep l).Inv := foldl_wf evictLine_wf h
theorem clearEverywhere_wf {l} (h : s.Inv) : (clearEverywhere s l).Inv := foldl_wf evictLine_wf h

theorem makeRoom_wf {ep} (h : s.Inv) : (makeRoom s ep).Inv := by
  unfold makeRoom
  grind only [evictLine_wf, foldl_wf]

theorem cleanOthers_wf {ep l} (h : s.Inv) : (cleanOthers s ep l).Inv := foldl_wf (fun h1 => ite_wf h1 (cleanLine_wf h1)) h

theorem readHomeLine_wf {ep l hint got} (h : s.Inv) : (readHomeLine s ep l hint got).1.Inv := by
  unfold readHomeLine
  grind only [recallLine_wf, cleanOthers_wf, touchL2_wf, inv_iff]

theorem fillLine_wf {ep l hint got} (h : s.Inv) : (fillLine s ep l hint got).Inv := by
  unfold fillLine
  grind only [recallLine_wf, makeRoom_wf, setLine_wf, readHomeLine_wf, perfCount_wf, dropLine_wf, foldl_wf]

theorem ownLine_wf {ep l} (h : s.Inv) : (ownLine s ep l).Inv := by
  unfold ownLine
  grind only [setLine_wf, dropLine_wf, foldl_wf]

theorem performL1_wf {ep pa a} (h : s.Inv) : (performL1 s ep pa a).1.Inv := by
  unfold performL1
  grind only [setLine_wf]

theorem serveMiss_wf {ep pa hint got write} (h : s.Inv) : (serveMiss s ep pa hint got write).Inv :=
  ite_wf (ownLine_wf (ite_wf h (fillLine_wf (ite_wf h (perfCount_wf h))))) (ite_wf h (fillLine_wf (ite_wf h (perfCount_wf h))))

theorem nextHint_wf {ep pa hint} (h : s.Inv) : (nextHint s ep pa hint).Inv := by
  unfold nextHint
  grind only [fillLine_wf, touchL2_wf]

theorem dropHint_wf {ep pa hint} (h : s.Inv) : (dropHint s ep pa hint).Inv :=
  ite_wf (evictLine_wf h) (ite_wf (ite_wf (evictLine_wf h) (evictLine_wf h)) h)
theorem acquireAction_wf {ep scope} (h : s.Inv) : (acquireAction s ep scope).Inv := ite_wf h h
theorem releaseAction_wf {ep scope} (h : s.Inv) : (releaseAction s ep scope).Inv := ite_wf (foldl_wf cleanLine_wf h) h

theorem reduceL1_wf {ep pa hint op kind n c} (h : s.Inv) : (reduceL1 s ep pa hint op kind n c).Inv := by
  unfold reduceL1
  grind only [makeRoom_wf, setLine_wf, recallOther_wf, evictLine_wf, foldl_wf]

theorem performHome_wf {pa a hint} (h : s.Inv) : optInv (fun x => x.1.Inv) (performHome s pa a hint) := by
  unfold performHome
  grind only [recallLine_wf, recallOther_wf, testTouched_wf, homeWrite_wf, touchL2_wf, optInv]

theorem visitLines_wf {pa n} (h : s.Inv) : (visitLines s pa n).Inv := foldl_wf (fun h1 => touchL2_wf (recallLine_wf h1)) h
theorem agentPut_wf {pa bs} (h : s.Inv) : (agentPut s pa bs).Inv := homeWrite_wf (visitLines_wf h)

/-! ### Translation -/

theorem lookupTlb_wf {ep asid va} (h : s.Inv) : optInv (fun x => x.2.Inv) (lookupTlb s ep asid va) := by
  unfold lookupTlb
  grind only [updCore_wf, optInv]

theorem fillTlb_wf {ep x} (h : s.Inv) : (fillTlb s ep x).Inv := h

theorem translate_wf {ep asid priv cls va} (h : s.Inv) : (Machine.translate s ep asid priv cls va).Inv := by
  unfold Machine.translate
  grind only [Trans.Inv, optInv, lookupTlb_wf]

theorem sendWalkRead_wf {die key w} (h : s.Inv) : (sendWalkRead s die key w).Inv := inject_wf h
theorem beginWalk_wf {die key w} (h : s.Inv) : (beginWalk s die key w).Inv := ite_wf (sendWalkRead_wf h) h
theorem admitWalks_wf {die} (h : s.Inv) : (admitWalks s die).Inv := foldl_wf (fun h1 => ite_wf (beginWalk_wf h1) h1) h
theorem queueWalk_wf {die key w} (h : s.Inv) : (queueWalk s die key w).Inv := admitWalks_wf h
theorem startWalk_wf {ep thread asid root va cls fe priv soft} (h : s.Inv) : (startWalk s ep thread asid root va cls fe priv soft).Inv :=
  queueWalk_wf (perfCount_wf h)

theorem agentPlace_wf {ep asid root priv cls va} (h : s.Inv) : (agentPlace s ep asid root priv cls va).Inv := by
  unfold agentPlace
  grind only [startWalk_wf, updDie_wf, translate_wf, Placing.Inv, Trans.Inv]

theorem stepWalk_wf {die key e} (h : s.Inv) : (stepWalk s die key e).Inv := by
  unfold stepWalk
  grind only [updDie_wf, sendWalkRead_wf]

theorem wakeThread_wf {k} (h : s.Inv) : (wakeThread s k).Inv := h

theorem enterFault_wf {die key w} (h : s.Inv) : (enterFault s die key w).Inv := by
  unfold enterFault
  grind only [updDie_wf, event_wf]

theorem leaveFault_wf {die w free} (h : s.Inv) : (leaveFault s die w free).Inv := h

theorem endWalk_wf {die key} (h : s.Inv) : (endWalk s die key).Inv := by
  unfold endWalk
  grind only [takeTrap_wf, updDie_wf, goPast_wf, enterFault_wf, fillTlb_wf, wakeThread_wf, admitWalks_wf, count_wf]

theorem timeoutWalk_wf {die key} (h : s.Inv) : (timeoutWalk s die key).Inv := by
  unfold timeoutWalk
  grind only [takeTrap_wf, updDie_wf, leaveFault_wf]

theorem replayDie_wf {die} (h : s.Inv) : (replayDie s die).Inv := foldl_wf (fun h1 => ite_wf (queueWalk_wf h1) h1) h

theorem execReqTableWalkRead_wf (h : s.Inv) : outcomeInv (execReqTableWalkRead s) := by
  unfold execReqTableWalkRead
  grind only [reply_wf, arrive_wf, performHome_wf, event_wf, outcomeInv, optInv]

/-! ### Outstanding operations -/

theorem memGate_wf {k t global release} (h : s.Inv) : (memGate s k t global release).Inv := by
  have fenced {b : Bool} {u : State} (hu : u.Inv) {c : Prop} [Decidable c] :
      Gate.Inv (if (!b) = true then .hold u .waiting else if c then .hold u .waiting else .pass u) := by
    split
    · exact hu
    · split <;> exact hu
  unfold memGate
  refine fenced ?_
  grind only [releaseAction_wf, acquireAction_wf, updThread_wf]

theorem addOp_wf {k p} (h : s.Inv) : (addOp s k p).1.Inv := by
  unfold addOp
  grind only [updThread_wf, inv_iff]

theorem updOp_wf {k key f} (h : s.Inv) : (updOp s k key f).Inv := h
theorem failPiece_wf {k key code cls} (h : s.Inv) : (failPiece s k key code cls).Inv := h

theorem opReady_wf {k key data} (h : s.Inv) : (opReady s k key data).Inv := by
  unfold opReady
  grind only [updOp_wf, releaseAction_wf, acquireAction_wf]

theorem opRefused_wf {k key code info} (h : s.Inv) : (opRefused s k key code info).Inv := h
theorem addReady_wf {k p data} (h : s.Inv) : (addReady s k p data).Inv := addOp_wf h
theorem sendPiece_wf {k key t p} (h : s.Inv) : (sendPiece s k key t p).Inv :=
  ite_wf (ite_wf (clearIsland_wf h) h) (ite_wf (send_wf (ite_wf (clearIsland_wf h) h)) (send_wf (ite_wf (clearIsland_wf h) h)))

theorem runPieces_wf {k key t l data} (h : s.Inv) : (runPieces s k key t l data).Inv := by
  induction l generalizing s data with
  | nil => exact opReady_wf h
  | cons pc rest ih =>
    exact ite_wf h (ite_wf (ite_wf (sendPiece_wf h) (ih (failPiece_wf h))) (ite_wf h (ite_wf (ih (failPiece_wf h))
      (ih (nextHint_wf (ite_wf (performL1_wf h) (performL1_wf h)))))))

theorem servePiece_wf {k key t p pc got} (h : s.Inv) : (servePiece s k key t p pc got).Inv := dropHint_wf (runPieces_wf (serveMiss_wf h))
theorem sendLineHome_wf {ep l} (h : s.Inv) : (sendLineHome s ep l).Inv := foldl_wf (fun h1 => ite_wf (evictLine_wf h1) h1) (recallLine_wf h)
theorem askLine_wf {k key t p l} (h : s.Inv) : (askLine s k key t p l).Inv :=
  ite_wf (sendLineHome_wf h) (ite_wf (runPieces_wf (sendLineHome_wf h)) (send_wf (perfCount_wf (sendLineHome_wf h))))

theorem lineArrives_wf {k key t p bs} (h : s.Inv) : (lineArrives s k key t p bs).Inv := by
  unfold lineArrives
  grind only [updOp_wf, servePiece_wf]

theorem answerPiece_wf {k key bs} (h : s.Inv) : (answerPiece s k key bs).Inv := by
  unfold answerPiece
  grind only [runPieces_wf, clearIsland_wf, lineArrives_wf]

theorem fillFor_wf {k key l} (h : s.Inv) : (fillFor s k key l).Inv := by
  unfold fillFor
  grind only [runPieces_wf, failPiece_wf, servePiece_wf, askLine_wf]

theorem missFill_wf {ep l} (h : s.Inv) : (missFill s ep l).Inv := foldl_wf fillFor_wf h
theorem farDone_wf {ep seq} (h : s.Inv) : (farDone s ep seq).Inv := ite_wf h (foldl_wf (fun h1 => opReady_wf h1) h)
theorem memTrap_wf {code cls info t} (h : s.Inv) : (memTrap s code cls info t).Inv := h

theorem placePieces_wf {k t cls fe soft l} (h : s.Inv) : (placePieces s k t cls fe soft l).Inv := by
  induction l generalizing s with
  | nil => exact h
  | cons x rest ih =>
    unfold placePieces
    grind only [Placed.Inv, Out.Inv, Trans.Inv, startWalk_wf, translate_wf, memTrap_wf]

theorem placeGlobal_wf {k t cls fe soft va n align} (h : s.Inv) : (placeGlobal s k t cls fe soft va n align).Inv := by
  unfold placeGlobal
  grind only [placePieces_wf, memTrap_wf, Out.Inv, Placed.Inv]

theorem forgetThread_wf {k} (h : s.Inv) : (forgetThread s k).Inv := by
  unfold forgetThread
  grind only [inv_iff]

theorem deliverRefusal_wf {k t p code info} (h : s.Inv) : (deliverRefusal s k t p code info).Inv :=
  ite_wf (ite_wf h h) (ite_wf (takeTrap_wf h) (ite_wf h h))
theorem endWait_wf {k p} (h : s.Inv) : (endWait s k p).Inv := h

theorem completeOp_wf {k key} (h : s.Inv) : (completeOp s k key).Inv := by
  unfold completeOp
  split
  · exact h
  split
  · exact h
  dsimp only
  split
  · exact h
  · exact h
  · split
    · exact h
    · refine forgetThread_wf (endWait_wf ?_)
      grind only [arriveHeld_wf, updThread_wf]
  · exact forgetThread_wf (endWait_wf (deliverRefusal_wf h))

theorem takeLate_wf {k} (h : s.Inv) : (takeLate s k).Inv := by
  unfold takeLate
  grind only [takeTrap_wf, updThread_wf]

/-! ### Full/empty words -/

theorem feApply_wf {loc a} (h : s.Inv) : (feApply s loc a).1.Inv := by
  unfold feApply
  grind only [homeWrite_wf, setFull_wf]

theorem setRetry_wf {loc l} (h : s.Inv) : (setRetry s loc l).Inv := ite_wf h h
theorem feAnswer_wf {r data} (h : s.Inv) : (feAnswer s r data).Inv := ite_wf (answerPiece_wf h) (inject_wf h)

theorem feWalk_wf {loc l} (h : s.Inv) : (feWalk s loc l).Inv := by
  induction l generalizing s with
  | nil => exact h
  | cons r rest ih =>
    unfold feWalk
    exact ite_wf (ih h) (ite_wf h (ih (feAnswer_wf (setRetry_wf (feApply_wf h)))))

theorem feArrive_wf {src thread op loc a} (h : s.Inv) : (feArrive s src thread op loc a).Inv := by
  unfold feArrive
  grind only [clearEverywhere_wf, feWalk_wf, feApply_wf, setRetry_wf, touchL2_wf, inv_iff, FeResult.Inv]

theorem withdrawRetry_wf {thread op} (h : s.Inv) : (withdrawRetry s thread op).Inv := h

theorem atomScratch_wf {ep off a deriv index} (h : s.Inv) : (atomScratch s ep off a deriv index).Inv := by
  unfold atomScratch
  grind only [writeScratch_wf, updCore_wf, event_wf, AtomResult.Inv]

theorem logAtHome_wf {pa deriv index old} (h : s.Inv) : (logAtHome s pa deriv index old).Inv := by
  unfold logAtHome
  grind only [updDie_wf]

theorem atomHome_wf {pa a deriv index hint} (h : s.Inv) : (atomHome s pa a deriv index hint).Inv := by
  unfold atomHome
  grind only [updDie_wf, logAtHome_wf, performHome_wf, event_wf, AtomResult.Inv, optInv]

theorem feResend_wf {k} (h : s.Inv) : (feResend s k).Inv := by
  unfold feResend
  split
  · exact h
  split
  · exact h
  split
  · exact h
  · grind only [FeResult.Inv, updOp_wf, answerPiece_wf, opRefused_wf, loseTreelet_wf, sendPiece_wf, feArrive_wf, count_wf]

theorem feTimeout_wf {k} (h : s.Inv) : (feTimeout s k).Inv := by
  unfold feTimeout
  grind only [inject_wf, opRefused_wf, setRetry_wf]

/-! ### Loads, stores, full/empty accesses, atomics, prefetch, flush and fences -/

theorem memStart_wf {k t o global release go} (h : s.Inv) (hgo : ∀ {u x}, u.Inv → (go u x).Inv) :
    (memStart s k t o global release go).Inv := by
  unfold memStart
  grind only [memGate_wf, releaseAction_wf, Out.Inv, Gate.Inv]

theorem startPieces_wf {k p pieces} (h : s.Inv) : (startPieces s k p pieces).Inv := by
  unfold startPieces
  grind only [runPieces_wf, addOp_wf]

theorem releaseFor_wf {t o} (h : s.Inv) : (releaseFor s t o).Inv := ite_wf (releaseAction_wf h) h

theorem effLd_wf {o k t} (h : s.Inv) : (effLd o s k t).Inv := by
  unfold effLd
  grind only [memStart_wf, startPieces_wf, placeGlobal_wf, releaseFor_wf, Out.Inv, Placed.Inv]

theorem effSt_wf {o k t} (h : s.Inv) : (effSt o s k t).Inv := by
  unfold effSt
  grind only [memStart_wf, startPieces_wf, placeGlobal_wf, releaseFor_wf, Out.Inv, Placed.Inv]

theorem sendRemote_wf {k t p mk} (h : s.Inv) : (sendRemote s k t p mk).Inv := by
  unfold sendRemote
  grind only [opRefused_wf, updTeam_wf, updCore_wf, addOp_wf, send_wf]

theorem ownScratch_wf {k t p addr a} (h : s.Inv) : (ownScratch s k t p addr a).Inv := by
  unfold ownScratch
  grind only [writeScratch_wf, opRefused_wf, loseTreelet_wf, addOp_wf, opReady_wf, memTrap_wf, inv_iff, Out.Inv]

theorem scratchAccess_wf {k t o p a} (h : s.Inv) : (scratchAccess s k t o p a).Inv := by
  unfold scratchAccess
  grind only [opRefused_wf, addOp_wf, ownScratch_wf, passTo_wf, memTrap_wf, releaseFor_wf, sendRemote_wf, Out.Inv, Pass.Inv]

theorem effLds_wf {o k t} (h : s.Inv) : (effLds o s k t).Inv := memStart_wf h scratchAccess_wf
theorem effSts_wf {o k t} (h : s.Inv) : (effSts o s k t).Inv := memStart_wf h scratchAccess_wf

theorem columnAccess_wf {op k t o p a} (h : s.Inv) : (columnAccess op s k t o p a).Inv := by
  unfold columnAccess
  grind only [opRefused_wf, addOp_wf, homeWrite_wf, opReady_wf, memTrap_wf, Out.Inv]

theorem effLdc_wf {o k t} (h : s.Inv) : (effLdc o s k t).Inv := memStart_wf h columnAccess_wf
theorem effStc_wf {o k t} (h : s.Inv) : (effStc o s k t).Inv := memStart_wf h columnAccess_wf

theorem feAccess_wf {k t o p a n} (h : s.Inv) : (feAccess s k t o p a n).Inv := by
  -- abstract, for the kernel would evaluate the places of the address map
  obtain ⟨place, hplace⟩ : ∃ f, scratchLoc = f := ⟨_, rfl⟩
  unfold feAccess
  rw [hplace]
  grind only [FeResult.Inv, Placed.Inv, Out.Inv, updOp_wf, releaseAction_wf, answerPiece_wf, opRefused_wf, loseTreelet_wf, addOp_wf,
    waitIn_wf, memTrap_wf, feArrive_wf, count_wf, placeGlobal_wf, startPieces_wf]

theorem effLdx_wf {o k t} (h : s.Inv) : (effLdx o s k t).Inv := memStart_wf h feAccess_wf
theorem effStx_wf {o k t} (h : s.Inv) : (effStx o s k t).Inv := memStart_wf h feAccess_wf
theorem effSetfe_wf {o k t} (h : s.Inv) : (effSetfe o s k t).Inv := memStart_wf h feAccess_wf

theorem effAtom_wf {o k t} (h : s.Inv) : (effAtom o s k t).Inv := by
  unfold effAtom
  grind only [memStart_wf, startPieces_wf, atomScratch_wf, opRefused_wf, loseTreelet_wf, updThread_wf, addOp_wf, opReady_wf, placeGlobal_wf,
    memTrap_wf, releaseFor_wf, Out.Inv, AtomResult.Inv, Placed.Inv]

theorem effRed_wf {o k t} (h : s.Inv) : (effRed o s k t).Inv := by
  unfold effRed
  grind only [memStart_wf, startPieces_wf, dropHint_wf, nextHint_wf, reduceL1_wf, placeGlobal_wf, memTrap_wf, releaseFor_wf, Out.Inv,
    Placed.Inv]

theorem effPref_wf {o k t} (h : s.Inv) : (effPref o s k t).Inv := by
  unfold effPref
  grind only [memGate_wf, startPieces_wf, nextHint_wf, fillLine_wf, placeGlobal_wf, touchL2_wf, Out.Inv, Gate.Inv, Placed.Inv]

theorem flushLine_wf {ep l inv} (h : s.Inv) : (flushLine s ep l inv).Inv := by
  unfold flushLine
  grind only [evictLine_wf, cleanLine_wf]

theorem endFlush_wf {k t p} (h : s.Inv) : (endFlush s k t p).Inv := ite_wf (addOp_wf h) (addReady_wf h)

theorem effFlush_wf {o k t} (h : s.Inv) : (effFlush o s k t).Inv := by
  unfold effFlush
  grind only [memStart_wf, flushLine_wf, placeGlobal_wf, endFlush_wf, Out.Inv, Placed.Inv]

theorem effFlushAll_wf {o k t} (h : s.Inv) : (effFlushAll o s k t).Inv := memStart_wf h (fun h1 => endFlush_wf (foldl_wf flushLine_wf h1))

theorem effFence_wf {o k t} (h : s.Inv) : (effFence o s k t).Inv := by
  unfold effFence
  grind only [memGate_wf, updThread_wf, Out.Inv, Gate.Inv]

/-! ### Remote access -/

theorem writeLoc_wf {loc bs} (h : s.Inv) : (writeLoc s loc bs).Inv := ite_wf (homeWrite_wf h) (homeWrite_wf h)
theorem loseAt_wf {ep loc thread} (h : s.Inv) : (loseAt s ep loc thread).Inv := ite_wf (loseTreelet_wf h) h

theorem remoteCheck_wf {t o column addr align} (h : s.Inv) : optInv (fun x => x.Inv) (remoteCheck s t o column addr align) := by
  unfold remoteCheck
  grind only [memTrap_wf, Out.Inv, optInv]

theorem effGet_wf {o k t} (h : s.Inv) : (effGet o s k t).Inv := by
  unfold effGet
  grind only [loseAt_wf, memStart_wf, remoteCheck_wf, opRefused_wf, addOp_wf, passTo_wf, opReady_wf, memTrap_wf, sendRemote_wf, Out.Inv,
    Pass.Inv, optInv]

theorem effRatom_wf {o k t} (h : s.Inv) : (effRatom o s k t).Inv := by
  unfold effRatom
  grind only [loseAt_wf, memStart_wf, atomScratch_wf, remoteCheck_wf, opRefused_wf, updThread_wf, addOp_wf, passTo_wf, opReady_wf,
    memTrap_wf, releaseFor_wf, sendRemote_wf, Out.Inv, AtomResult.Inv, Pass.Inv, optInv]

theorem sendPending_wf {src d n step add} (h : s.Inv) : (sendPending s src d n step add).Inv := inject_wf h

theorem countBytes_wf {t n} (h : s.Inv) : (countBytes s t n).Inv := by
  unfold countBytes
  grind only [homeWrite_wf, sendPending_wf]

theorem putPayload_wf {k t o typ p f} (h : s.Inv) (hf : ∀ {u ep addr bs}, u.Inv → (f u ep addr bs).Inv) :
    (putPayload s k t o typ p f).Inv := by
  -- abstract, for the kernel would evaluate the places of the address map
  obtain ⟨place, hplace⟩ : ∃ f, scratchLoc = f := ⟨_, rfl⟩
  unfold putPayload
  rw [hplace]
  dsimp only
  refine ite_out (memTrap_wf h) (ite_out (memTrap_wf h) ?_)
  split
  · exact memTrap_wf h
  · split
    · grind only [optInv, remoteCheck_wf]
    · grind only [Pass.Inv, Out.Inv, countBytes_wf, loseAt_wf, opRefused_wf, addOp_wf, passTo_wf, memTrap_wf, releaseFor_wf, sendRemote_wf]

theorem effPut_wf {o k t} (h : s.Inv) : (effPut o s k t).Inv := by
  unfold effPut
  grind only [memStart_wf, writeLoc_wf, addOp_wf, opReady_wf, memTrap_wf, putPayload_wf, releaseFor_wf, Out.Inv]

theorem signalAt_wf {ep team priv addr add v} (h : s.Inv) : exceptInv (signalAt s ep team priv addr add v) := by
  unfold signalAt
  grind only [writeLoc_wf, exceptInv]

theorem effPuts_wf {o k t} (h : s.Inv) : (effPuts o s k t).Inv := by
  unfold effPuts
  lift_lets
  intro ep n sig v sendSignal
  have hs {u : State} {key : Nat} (hu : u.Inv) : (sendSignal u key).Inv := by
    have hp : (passTo u k t ep 1).Inv := passTo_wf hu
    dsimp only [sendSignal]
    split <;> rename_i e <;> rw [e] at hp
    · exact hp
    · exact send_wf (updOp_wf hp)
  split
  · exact ite_out (hs h) h
  · refine memStart_wf h fun {u t} hu => ite_out hu ?_
    generalize hr : putPayload u k t o 0x16 _ _ = r
    replace hr : r.Inv := by
      rw [← hr]
      refine putPayload_wf hu fun {w ep addr bytes} hw => ?_
      grind only [Out.Inv, exceptInv, writeLoc_wf, addOp_wf, opReady_wf, memTrap_wf, signalAt_wf, releaseFor_wf]
    split
    · split
      · exact ite_out (hs hr) hr
      · exact hr
    · exact hr

theorem refuse_wf {p code info thread op} (h : s.Inv) : (refuse s p code info thread op).Inv := reply_wf h

theorem homeAtomic_wf {p} (h : s.Inv) : optInv State.Inv (homeAtomic s p) := by
  unfold homeAtomic
  grind only [reply_wf, atomHome_wf, refuse_wf, inv_iff, optInv, AtomResult.Inv]

theorem homeFe_wf {p} (h : s.Inv) : optInv State.Inv (homeFe s p) := by
  unfold homeFe
  grind only [reply_wf, feArrive_wf, refuse_wf, count_wf, optInv, FeResult.Inv]

theorem execReqGet_wf (h : s.Inv) : outcomeInv (execReqGet s) := by
  unfold execReqGet
  grind only [loseAt_wf, reply_wf, arrive_wf, sink_wf, refuse_wf, outcomeInv, optInv]

theorem countOff_wf {ep pend n} (h : s.Inv) : (countOff s ep pend n).Inv := by
  unfold countOff
  grind only [sendPending_wf]

theorem leaveCounted_wf {thread op n} (h : s.Inv) : (leaveCounted s thread op n).Inv := h

theorem execReqPutPayload_wf (h : s.Inv) : outcomeInv (execReqPutPayload s) := by
  unfold execReqPutPayload
  grind only [reply_wf, leaveCounted_wf, writeLoc_wf, arrive_wf, countOff_wf, sink_wf, refuse_wf, outcomeInv, optInv]

theorem execReqPutsPayload_wf (h : s.Inv) : outcomeInv (execReqPutsPayload s) := by
  unfold execReqPutsPayload
  grind only [leaveCounted_wf, writeLoc_wf, arrive_wf, countOff_wf, sink_wf, refuse_wf, inv_iff, outcomeInv, optInv]

theorem execReqPutsSignal_wf (h : s.Inv) : outcomeInv (execReqPutsSignal s) := by
  unfold execReqPutsSignal
  grind only [reply_wf, leaveCounted_wf, arrive_wf, countOff_wf, sink_wf, refuse_wf, signalAt_wf, outcomeInv, exceptInv, optInv]

theorem execReqRatom_wf (h : s.Inv) : outcomeInv (execReqRatom s) := by
  refine arrive_wf h fun {u k p} hu => ?_
  grind only [AtomResult.Inv, optInv, inv_iff, loseAt_wf, reply_wf, atomScratch_wf, sink_wf, refuse_wf]

theorem pendingHome_wf {p} (h : s.Inv) : optInv State.Inv (pendingHome s p) := by
  unfold pendingHome
  grind only [recallLine_wf, testStep_wf, homeWrite_wf, event_wf, touchL2_wf, optInv]

theorem replyCounted_wf {k op} (h : s.Inv) : (replyCounted s k op).Inv := by
  unfold replyCounted
  grind only [updOp_wf, updTeam_wf, updCore_wf]

theorem dataArrives_wf {p} (h : s.Inv) : (dataArrives s p).Inv := by
  unfold dataArrives
  grind only [answerPiece_wf, replyCounted_wf, stepWalk_wf]

theorem refusalArrives_wf {p} (h : s.Inv) : (refusalArrives s p).Inv := by
  unfold refusalArrives
  grind only [updOp_wf, updDie_wf, farDone_wf, answerPiece_wf, replyCounted_wf, failPiece_wf, sendPending_wf]

/-! ### Barriers -/

theorem wakeBarrier_wf (h : s.Inv) : (wakeBarrier s).Inv := h

theorem effBara_wf {o k t} (h : s.Inv) : (effBara o s k t).Inv := by
  unfold effBara
  grind only [wakeBarrier_wf, memGate_wf, updThread_wf, updTeam_wf, Out.Inv, Gate.Inv]

theorem effBarw_wf {o k t} (h : s.Inv) : (effBarw o s k t).Inv := by
  unfold effBarw
  grind only [memGate_wf, Out.Inv, Gate.Inv]

theorem placeStep_wf {k t cls va go} (h : s.Inv) (hgo : ∀ {u x}, u.Inv → (go u x).Inv) : (placeStep s k t cls va go).Inv := by
  unfold placeStep
  grind only [placeGlobal_wf, memTrap_wf, Out.Inv, Placed.Inv]

theorem clearPolled_wf {ep pa} (h : s.Inv) : (clearPolled s ep pa).Inv := cleanOthers_wf (evictLine_wf h)

theorem effSstep_wf {o k t} (h : s.Inv) : (effSstep o s k t).Inv := by
  unfold effSstep
  grind only [memGate_wf, releaseAction_wf, startPieces_wf, placeStep_wf, waitIn_wf, memTrap_wf, Out.Inv, Gate.Inv]

theorem effSstepBind_wf {o k t} (h : s.Inv) : (effSstepBind o s k t).Inv := by
  unfold effSstepBind
  grind only [memGate_wf, startPieces_wf, clearPolled_wf, placeStep_wf, updThread_wf, waitIn_wf, Out.Inv, Gate.Inv]

theorem arriveStep_wf {p} (h : s.Inv) : (arriveStep s p).Inv := by
  unfold arriveStep
  grind only [recallLine_wf, updDie_wf, testStep_wf, State.write_wf, refuse_wf, touchL2_wf]

theorem execSstepArrivalAtHome_wf (h : s.Inv) : outcomeInv (execSstepArrivalAtHome s) := by
  unfold execSstepArrivalAtHome
  grind only [arriveStep_wf, arrive_wf, outcomeInv, optInv]

theorem queueKick_wf {ep asid root scope desc} (h : s.Inv) : optInv State.Inv (queueKick s ep asid root scope desc) := by
  unfold queueKick
  grind only [updCore_wf, optInv]

theorem effEngk_wf {o k t} (h : s.Inv) : (effEngk o s k t).Inv := by
  unfold effEngk
  grind only [queueKick_wf, memStart_wf, releaseAction_wf, addReady_wf, addOp_wf, memTrap_wf, Out.Inv, optInv]

theorem execKick_wf {hart asid desc} (h : s.Inv) : outcomeInv (execKick hart asid desc s) := by
  unfold execKick
  grind only [outcomeInv, queueKick_wf, optInv_getD]

theorem makeEngine_wf {ep asid root desc} (h : s.Inv) : (makeEngine s ep asid root desc).Inv := h

theorem readJob_wf {k t} (h : s.Inv) : (readJob s k t).Inv := by
  unfold readJob
  grind only [takeTrap_wf, startPieces_wf, updThread_wf, placeGlobal_wf, Out.Inv, Placed.Inv]

theorem beginJob_wf {k key data} (h : s.Inv) : (beginJob s k key data).Inv := h

theorem startJob_wf {ep} (h : s.Inv) : (startJob s ep).Inv := by
  unfold startJob
  dsimp only
  split
  · split
    · exact h
    · grind only [readJob_wf, makeEngine_wf, acquireAction_wf]
  · split
    · exact h
    split
    · exact h
    split
    · grind only [takeTrap_wf, readJob_wf, beginJob_wf, updThread_wf]
    · grind only [readJob_wf]

theorem startPoll_wf {k t o va cwait} (h : s.Inv) : (startPoll s k t o va cwait).Inv := by
  unfold startPoll
  grind only [startPieces_wf, clearPolled_wf, waitIn_wf, placeGlobal_wf, Out.Inv, Placed.Inv]

theorem effEngw_wf {o k t} (h : s.Inv) : (effEngw o s k t).Inv := memStart_wf h startPoll_wf

theorem pollAgain_wf {k key t va} (h : s.Inv) : (pollAgain s k key t va).Inv := by
  unfold pollAgain
  grind only [agentPlace_wf, updOp_wf, runPieces_wf, clearPolled_wf, opRefused_wf, Placing.Inv]

theorem pollTry_wf {k} (h : s.Inv) : (pollTry s k).Inv := by
  unfold pollTry
  grind only [takeTrap_wf, pollAgain_wf, updOp_wf, updThread_wf, acquireAction_wf]

theorem endEngine_wf {k t} (h : s.Inv) : (endEngine s k t).Inv := exitThread_wf h

theorem storeMailbox_wf {k t o box value scope} (h : s.Inv) : (storeMailbox s k t o box value scope).Inv := by
  unfold storeMailbox
  grind only [memGate_wf, startPieces_wf, updThread_wf, waitIn_wf, placeGlobal_wf, Out.Inv, Gate.Inv, Placed.Inv]

theorem effExit_wf {o k t} (h : s.Inv) : (effExit o s k t).Inv := by
  unfold effExit
  grind only [endEngine_wf, storeMailbox_wf, exitThread_wf, Out.Inv]

/-! ### Fetching clauses and starting them -/

theorem fetchWord_wf {k t va} (h : s.Inv) : (fetchWord s k t va).Inv := by
  unfold fetchWord
  grind only [startWalk_wf, updCore_wf, translate_wf, memTrap_wf, performHome_wf, Fetched.Inv, Out.Inv, Trans.Inv, optInv]

theorem fetchWords_wf {k t va n} (h : s.Inv) : (fetchWords s k t va n).Inv := by
  induction n generalizing s va with
  | zero => exact h
  | succ n ih =>
    unfold fetchWords
    grind only [Fetched.Inv, fetchWord_wf]

theorem startClause_wf {kind length setb seta wait header k} (h : s.Inv) : (startClause kind length setb seta wait header s k).Inv := by
  unfold startClause
  grind only [takeTrap_wf, fetchWords_wf, updThread_wf, waitIn_wf, yieldAt_wf, Fetched.Inv, Out.Inv]

theorem noInstr_wf {e w} (h : s.Inv) : (noInstr s e w).Inv := by
  unfold noInstr
  grind only [takeTrap_wf, updThread_wf, foldl_wf]

theorem readHeaders_wf {ks} (h : s.Inv) : (readHeaders s ks).1.Inv := by
  induction ks generalizing s with
  | nil => exact h
  | cons k ks ih =>
    have trapped {u x} (hu : u.Inv) : (readHeaders { takeTrap u k x with cur := (takeTrap u k x).cur.filter (fun j => j != k) } ks).1.Inv :=
      ih (takeTrap_wf hu)
    unfold readHeaders
    split
    · exact ih h
    · rename_i t _
      have hf : (fetchWord s k t t.pc.toNat).Inv := fetchWord_wf h
      dsimp only
      split
      · exact trapped h
      · split <;> rename_i e <;> rw [e] at hf
        · exact ih (waitIn_wf hf)
        · exact trapped hf
        · exact ih h
        · split
          · exact trapped hf
          · exact ih hf
        · exact ih hf

theorem chosen_wf (h : s.Inv) : (chosen s).Inv := by
  unfold chosen
  grind only [readHeaders_wf, noInstr_wf, Chosen.Inv, optInv]

end Sys2Proof.MemoryLaws
end

section
/-! PROOFS. The memory stays canonical under tile tasks, row instructions and the ray units. -/

namespace Sys2Proof.MemoryLaws

open Sys2Proof Sys2Proof.Machine Sys2Proof.Claims

variable {s : State}

/-! ### Tile instructions, opcodes 0x80 to 0x8F -/

theorem updTile_wf {m i f} (h : s.Inv) : (updTile s m i f).Inv := h
theorem tileTrap_wf {m i t} (h : s.Inv) : (tileTrap s m i t).Inv := h

theorem withLender_wf {op o t go limits} (h : s.Inv) (hgo : ∀ {u x}, (go u x).Inv) : (withLender op o s t go limits).Inv := by
  unfold withLender
  grind only [Out.Inv]

theorem acceptTask_wf {team space record prio priv source index entry hint} (h : s.Inv) :
    (acceptTask s team space record prio priv source index entry hint).Inv :=
  h

theorem nextIndex_wf {k} (h : s.Inv) : (nextIndex s k).1.Inv := by
  unfold nextIndex
  grind only [updThread_wf]

theorem acceptFor_wf {k t lender record source hint} (h : s.Inv) : (acceptFor s k t lender record source hint).Inv :=
  ite_wf (nextIndex_wf h) h

theorem buildTask_wf {op o mk k t} (h : s.Inv) : (buildTask op o mk s k t).Inv := by
  unfold buildTask
  grind only [withLender_wf, memStart_wf, addReady_wf, tileTrap_wf, acceptFor_wf, Out.Inv]

theorem readFor_wf {k t o token extra addr align ranges} (h : s.Inv) : (readFor s k t o token extra addr align ranges).Inv := by
  unfold readFor
  grind only [startPieces_wf, opRefused_wf, loseTreelet_wf, placePieces_wf, addOp_wf, opReady_wf, memTrap_wf, Out.Inv, Placed.Inv]

theorem effTenq_wf {o k t} (h : s.Inv) : (effTenq o s k t).Inv := by
  unfold effTenq
  grind only [withLender_wf, memStart_wf, readFor_wf, Out.Inv]

theorem effTcb_wf {o k t} (h : s.Inv) : (effTcb o s k t).Inv := by
  unfold effTcb
  grind only [withLender_wf, memStart_wf, readFor_wf, Out.Inv]

theorem effTbld_wf {o k t} (h : s.Inv) : (effTbld o s k t).Inv := by
  unfold effTbld
  grind only [withLender_wf, memStart_wf, readFor_wf, Out.Inv]

theorem writeColumn_wf {m j off bs} (h : s.Inv) : (writeColumn s m j off bs).Inv := homeWrite_wf h

theorem endTenq_wf {closed k key t p record} (h : s.Inv) (hclosed : closed.Inv) : (endTenq s closed k key t p record).Inv := by
  unfold endTenq
  grind only [updThread_wf, acceptFor_wf]

theorem endTcb_wf {closed k key t p data} (h : s.Inv) (hclosed : closed.Inv) : (endTcb s closed k key t p data).Inv := by
  unfold endTcb
  grind only [updTeam_wf]

theorem endTbld_wf {closed k key p data} (h : s.Inv) (hclosed : closed.Inv) : (endTbld s closed k key p data).Inv := by
  unfold endTbld
  grind only [writeColumn_wf, opRefused_wf, foldl_wf]

theorem effTwait_wf {o k t} (h : s.Inv) : (effTwait o s k t).Inv := by
  unfold effTwait
  grind only [withLender_wf, updTeam_wf, tileTrap_wf, yieldAt_wf, Out.Inv]

theorem effTver_wf {o k t} (h : s.Inv) : (effTver o s k t).Inv := by
  unfold effTver
  grind only [withLender_wf, updThread_wf, tileTrap_wf, Out.Inv]

theorem effTcoef_wf {o k t} (h : s.Inv) : (effTcoef o s k t).Inv := by
  unfold effTcoef
  grind only [withLender_wf, updTeam_wf, Out.Inv]

theorem effTcoefGet_wf {o k t} (h : s.Inv) : (effTcoefGet o s k t).Inv := by
  unfold effTcoefGet
  grind only [withLender_wf, updThread_wf, Out.Inv]

theorem applyTwmma_wf {o ks} (h : s.Inv) : (applyTwmma o s ks).Inv := by
  unfold applyTwmma
  grind only [foldl_wf, foldl_fst_wf, takeTrap_wf, updCore_wf, addOp_wf]

theorem runTwmma_wf {o} (h : s.Inv) : (runTwmma o s).Inv := runWide_wf applyTwmma_wf (foldl_wf waitIn_wf h)

/-! ### Accesses that an agent of a core makes for itself, without a thread -/

theorem freeBytes_wf {use n} (h : s.Inv) : (freeBytes s use n).2.Inv := by
  unfold freeBytes
  grind only [inv_iff]

theorem askRead_wf {ep pa n hint} (h : s.Inv) : (askRead s ep pa n hint).Inv := send_wf h
theorem readAnswered_wf {ep seq r} (h : s.Inv) : (readAnswered s ep seq r).Inv := h
theorem dropReads_wf {ep} (h : s.Inv) : (dropReads s ep).Inv := h

theorem serveAgent_wf {ep pa hint a} (h : s.Inv) : (serveAgent s ep pa hint a).Inv := by
  unfold serveAgent
  grind only [performL1_wf, dropHint_wf, nextHint_wf, Found.Inv]

theorem agentLine_wf {ep pa hint a va} (h : s.Inv) : (agentLine s ep pa hint a va).Inv := by
  unfold agentLine
  grind only [serveMiss_wf, sendLineHome_wf, askRead_wf, updCore_wf, serveAgent_wf, perfCount_wf, Found.Inv]

theorem agentAnswer_wf {ep pa hint n va} (h : s.Inv) : (agentAnswer s ep pa hint n va).Inv := by
  unfold agentAnswer
  grind only [askRead_wf, updCore_wf, Found.Inv]

theorem agentLoad_wf {ep pa e va n hint} (h : s.Inv) : (agentLoad s ep pa e va n hint).Inv := by
  unfold agentLoad
  grind only [serveMiss_wf, agentAnswer_wf, serveAgent_wf, agentLine_wf, performHome_wf, Found.Inv, optInv]

theorem agentSave_wf {ep pa e va bs hint} (h : s.Inv) : (agentSave s ep pa e va bs hint).Inv := by
  unfold agentSave
  grind only [serveMiss_wf, sendFar_wf, serveAgent_wf, agentLine_wf, performHome_wf, Found.Inv, optInv]

theorem agentReads_wf {ep asid root priv hint l} (h : s.Inv) : (agentReads s ep asid root priv hint l).Inv := by
  induction l generalizing s with
  | nil => exact h
  | cons x rest ih =>
    unfold agentReads
    grind only [Found.Inv, Placing.Inv, agentPlace_wf, agentLoad_wf]

theorem agentRead_wf {ep asid root priv ranges hint} (h : s.Inv) : (agentRead s ep asid root priv ranges hint).Inv := agentReads_wf h

theorem agentPlaces_wf {ep asid root priv l} (h : s.Inv) : (agentPlaces s ep asid root priv l).Inv := by
  induction l generalizing s with
  | nil => exact h
  | cons x rest ih =>
    unfold agentPlaces
    grind only [Found.Inv, Placing.Inv, agentPlace_wf]

theorem agentWrite_wf {ep asid root priv va bs hint} (h : s.Inv) : (agentWrite s ep asid root priv va bs hint).Inv := by
  have hp : (agentPlaces s ep asid root priv (cutLines va bs.length)).Inv := agentPlaces_wf h
  unfold agentWrite
  dsimp only
  split
  · rename_i s1 _ he
    rw [he] at hp
    refine foldl_keeps (P := fun a : Found × Nat => a.1.Inv) hp _ _ fun a r ha => ?_
    grind only [Found.Inv, Placing.Inv, agentPlace_wf, agentSave_wf]
  · exact hp

/-! ### Tile tasks on the array -/

theorem updTask_wf {ep key f} (h : s.Inv) : (updTask s ep key f).Inv := h

theorem startTask_wf {ep} (h : s.Inv) : (startTask s ep).Inv := by
  unfold startTask
  grind only [updTile_wf, updTask_wf]

theorem taskRead_wf {ep x ranges} (h : s.Inv) : (taskRead s ep x ranges).Inv := by
  unfold taskRead
  grind only [loseTreelet_wf, agentRead_wf, Stepped.Inv, Found.Inv]

theorem taskWrite_wf {ep x addr bs} (h : s.Inv) : (taskWrite s ep x addr bs).Inv := by
  unfold taskWrite
  grind only [writeLoc_wf, agentWrite_wf, Stepped.Inv, Found.Inv]

theorem rowsOfA_wf {ep x c} (h : s.Inv) : (rowsOfA s ep x c).Inv := by
  unfold rowsOfA
  grind only [taskRead_wf, Stepped.Inv]

theorem columnsOfB_wf {x c} (h : s.Inv) : (columnsOfB s x c).Inv := by
  unfold columnsOfB
  grind only [Stepped.Inv]

theorem setElems_wf {x v} (h : s.Inv) : (setElems s x v).Inv := h

theorem stepMma_wf {ep x} (h : s.Inv) : (stepMma s ep x).Inv := by
  unfold stepMma
  grind only [columnsOfB_wf, rowsOfA_wf, setElems_wf, Stepped.Inv]

theorem stepFeed_wf {x} (h : s.Inv) : (stepFeed s x).Inv := by
  unfold stepFeed
  grind only [columnsOfB_wf, setElems_wf, Stepped.Inv]

theorem stepRow_wf {ep x} (h : s.Inv) : (stepRow s ep x).Inv := by
  unfold stepRow
  grind only [taskRead_wf, taskWrite_wf, setElems_wf, Stepped.Inv]

theorem stepTrn_wf {x} (h : s.Inv) : (stepTrn s x).Inv := by
  unfold stepTrn
  grind only [writeColumn_wf, foldl_wf, Stepped.Inv]

theorem stepZero_wf {x} (h : s.Inv) : (stepZero s x).Inv := by
  unfold stepZero
  grind only [updTile_wf, Stepped.Inv]

theorem stepPoly_wf {x} (h : s.Inv) : (stepPoly s x).Inv := by
  unfold stepPoly
  grind only [setElems_wf, Stepped.Inv]

theorem iterGo_wf {x phase} (h : s.Inv) : (iterGo s x phase).Inv := by
  unfold iterGo
  grind only [updTile_wf, Stepped.Inv]

theorem iterStop_wf {x status} (h : s.Inv) : (iterStop s x status).Inv := by
  unfold iterStop
  grind only [updTile_wf, Stepped.Inv]

theorem stepIter_wf {x} (h : s.Inv) : (stepIter s x).Inv := by
  have branch {c : Prop} [Decidable c] {a b : StepEnd} (ha : a.Inv) (hb : b.Inv) : (if c then a else b).Inv := by split <;> assumption
  have hu {f} : (updTile s (s.team x.team) (trTile x.record) f).Inv := updTile_wf h
  have hv {p f} : (updTile (setElems s x p) (s.team x.team) (trTile x.record) f).Inv := updTile_wf (setElems_wf h)
  unfold stepIter
  refine branch (iterGo_wf (State.foldl_wf _ _ (fun u j hu => writeColumn_wf hu) h)) (branch ?_ (branch ?_ (branch ?_ ?_)))
  · dsimp only
    split
    · exact h
    · exact iterGo_wf h
  · exact branch (iterStop_wf hu) (branch (iterStop_wf hu) (iterGo_wf hu))
  · exact branch (iterGo_wf h) (iterGo_wf h)
  · exact branch (iterStop_wf hv) (iterGo_wf hv)

theorem taskStep_wf {ep x} (h : s.Inv) : (taskStep s ep x).Inv := by
  unfold taskStep
  grind only [stepTrn_wf, stepZero_wf, stepFeed_wf, stepRow_wf, stepIter_wf, stepPoly_wf, stepMma_wf, Stepped.Inv]

theorem commitExc_wf {ep e} (h : s.Inv) : (commitExc s ep e).Inv := ite_wf h (foldl_wf (fun h1 => ite_wf h1 h1) h)
theorem reportFault_wf {ep x code info version} (h : s.Inv) : (reportFault s ep x code info version).Inv := h

theorem dropTask_wf {ep key x places} (h : s.Inv) : (dropTask s ep key x places).Inv := by
  unfold dropTask
  grind only [updCore_wf, updPkg_wf, sendNotices_wf, dropEntry_wf]

theorem commitOnce_wf {ep x excs} (h : s.Inv) : (commitOnce s ep x excs).Inv := by
  unfold commitOnce
  grind only [updPkg_wf, commitExc_wf]

theorem finishTask_wf {ep key x} (h : s.Inv) : (finishTask s ep key x).Inv := by
  unfold finishTask
  grind only [dropTask_wf, commitOnce_wf, updTile_wf, updTask_wf, reportFault_wf, perfCount_wf, foldl_wf]

theorem shawmStep_wf {ep} (h : s.Inv) : (shawmStep s ep).Inv := by
  unfold shawmStep
  grind only [updTile_wf, taskStep_wf, updTask_wf, finishTask_wf, dropReads_wf, perfCount_wf, Stepped.Inv]

theorem writeTarget_wf {ep x version pa e} (h : s.Inv) : (writeTarget s ep x version pa e).Inv := by
  unfold writeTarget
  grind only [sendFar_wf, releaseAction_wf, clearIsland_wf, atomHome_wf, logAtHome_wf, agentSave_wf, Found.Inv, AtomResult.Inv]

theorem payTarget_wf {ep key x version} (h : s.Inv) : (payTarget s ep key x version).Inv := by
  unfold payTarget
  grind only [agentPlace_wf, dropTask_wf, writeTarget_wf, event_wf, Found.Inv, Placing.Inv]

theorem completeTask_wf {ep} (h : s.Inv) : (completeTask s ep).Inv := by
  unfold completeTask
  grind only [payTarget_wf, finishTask_wf]

theorem waveLost_wf {k key info} (h : s.Inv) : (waveLost s k key info).Inv := by
  unfold waveLost
  grind only [takeTrap_wf, updThread_wf, forgetThread_wf, event_wf]

theorem runWave_wf {ep} (h : s.Inv) : (runWave s ep).Inv := by
  unfold runWave
  grind only [completeOp_wf, updCore_wf, opReady_wf, commitExc_wf, waveLost_wf, foldl_wf]

theorem unreachableVersion_wf {team} (h : s.Inv) : (unreachableVersion s team).Inv := by
  unfold unreachableVersion
  grind only [takeTrap_wf, updCore_wf, event_wf, foldl_wf]

/-! ### Row instructions, opcodes 0x90 to 0x99 -/

theorem setRow_wf {m v ws} (h : s.Inv) : (setRow s m v ws).Inv := h

theorem withRows_wf {rows go k t} (hgo : ∀ {u x y}, u.Inv → (go u x y).Inv) (h : s.Inv) : (withRows rows go s k t).Inv := by
  unfold withRows
  grind only [tileTrap_wf, Out.Inv]

theorem rowFlags_wf {k r} (h : s.Inv) : (rowFlags s k r).Inv := h
theorem rowOp_wf {o srcs f k t} (h : s.Inv) : (rowOp o srcs f s k t).Inv := withRows_wf id h
theorem effVadd_wf {o k t} (h : s.Inv) : (effVadd o s k t).Inv := rowOp_wf h
theorem effVmul_wf {o k t} (h : s.Inv) : (effVmul o s k t).Inv := rowOp_wf h
theorem effVfma_wf {o k t} (h : s.Inv) : (effVfma o s k t).Inv := rowOp_wf h
theorem effVmax_wf {o k t} (h : s.Inv) : (effVmax o s k t).Inv := rowOp_wf h
theorem effVmin_wf {o k t} (h : s.Inv) : (effVmin o s k t).Inv := rowOp_wf h
theorem effVexp_wf {o k t} (h : s.Inv) : (effVexp o s k t).Inv := rowOp_wf h
theorem effVred_wf {o k t} (h : s.Inv) : (effVred o s k t).Inv := withRows_wf id h
theorem effVbcast_wf {o k t} (h : s.Inv) : (effVbcast o s k t).Inv := withRows_wf id h
theorem effVmovRow_wf {o k t} (h : s.Inv) : (effVmovRow o s k t).Inv := withRows_wf id h
theorem effVmovGet_wf {o k t} (h : s.Inv) : (effVmovGet o s k t).Inv := withRows_wf id h
theorem effVmovPut_wf {o k t} (h : s.Inv) : (effVmovPut o s k t).Inv := withRows_wf id h

theorem effVcvt_wf {o k t} (h : s.Inv) : (effVcvt o s k t).Inv := by
  unfold effVcvt
  grind only [withRows_wf, setRow_wf, rowFlags_wf, Out.Inv]

/-! ### The box and triangle units, the route cache and residency -/

theorem unitRead_wf {k t o unit n align go} (h : s.Inv) (hgo : ∀ {u x}, u.Inv → (go u x).Inv) : (unitRead s k t o unit n align go).Inv := by
  unfold unitRead
  grind only [opRefused_wf, loseTreelet_wf, addOp_wf, perfCount_wf, memTrap_wf, Out.Inv]

theorem unitStart_wf {k t o go} (h : s.Inv) (hgo : ∀ {u}, u.Inv → (go u).Inv) : (unitStart s k t o go).Inv := by
  unfold unitStart
  grind only [memStart_wf, Out.Inv]

theorem effBoxt_wf {o k t} (h : s.Inv) : (effBoxt o s k t).Inv := by
  unfold effBoxt
  grind only [freeBytes_wf, addReady_wf, opRefused_wf, addOp_wf, unitRead_wf, unitStart_wf, inv_iff, Out.Inv]

theorem effTrit_wf {o k t} (h : s.Inv) : (effTrit o s k t).Inv :=
  unitStart_wf h (fun h1 => unitRead_wf h1 (fun h2 => ite_out (addReady_wf (freeBytes_wf h2)) (addReady_wf h2)))

theorem effTlook_wf {o k t} (h : s.Inv) : (effTlook o s k t).Inv := by
  unfold effTlook
  grind only [addReady_wf, updCore_wf, Out.Inv]

theorem askResidency_wf {o request k t} (h : s.Inv) : (askResidency o request s k t).Inv := ite_out h (send_wf (addOp_wf h))
theorem effResid_wf {o k t} (h : s.Inv) : (effResid o s k t).Inv := askResidency_wf h
theorem effResidReq_wf {o k t} (h : s.Inv) : (effResidReq o s k t).Inv := askResidency_wf h

end Sys2Proof.MemoryLaws
end

section
/-! PROOFS. The memory stays canonical under records, collectives, system instructions, teams, slices and registers. -/

namespace Sys2Proof.MemoryLaws

open Sys2Proof Sys2Proof.Machine Sys2Proof.Claims

variable {s : State}

/-! ### Enqueues and records -/

theorem nextId_wf {k t} (h : s.Inv) : (nextId s k t).2.Inv := by
  unfold nextId
  grind only [updThread_wf, updCore_wf]

theorem payloadOf_wf {k t o n} (h : s.Inv) : (payloadOf s k t o n).Inv := by
  unfold payloadOf
  grind only [opRefused_wf, loseTreelet_wf, addOp_wf, memTrap_wf, Out.Inv, Payload.Inv]

theorem sendEnqueue_wf {k t p dst0 flits mk} (h : s.Inv) : (sendEnqueue s k t p dst0 flits mk).Inv := by
  unfold sendEnqueue
  grind only [releaseAction_wf, opRefused_wf, takeAllowance_wf, updThread_wf, nextId_wf, addOp_wf, send_wf, Out.Inv, Pass.Inv]

theorem rayRedirected_wf {src dst ray} (h : s.Inv) : (rayRedirected s src dst ray).Inv := ite_wf h h

theorem redirectRay_wf {src dst ray} (h : s.Inv) : (redirectRay s src dst ray).2.Inv := by
  unfold redirectRay
  grind only [rayRedirected_wf]

theorem effRaysend_wf {o k t} (h : s.Inv) : (effRaysend o s k t).Inv := by
  unfold effRaysend
  grind only [memStart_wf, sendEnqueue_wf, redirectRay_wf, payloadOf_wf, Out.Inv, Payload.Inv]

theorem effSendTo_wf {typ o k t} (h : s.Inv) : (effSendTo typ o s k t).Inv := by
  refine memStart_wf h fun {u t} hu => ?_
  grind only [sendEnqueue_wf, payloadOf_wf, Payload.Inv]

theorem effHitq_wf {o k t} (h : s.Inv) : (effHitq o s k t).Inv := effSendTo_wf h
theorem effSend_wf {o k t} (h : s.Inv) : (effSend o s k t).Inv := effSendTo_wf h

theorem ownDelivery_wf {k t p r data} (h : s.Inv) (hr : r.Inv) : (ownDelivery s k t p r data).Inv := by
  unfold ownDelivery
  grind only [addReady_wf, memTrap_wf, Delivery.Inv, Out.Inv]

theorem queueRecord_wf {op held o k t} (h : s.Inv) : (queueRecord op held o s k t).Inv := by
  unfold queueRecord
  grind only [memStart_wf, sendEnqueue_wf, deliverRecord_wf, ownDelivery_wf, updThread_wf, nextId_wf, payloadOf_wf, Out.Inv, Delivery.Inv,
    Payload.Inv]

theorem effRecq_wf {o k t} (h : s.Inv) : (effRecq o s k t).Inv := queueRecord_wf h
theorem effRecqHeld_wf {o k t} (h : s.Inv) : (effRecqHeld o s k t).Inv := queueRecord_wf h

theorem effRecj_wf {o k t} (h : s.Inv) : (effRecj o s k t).Inv := by
  unfold effRecj
  grind only [memStart_wf, sendEnqueue_wf, ownDelivery_wf, updThread_wf, nextId_wf, joinHeld_wf, Out.Inv, Delivery.Inv]

theorem effRque_wf {o k t} (h : s.Inv) : (effRque o s k t).Inv := by
  unfold effRque
  grind only [memGate_wf, acceptEntry_wf, nextId_wf, updQueue_wf, memTrap_wf, exitThread_wf, Out.Inv, Gate.Inv]

theorem dropStale_wf {ep n} (h : s.Inv) : (dropStale s ep n).Inv := by
  induction n generalizing s with
  | zero => exact h
  | succ n ih =>
    unfold dropStale
    grind only [takeGone_wf]

theorem effRecv_wf {o k t} (h : s.Inv) : (effRecv o s k t).Inv := by
  unfold effRecv
  grind only [memGate_wf, dropStale_wf, updThread_wf, acquireAction_wf, takeGone_wf, yieldAt_wf, Out.Inv, Gate.Inv]

theorem effAbind_wf {o k t} (h : s.Inv) : (effAbind o s k t).Inv := by
  unfold effAbind
  grind only [updThread_wf, allowEntry_wf, Out.Inv, optInv]

theorem sinkPacket_wf {p} (h : s.Inv) : (sinkPacket s p).Inv := ite_wf (sink_wf h) h

theorem answerSender_wf {p thread op r data} (h : s.Inv) (hr : r.Inv) : optInv State.Inv (answerSender s p thread op r data) := by
  unfold answerSender
  grind only [reply_wf, sinkPacket_wf, refuse_wf, Delivery.Inv, optInv]

theorem entryArrives_wf {q p} (h : s.Inv) : optInv State.Inv (entryArrives q s p) := by
  unfold entryArrives
  grind only [deliver_wf, answerSender_wf, optInv, Delivery.Inv]

theorem recordArrives_wf {p} (h : s.Inv) : optInv State.Inv (recordArrives s p) := by
  unfold recordArrives
  grind only [deliverRecord_wf, answerSender_wf, optInv, Delivery.Inv]

theorem execRecjArrival_wf (h : s.Inv) : outcomeInv (execRecjArrival s) := by
  unfold execRecjArrival
  grind only [arrive_wf, joinHeld_wf, answerSender_wf, outcomeInv, Delivery.Inv, optInv]

theorem countDirect_wf {ep id p} (h : s.Inv) : (countDirect s ep id p).Inv := ite_wf h (ite_wf (ctl_wf h) h)

theorem returnRay_wf {ep origin bs prio attempt deriv parent thread op} (h : s.Inv) :
    (returnRay s ep origin bs prio attempt deriv parent thread op).Inv :=
  inject_wf h

theorem rayArrives_back_wf {p bs prio thread op} (h : s.Inv) : (rayArrives.back s p bs prio thread op).Inv := sinkPacket_wf (returnRay_wf h)

theorem rayArrives_wf {p} (h : s.Inv) : optInv State.Inv (rayArrives s p) := by
  unfold rayArrives
  grind only [updCore_wf, perfCount_wf, rayArrives_back_wf, deliver_wf, answerSender_wf, countDirect_wf, inv_iff, optInv, Delivery.Inv]

/-! ### Views and collectives -/

theorem updDomain_wf {dom f} (h : s.Inv) : (updDomain s dom f).Inv := h

theorem effCred_wf {o k t} (h : s.Inv) : (effCred o s k t).Inv := by
  unfold effCred
  grind only [memStart_wf, sendEnqueue_wf, opRefused_wf, loseTreelet_wf, addOp_wf, memTrap_wf, Out.Inv]

theorem forwardBlock_wf {gw core b} (h : s.Inv) : (forwardBlock s gw core b).Inv := inject_wf h

theorem takeBlock_wf {gw b} (h : s.Inv) : (takeBlock s gw b).Inv := by
  unfold takeBlock
  grind only [updDomain_wf, forwardBlock_wf]

theorem blockArrives_wf {p} (h : s.Inv) : optInv State.Inv (blockArrives s p) := by
  unfold blockArrives
  grind only [reply_wf, takeBlock_wf, corrected_wf, updPkg_wf, deliver_wf, refuse_wf, optInv, Delivery.Inv]

theorem effBlkq_wf {o k t} (h : s.Inv) : (effBlkq o s k t).Inv := by
  unfold effBlkq
  grind only [memStart_wf, updDomain_wf, addReady_wf, forwardBlock_wf, foldl_wf, Out.Inv]

theorem effBaddq_wf {o k t} (h : s.Inv) : (effBaddq o s k t).Inv := by
  have hg : (memGate s k t false false).Inv := memGate_wf h
  unfold effBaddq
  split <;> rename_i e <;> rw [e] at hg
  · exact hg
  · dsimp only
    split
    · exact hg
    · refine ite_out hg (ite_out hg ?_)
      split
      · exact hg
      · exact hg
      · split
        · exact loseTreelet_wf hg
        · split
          · exact hg
          · exact ite_out hg (updThread_wf (writeLoc_wf hg))

theorem effCwait_wf {o k t} (h : s.Inv) : (effCwait o s k t).Inv := by
  unfold effCwait
  grind only [memStart_wf, startPoll_wf, Out.Inv]

theorem execCreditReturn_wf (h : s.Inv) : outcomeInv (execCreditReturn s) := by
  unfold execCreditReturn
  grind only [arrive_wf, updCore_wf, outcomeInv, optInv]

theorem returnCredits_wf {core src} (h : s.Inv) : (returnCredits s core src).Inv := by
  unfold returnCredits
  grind only [ctl_wf, updCore_wf]

theorem noteUnits_wf {p} (h : s.Inv) : (noteUnits s p).Inv := by
  unfold noteUnits
  grind only [updSlice_wf]

theorem wakeLogged_wf {ep} (h : s.Inv) : (wakeLogged s ep).Inv := foldl_wf id h

theorem execRetireNotice_wf (h : s.Inv) : outcomeInv (execRetireNotice s) := by
  unfold execRetireNotice
  grind only [arrive_wf, noteUnits_wf, purge_wf, wakeLogged_wf, outcomeInv, optInv]

/-! ### The system instructions 0xC0 to 0xC8 -/

theorem haltTeam_wf {team} (h : s.Inv) : (haltTeam s team).Inv := foldl_wf id h
theorem effBrk_wf {k t} (h : s.Inv) : (effBrk s k t).Inv := ite_out (ite_wf (haltTeam_wf h) h) h
theorem effCswap_wf {o k t} (h : s.Inv) : (effCswap o s k t).Inv := ite_out h (ite_out h h)
theorem restartWalks_wf {die} (h : s.Inv) : (restartWalks s die).Inv := foldl_wf (fun h1 => queueWalk_wf h1) h

theorem invalidate_wf {dies hit} (h : s.Inv) : (invalidate s dies hit).1.Inv := by
  unfold invalidate
  grind only [restartWalks_wf, updDie_wf, foldl_wf, inv_iff]

theorem effTlbi_wf {o k t} (h : s.Inv) : (effTlbi o s k t).Inv :=
  memStart_wf h (fun h1 => ite_out (releaseAction_wf h1) (addOp_wf (invalidate_wf (releaseAction_wf h1))))
theorem loadSchedule_wf {first data} (h : s.Inv) : (loadSchedule s first data).Inv := foldl_wf id h
theorem effEschedLoad_wf {o k t} (h : s.Inv) : (effEschedLoad o s k t).Inv :=
  ite_out h (memStart_wf h (fun h1 => ite_out h1 (readFor_wf h1)))
theorem schedNow_wf {f o k t} (h : s.Inv) : (schedNow f o s k t).Inv := memStart_wf h (fun h1 => ite_out h1 (addReady_wf h1))
theorem effEschedStep_wf {o k t} (h : s.Inv) : (effEschedStep o s k t).Inv := schedNow_wf h
theorem effEschedAdv_wf {o k t} (h : s.Inv) : (effEschedAdv o s k t).Inv := schedNow_wf h
theorem effEschedClr_wf {o k t} (h : s.Inv) : (effEschedClr o s k t).Inv := schedNow_wf h
theorem recordTeam_wf {ep b slot place} (h : s.Inv) : (recordTeam s ep b slot place).Inv := startScratch_wf h
theorem clearIcaches_wf {dies} (h : s.Inv) : (clearIcaches s dies).Inv := h

theorem bindQueue_wf {r} (h : s.Inv) : (bindQueue s r).Inv := by
  unfold bindQueue
  grind only [clearIcaches_wf, updQueue_wf, recordTeam_wf, inv_iff, Bound.Inv]

theorem effMapq_wf {o k t} (h : s.Inv) : (effMapq o s k t).Inv := memStart_wf h readFor_wf

theorem endMapq_wf {k t p image} (h : s.Inv) : (endMapq s k t p image).Inv := by
  unfold endMapq
  grind only [bindQueue_wf, updThread_wf, Bound.Inv]

theorem effClkSync_wf {o k t} (h : s.Inv) : (effClkSync o s k t).Inv := by
  unfold effClkSync
  grind only [memGate_wf, updThread_wf, Out.Inv, Gate.Inv]

theorem effClkWait_wf {o k t} (h : s.Inv) : (effClkWait o s k t).Inv := ite_out h (ite_out (yieldAt_wf h) h)

theorem clockExpiry_wf {k} (h : s.Inv) : (clockExpiry s k).Inv := by
  unfold clockExpiry
  grind only [goPast_wf]

theorem endOp_wf {k key} (h : s.Inv) : (endOp s k key).Inv := by
  unfold endOp
  grind only [completeOp_wf, endWait_wf, updThread_wf, forgetThread_wf, endMapq_wf, endTenq_wf, endTcb_wf, endTbld_wf, loadSchedule_wf]

/-! ### Placing and retiring teams -/

theorem admitTeam_wf {grid} (h : s.Inv) : (admitTeam s grid).Inv := by
  unfold admitTeam
  grind only [startTeam_wf, inv_iff]

theorem startCluster_wf {grid} (h : s.Inv) : (startCluster s grid).Inv := by
  unfold startCluster
  grind only [startTeam_wf, foldl_wf, inv_iff]

theorem retireDone_wf {k} (h : s.Inv) : (retireDone s k).Inv := by
  unfold retireDone
  grind only [retireTeam_wf]

theorem freeGid_wf (h : s.Inv) : (freeGid s).2.Inv := by
  unfold freeGid
  grind only [inv_iff]

theorem wakeRecordTeam_wf {ep team} (h : s.Inv) : (wakeRecordTeam s ep team).Inv := h

theorem startRecord_wf {ep q team k e} (h : s.Inv) : (startRecord s ep q team k e).Inv := by
  unfold startRecord
  grind only [acquireAction_wf, takeGone_wf, wakeRecordTeam_wf, takeLive_wf, returnRay_wf, freeGid_wf, inv_iff]

theorem startNext_wf {ep} (h : s.Inv) : (startNext s ep).Inv := by
  unfold startNext
  grind only [startRecord_wf]

theorem formWave_wf {ep team} (h : s.Inv) : (formWave s ep team).Inv := by
  unfold formWave
  grind only [foldl_wf, foldl_fst_wf, inv_iff, acquireAction_wf, wakeRecordTeam_wf, takeLive_wf, freeGid_wf]

theorem waveIf_wf {ep cond} (h : s.Inv) : (waveIf s ep cond).Inv := by
  unfold waveIf
  grind only [formWave_wf]

theorem discardRecord_wf {ep k e cls code} (h : s.Inv) : (discardRecord s ep k e cls code).Inv := sendNotices_wf (takeGone_wf h)

theorem dispatchTask_wf {ep} (h : s.Inv) : (dispatchTask s ep).Inv := by
  have hr {scope asid root priv l} : (agentRead (acquireAction s ep scope) ep asid root priv l 0).Inv := agentRead_wf (acquireAction_wf h)
  unfold dispatchTask
  dsimp only
  split
  · exact h
  split
  · grind only [Found.Inv, acceptTask_wf, agentRead_wf, acquireAction_wf, dropReads_wf, discardRecord_wf, takeLive_wf]
  · exact h

theorem raiseRequest_wf {team cause} (h : s.Inv) : (raiseRequest s team cause).Inv := by
  unfold raiseRequest
  grind only [updTeam_wf, checkYielded_wf, inv_iff]

theorem forceTeam_wf {team} (h : s.Inv) : (forceTeam s team).Inv := by
  unfold forceTeam
  grind only [updTeam_wf, perfCount_wf, count_wf, inv_iff]

theorem saved_wf {team ctx} (h : s.Inv) : (saved s team ctx).Inv := h

theorem writeSave_wf {m} (h : s.Inv) : (writeSave s m).Inv := by
  unfold writeSave
  grind only [Found.Inv, foldl_found_wf, freeBytes_wf, agentPlaces_wf, agentWrite_wf]

theorem completeSave_wf {team} (h : s.Inv) : (completeSave s team).Inv := by
  unfold completeSave
  grind only [updTeam_wf, writeSave_wf, saved_wf, Found.Inv]

theorem restoreTeam_wf {team} (h : s.Inv) : (restoreTeam s team).Inv := by
  unfold restoreTeam
  grind only [updTeam_wf, checkShadow_wf, inv_iff]

theorem preemptFor_wf {ep} (h : s.Inv) : (preemptFor s ep).Inv := by
  unfold preemptFor
  grind only [raiseRequest_wf, foldl_wf]

theorem execPreemptionRequestMessage_wf (h : s.Inv) : outcomeInv (execPreemptionRequestMessage s) := by
  unfold execPreemptionRequestMessage
  grind only [raiseRequest_wf, arrive_wf, foldl_wf, outcomeInv, optInv]

theorem swapDecision_wf {ep} (h : s.Inv) : (swapDecision s ep).Inv := ite_wf h h
theorem completeSwap_wf {ep} (h : s.Inv) : (completeSwap s ep).Inv :=
  ite_wf h (ite_wf (checkShadow_wf (perfCount_wf h)) (checkShadow_wf (perfCount_wf h)))

theorem fairnessExpiry_wf {g} (h : s.Inv) : (fairnessExpiry s g).Inv := by
  unfold fairnessExpiry
  grind only [updGroup_wf, perfCount_wf, foldl_wf, inv_iff]

theorem praise_wf {ep all slot} (h : s.Inv) : (praise s ep all slot).Inv := by
  unfold praise
  grind only [raiseRequest_wf, foldl_wf]

theorem resumeTeam_wf {ep v} (h : s.Inv) : (resumeTeam s ep v).Inv := by
  unfold resumeTeam
  grind only [updTeam_wf, inv_iff]

theorem resumeStopped_wf {ep slot} (h : s.Inv) : (resumeStopped s ep slot).Inv := by
  unfold resumeStopped
  grind only [updTeam_wf, inv_iff]

theorem withdraw_wf {k} (h : s.Inv) : (withdraw s k).Inv := by
  unfold withdraw
  grind only [updDie_wf, updThread_wf, updTeam_wf, updCore_wf, leaveFault_wf, withdrawRetry_wf, sendPending_wf, foldl_wf, inv_iff]

theorem abortTeam_wf {ep slot} (h : s.Inv) : (abortTeam s ep slot).Inv := by
  unfold abortTeam
  grind only [updTeam_wf, forgetThread_wf, withdraw_wf, exitThread_wf, foldl_wf]

/-! ### The Serpent slices -/

theorem setEntry_wf {id e} (h : s.Inv) : (setEntry s id e).Inv := by
  unfold setEntry
  grind only [updSlice_wf, agentPut_wf]

theorem updEntry_wf {id f} (h : s.Inv) : (updEntry s id f).Inv := setEntry_wf h

theorem residencyRecord_wf {id code owner requester} (h : s.Inv) : (residencyRecord s id code owner requester).Inv := by
  unfold residencyRecord
  grind only [updSlice_wf, agentPut_wf]

theorem sliceEvent_wf {id cls code sev ray} (h : s.Inv) : (sliceEvent s id cls code sev ray).Inv := h
theorem noteFree_wf {id ep n} (h : s.Inv) : (noteFree s id ep n).Inv := h

theorem askNext_wf {id replica refusedBy} (h : s.Inv) : (askNext s id replica refusedBy).Inv := by
  unfold askNext
  grind only [ctl_wf, updEntry_wf]

theorem startPaging_wf {id} (h : s.Inv) : (startPaging s id).Inv := askNext_wf (updEntry_wf h)

theorem dropAttempt_wf {id} (h : s.Inv) : (dropAttempt s id).Inv := by
  unfold dropAttempt
  grind only [ctl_wf, updEntry_wf]

theorem abandonAttempt_wf {id} (h : s.Inv) : (abandonAttempt s id).Inv := by
  unfold abandonAttempt
  grind only [dropAttempt_wf, sliceEvent_wf, askNext_wf]

theorem failAttempt_wf {id} (h : s.Inv) : (failAttempt s id).Inv := by
  unfold failAttempt
  grind only [updEntry_wf, residencyRecord_wf, dropAttempt_wf, sliceEvent_wf]

theorem forwardRay_wf {id p} (h : s.Inv) : (forwardRay s id p).Inv := by
  unfold forwardRay
  grind only [inject_wf, ctl_wf]

theorem forwardParked_wf {id} (h : s.Inv) : (forwardParked s id).Inv := ite_wf h (foldl_wf forwardRay_wf (updEntry_wf h))

theorem park_wf {id p} (h : s.Inv) : (park s id p).Inv := by
  unfold park
  grind only [updEntry_wf, agentPut_wf, sliceEvent_wf]

theorem replicate_wf {id} (h : s.Inv) : (replicate s id).Inv := ite_wf (askNext_wf h) h
theorem raiseCounter_wf {id n} (h : s.Inv) : (raiseCounter s id n).Inv := updEntry_wf h

theorem handleRay_wf {id back p} (h : s.Inv) : (handleRay s id back p).Inv := by
  unfold handleRay
  grind only [forwardRay_wf, startPaging_wf, updEntry_wf, park_wf, raiseCounter_wf, replicate_wf]

theorem rayAtSlice_wf {p} (h : s.Inv) : optInv State.Inv (rayAtSlice s p) := by
  unfold rayAtSlice
  grind only [handleRay_wf, reply_wf, updSlice_wf, corrected_wf, sliceEvent_wf, refuse_wf, optInv]

theorem grantAt_wf {p} (h : s.Inv) : optInv State.Inv (grantAt s p) := by
  unfold grantAt
  grind only [ctl_wf, updCore_wf, evictTreelet_wf, foldl_wf, optInv]

theorem execReservationRelease_wf (h : s.Inv) : outcomeInv (execReservationRelease s) := by
  unfold execReservationRelease
  grind only [arrive_wf, updCore_wf, outcomeInv, optInv]

theorem sendImage_wf {id unit} (h : s.Inv) : (sendImage s id unit).Inv := ite_wf (failAttempt_wf h) (foldl_wf inject_wf (updEntry_wf h))

theorem imageArrives_wf {id op bs} (h : s.Inv) : (imageArrives s id op bs).Inv := by
  unfold imageArrives
  grind only [inject_wf, foldl_wf]

theorem imageRefused_wf {id op} (h : s.Inv) : (imageRefused s id op).Inv := ite_wf (failAttempt_wf h) h

theorem grantAnswered_wf {p} (h : s.Inv) : optInv State.Inv (grantAnswered s p) := by
  unfold grantAnswered
  grind only [noteFree_wf, sendImage_wf, askNext_wf, optInv]

theorem retryPlacement_wf {id} (h : s.Inv) : (retryPlacement s id).Inv := by
  unfold retryPlacement
  grind only [askNext_wf]

theorem pageArrives_wf {p} (h : s.Inv) : optInv State.Inv (pageArrives s p) := by
  unfold pageArrives
  grind only [reply_wf, homeWrite_wf, refuse_wf, optInv]

theorem broadcastOwners_wf {id} (h : s.Inv) : (broadcastOwners s id).Inv := foldl_wf ctl_wf h

theorem installed_wf {id ep replica} (h : s.Inv) : (installed s id ep replica).Inv :=
  ite_wf (forwardParked_wf (broadcastOwners_wf (residencyRecord_wf (updEntry_wf (updEntry_wf h))))) (replicate_wf (forwardParked_wf
    (residencyRecord_wf (updEntry_wf (updEntry_wf h)))))

theorem finishPaging_wf {id a} (h : s.Inv) : (finishPaging s id a).Inv := by
  unfold finishPaging
  grind only [failAttempt_wf, ctl_wf]

theorem flitAcknowledged_wf {id ep} (h : s.Inv) : (flitAcknowledged s id ep).Inv := by
  unfold flitAcknowledged
  grind only [finishPaging_wf, updEntry_wf]

theorem flitRefused_wf {id ep} (h : s.Inv) : (flitRefused s id ep).Inv := by
  unfold flitRefused
  grind only [abandonAttempt_wf]

theorem execInstall_wf (h : s.Inv) : outcomeInv (execInstall s) := by
  unfold execInstall
  grind only [arrive_wf, updCore_wf, installed_wf, inv_iff, outcomeInv, optInv]

theorem execRspData_wf (h : s.Inv) : outcomeInv (execRspData s) := by
  unfold execRspData
  grind only [arrive_wf, imageArrives_wf, readAnswered_wf, dataArrives_wf, outcomeInv, optInv]

theorem execRspAcknowledgment_wf (h : s.Inv) : outcomeInv (execRspAcknowledgment s) := by
  unfold execRspAcknowledgment
  grind only [farDone_wf, answerPiece_wf, replyCounted_wf, arrive_wf, flitAcknowledged_wf, outcomeInv, optInv]

theorem execRspRefusal_wf (h : s.Inv) : outcomeInv (execRspRefusal s) := by
  unfold execRspRefusal
  grind only [refusalArrives_wf, arrive_wf, readAnswered_wf, imageRefused_wf, flitRefused_wf, outcomeInv, optInv]

theorem execCounterIncrement_wf (h : s.Inv) : outcomeInv (execCounterIncrement s) := by
  unfold execCounterIncrement
  grind only [arrive_wf, raiseCounter_wf, replicate_wf, noteFree_wf, outcomeInv, optInv]

theorem decayCounters_wf {i} (h : s.Inv) : (decayCounters s i).Inv := ite_wf h (foldl_wf updEntry_wf h)
theorem releaseHeld_wf {id ep} (h : s.Inv) : (releaseHeld s id ep).Inv := updEntry_wf h

theorem removeOwners_wf {id gone} (h : s.Inv) : (removeOwners s id gone).Inv := by
  unfold removeOwners
  grind only [startPaging_wf, updEntry_wf, residencyRecord_wf, replicate_wf, dropAttempt_wf, broadcastOwners_wf, releaseHeld_wf,
    forwardParked_wf, foldl_wf]

theorem execEvictionReport_wf (h : s.Inv) : outcomeInv (execEvictionReport s) := by
  unfold execEvictionReport
  grind only [arrive_wf, removeOwners_wf, noteFree_wf, outcomeInv, optInv]

theorem noteAsked_wf {id ep free} (h : s.Inv) : (noteAsked s id ep free).Inv := by
  unfold noteAsked
  grind only [noteFree_wf]

theorem residencyAsked_wf {p} (h : s.Inv) : optInv State.Inv (residencyAsked s p) := by
  unfold residencyAsked
  grind only [inject_wf, updSlice_wf, startPaging_wf, noteAsked_wf, residencyRecord_wf, sliceEvent_wf, refuse_wf, optInv]

theorem execResidencyReply_wf (h : s.Inv) : outcomeInv (execResidencyReply s) := by
  unfold execResidencyReply
  grind only [answerPiece_wf, arrive_wf, outcomeInv, optInv]

theorem execRouteFill_wf (h : s.Inv) : outcomeInv (execRouteFill s) := by
  unfold execRouteFill
  grind only [arrive_wf, updCore_wf, outcomeInv, optInv]

theorem execRouteUpdate_wf (h : s.Inv) : outcomeInv (execRouteUpdate s) := by
  unfold execRouteUpdate
  grind only [arrive_wf, updCore_wf, outcomeInv, optInv]

theorem execBroadcast_wf (h : s.Inv) : outcomeInv (execBroadcast s) := by
  unfold execBroadcast
  grind only [ctl_wf, arrive_wf, foldl_wf, outcomeInv, optInv]

theorem switchOn_wf {i} (h : s.Inv) : (switchOn s i).Inv := by
  unfold switchOn
  grind only [foldl_wf, optInv_getD, updSlice_wf, startPaging_wf, updEntry_wf, residencyAsked_wf]

theorem writeDsize_wf {i v} (h : s.Inv) : (writeDsize s i v).Inv := ite_wf h (ite_wf (switchOn_wf h) h)

theorem repage_wf {i id} (h : s.Inv) : (repage s i id).Inv := by
  unfold repage
  grind only [updEntry_wf, askNext_wf]

/-! ### Agent and register space -/

theorem writePerfsel_wf {ep v} (h : s.Inv) : (writePerfsel s ep v).Inv := h
theorem writePerfclr_wf {ep v} (h : s.Inv) : (writePerfclr s ep v).Inv := h
theorem writeMxclr_wf {ep v} (h : s.Inv) : (writeMxclr s ep v).Inv := h
theorem writeDbgctl_wf {ep v} (h : s.Inv) : (writeDbgctl s ep v).Inv := ite_wf (resumeStopped_wf h) h
theorem writePraise_wf {ep v} (h : s.Inv) : (writePraise s ep v).Inv := praise_wf h
theorem writeTabort_wf {ep v} (h : s.Inv) : (writeTabort s ep v).Inv := ite_wf (abortTeam_wf h) h

theorem writeCore_wf {ep off v} (h : s.Inv) : (writeCore s ep off v).Inv := by
  unfold writeCore
  grind only [writeTabort_wf, writeDbgctl_wf, writePraise_wf, writePerfsel_wf, writeMxclr_wf, updCore_wf, resumeTeam_wf, writePerfclr_wf]

theorem writeSlice_wf {i off v} (h : s.Inv) : (writeSlice s i off v).Inv := by
  unfold writeSlice
  grind only [repage_wf, updSlice_wf, writeDsize_wf]

theorem sendHeld_wf (h : s.Inv) : (sendHeld s).Inv := by
  unfold sendHeld
  grind only [queueAtPort_wf, foldl_wf, inv_iff]

theorem setPortcfg_wf {p v} (h : s.Inv) : (setPortcfg s p v).Inv := sendHeld_wf h
theorem writeController_wf {die off v} (h : s.Inv) : (writeController s die off v).Inv := ite_wf h (ite_wf (setPortcfg_wf h) (ite_wf h h))
theorem writeHost_wf {off v} (h : s.Inv) : (writeHost s off v).Inv := ite_wf h (ite_wf h (ite_wf h (ite_wf h h)))

theorem writeReg_wf {ep who off v} (h : s.Inv) : optInv State.Inv (writeReg s ep who off v) := by
  unfold writeReg
  grind only [queueKick_wf, writeController_wf, updDie_wf, writeCore_wf, writeHost_wf, writeSlice_wf, optInv]

theorem windowWrite_wf {ep who off bs} (h : s.Inv) : optInv State.Inv (windowWrite s ep who off bs) := by
  unfold windowWrite
  grind only [optInv_bind, writeReg_wf, foldl_optInv, optInv]

theorem execRegisterWrite_wf {ep offset data} (h : s.Inv) : outcomeInv (execRegisterWrite ep offset data s) :=
  optInv_getD (windowWrite_wf h) h

theorem homeRequest_wf {p} (h : s.Inv) : optInv State.Inv (homeRequest s p) := by
  -- abstract, for the kernel would evaluate the bounds of the windows
  obtain ⟨window, hw⟩ : ∃ f, windowAt = f := ⟨_, rfl⟩
  unfold homeRequest
  rw [hw]
  cases p.body with
  | request typ pc thread op seq =>
    have hp : optInv (fun x => x.1.Inv) (performHome s pc.pa pc.access pc.hint) := performHome_wf h
    refine ite_opt (ite_opt (ite_wf (reply_wf h) (reply_wf h)) ?_) ?_
    · split
      · exact optInv_map (windowWrite_wf h) fun _ hu => reply_wf hu
      · exact reply_wf h
    · split <;> rename_i e
      · exact refuse_wf h
      · rw [e] at hp
        exact ite_opt (reply_wf hp) (reply_wf hp)
  | member off a thread op =>
    refine ite_opt (loseAt_wf (refuse_wf (sink_wf h))) ?_
    split
    · exact reply_wf (writeLoc_wf (sink_wf h))
    · exact reply_wf (sink_wf h)
  | _ => trivial

theorem execReqRead_wf (h : s.Inv) : outcomeInv (execReqRead s) := by
  unfold execReqRead
  grind only [arrive_wf, homeRequest_wf, outcomeInv, optInv]

theorem execReqWrite_wf (h : s.Inv) : outcomeInv (execReqWrite s) := by
  unfold execReqWrite
  grind only [arrive_wf, homeRequest_wf, outcomeInv, optInv]

theorem execReqSpillWrite_wf (h : s.Inv) : outcomeInv (execReqSpillWrite s) := by
  unfold execReqSpillWrite
  grind only [reply_wf, arrive_wf, visitLines_wf, agentPut_wf, outcomeInv, optInv]

end Sys2Proof.MemoryLaws
end

section
/-! PROOFS. The memory stays canonical under views, ports, losses, commands and the host. -/

namespace Sys2Proof.MemoryLaws

open Sys2Proof Sys2Proof.Machine Sys2Proof.Claims

variable {s : State}

/-! ### View domains -/

theorem sendView_wf {pkg message dom view set member} (h : s.Inv) : (sendView s pkg message dom view set member).Inv := ctl_wf h
theorem trapArmed_wf {die} (h : s.Inv) : (trapArmed s die).Inv := foldl_wf pollTry_wf h

theorem installView_wf {dom view set} (h : s.Inv) : (installView s dom view set).Inv := by
  unfold installView
  grind only [updDie_wf, updDomain_wf, count_wf, trapArmed_wf, event_wf, foldl_wf]

theorem commitView_wf {dom} (h : s.Inv) : (commitView s dom).Inv := by
  unfold commitView
  grind only [sendView_wf, installView_wf, foldl_wf]

theorem proposeView_wf {dom} (h : s.Inv) : (proposeView s dom).Inv := by
  unfold proposeView
  grind only [updDomain_wf, sendView_wf, commitView_wf, foldl_wf]

theorem wantChange_wf {dom i join report} (h : s.Inv) : (wantChange s dom i join report).Inv := by
  unfold wantChange
  grind only [updDomain_wf, sendView_wf, proposeView_wf]

theorem acknowledgeInstall_wf {dom die} (h : s.Inv) : (acknowledgeInstall s dom die).Inv := by
  unfold acknowledgeInstall
  grind only [updDomain_wf, proposeView_wf]

theorem proposalArrives_wf {p dom view set} (h : s.Inv) : (proposalArrives s p dom view set).Inv := by
  unfold proposalArrives
  grind only [updDomain_wf, sendView_wf]

theorem execViewPropose_wf (h : s.Inv) : outcomeInv (execViewPropose s) := by
  unfold execViewPropose
  grind only [proposalArrives_wf, arrive_wf, outcomeInv, optInv]

theorem acceptArrives_wf {p dom view} (h : s.Inv) : (acceptArrives s p dom view).Inv := by
  unfold acceptArrives
  grind only [updDomain_wf, commitView_wf]

theorem execViewAccept_wf (h : s.Inv) : outcomeInv (execViewAccept s) := by
  unfold execViewAccept
  grind only [arrive_wf, acceptArrives_wf, outcomeInv, optInv]

theorem execViewReject_wf (h : s.Inv) : outcomeInv (execViewReject s) := by
  unfold execViewReject
  grind only [updDomain_wf, arrive_wf, outcomeInv, optInv]

theorem execViewCommit_wf (h : s.Inv) : outcomeInv (execViewCommit s) := by
  unfold execViewCommit
  grind only [arrive_wf, installView_wf, outcomeInv, optInv]

theorem execViewJoin_wf (h : s.Inv) : outcomeInv (execViewJoin s) := by
  unfold execViewJoin
  grind only [arrive_wf, wantChange_wf, outcomeInv, optInv]

theorem execLossReport_wf (h : s.Inv) : outcomeInv (execLossReport s) := by
  unfold execLossReport
  grind only [arrive_wf, wantChange_wf, outcomeInv, optInv]

theorem sendBeats_wf (h : s.Inv) : (sendBeats s).Inv := ite_wf h (foldl_wf (fun h1 => sendView_wf h1) h)

theorem execChalumeauHeartbeatArrival_wf (h : s.Inv) : outcomeInv (execChalumeauHeartbeatArrival s) := by
  unfold execChalumeauHeartbeatArrival
  grind only [arrive_wf, updPkg_wf, outcomeInv, optInv]

theorem reportMembers_wf {hit} (h : s.Inv) : (reportMembers s hit).Inv :=
  foldl_wf (fun h1 => foldl_wf (fun h2 => ite_wf (wantChange_wf h2) h2) h1) h
theorem loseBeats_wf {pkg} (h : s.Inv) : (loseBeats s pkg).Inv := ite_wf h (reportMembers_wf h)

/-! ### Drinyx ports -/

theorem updPort_wf {p f} (h : s.Inv) : (updPort s p f).Inv := h
theorem portEvent_wf {p code sev n} (h : s.Inv) : (portEvent s p code sev n).Inv := h

theorem sendReport_wf {p} (h : s.Inv) : (sendReport s p).Inv := by
  unfold sendReport
  grind only [freeBytes_wf, updPort_wf]

theorem sendUnits_wf {p} (h : s.Inv) : (sendUnits s p).Inv := ite_wf (sendReport_wf h) (ite_wf h h)
theorem replayUnits_wf {p seq} (h : s.Inv) : (replayUnits s p seq).Inv := ite_wf h h
theorem lockPort_wf {p} (h : s.Inv) : (lockPort s p).Inv := h

theorem failPort_wf {p} (h : s.Inv) : (failPort s p).Inv := by
  unfold failPort
  grind only [updPort_wf, portEvent_wf, queueAtPort_wf, foldl_wf, inv_iff]

theorem endAttestation_wf {p ok} (h : s.Inv) : (endAttestation s p ok).Inv := ite_wf h (ite_wf h (failPort_wf h))
theorem attestationTimeout_wf {p} (h : s.Inv) : (attestationTimeout s p).Inv := ite_wf (failPort_wf h) h
theorem rekey_wf {p} (h : s.Inv) : (rekey s p).Inv := ite_wf h h
theorem trainPort_wf {p farPackage farPort ok} (h : s.Inv) : (trainPort s p farPackage farPort ok).Inv :=
  ite_wf h (ite_wf h (sendHeld_wf h))

theorem deliverFar_wf {port f} (h : s.Inv) : (deliverFar s port f).Inv := by
  unfold deliverFar
  grind only [dropCounted_wf, queueAtPort_wf, inv_iff]

theorem takeSlot_wf {port x} (h : s.Inv) : (takeSlot port s x).Inv := by
  unfold takeSlot
  grind only [replayUnits_wf, updPort_wf]

theorem unitFails_wf {port u} (h : s.Inv) : (unitFails s port u).Inv := by
  unfold unitFails
  grind only [lockPort_wf, updPort_wf, count_wf]

theorem receiveUnit_wf {port u} (h : s.Inv) : (receiveUnit s port u).Inv :=
  ite_wf h (ite_wf h (ite_wf (unitFails_wf h) (foldl_wf deliverFar_wf (foldl_wf takeSlot_wf h))))

/-! ### Losing a die or a package and taking it back -/

theorem toHost_wf {m} (h : s.Inv) : (toHost s m).Inv := h
theorem hostRelease_wf (h : s.Inv) : (hostRelease s).Inv := ite_wf h h
theorem publish_wf {src die inc} (h : s.Inv) : (publish s src die inc).Inv := foldl_wf (fun h1 => foldl_wf ctl_wf h1) (foldl_wf ctl_wf h)
theorem refuseOp_wf {k op} (h : s.Inv) : (refuseOp s k op).Inv := ite_wf h (ite_wf (imageRefused_wf h) (refusalArrives_wf h))

theorem resolveSent_refuseOwner_wf {p} (h : s.Inv) : (resolveSent.refuseOwner s p).Inv := by
  unfold resolveSent.refuseOwner
  grind only [refuseOp_wf]

theorem resolveSent_wf {pkg die x} (h : s.Inv) : (resolveSent pkg die s x).Inv := by
  unfold resolveSent
  grind only [resolveSent_refuseOwner_wf, rayRedirected_wf, inv_iff]

theorem resolveAnswer_dataOr_wf {p t o} (h : s.Inv) : (resolveAnswer.dataOr s p t o).Inv := by
  unfold resolveAnswer.dataOr
  grind only [answerPiece_wf, refusalArrives_wf]

theorem resolveAnswer_wf {x} (h : s.Inv) : (resolveAnswer s x).Inv := by
  unfold resolveAnswer
  grind only [resolveAnswer_dataOr_wf, refuseOp_wf, inv_iff]

theorem resolveWalks_wf {die} (h : s.Inv) : (resolveWalks s die).Inv := by
  unfold resolveWalks
  grind only [takeTrap_wf, updDie_wf, foldl_wf]

theorem resolveAgents_wf {lost} (h : s.Inv) : (resolveAgents s lost).Inv := foldl_wf farDone_wf h

theorem resolveRequests_wf {pkg die} (h : s.Inv) : (resolveRequests s pkg die).Inv := by
  unfold resolveRequests
  grind only [resolveWalks_wf, resolveAnswer_wf, resolveAgents_wf, updPkg_wf, resolveSent_wf, refuseOp_wf, foldl_wf, inv_iff]

theorem breakWaiter_wf {step w} (h : s.Inv) : (breakWaiter step s w).Inv := by
  unfold breakWaiter
  grind only [takeTrap_wf, updThread_wf]

theorem breakStep_wf {d} (h : s.Inv) : (breakStep s d).Inv :=
  foldl_wf breakWaiter_wf (State.write_wf _ _ (State.write_wf _ _ (State.write_wf _ _ h)))

theorem rebind_wf {ep q u room} (h : s.Inv) : (rebind s ep q u room).Inv := by
  unfold rebind
  grind only [inject_wf, acceptEntry_wf, updQueue_wf, recordTeam_wf, event_wf, foldl_wf]

theorem adoptQueue_wf {home q u} (h : s.Inv) : (adoptQueue s home q u).Inv := by
  unfold adoptQueue
  grind only [updPkg_wf, rebind_wf]

theorem loseLines_wf {ep} (h : s.Inv) : (loseLines s ep).Inv := by
  unfold loseLines
  grind only [event_wf, foldl_wf]

theorem rerun_wf {all m} (h : s.Inv) : (rerun all s m).Inv := by
  unfold rerun
  grind only [event_wf, inv_iff]

theorem emptyDie_wf {die} (h : s.Inv) : (emptyDie s die).Inv := h

theorem slicesAfter_wf {die} (h : s.Inv) : (slicesAfter s die).Inv := by
  unfold slicesAfter
  grind only [abandonAttempt_wf, removeOwners_wf, event_wf, foldl_wf]

theorem linkGatewayLost_wf {die} (h : s.Inv) : (linkGatewayLost s die).Inv := ite_wf h (foldl_wf failPort_wf (ite_wf (hostRelease_wf h) h))
theorem settleNext_wf (h : s.Inv) : (settleNext s).Inv := ite_wf h h
theorem loseDie_wf {die tryReset} (h : s.Inv) : (loseDie s die tryReset).Inv := ite_wf h (publish_wf (ite_wf (settleNext_wf h) h))

theorem drainDie_wf {die} (h : s.Inv) : (drainDie s die).Inv := by
  unfold drainDie
  grind only [slicesAfter_wf, linkGatewayLost_wf, updDie_wf, resolveRequests_wf, loseLines_wf, rerun_wf, reportMembers_wf, adoptQueue_wf,
    breakStep_wf, emptyDie_wf, foldl_wf]

theorem rebindOrphans_wf {die} (h : s.Inv) : (rebindOrphans s die).Inv := by
  unfold rebindOrphans
  grind only [updPkg_wf, rebind_wf, foldl_wf]

theorem rejoinEvent_wf {die} (h : s.Inv) : (rejoinEvent s die).Inv := h

theorem rejoinDie_wf {die passed} (h : s.Inv) : (rejoinDie s die passed).Inv := by
  unfold rejoinDie
  grind only [updDie_wf, rejoinEvent_wf, wantChange_wf, publish_wf, rebindOrphans_wf, foldl_wf]

theorem beatDies_wf (h : s.Inv) : (beatDies s).Inv := ite_wf h (foldl_wf (fun h1 => ctl_wf h1) h)

theorem beatArrives_wf (h : s.Inv) : (beatArrives s).Inv := by
  unfold beatArrives
  grind only [ctl_wf, arrive_wf, optInv]

theorem execHeartbeatAnswer_wf (h : s.Inv) : outcomeInv (execHeartbeatAnswer s) := by
  unfold execHeartbeatAnswer
  grind only [updDie_wf, arrive_wf, outcomeInv, optInv]

theorem crcFails_wf {l} (h : s.Inv) : (crcFails s l).Inv := ite_wf (corrected_wf h) (loseDie_wf (corrected_wf h))
theorem farDieLost_wf {pkg die} (h : s.Inv) : (farDieLost s pkg die).Inv := reportMembers_wf (resolveRequests_wf (foldl_wf breakStep_wf h))

theorem incarnationArrives_wf {p} (h : s.Inv) : (incarnationArrives s p).Inv := by
  unfold incarnationArrives
  grind only [farDieLost_wf, updDie_wf, updPkg_wf]

theorem execIncarnationUpdate_wf (h : s.Inv) : outcomeInv (execIncarnationUpdate s) := by
  unfold execIncarnationUpdate
  grind only [arrive_wf, incarnationArrives_wf, outcomeInv, optInv]

theorem losePackage_wf {pkg} (h : s.Inv) : (losePackage s pkg).Inv :=
  ite_wf h (reportMembers_wf (foldl_wf resolveRequests_wf (foldl_wf breakStep_wf (foldl_wf id h))))

/-! ### Plaod -/

theorem memoryRead_wf {a n} (h : s.Inv) : optInv (fun x => x.1.Inv) (memoryRead s a n) := by
  unfold memoryRead
  grind only [optInv_map, optInv_bind, performHome_wf, foldl_optInv, optInv]

theorem memoryWrite_wf {a bs} (h : s.Inv) : optInv State.Inv (memoryWrite s a bs) := by
  unfold memoryWrite
  grind only [optInv_map, optInv_bind, performHome_wf, foldl_optInv, optInv]

theorem stopRing_wf {q n} (h : s.Inv) : (stopRing s q n).Inv := h

theorem inHand_wf (h : s.Inv) : (inHand s).Inv := by
  unfold inHand
  grind only [memoryRead_wf, Hand.Inv, optInv]

theorem writeCompletion_wf {q n tag status op} (h : s.Inv) : optInv State.Inv (writeCompletion s q n tag status op) := by
  unfold writeCompletion
  grind only [optInv_map, memoryWrite_wf, toHost_wf]

theorem endTurn_wf {q} (h : s.Inv) : (endTurn s q).Inv := h
theorem passCommand_wf {c} (h : s.Inv) : (passCommand s c).Inv := h

theorem finish_wf {c status} (h : s.Inv) : (finish s c status).Inv := by
  unfold finish
  grind only [passCommand_wf, writeCompletion_wf, endTurn_wf, stopRing_wf, optInv]

theorem plaod_wf {mine act} (h : s.Inv) (hact : ∀ {u x}, u.Inv → (act u x).Inv) : (plaod s mine act).Inv := by
  unfold plaod
  grind only [finish_wf, inHand_wf, endTurn_wf, stopRing_wf, Done.Inv, Hand.Inv]

theorem execPlaodUnassignedOpcode_wf (h : s.Inv) : outcomeInv (execPlaodUnassignedOpcode s) := by
  unfold execPlaodUnassignedOpcode
  grind only [plaod_wf, outcomeInv, Done.Inv]

theorem acceptLaunch_wf {c} (h : s.Inv) : (acceptLaunch s c).Inv := by
  unfold acceptLaunch
  grind only [passCommand_wf, clearIcaches_wf, inv_iff, Done.Inv]

theorem completeLaunch_wf {key} (h : s.Inv) : (completeLaunch s key).Inv := by
  unfold completeLaunch
  grind only [inv_iff, writeCompletion_wf, stopRing_wf, optInv_getD]

theorem walkTo_wf {va n level table} (h : s.Inv) : optInv (fun x => x.1.Inv) (walkTo s va n level table) := by
  induction n generalizing s level table with
  | zero =>
    unfold walkTo
    grind only [optInv]
  | succ n ih =>
    unfold walkTo
    grind only [optInv, memoryRead_wf]

theorem namedEntry_wf {c} (h : s.Inv) : optInv (fun x => x.1.Inv) (namedEntry s c) := walkTo_wf h

theorem runMap_wf {c} (h : s.Inv) : (runMap s c).Inv := by
  unfold runMap
  grind only [namedEntry_wf, memoryWrite_wf, Done.Inv, optInv]

theorem runUnmap_wf {c} (h : s.Inv) : (runUnmap s c).Inv := by
  unfold runUnmap
  grind only [memoryRead_wf, namedEntry_wf, memoryWrite_wf, updHost_wf, invalidate_wf, Done.Inv, optInv]

theorem runReplay_wf {c} (h : s.Inv) : (runReplay s c).Inv := by
  unfold runReplay
  grind only [replayDie_wf, foldl_wf, Done.Inv]

theorem runQueueSetup_wf {c} (h : s.Inv) : (runQueueSetup s c).Inv := by
  unfold runQueueSetup
  grind only [bindQueue_wf, Done.Inv, Bound.Inv]

theorem setDomain_wf {dom view members} (h : s.Inv) : (setDomain s dom view members).Inv := foldl_wf id h

theorem runViewSetup_wf {c} (h : s.Inv) : (runViewSetup s c).Inv := by
  unfold runViewSetup
  grind only [memoryRead_wf, setDomain_wf, Done.Inv, optInv]

theorem runViewChange_wf {c} (h : s.Inv) : (runViewChange s c).Inv := by
  unfold runViewChange
  grind only [wantChange_wf, Done.Inv]

theorem runConfigRead_wf {c} (h : s.Inv) : (runConfigRead s c).Inv := by
  unfold runConfigRead
  grind only [memoryWrite_wf, Done.Inv, optInv]

theorem runAttest_wf {c} (h : s.Inv) : (runAttest s c).Inv := by
  unfold runAttest
  grind only [memoryRead_wf, memoryWrite_wf, event_wf, Done.Inv, optInv]

theorem runLifetimeRead_wf {c} (h : s.Inv) : (runLifetimeRead s c).Inv := by
  unfold runLifetimeRead
  dsimp only
  split
  · exact h
  split
  · exact h
  split <;> rename_i e
  · exact h
  · exact optInv_some (inv := State.Inv) (memoryWrite_wf h) e

theorem setProutes_wf {gw image} (h : s.Inv) : (setProutes s gw image).Inv := h

theorem runPortSetup_wf {c} (h : s.Inv) : (runPortSetup s c).Inv := by
  unfold runPortSetup
  grind only [setPortcfg_wf, memoryRead_wf, sendHeld_wf, updPkg_wf, setProutes_wf, Done.Inv, optInv]

theorem runHostSwitch_wf {c} (h : s.Inv) : (runHostSwitch s c).Inv := by
  unfold runHostSwitch
  grind only [hostRelease_wf, updHost_wf, Done.Inv]

theorem runResetDie_wf {c} (h : s.Inv) : (runResetDie s c).Inv := by
  unfold runResetDie
  grind only [finish_wf, rejoinEvent_wf, updHost_wf, loseDie_wf, Done.Inv]

/-! ### The host port -/

theorem postedWrite_wf {pa data poisoned} (h : s.Inv) : optInv State.Inv (postedWrite s pa data poisoned) := by
  unfold postedWrite
  grind only [memoryWrite_wf, windowWrite_wf, event_wf, optInv]

theorem readForHost_wf {pa n} (h : s.Inv) : (readForHost s pa n).Inv := by
  unfold readForHost
  grind only [memoryRead_wf, toHost_wf, event_wf, optInv]

theorem performPosted_wf {l} (h : s.Inv) : (performPosted s l).Inv := by
  induction l generalizing s with
  | nil => exact h
  | cons r rest ih =>
    cases r with
    | write pa data poisoned =>
      unfold performPosted
      grind only [optInv, postedWrite_wf, updHost_wf]
    | read pa len => exact ih (readForHost_wf h)

theorem hostAsks_wf {r} (h : s.Inv) : (hostAsks s r).Inv := ite_wf (performPosted_wf h) h
theorem linkDown_wf {g} (h : s.Inv) : (linkDown s g).Inv := ite_wf h (ite_wf h h)

theorem retrainEvent_wf {outage} (h : s.Inv) : (retrainEvent s outage).Inv := by
  unfold retrainEvent
  grind only [updDie_wf, corrected_wf, event_wf]

theorem linkUp_wf {g} (h : s.Inv) : (linkUp s g).Inv := ite_wf h (ite_wf h (hostRelease_wf (retrainEvent_wf h)))

theorem writeRecord_wf {r} (h : s.Inv) : (writeRecord s r).Inv := by
  unfold writeRecord
  grind only [memoryWrite_wf, toHost_wf, updHost_wf, optInv]

theorem holdRecord_wf {r} (h : s.Inv) : (holdRecord s r).Inv := ite_wf h (ite_wf h h)

theorem takeRecord_wf {e take} (h : s.Inv) (htake : ∀ {u x}, u.Inv → (take u x).Inv) : (takeRecord s e take).Inv := by
  unfold takeRecord
  grind only [dropCounted_wf]

theorem nextRecord_wf (h : s.Inv) : (nextRecord s).Inv := by
  unfold nextRecord
  grind only [takeRecord_wf, holdRecord_wf, writeRecord_wf, updHost_wf, inv_iff]

theorem undoCommand_wf {c} (h : s.Inv) : (undoCommand s c).Inv := by
  unfold undoCommand
  grind only [optInv_getD, memoryWrite_wf]

theorem settleCommand_wf (h : s.Inv) : (settleCommand s).Inv := by
  unfold settleCommand
  grind only [undoCommand_wf, finish_wf, rejoinEvent_wf]

theorem takeOver_wf (h : s.Inv) : (takeOver s).Inv := ite_wf h (settleCommand_wf h)
theorem fold_wf (h : s.Inv) : (fold s).Inv := h
theorem listCores_wf {die} (h : s.Inv) : (listCores s die).Inv := foldl_wf (fun h1 => ite_wf h1 h1) h

theorem throttle_wf {die} (h : s.Inv) : (throttle s die).Inv := by
  unfold throttle
  grind only [listCores_wf, updDie_wf, event_wf]

theorem flushRecords_wf {n} (h : s.Inv) : (flushRecords n s).Inv := by
  induction n generalizing s with
  | zero => exact h
  | succ n ih => exact ite_wf h (ih (nextRecord_wf h))

theorem shutDown_wf (h : s.Inv) : (shutDown s).Inv := flushRecords_wf h

theorem scrubLine_wf {line found} (h : s.Inv) : (scrubLine s line found).Inv := by
  unfold scrubLine
  grind only [corrected_wf, event_wf, inv_iff]

theorem loseLine_wf {ep line} (h : s.Inv) : (loseLine s ep line).Inv := by
  unfold loseLine
  grind only [corrected_wf, updCore_wf, event_wf]

theorem bootStart_wf {b} : (bootStart s b).Inv := State.reset_wf
theorem atBootStep_wf {n} (h : s.Inv) : (atBootStep s n).Inv := h
theorem haltBoot_wf {step code detail} (h : s.Inv) : (haltBoot s step code detail).Inv := h
theorem bootDone_wf {b} (h : s.Inv) : (bootDone s b).Inv := foldl_wf id h

theorem bootStep_wf {b} (h : s.Inv) : (bootStep s b).Inv := by
  unfold bootStep
  grind only [bootDone_wf, atBootStep_wf, portEvent_wf, updHost_wf, haltBoot_wf, event_wf, foldl_wf, inv_iff]

theorem execPackageReset_wf {b} (h : s.Inv) : outcomeInv (execPackageReset b s) := by
  unfold execPackageReset
  grind only [bootStart_wf, bootStep_wf, outcomeInv]

theorem execResetPackage_wf {ring b} (h : s.Inv) : outcomeInv (execResetPackage ring b s) := by
  unfold execResetPackage
  grind only [bootStart_wf, plaod_wf, fold_wf, outcomeInv, Done.Inv]

end Sys2Proof.MemoryLaws
end

section
/-! PROOFS. The memory stays canonical under every instruction, every event and every step. -/

namespace Sys2Proof.MemoryLaws

open Sys2Proof Sys2Proof.Machine Sys2Proof.Claims

variable {s : State}

/-! ### The dispatch of instructions to their meanings -/

theorem exec_wf {i : Instr} (h : s.Inv) : outcomeInv (exec i s) :=
  match i with
  | .nop _ | .mov _ | .lit _ | .add _ | .sub _ | .mul _ | .mulh _ | .mad _ | .div _ | .rem _ | .min _ | .max _ | .abs _ | .neg _ | .and _ |
    .or _
  | .xor _ | .not _ | .shl _ | .shr _ | .sar _ | .rot _ | .bfx _ | .bfi _ | .popc _ | .clz _ | .brev _ | .sel _ | .setp _ | .plop _ | .lea _
  | .gaddr _ | .bra _ | .brx _ | .join _ | .getsr _ | .setsr _ | .fadd _ | .fsub _ | .fmul _ | .ffma _ | .fmin _ | .fmax _ | .fsetp _ |
    .frcp _
  | .fdiv _ | .fsqrt _ | .frsq _ | .fex2 _ | .flg2 _ | .fsin _ | .fcos _ | .ftanh _ | .frnd _ | .cvt _ | .f2i _ | .i2f _ | .pack _ | .unpk _
  | .hfma2 _ | .dot4 _ | .fcls _ | .fclsTest _ | .fscale _ | .abindUn _ | .balw _ | .cinit _ | .view _ | .viewSet _ | .trap _ | .rte _ |
    .clkCyc _
  | .perf _ => runLong_wf id h
  | .call _ => runLong_wf effCall_wf h
  | .ret _ => runLong_wf effRet_wf h
  | .leave _ => runLong_wf effLeave_wf h
  | .waitk _ => runLong_wf effWaitk_wf h
  | .kmov _ => runLong_wf effKmov_wf h
  | .vote _ => runWideLong_wf applyVote_wf h
  | .shfl _ => runWideLong_wf applyShfl_wf h
  | .scan _ => runWideLong_wf applyScan_wf h
  | .redg _ => runWideLong_wf applyRedg_wf h
  | .yield _ => runLong_wf effYield_wf h
  | .exit _ => runLong_wf effExit_wf h
  | .ld _ => runLong_wf effLd_wf h
  | .st _ => runLong_wf effSt_wf h
  | .lds _ => runLong_wf effLds_wf h
  | .sts _ => runLong_wf effSts_wf h
  | .ldc _ => runLong_wf effLdc_wf h
  | .stc _ => runLong_wf effStc_wf h
  | .ldx _ => runLong_wf effLdx_wf h
  | .stx _ => runLong_wf effStx_wf h
  | .setfe _ => runLong_wf effSetfe_wf h
  | .atom _ => runLong_wf effAtom_wf h
  | .red _ => runLong_wf effRed_wf h
  | .pref _ => runLong_wf effPref_wf h
  | .flush _ => runLong_wf effFlush_wf h
  | .flushAll _ => runLong_wf effFlushAll_wf h
  | .fence _ => runLong_wf effFence_wf h
  | .get _ => runLong_wf effGet_wf h
  | .put _ => runLong_wf effPut_wf h
  | .puts _ => runLong_wf effPuts_wf h
  | .ratom _ => runLong_wf effRatom_wf h
  | .bara _ => runLong_wf effBara_wf h
  | .barw _ => runLong_wf effBarw_wf h
  | .sstep _ => runLong_wf effSstep_wf h
  | .sstepBind _ => runLong_wf effSstepBind_wf h
  | .engk _ => runLong_wf effEngk_wf h
  | .engw _ => runLong_wf effEngw_wf h
  | .tmma _ | .tmmas _ | .titer _ | .tpoly _ | .tlda _ | .tsta _ | .tzero _ | .ttrn _ | .tfeed _ => runLong_wf buildTask_wf h
  | .twmma _ => runTwmma_wf h
  | .twait _ => runLong_wf effTwait_wf h
  | .tver _ => runLong_wf effTver_wf h
  | .tenq _ => runLong_wf effTenq_wf h
  | .tcoef _ => runLong_wf effTcoef_wf h
  | .tcoefGet _ => runLong_wf effTcoefGet_wf h
  | .tcb _ => runLong_wf effTcb_wf h
  | .tbld _ => runLong_wf effTbld_wf h
  | .vadd _ => runLong_wf effVadd_wf h
  | .vmul _ => runLong_wf effVmul_wf h
  | .vfma _ => runLong_wf effVfma_wf h
  | .vmax _ => runLong_wf effVmax_wf h
  | .vmin _ => runLong_wf effVmin_wf h
  | .vexp _ => runLong_wf effVexp_wf h
  | .vred _ => runLong_wf effVred_wf h
  | .vbcast _ => runLong_wf effVbcast_wf h
  | .vmovRow _ => runLong_wf effVmovRow_wf h
  | .vmovGet _ => runLong_wf effVmovGet_wf h
  | .vmovPut _ => runLong_wf effVmovPut_wf h
  | .vcvt _ => runLong_wf effVcvt_wf h
  | .raysend _ => runLong_wf effRaysend_wf h
  | .boxt _ => runLong_wf effBoxt_wf h
  | .trit _ => runLong_wf effTrit_wf h
  | .tlook _ => runLong_wf effTlook_wf h
  | .hitq _ => runLong_wf effHitq_wf h
  | .rque _ => runLong_wf effRque_wf h
  | .recq _ => runLong_wf effRecq_wf h
  | .recqHeld _ => runLong_wf effRecqHeld_wf h
  | .recj _ => runLong_wf effRecj_wf h
  | .send _ => runLong_wf effSend_wf h
  | .recv _ => runLong_wf effRecv_wf h
  | .abind _ => runLong_wf effAbind_wf h
  | .cred _ => runLong_wf effCred_wf h
  | .cwait _ => runLong_wf effCwait_wf h
  | .baddq _ => runLong_wf effBaddq_wf h
  | .blkq _ => runLong_wf effBlkq_wf h
  | .resid _ => runLong_wf effResid_wf h
  | .residReq _ => runLong_wf effResidReq_wf h
  | .brk _ => runLong_wf effBrk_wf h
  | .cswap _ => runLong_wf effCswap_wf h
  | .tlbi _ => runLong_wf effTlbi_wf h
  | .eschedLoad _ => runLong_wf effEschedLoad_wf h
  | .eschedStep _ => runLong_wf effEschedStep_wf h
  | .eschedAdv _ => runLong_wf effEschedAdv_wf h
  | .eschedClr _ => runLong_wf effEschedClr_wf h
  | .clkSync _ => runLong_wf effClkSync_wf h
  | .clkWait _ => runLong_wf effClkWait_wf h
  | .mapq _ => runLong_wf effMapq_wf h
  | .clauseStart _ _ _ _ _ => restop_wf (foldl_wf startClause_wf h)
  | .movShort _ _ | .addShort _ _ | .subShort _ _ | .addi _ _ _ | .shli _ _ _ | .shri _ _ _ | .sari _ _ _ | .andi _ _ _ | .lis _ _ _ |
    .faddShort _ _
  | .fmulShort _ _ | .joinShort _ | .braShort _ _ _ | .nopShort => runShort_wf id h
  | .ldw _ _ _ => runShort_wf effLd_wf h
  | .stw _ _ _ => runShort_wf effSt_wf h
  | .ldsw _ _ _ => runShort_wf effLds_wf h
  | .stsw _ _ _ => runShort_wf effSts_wf h
  | .leaveShort _ => runShort_wf effLeave_wf h
  | .waitkShort _ => runShort_wf effWaitk_wf h
  | .callShort _ _ _ => runShort_wf callTo_wf h
  | .retShort => runShort_wf effRet_wf h
  | .exitShort => runShort_wf effExit_wf h
  | .yieldShort => runShort_wf effYield_wf h
  | .operationComplete _ _ => endOp_wf h
  | .l1MissFill _ _ => missFill_wf h
  | .tableWalkEnd _ _ => endWalk_wf h
  | .translationTimeout _ _ => timeoutWalk_wf h
  | .scrub _ _ => scrubLine_wf h
  | .uncorrectableL1LineLoss _ _ => loseLine_wf h
  | .evhead _ | .crbase _ _ | .perfsel _ _ | .perfclr _ _ | .mxclr _ _ => h
  | .placementRetry _ _ => ite_wf (retryPlacement_wf h) h
  | .creditReturnTimeout _ _ => returnCredits_wf h
  | .meshFlitCrcFail _ => crcFails_wf h
  | .drinyxUnitReceive _ _ => receiveUnit_wf h
  | .drinyxReplayRequest _ _ => replayUnits_wf h
  | .reattestationComplete _ _ => endAttestation_wf h
  | .portTraining _ _ _ _ => trainPort_wf h
  | .dieRejoin _ _ => rejoinDie_wf h
  | .packageReset _ => execPackageReset_wf h
  | .hostPostedWrite _ _ _ | .hostRead _ _ => hostAsks_wf h
  | .resetPackage _ _ => execResetPackage_wf h
  | .presume _ _ => resumeTeam_wf h
  | .praiseTeam _ _ | .praiseAll => praise_wf h
  | .dbgctlResume _ _ => resumeStopped_wf h
  | .tabort _ _ => abortTeam_wf h
  | .dsize _ _ => writeDsize_wf h
  | .repage _ _ => repage_wf h
  | .registerWrite _ _ _ => execRegisterWrite_wf h
  | .kick _ _ _ => execKick_wf h
  | .viewInstallAcknowledgment _ _ => acknowledgeInstall_wf h
  | .fairnessWindowExpiry => fairnessExpiry_wf h
  | .lateRefusalTrap => takeLate_wf h
  | .teamAdmit => admitTeam_wf h
  | .clusterStart => startCluster_wf h
  | .teamRetire => retireDone_wf h
  | .recordThreadStart => startNext_wf h
  | .waveForm | .waveWaitExpiry => waveIf_wf h
  | .tileTaskRecordDispatch => dispatchTask_wf h
  | .preemptForced => forceTeam_wf h
  | .preemptSaveComplete => completeSave_wf h
  | .teamRestore => restoreTeam_wf h
  | .priority0Preemption => preemptFor_wf h
  | .contextSwapDecision => swapDecision_wf h
  | .contextSwapComplete => completeSwap_wf h
  | .tileTaskStart => startTask_wf h
  | .shawmStep => shawmStep_wf h
  | .tileTaskComplete => completeTask_wf h
  | .twmmaRun => runWave_wf h
  | .versionUnreachable => unreachableVersion_wf h
  | .hartJobStart => performPosted_wf (startJob_wf h)
  | .mailboxPollTry => pollTry_wf h
  | .clockWaitExpiry => clockExpiry_wf h
  | .reqRead => execReqRead_wf h
  | .reqWrite => execReqWrite_wf h
  | .reqAtomic | .reqReduction => arrive_wf h homeAtomic_wf
  | .reqGet => execReqGet_wf h
  | .reqPutPayload => execReqPutPayload_wf h
  | .reqPutsPayload => execReqPutsPayload_wf h
  | .reqPutsSignal => execReqPutsSignal_wf h
  | .reqRatom => execReqRatom_wf h
  | .reqFullEmptyAccess => arrive_wf h homeFe_wf
  | .reqSpillWrite => execReqSpillWrite_wf h
  | .reqTableWalkRead => execReqTableWalkRead_wf h
  | .sstepArrivalAtHome => execSstepArrivalAtHome_wf h
  | .rspData => execRspData_wf h
  | .rspAcknowledgment => execRspAcknowledgment_wf h
  | .rspRefusal => execRspRefusal_wf h
  | .feRetryResend => feResend_wf h
  | .feWaitTimeout => feTimeout_wf h
  | .eventRecordWrite => nextRecord_wf h
  | .rayArrivalAtCore => arrive_wf h rayArrives_wf
  | .rayArrivalAtSlice => arrive_wf h rayAtSlice_wf
  | .routeFill => execRouteFill_wf h
  | .routeUpdate => execRouteUpdate_wf h
  | .grantRequest => arrive_wf h grantAt_wf
  | .reservationRelease => execReservationRelease_wf h
  | .grantReply => arrive_wf h grantAnswered_wf
  | .pageFlit => arrive_wf h pageArrives_wf
  | .install => execInstall_wf h
  | .counterIncrement => execCounterIncrement_wf h
  | .evictionReport => execEvictionReport_wf h
  | .counterDecay => decayCounters_wf h
  | .residencyQueryOrRequest => arrive_wf h residencyAsked_wf
  | .residencyReply => execResidencyReply_wf h
  | .retireNotice => execRetireNotice_wf h
  | .hitArrival | .messageArrival => arrive_wf h entryArrives_wf
  | .remoteRecordArrival => arrive_wf h recordArrives_wf
  | .recjArrival => execRecjArrival_wf h
  | .collectiveBlockArrival => arrive_wf h blockArrives_wf
  | .creditReturn => execCreditReturn_wf h
  | .broadcast => execBroadcast_wf h
  | .preemptionRequestMessage => execPreemptionRequestMessage_wf h
  | .incarnationUpdate => execIncarnationUpdate_wf h
  | .drinyxPartialUnit => sendUnits_wf h
  | .reattestationTimeout => attestationTimeout_wf h
  | .sessionRekey => rekey_wf h
  | .dieHeartbeat => ite_wf (beatDies_wf h) (beatArrives_wf h)
  | .heartbeatAnswer => execHeartbeatAnswer_wf h
  | .dieHeartbeatMissed => ite_wf h (loseDie_wf h)
  | .dieLost => loseDie_wf h
  | .dieDrained => drainDie_wf h
  | .packageUnreachable => losePackage_wf h
  | .viewPropose => execViewPropose_wf h
  | .viewAccept => execViewAccept_wf h
  | .viewReject => execViewReject_wf h
  | .viewCommit => execViewCommit_wf h
  | .viewJoin => execViewJoin_wf h
  | .lossReport => execLossReport_wf h
  | .chalumeauHeartbeat => sendBeats_wf h
  | .chalumeauHeartbeatLoss => loseBeats_wf h
  | .hostLinkDown => linkDown_wf h
  | .hostLinkRetrained => linkUp_wf h
  | .hostLinkCorrectedError | .supplyDroop => corrected_wf h
  | .serviceCoreTakeover => ite_wf (settleCommand_wf h) (takeOver_wf h)
  | .lifetimeFold | .temperatureRecover => ite_wf h h
  | .temperatureThrottle => throttle_wf h
  | .temperatureShutdown => shutDown_wf h
  | .launch => ite_wf (plaod_wf h acceptLaunch_wf) (completeLaunch_wf h)
  | .map => plaod_wf h runMap_wf
  | .unmap => plaod_wf h runUnmap_wf
  | .replayAll => plaod_wf h runReplay_wf
  | .queueSetup => plaod_wf h runQueueSetup_wf
  | .viewSetup => plaod_wf h runViewSetup_wf
  | .viewChange => plaod_wf h runViewChange_wf
  | .resetDie => plaod_wf h runResetDie_wf
  | .attest => plaod_wf h runAttest_wf
  | .configRead => plaod_wf h runConfigRead_wf
  | .portSetup => plaod_wf h runPortSetup_wf
  | .hostSwitch => plaod_wf h runHostSwitch_wf
  | .lifetimeRead => plaod_wf h runLifetimeRead_wf
  | .plaodUnassignedOpcode => execPlaodUnassignedOpcode_wf h
  | .pendingUpdateAtHome => arrive_wf h pendingHome_wf
  | .chalumeauHeartbeatArrival => execChalumeauHeartbeatArrival_wf h

/-! ### The choice of the issue group -/

theorem settleHeader_wf {moved k} (h : s.Inv) : (settleHeader moved s k).Inv := h

theorem countDescheduled_wf {before ks} (h : s.Inv) : (countDescheduled before ks s).Inv := by
  unfold countDescheduled
  grind only [perfCount_wf, foldl_wf]

theorem afterIssue_wf {before ks header} (h : s.Inv) : (afterIssue before ks header s).Inv := by
  unfold afterIssue
  grind only [settleHeader_wf, updThread_wf, updCore_wf, perfCount_wf, countDescheduled_wf, foldl_wf, inv_iff]

theorem tryAlone_wf {run k t} (hrun : ∀ {u x}, u.Inv → outcomeInv (run u x)) (h : s.Inv) : optInv State.Inv (tryAlone run s k t) := by
  unfold tryAlone
  grind only [updThread_wf, inv_iff, optInv, outcomeInv]

theorem settleThread_wf {run k t} (hrun : ∀ {u x}, u.Inv → outcomeInv (run u x)) (h : s.Inv) : (settleThread run s k t).Inv := by
  unfold settleThread
  grind only [tryAlone_wf, updThread_wf, inv_iff, outcomeInv, optInv]

theorem settleAll_wf {run} (hrun : ∀ {u x}, u.Inv → outcomeInv (run u x)) (h : s.Inv) : (settleAll run s).Inv := by
  unfold settleAll
  grind only [settleThread_wf, foldl_wf, outcomeInv]

/-! ### One step of the package, and placing an instruction where the next step fetches it -/

theorem thenState_wf {r f} (hr : outcomeInv r) (hf : ∀ {u}, u.Inv → (f u).Inv) : outcomeInv (thenState r f) := by
  unfold thenState
  grind only [outcomeInv]

theorem issueGroup_wf {all} (h : s.Inv) : outcomeInv (issueGroup s all) := by
  unfold issueGroup
  grind only [thenState_wf, afterIssue_wf, exec_wf, chosen_wf, inv_iff, outcomeInv, Chosen.Inv]

theorem runEvent_wf {i key} (h : s.Inv) : outcomeInv (runEvent s i key) := thenState_wf (exec_wf h) id

theorem firstEvent_wf {l} (h : s.Inv) : optInv outcomeInv (firstEvent s l) := by
  induction l with
  | nil => trivial
  | cons x rest ih =>
    have hx : outcomeInv (runEvent s x.1 x.2) := runEvent_wf h
    unfold firstEvent
    grind only [optInv, outcomeInv]

theorem issueNext_wf (h : s.Inv) : outcomeInv (issueNext s) := by
  unfold issueNext
  grind only [issueGroup_wf, tick_wf, outcomeInv]

theorem idleStep_wf (h : s.Inv) : outcomeInv (idleStep s) := by
  unfold idleStep
  grind only [runEvent_wf, inv_iff, outcomeInv]

theorem step_wf (h : s.Inv) : outcomeInv (step s) := by
  unfold step
  grind only [issueGroup_wf, settleAll_wf, firstEvent_wf, idleStep_wf, runEvent_wf, issueNext_wf, inv_iff, outcomeInv, optInv]

/-- Settles O6, by one lemma for each function that a step is put together from. -/
theorem stepKeepsMemoryCanonical : Obligations.StepKeepsMemoryCanonical := by
  intro s s' h e
  have hs : outcomeInv (step s) := step_wf h
  rwa [e] at hs

end Sys2Proof.MemoryLaws
end

section
/-! PROOFS. PREF under hint 7 (R207, R280). -/

namespace Sys2Proof.MemoryLaws

open Sys2Proof Sys2Proof.Machine Sys2Proof.Claims

/-- The page at address 0, of kind C, translated to itself. -/
def firstPage : Tlb := { asid := 0, va := 0, size := 0x10000, pa := 0, entry := 0x7B#64 }

/-- The thread stands at a PREF of address 0, which its core translates; no L2 holds a line. -/
def prefetchingState : State :=
  { State.reset with
    cur := [10]
    threads := [(10, ExecutionLaws.lastLane)]
    teams := [(1, mkTeam 0 0 0 0 0 1 4 1)]
    cores := [(0, { Core.reset with tlb := [firstPage] })] }

/-- A PREF of address 0 under hint 7. -/
def prefetchNext : Long := { longZero with hint := 7#3 }

/-- The lines that the L2 slices of a die hold after an instruction. -/
def linesAfter (i : Instr) (s : State) (die : Nat) : List (Nat × List Nat) :=
  match exec i s with
  | .next s' => (s'.die die).l2
  | _ => []

/-- Besides the line of its address the PREF brings the next one into the L2. -/
theorem linesAfter_prefetchNext : linesAfter (.pref prefetchNext) prefetchingState 16 = [(0, [0]), (1, [128])] := by decide +kernel

/-- Refutes O31: under hint 7 a PREF fetches the next 128-byte line into the L2 as well (R207); the statement has it bring the line of its address alone. -/
theorem not_fencesAndOrdersHoldMemoryEventsBack : ¬ Obligations.FencesAndOrdersHoldMemoryEventsBack := by
  intro h
  obtain ⟨-, hlong⟩ := h
  obtain ⟨hpref, -⟩ := hlong prefetchNext
  have hl : Lone .pref prefetchNext prefetchingState 10 ExecutionLaws.lastLane := ⟨rfl, rfl, by decide +kernel⟩
  have hlines := linesAfter_prefetchNext
  rw [linesAfter, hpref _ _ _ hl ⟨rfl, rfl, rfl⟩] at hlines
  exact absurd hlines (by decide +kernel)

end Sys2Proof.MemoryLaws
end

section
/-! PROOFS. A read under hint 7 at its home (R67, R207). -/

namespace Sys2Proof.MemoryLaws

open Sys2Proof Sys2Proof.Machine Sys2Proof.Claims

/-- A read of 4 bytes at address 0 under hint 7. -/
def readNext : Piece := { pa := 0, home := true, access := .load 4, hint := 7 }

/-- Its request, from core 0 to the controller of die 16. -/
def readNextRequest : Packet := { mkPacket 1 0x10 0 (homeEndpoint 0) 1 (.request 0x10 readNext 10 50 0) with inc := 1 }

/-- The request is the packet that arrives; no L2 holds a line. -/
def homeReadState : State := { State.reset with obj := 1, packets := [(1, readNextRequest)] }

theorem readNextRequest_arrives : Arrives homeReadState 0x10 readNextRequest := by
  refine ⟨⟨rfl, by decide, by decide +kernel, fun ⟨_, q, hq, hlt, _⟩ => ?_⟩, fun ⟨_, _, hinc⟩ => hinc (by decide +kernel), rfl⟩
  obtain rfl := List.mem_singleton.mp hq
  exact absurd hlt (by decide)

theorem plain_homeReadState : Plain (gone homeReadState) 0 4 :=
  ⟨rfl, by decide +kernel, fun e _ x hx => by cases hx⟩

/-- The home brings the next line into its L2 too. -/
theorem linesAfter_readNext : linesAfter .reqRead homeReadState 16 = [(0, [0]), (1, [128])] := by decide +kernel

/-- Refutes O46: a read under hint 7 fetches the next 128-byte line into the L2 at its home as well (R207); the statement has it bring the line of its
address alone. -/
theorem not_homesPerformRequests : ¬ Obligations.HomesPerformRequests := by
  intro h
  obtain ⟨hread, -⟩ := h homeReadState readNextRequest readNext 10 50 0 4
  have hlines := linesAfter_readNext
  rw [linesAfter, hread readNextRequest_arrives rfl rfl plain_homeReadState (by decide)] at hlines
  exact absurd hlines (by decide +kernel)

end Sys2Proof.MemoryLaws
end

section
/-! PROOFS. The answer to an atomic whose line an L1 of the requester's island holds (R68, R82). -/

namespace Sys2Proof.MemoryLaws

open Sys2Proof Sys2Proof.Machine Sys2Proof.Claims

/-- An atomic on 4 bytes at address 0, sent to its home. -/
def sentAtomic : Op := { mkOp ExecutionLaws.lastLane longZero with pieces := [{ pa := 0, home := true, access := .atomic 0 0 4 0#64 0#64 }] }

/-- A copy of its line. -/
def sharedLine : Line := { state := .s, bytes := [], valid := [], fillTime := 0, old := false }

/-- The home's answer, on its way to core 0. -/
def atomicAnswer : Packet := { mkPacket 2 0x20 (homeEndpoint 0) 0 1 (.data (leBytes 4 0) 10 50) with inc := 1 }

/-- The thread waits for its atomic, the answer is the packet that arrives, and the thread's core has taken a copy of the line meanwhile. -/
def answeredState : State :=
  { State.reset with
    obj := 1
    packets := [(1, atomicAnswer)]
    threads := [(10, { ExecutionLaws.lastLane with ops := [(50, sentAtomic)] })]
    teams := [(1, mkTeam 0 0 0 0 0 1 4 1)]
    cores := [(0, { Core.reset with lines := [(0, sharedLine)] })] }

theorem atomicAnswer_arrives : Arrives answeredState 0x20 atomicAnswer := by
  refine ⟨⟨rfl, by decide, by decide +kernel, fun ⟨_, q, hq, hlt, _⟩ => ?_⟩, fun ⟨_, _, hinc⟩ => hinc (by decide +kernel), rfl⟩
  obtain rfl := List.mem_singleton.mp hq
  exact absurd hlt (by decide)

/-- The lines that the cores' L1s hold after an instruction. -/
def copiesAfter (i : Instr) (s : State) : List (Nat × NMap Line) :=
  match exec i s with
  | .next s' => s'.cores.map (fun c => (c.1, c.2.lines))
  | _ => []

/-- The copy goes when the answer comes. -/
theorem copiesAfter_atomicAnswer : copiesAfter .rspData answeredState = [(0, [])] := by decide +kernel

/-- Refutes O47: when an atomic's answer arrives, a copy of its line that the island took meanwhile goes (R82); the statement has the cores stay as they are. -/
theorem not_repliesReachTheirRequester : ¬ Obligations.RepliesReachTheirRequester := by
  intro h
  obtain ⟨hdata, -⟩ := h answeredState atomicAnswer 10 50 _ sentAtomic rfl rfl rfl rfl rfl rfl rfl (by decide) (by decide) (by decide)
  obtain ⟨s', -, -, he, -, -, -, -, -, -, hlocal⟩ := hdata _ _ atomicAnswer_arrives rfl rfl
  obtain ⟨hcores, -⟩ := hlocal rfl
  have hcopies := copiesAfter_atomicAnswer
  simp only [copiesAfter, he, hcores] at hcopies
  exact absurd hcopies (by decide +kernel)

end Sys2Proof.MemoryLaws
end

section
/-! PROOFS. The consistency model (spec/03_consistency_model.md): kicks of engines and polls of mailboxes (R93, R291 to R293). -/

namespace Sys2Proof.ConsistencyLaws

open Sys2Proof Sys2Proof.Machine Sys2Proof.Claims Sys2Proof.ExecutionLaws

/-- An access that nothing holds back begins: of whatever scope its release is, no write-back to another package is on its way (R66). -/
theorem memStart_of_not_releaseWaits {s : State} {k : Nat} {t : Thread} {o : Long} {global : Bool} {release : Option Nat} {go : State → Thread → Out}
    (h : Free t o global release.isSome) (hr : release.any (releaseWaits s t.core) = false) : memStart s k t o global release go = go s t := by
  have hfence : { t with fence := none } = t := by rw [← h.2.1]
  simp [memStart, h.1, memGate_clear (clear_of_free h), hr, hfence]

section
variable {s : State} {ep asid root scope : Nat} {desc : DWord}

theorem queueKick_full (h : 16 ≤ (s.core ep).kicks.length) : queueKick s ep asid root scope desc = none := if_pos h

theorem queueKick_room (h : ¬ 16 ≤ (s.core ep).kicks.length) :
    queueKick s ep asid root scope desc = some (s.updCore ep (fun c => { c with kicks := c.kicks ++ [(asid, root, scope, desc &&& 0x00FFFFFFFFFFFFE0#64)] })) :=
  if_neg h

end

/-- Settles O35: ENGK check by check, down to the room in the hart's queue; ENGW by where its mailbox is placed. -/
theorem engineKicksAreQueuedAndMailboxesPolled : Obligations.EngineKicksAreQueuedAndMailboxesPolled := by
  intro o
  refine ⟨alone_of_runLong (fun _ => rfl) fun s k t _ ⟨⟨hfree, hwaits⟩, hreach⟩ => ?engk, alone_of_runLong (fun _ => rfl) fun s k t _ ⟨hfree, _⟩ => ?engw⟩
  case engk =>
    have hstart : Free (t.begun o.bytes) o false true := hfree
    have hreach' : reachable (s.began k t o.bytes) (t.begun o.bytes).core (targetOf (t.begun o.bytes) o) = true := hreach
    have hwaits' : releaseWaits (s.began k t o.bytes) (t.begun o.bytes).core o.scope.toNat = false := hwaits rfl
    generalize s.began k t o.bytes = v, t.begun o.bytes = u at hstart hreach' hwaits' ⊢
    rw [effEngk, memStart_of_not_releaseWaits (release := some _) hstart hwaits']
    dsimp only [targetOf] at hreach' ⊢
    -- a misaligned descriptor and another package trap; a reachable endpoint without a KICK register ignores the store (R60)
    refine ite_congr rfl (fun _ => rfl) fun _ => ite_congr rfl (fun _ => rfl) fun _ => ?_
    refine (if_neg (by rw [hreach']; exact Bool.false_ne_true)).trans (ite_congr (Bool.not_eq_true' _) (fun _ => rfl) fun _ => ?_)
    split_ifs with hfull
    · rw [queueKick_full hfull]
    · rw [queueKick_room hfull]
  case engw =>
    have hstart : Free (t.begun o.bytes) o true false := hfree
    rw [effEngw, memStart_of_not_releaseWaits (release := none) hstart rfl, startPoll]
    rcases placeGlobal (s.began k t o.bytes) k (t.begun o.bytes) 0 false false (globalAddress (t.begun o.bytes) o) 8 8 with ⟨s1, _ | ⟨piece, rest⟩⟩ | r
    · rfl
    · rfl
    · rfl

end Sys2Proof.ConsistencyLaws
end

section
/-! PROOFS. The ray engine at the issuing core (spec/04_ray_engine.md): what BOXT and TRIT find (R104, R105), which owner TLOOK names (R107), and what RESID sends (R320). -/

namespace Sys2Proof.RayLaws

open Sys2Proof Sys2Proof.Machine Sys2Proof.Claims Sys2Proof.HostLaws Sys2Proof.ExecutionLaws

/-! ### The nearest owner (R107) -/

section
variable {s : State} {ep x y z : Nat}

/-- An owner is at most as far as another, and of two as far it is the lower or the same. -/
def NoFarther (s : State) (ep x y : Nat) : Prop := hops s ep x < hops s ep y ∨ (hops s ep x = hops s ep y ∧ x ≤ y)

theorem NoFarther.trans (hxy : NoFarther s ep x y) (hyz : NoFarther s ep y z) : NoFarther s ep x z := by
  unfold NoFarther at *
  omega

theorem keyBefore_pair (a b x y : Nat) : keyBefore [a, x] [b, y] = true ↔ a < b ∨ (a = b ∧ x < y) := by
  simp only [keyBefore]
  by_cases hab : a = b
  · by_cases hxy : x = y
    · simp [hab, hxy]
    · simp [hab, hxy]
  · simp [hab]

theorem noFarther_of_keyBefore (h : keyBefore [hops s ep x, x] [hops s ep y, y] = true) : NoFarther s ep x y := by
  rw [keyBefore_pair] at h
  unfold NoFarther
  omega

theorem noFarther_of_not_keyBefore (h : ¬ keyBefore [hops s ep x, x] [hops s ep y, y] = true) : NoFarther s ep y x := by
  rw [keyBefore_pair] at h
  unfold NoFarther
  omega

/-- The search keeps the better of the first two and goes on. -/
theorem nearestOwner_cons_cons (s : State) (ep y z : Nat) (l : List Nat) :
    nearestOwner s ep (y :: z :: l) = if keyBefore [hops s ep z, z] [hops s ep y, y] then nearestOwner s ep (z :: l) else nearestOwner s ep (y :: l) := by
  simp only [nearestOwner, List.foldl_cons]
  split <;> rfl

theorem nearestOwner_nearest (s : State) (ep y : Nat) (l : List Nat) : ∃ x, nearestOwner s ep (y :: l) = some x ∧ Nearest s ep x (y :: l) := by
  induction l generalizing y with
  | nil => exact ⟨y, rfl, List.mem_singleton_self y, fun z hz => .inr (by rw [List.mem_singleton.mp hz]; exact ⟨rfl, le_rfl⟩)⟩
  | cons z l ih =>
    rw [nearestOwner_cons_cons]
    split
    · next h =>
      obtain ⟨x, hx, hmem, hnear⟩ := ih z
      refine ⟨x, hx, List.mem_cons_of_mem _ hmem, List.forall_mem_cons.mpr ⟨?_, hnear⟩⟩
      exact NoFarther.trans (hnear z List.mem_cons_self) (noFarther_of_keyBefore h)
    · next h =>
      obtain ⟨x, hx, hmem, hnear⟩ := ih y
      obtain ⟨hy, hl⟩ := List.forall_mem_cons.mp hnear
      refine ⟨x, hx, ?_, List.forall_mem_cons.mpr ⟨hy, List.forall_mem_cons.mpr ⟨?_, hl⟩⟩⟩
      · rcases List.mem_cons.mp hmem with rfl | hm
        · exact List.mem_cons_self
        · exact List.mem_cons_of_mem _ (List.mem_cons_of_mem _ hm)
      · exact NoFarther.trans hy (noFarther_of_not_keyBefore h)

end

/-! ### What a unit instruction leaves -/

theorem free_perfCount (s : State) (ep code n : Nat) : (perfCount s ep code n).free = s.free := by
  unfold perfCount
  dsimp only
  split <;> rfl

theorem fresh_perfCount (s : State) (ep code n : Nat) : (perfCount s ep code n).fresh = s.fresh := (sameCourse_perfCount s ep code n).fresh

/-- A degenerate ray finds no child and the distance infinity. -/
theorem boxResult_none (node : List Byte) : boxResult node [] = List.replicate 7 0#32 ++ [0x7F800000#32] := by simp [boxResult, List.map_const']

/-- On a gateway core a unit's results are free values. -/
theorem freeUnit_eq (s : State) (k : Nat) (t : Thread) (o : Long) : .go (addReady (freeBytes s 9 32).2 k (eightRegs t o) (freeBytes s 9 32).1) = freeUnit s k t o := rfl

section
variable {op : LongOp} {o : Long} {s v : State} {k : Nat} {t : Thread}

theorem raise_flags_of_flags {u w : Thread} (h : u.flags = w.flags) (f : Option Nat) : (u.raise f).flags = (w.raise f).flags := by
  cases f with
  | none => exact h
  | some i => simp only [Thread.raise, h]

/-- A lone thread with an operation that is ready at once holds it once it has gone on. -/
theorem opened_ready (p : Op) (data : List Byte) (hl : Lone op o s k t) (hh : (s.team t.team).halted = false) (hv : SameCourse (s.began k t o.bytes) v) :
    Opened s k t o.bytes p (.ready data) (settled op o t o.bytes k (.go (addReady v k p data))) := by
  let q : Op := { p with status := .ready data, issued := v.ticks }
  let u := owing s (t.begun o.bytes) q
  have hthread : (addReady v k p data).thread k = some u := thread_issued (p := { p with status := .ready data }) hl hv
  have hteam : ((addReady v k p data).team u.team).halted = false := by
    rw [show u.team = t.team from raise_team ..]
    show (v.team t.team).halted = false
    rw [State.team, hv.teams]
    exact hh
  have hflags : u.flags = (t.raise p.flag).flags := raise_flags_of_flags (u := { t.begun o.bytes with ops := (t.begun o.bytes).ops.put s.fresh q }) (w := t) rfl p.flag
  have hpreds : u.preds = t.preds := Thread.raise_preds ..
  have hcur : (addReady v k p data).cur = [k] := hv.cur.trans hl.1
  obtain ⟨w, b, r, hw, hpc, hst, he⟩ := settled_go (op := op) (o := o) (t := t) (len := o.bytes) hcur hthread hteam (raise_stopping ..)
  refine ⟨w, q, hw, ?_, rfl, rfl, rfl, rfl, rfl, ?_, ?_, hst, ?_, ?_⟩
  · refine (congrArg (fun x : Thread => x.ops.find s.fresh) he :).trans ?_
    show u.ops.find s.fresh = some q
    rw [ops_owing]
    exact NMap.find_put_same ..
  · exact (congrArg Thread.flags he :).trans hflags
  · exact hpc.trans (stands_owing ..).after
  · exact (congrArg Thread.regs he :).trans ((stands_owing s t o.bytes q).regs :)
  · exact (congrArg Thread.preds he :).trans hpreds

/-! ### TLOOK (R107, R319) -/

/-- The route cache names the nearest of the owners that it lists. -/
theorem tlookNamesNearest {r : Route} (hl : Lone .tlook o s k t) (hf : flagFull t (flagOf t o.fs) = false) (hh : (s.team t.team).halted = false)
    (hr : (s.core t.core).routes.find? (fun r => r.treelet == (src32 t o .a).toNat) = some r) (ho : r.owners ≠ []) :
    ∃ x s', Nearest s t.core x r.owners ∧ exec (.tlook o) s = .next s' ∧
      Opened s k t o.bytes { mkOp t o with dst := some (o.d.toNat, 1), size := 4 } (.ready (leBytes 4 (x % 2 ^ 20 + 2 ^ 31))) s' := by
  obtain ⟨y, l, hyl⟩ := List.exists_cons_of_ne_nil ho
  obtain ⟨x, hx, hnear⟩ := nearestOwner_nearest s t.core y l
  rw [← hyl] at hx hnear
  have hfull : flagFull (t.begun o.bytes) (flagOf (t.begun o.bytes) o.fs) = false := hf
  have hfind : (((s.began k t o.bytes).core (t.begun o.bytes).core).routes.find? (fun r => r.treelet == (src32 (t.begun o.bytes) o .a).toNat)).bind
      (fun r => nearestOwner (s.began k t o.bytes) (t.begun o.bytes).core r.owners) = some x := by
    exact (congrArg (fun f => Option.bind f (fun r : Route => nearestOwner s t.core r.owners)) hr :).trans hx
  have hex : exec (.tlook o) s = _ := runLong_lone (effTlook o) hl
  simp only [effTlook, hfull, hfind, Bool.false_eq_true, if_false] at hex
  refine ⟨x, _, hnear, hex, ?_⟩
  exact opened_ready { mkOp (t.begun o.bytes) o with dst := some (o.d.toNat, 1), size := 4 } _ hl hh ⟨rfl, rfl, rfl, rfl⟩

/-- A treelet that the route cache does not hold is looked for at its home slice. -/
theorem tlookNamesHomeSlice (hl : Lone .tlook o s k t) (hf : flagFull t (flagOf t o.fs) = false) (hh : (s.team t.team).halted = false)
    (hr : (s.core t.core).routes.find? (fun r => r.treelet == (src32 t o .a).toNat) = none) :
    ∃ s', exec (.tlook o) s = .next s' ∧
      Opened s k t o.bytes { mkOp t o with dst := some (o.d.toNat, 1), size := 4 } (.ready (leBytes 4 (homeSlice (src32 t o .a).toNat % 2 ^ 20))) s' := by
  have hfull : flagFull (t.begun o.bytes) (flagOf (t.begun o.bytes) o.fs) = false := hf
  have hfind : ((s.began k t o.bytes).core (t.begun o.bytes).core).routes.find? (fun r => r.treelet == (src32 (t.begun o.bytes) o .a).toNat) = none := hr
  have hex : exec (.tlook o) s = _ := runLong_lone (effTlook o) hl
  simp only [effTlook, hfull, hfind, Option.bind_none, Bool.false_eq_true, if_false] at hex
  exact ⟨_, hex, opened_ready { mkOp (t.begun o.bytes) o with dst := some (o.d.toNat, 1), size := 4 } _ hl hh ⟨rfl, rfl, rfl, rfl⟩⟩

/-! ### RESID and RESID.REQ (R320) -/

/-- A packet that is sent to a present die is on its way with its sender's words. -/
theorem inFlight_send_body {s : State} {p : Packet} (h : (s.die (epDie p.dst)).present = true) :
    InFlight (s.send p) (fun r => r.typ = p.typ ∧ r.src = p.src ∧ r.dst = p.dst ∧ r.body = p.body) := by
  unfold State.send
  dsimp only
  split <;> exact InFlight.mono (inFlight_inject (.inr h)) fun r hr => ⟨hr.typ, hr.src, hr.dst, hr.body⟩

/-- RESID and RESID.REQ ask the slice that serves the treelet, with the core's free pool units (log 125). -/
theorem residAsksTheSlice {i : Instr} {request : Bool} (hi : exec i s = runLong op o (askResidency o request) s) (hl : Lone op o s k t)
    (hf : flagFull t (flagOf t o.fs) = false) (hh : (s.team t.team).halted = false) (hp : (s.die (epDie (servingSlice s (src32 t o .a).toNat))).present = true) :
    ∃ s' u q, exec i s = .next s' ∧ s'.thread k = some u ∧ u.ops.find s.fresh = some q ∧ q.status = .sent ∧ q.dst = some (o.d.toNat, 1) ∧
      u.pc = t.pc + BitVec.ofNat 64 o.bytes ∧
      InFlight s' (fun pk => pk.typ = 0x0D ∧ pk.src = t.core ∧ pk.dst = servingSlice s (src32 t o .a).toNat ∧
        pk.body = .residency (src32 t o .a).toNat request (some (freeUnits (s.core t.core))) k s.fresh) := by
  let q : Op := { mkOp (t.begun o.bytes) o with
    dst := some (o.d.toNat, 1), size := 4, info := BitVec.ofNat 64 (src32 t o .a).toNat, seq := (s.core t.core).seq }
  let pk := mkPacket 0 0x0D t.core (servingSlice s (src32 t o .a).toNat) 1
    (.residency (src32 t o .a).toNat request (some (freeUnits (s.core t.core))) k s.fresh)
  let v := (addOp (s.began k t o.bytes) k q).1
  have hfull : flagFull (t.begun o.bytes) (flagOf (t.begun o.bytes) o.fs) = false := hf
  rw [runLong_lone _ hl, askResidency, hfull, if_neg Bool.false_ne_true] at hi
  have hagents : Agents v (v.send pk) := agents_send ..
  have hthread : (v.send pk).thread k = some (owing s (t.begun o.bytes) { q with issued := s.ticks }) :=
    (congrArg (NMap.find · k) hagents.threads :).trans (thread_issued (p := q) hl ⟨rfl, rfl, rfl, rfl⟩)
  obtain ⟨u, q', hgo, hq, hdst, hst⟩ := owes_settled (n := 1) (v := v.send pk) hl hh (congrArg State.cur hagents.eq :) hagents.teams hthread (stands_owing ..)
    (by rw [ops_owing]; exact NMap.find_put_same ..) rfl
  obtain ⟨hu, hpc, -, -⟩ := hgo
  exact ⟨_, u, q', hi, hu, hq, hst, hdst, hpc, inFlight_of_onlyThreads (onlyThreads_restop_settle_go ..) (inFlight_send_body (s := v) (p := pk) hp)⟩

end

/-- Settles O40: BOXT and TRIT check by check behind their read of scratch, TLOOK by what the route cache holds, RESID by what it sends. -/
theorem rayUnitsTestAndLookUp : Obligations.RayUnitsTestAndLookUp := by
  unfold Obligations.RayUnitsTestAndLookUp
  intro o off
  refine ⟨alone_of_runLong (fun _ => rfl) fun s k t _ ⟨hfree, hreads⟩ => ?boxt, alone_of_runLong (fun _ => rfl) fun s k t _ ⟨hfree, hreads⟩ => ?trit,
    fun s k t hl hf hh => ⟨fun r => tlookNamesNearest hl hf hh, tlookNamesHomeSlice hl hf hh⟩, ?resid⟩
  case boxt =>
    have hstart : Free (t.begun o.bytes) o false false := hfree
    have hreads' : UnitReads (s.began k t o.bytes) (t.begun o.bytes) o 128 128 off := hreads
    generalize s.began k t o.bytes = v, t.begun o.bytes = u at hstart hreads' ⊢
    rw [effBoxt, unitStart, memStart_free (release := none) hstart (fun _ h => by cases h), unitRead_reads hreads']
    dsimp only
    rw [boxResult_none, ← free_perfCount v u.core 7 1, ← fresh_perfCount v u.core 7 1]
    rfl
  case trit =>
    have hstart : Free (t.begun o.bytes) o false false := hfree
    have hreads' : UnitReads (s.began k t o.bytes) (t.begun o.bytes) o 48 16 off := hreads
    generalize s.began k t o.bytes = v, t.begun o.bytes = u at hstart hreads' ⊢
    rw [effTrit, unitStart, memStart_free (release := none) hstart (fun _ h => by cases h), unitRead_reads hreads']
    refine ite_congr rfl (fun _ => freeUnit_eq ..) fun _ => ?_
    refine congrArg (fun l => Out.go (addReady (perfCount v u.core 8 1) k (eightRegs u o) (wordsToBytes l))) ?_
    rcases (if (rayRun u o).degenerate = true then none else _) with _ | ⟨kind, d, x, y⟩
    · rfl
    · rfl
  case resid =>
    intro request s k t hl hf hh
    cases request
    · exact residAsksTheSlice rfl hl hf hh
    · exact residAsksTheSlice rfl hl hf hh

end Sys2Proof.RayLaws
end

section
/-! PROOFS. An enqueue for a queue that waits for its die to rejoin (R435, R440). -/

namespace Sys2Proof.RayLaws

open Sys2Proof Sys2Proof.Machine Sys2Proof.Claims

/-- HITQ to the endpoint in r8, with its payload in r16 to r31. -/
def hitqFields : Long := { longZero with a := 8#9, b := 16#9 }

/-- A thread of core 0 whose r8 names core 2 of die 1. -/
def hitqThread : Thread :=
  let t := mkThread 0 0 2 1 64 0 0x10004#64 0#64 (startSpecials true 0#64 0#64 0) 0
  { t with regs := t.regs.set 8 130#32 }

/-- It issues alone and its core has allowance left; the hit queue that it names waits for its die to rejoin. -/
def orphanedState : State :=
  { State.reset with
    cur := [10]
    teams := [(1, mkTeam 0 0 0 0 0 1 64 1)]
    threads := [(10, hitqThread)]
    cores := [(0, { Core.reset with allow := [(130, { flits := 2, used := 0 })] })]
    pkg := { State.reset.pkg with orphans := [(130, 1, Queue.reset)] } }

theorem lone_orphanedState : Lone .hitq hitqFields orphanedState 10 hitqThread := ⟨rfl, rfl, by decide +kernel⟩

theorem free_hitqThread : Free hitqThread hitqFields false true := by
  unfold Free
  decide +kernel

/-- Nothing that MayEnqueue names holds the hit back. -/
theorem mayEnqueue_orphanedState : MayEnqueue orphanedState hitqThread 130 2 := by
  have hlines : (orphanedState.core hitqThread.core).lines = [] := by decide +kernel
  refine ⟨rfl, by decide +kernel, by decide +kernel, ⟨by decide +kernel, fun l x h => ?_⟩, .inr (.inr ⟨by decide +kernel, { flits := 2, used := 0 }, by decide +kernel, le_rfl⟩)⟩
  rw [hlines] at h
  cases h

/-- Where the instruction of thread 10 leaves it. -/
def pcAfter (i : Instr) (s : State) : Option DWord :=
  match exec i s with
  | .next s' => (s'.thread 10).map (·.pc)
  | _ => none

/-- The hit is held at its source: the thread stays at its HITQ. -/
theorem pcAfter_orphanedState : pcAfter (.hitq hitqFields) orphanedState = some 0x10004#64 := by decide +kernel

/-- Refutes O41: an enqueue for a queue that waits for its die to rejoin is held at its source (R440); the conditions under which the statement has it leave
name adopted queues and dies that are being lost, and not these. -/
theorem not_enqueuesSendTheirEntry : ¬ Obligations.EnqueuesSendTheirEntry := by
  intro h
  obtain ⟨-, hhit, -⟩ := h hitqFields orphanedState 10 hitqThread (List.replicate 64 0#8) (by decide +kernel) free_hitqThread
  obtain ⟨s', he, u, -, -, hu, -, -, hpc, -⟩ := hhit true lone_orphanedState (by decide +kernel) mayEnqueue_orphanedState
  have he' : exec (.hitq hitqFields) orphanedState = .next s' := he
  have hheld := pcAfter_orphanedState
  simp only [pcAfter, he', hu, Option.map_some, hpc] at hheld
  exact absurd hheld (by decide)

end Sys2Proof.RayLaws
end

section
/-! PROOFS. A ray of another package whose payload ends before its flags, at its slice (R101, R108, R155). -/

namespace Sys2Proof.RayLaws

open Sys2Proof Sys2Proof.Machine Sys2Proof.Claims

/-- A payload of 32 bytes: of treelet 0, without FWD. -/
def shortRay : List Byte := List.replicate 32 0#8

/-- The packet of package 1 that brings it to the slice of treelet 0. -/
def shortRayPacket : Packet := { mkPacket 3 0x30 4096 (endpoint 16 125) 1 (.ray shortRay 0 farThread 7) with far := true }

/-- Treelet 0 is resident at core 2 of die 1. -/
def residentEntry : DirEntry :=
  { image := 0, size := 1, state := .resident, evp := none, norep := false, owners := [130], counter := 0, parked := [], attempt := none, held := false }

/-- The slice serves 256 treelets, and the packet is the one that arrives. -/
def shortRayState : State :=
  { State.reset with
    obj := 5
    fresh := 6
    packets := [(5, shortRayPacket)]
    slices := [(0, { Slice.reset with dsize := 0x80000100#32, entries := [(0, residentEntry)] })] }

theorem shortRay_arrives : Arrives shortRayState 0x30 shortRayPacket := by
  refine ⟨⟨rfl, by decide, by decide +kernel, fun ⟨_, q, hq, hlt, _⟩ => ?_⟩, fun ⟨hfar, _⟩ => absurd hfar (by decide), rfl⟩
  obtain rfl := List.mem_singleton.mp hq
  exact absurd hlt (by decide)

theorem shortRay_served : Serves shortRayState 0 ∧ ParksOnChip shortRayState 0 := ⟨⟨by decide, by decide⟩, by unfold ParksOnChip; decide⟩

/-- Packets on their way, on the mesh and at the ports. -/
def carried (s : State) : List Packet := NMap.vals s.packets ++ s.pkg.ports.flatMap (·.waiting)

theorem exists_carried_of_inFlight {s : State} {has : Packet → Prop} (h : InFlight s has) : ∃ pk ∈ carried s, has pk := by
  obtain ⟨pk, hpk | ⟨q, hq, hw⟩, hhas⟩ := h
  · exact ⟨pk, List.mem_append_left _ hpk, hhas⟩
  · exact ⟨pk, List.mem_append_right _ (List.mem_flatMap.mpr ⟨q, hq, hw⟩), hhas⟩

/-- The bytes of a packet that is a ray. -/
def rayBytes (p : Packet) : Option (List Byte) :=
  match p.body with
  | .ray bs _ _ _ => some bs
  | _ => none

/-- The rays that an instruction leaves on their way. -/
def raysAfter (i : Instr) (s : State) : List (List Byte) :=
  match exec i s with
  | .next s' => (carried s').filterMap rayBytes
  | _ => []

/-- The ray goes on to its owner with the flags cleared twice: when the slice takes it and when it sends it on. -/
theorem raysAfter_shortRayState : raysAfter .rayArrivalAtSlice shortRayState = [clearFwd (clearFwd shortRay)] := by decide +kernel

/-- Refutes O53: a ray of another package brings whatever bytes its sender gave it, and where they end before byte 44 each clearing of FWD lengthens them by the
flags; the slice clears it twice, and the statement once. -/
theorem not_slicesRouteParkAndPage : ¬ Obligations.SlicesRouteParkAndPage := by
  intro h
  obtain ⟨hserves, hparks⟩ := shortRay_served
  obtain ⟨hray, -⟩ := h shortRayState shortRayPacket shortRay 0 farThread 7 0 0
  obtain ⟨-, -, hplain, -⟩ := hray shortRay_arrives (by decide) rfl (by decide)
  obtain ⟨-, -, hresident⟩ := hplain hserves (by decide) rfl hparks
  obtain ⟨s', he, -, -, -, hflight⟩ := hresident 130 (by decide) (by decide) (by decide) (by decide +kernel)
  obtain ⟨pk, hpk, -, -, -, -, hbody⟩ := exists_carried_of_inFlight hflight
  have hmem : clearFwd shortRay ∈ raysAfter .rayArrivalAtSlice shortRayState := by
    simp only [raysAfter, he]
    exact List.mem_filterMap.mpr ⟨pk, hpk, by rw [rayBytes, hbody]⟩
  rw [raysAfter_shortRayState] at hmem
  exact absurd hmem (by decide)

end Sys2Proof.RayLaws
end

section
/-! PROOFS. Tile-task records (spec/05_matrix_engine.md): the record that an instruction builds (R128, R296, R297) and its acceptance (R131, R298). -/

namespace Sys2Proof.MatrixLaws

open Sys2Proof Sys2Proof.Machine Sys2Proof.Claims Sys2Proof.ExecutionLaws

/-! ### The fields of a built record -/

/-- The record's fields by opcode (R297). -/
def recordFields (op : LongOp) (o : Long) : Thread → RecordFields :=
  match op with
  | .tmma => mmaFields false o
  | .tmmas => mmaFields true o
  | .titer => iterFields o
  | .tpoly => polyFields o
  | .tfeed => feedFields o
  | .ttrn => trnFields o
  | .tsta => rowFields 6 o
  | .tlda => rowFields 7 o
  | _ => zeroFields o

/-- What holds of each task-building opcode holds of all. -/
theorem forall_builders {p : LongOp → Prop} : (∀ op ∈ builders, p op) ↔
    p .tmma ∧ p .tmmas ∧ p .titer ∧ p .tpoly ∧ p .tfeed ∧ p .ttrn ∧ p .tsta ∧ p .tlda ∧ p .tzero := by
  simp [builders]

theorem exec_builder (o : Long) (s : State) : ∀ op ∈ builders, exec (op.instr o) s = runLong op o (buildTask op o (recordFields op o)) s :=
  forall_builders.mpr ⟨rfl, rfl, rfl, rfl, rfl, rfl, rfl, rfl, rfl⟩

section
variable (t : Thread) (o : Long)

theorem groupPair_eq (i : Nat) : groupPair t o i = groupWide t o i := by
  rw [groupWide, BitVec.toNat_append, ← Nat.shiftLeft_add_eq_or_of_lt (t.reg (o.e.toNat + i)).isLt, Nat.shiftLeft_eq, groupPair, groupWord, groupWord, Nat.add_comm,
    Nat.mul_comm, Nat.add_assoc]

/-- One bit of the group as a number. -/
theorem groupBits_single (i b : Nat) : groupBits t o i b b = if (groupWord t o i).testBit b then 1 else 0 := by
  rw [groupBits, groupWord, Nat.testBit_eq_decide_div_mod_eq, Nat.add_sub_cancel_left, pow_one]
  rcases Nat.mod_two_eq_zero_or_one ((t.reg (o.e.toNat + i)).toNat / 2 ^ b) with h | h
  · simp [h]
  · simp [h]

theorem groupBits_eq_one (i b : Nat) : (groupBits t o i b b = 1) = ((groupWord t o i).testBit b = true) := by
  rw [groupBits_single]
  split
  · next h => simp [h]
  · next h => simp [h]

theorem bits_groupWord (i h l : Nat) : bits (groupWord t o i) h l = groupBits t o i h l := rfl

theorem groupBits_low (i : Nat) : groupWord t o i % 65536 = groupBits t o i 15 0 := by
  rw [groupBits, groupWord, pow_zero, Nat.div_one]; rfl

end

/-- The low bit of a field as a number. -/
theorem lowBit_eq (m : BitVec 4) : (if m[0] = true then 1 else 0) = m.toNat % 2 := by
  revert m
  decide

/-- The record that an instruction builds, as the manual lays it out; a TFEED's MODE is its low bit alone. -/
theorem recordFields_bytes (o : Long) (t : Thread) :
    ∀ op ∈ builders, (op = .tfeed → o.m4.toNat % 2 = o.m4.toNat) → (recordFields op o t).bytes = builtRecord op o t := by
  have hreg : (t.reg (o.e.toNat + 1)).toNat = groupWord t o 1 := rfl
  refine forall_builders.mpr ⟨?_, ?_, ?_, ?_, ?_, ?_, ?_, ?_, ?_⟩
  all_goals
    intro hm
    simp [builtRecord, RecordFields.bytes, recordFields, mmaFields, iterFields, polyFields, feedFields, trnFields, rowFields, zeroFields, commonFields, tileAddress,
      groupBits_single, groupPair_eq, bits_groupWord, groupBits_low, bit, flagBit, lowBit_eq, hm, hreg]

/-! ### Acceptance -/

theorem recordFields_tile (o : Long) (t : Thread) : ∀ op ∈ builders, (recordFields op o t).tile = o.d.toNat :=
  forall_builders.mpr ⟨rfl, rfl, rfl, rfl, rfl, rfl, rfl, rfl, rfl⟩

/-- A TFEED's address is its source tile and the version it expects there. -/
theorem aaddr_tfeed (o : Long) (t : Thread) : (recordFields .tfeed o t).aaddr = o.a.toNat + groupBits t o 1 15 0 * 2 ^ 16 := by
  rw [← groupBits_low]
  rfl

/-- Only a TFEED names a second tile. -/
theorem recordFields_feeds (o : Long) (t : Thread) (n : Nat) : ∀ op ∈ builders,
    ((recordFields op o t).kind = 4 ∧ n ≤ (recordFields op o t).aaddr % 8) = (op = .tfeed ∧ n ≤ (o.a.toNat + groupBits t o 1 15 0 * 2 ^ 16) % 8) := by
  refine forall_builders.mpr ⟨?_, ?_, ?_, ?_, ?_, ?_, ?_, ?_, ?_⟩
  all_goals simp [recordFields, mmaFields, iterFields, polyFields, feedFields, trnFields, rowFields, zeroFields, groupBits_low]

/-- Only a TSTA or TLDA of 32-bit elements asks for a tile that is not W16. -/
theorem recordFields_narrow (o : Long) (t : Thread) (w16 : Bool) : ∀ op ∈ builders,
    ((w16 && ((recordFields op o t).kind == 6 || (recordFields op o t).kind == 7) && ((recordFields op o t).mode == 0 || (recordFields op o t).mode == 8)) = true) =
      ((op = .tsta ∨ op = .tlda) ∧ (o.ty = 0#4 ∨ o.ty = 8#4) ∧ w16 = true) := by
  have hty : ∀ n : BitVec 4, (o.ty = n) = (o.ty.toNat = n.toNat) := fun n => propext ⟨congrArg _, BitVec.eq_of_toNat_eq⟩
  refine forall_builders.mpr ⟨?_, ?_, ?_, ?_, ?_, ?_, ?_, ?_, ?_⟩
  all_goals simp [recordFields, mmaFields, iterFields, polyFields, feedFields, trnFields, rowFields, zeroFields, hty, and_comm]

section
variable {op : LongOp} {o : Long} {s : State} {k lk : Nat} {t : Thread}

/-- An instruction that executes has a MODE that its opcode allows (R379). -/
theorem shape_ok0_of_lone (h : Lone op o s k t) : (shape op o).ok0 = true := by
  obtain ⟨-, ht, hr⟩ := h
  simp only [laneRuns, ht, Bool.and_eq_true] at hr
  obtain ⟨⟨⟨⟨⟨⟨-, hfield⟩, -⟩, -⟩, -⟩, -⟩, -⟩ := hr
  by_contra hok
  simp only [fieldTrap, Bool.not_eq_true] at hfield hok
  split at hfield
  · cases hfield
  · simp [hok] at hfield

theorem mode_of_lone_tfeed (h : Lone .tfeed o s k t) : o.m4.toNat % 2 = o.m4.toNat := by
  have hok := shape_ok0_of_lone h
  simp only [shape, upTo, decide_eq_true_eq] at hok
  omega

theorem tileTrap_eq_badTile (s : State) (m : Team) (i : Nat) (t : Thread) : tileTrap s m i t = badTile s m i t := by
  rw [tileTrap, Bool.and_comm]
  rfl

theorem buildsPending_of_noBuilds (h : noBuilds t) : buildsPending t = false := by
  simp only [buildsPending, List.any_eq_false, Bool.or_eq_true, beq_iff_eq, not_or]
  exact h

/-- A record is accepted for a thread with the next of its atomic indices. -/
theorem acceptFor_eq (r : List Byte) (source : DWord) (hint : Nat) (ht : s.thread k = some t) :
    acceptFor s k t lk r source hint = Claims.withRecord s k t lk r source hint := by
  have hct : (trCt r = true) = (field r 6 2 % 2 = 1) := by simp [trCt, Nat.testBit_zero]
  simp only [acceptFor, nextIndex, ht, Claims.withRecord, hct]
  rfl

/-- A task-building instruction that nothing holds back: the checks of its record, in order, and its acceptance. -/
theorem buildTask_eq_buildDid (hop : op ∈ builders) (hm : op = .tfeed → o.m4.toNat % 2 = o.m4.toNat) (ht : s.thread k = some t) (hl : Lends s t lk)
    (hf : Free t o false true) (hb : noBuilds t) : buildTask op o (recordFields op o) s k t = buildDid op o lk s k t := by
  have hl' : lendingTeam s t.team = some lk := hl
  simp only [buildTask, withLender, hl', recordFields_bytes o t op hop hm, recordFields_tile o t op hop, recordFields_feeds o t _ op hop,
    recordFields_narrow o t _ op hop, memStart_free (release := some 0) hf (by decide), buildsPending_of_noBuilds hb, Bool.false_or, acceptFor_eq _ _ _ ht, buildDid,
    tileTrap_eq_badTile]
  -- the control word, the tile, the tile that a feed reads, the width, the limits, and the room in the queue
  refine ite_congr rfl (fun _ => rfl) fun _ => ite_congr rfl (fun _ => rfl) fun _ => ite_congr rfl (fun hfeed => ?_) fun _ => ite_congr rfl (fun _ => rfl) fun _ =>
    ite_congr (Bool.not_eq_true' _) (fun _ => rfl) fun _ => rfl
  rw [hfeed.1, aaddr_tfeed]

end

/-- Settles O36: the record that the model builds is the manual's, and the checks before its acceptance are the statement's. -/
theorem taskBuildersEnqueueTheirRecord : Obligations.TaskBuildersEnqueueTheirRecord := by
  refine ⟨fun op hop o lk => alone_of_runLong (exec_builder o · op hop) fun s k t hlone ⟨hl, hf, hb⟩ => ?_, fun s lk space r prio priv source index hint => rfl⟩
  have ⟨_, ht, _⟩ := hlone
  exact buildTask_eq_buildDid hop (fun h => mode_of_lone_tfeed (h ▸ hlone)) (thread_began o.bytes ht) hl hf hb

end Sys2Proof.MatrixLaws
end

section
/-! PROOFS. Tile tasks on the array (R125 to R138, R307, R308, R392 to R398): what leaves the tiles alone, and what starting, a step, completion, a TWMMA and a version out of
reach do. -/

namespace Sys2Proof.MatrixLaws

open Sys2Proof Sys2Proof.Machine Sys2Proof.Claims Sys2Proof.ExecutionLaws

/-! ### What a change of a core leaves of it -/

/-- What a change of a core keeps reads as before, at every core. -/
theorem kept_updCore {α : Type} (g : Core → α) (s : State) (e : Nat) {f : Core → Core} (hf : ∀ c, g (f c) = g c) (ep : Nat) :
    g ((s.updCore e f).core ep) = g (s.core ep) := by
  by_cases h : ep = e
  · subst h
    rw [State.core_updCore_same, hf]
  · rw [State.core_updCore_other _ _ h]

/-- What is no counter of a core reads as before an event was counted. -/
theorem kept_perfCount {α : Type} (g : Core → α) (s : State) (e code n : Nat) (hg : ∀ c i p, g { c with issued := i, perf := p } = g c) (ep : Nat) :
    g ((perfCount s e code n).core ep) = g (s.core ep) :=
  (hg ..).symm.trans (congrArg g ((IssueRecorded.perfCount s e code n).cores ep))

theorem mem_perfCount (s : State) (e code n : Nat) : (perfCount s e code n).mem = s.mem :=
  (congrArg State.mem (IssueRecorded.perfCount s e code n).rest :)

theorem tasks_perfCount (s : State) (e code n ep : Nat) : ((perfCount s e code n).core ep).tasks = (s.core ep).tasks :=
  kept_perfCount Core.tasks s e code n (fun _ _ _ => rfl) ep

theorem tasks_dropReads (s : State) (e ep : Nat) : ((dropReads s e).core ep).tasks = (s.core ep).tasks := by
  unfold dropReads
  refine kept_updCore Core.tasks s e (fun _ => ?_) ep
  rfl

theorem tasks_updTile (s : State) (m : Team) (i : Nat) (f : Tile → Tile) (ep : Nat) : ((updTile s m i f).core ep).tasks = (s.core ep).tasks := by
  unfold updTile
  refine kept_updCore Core.tasks s m.core (fun _ => ?_) ep
  rfl

theorem mxexc_updTile (s : State) (m : Team) (i : Nat) (f : Tile → Tile) (ep : Nat) : ((updTile s m i f).core ep).mxexc = (s.core ep).mxexc := by
  unfold updTile
  refine kept_updCore Core.mxexc s m.core (fun _ => ?_) ep
  rfl

theorem tasks_updTask (s : State) (ep key : Nat) (f : Task → Task) : ((updTask s ep key f).core ep).tasks = (s.core ep).tasks.adjust key f := by
  rw [updTask, State.core_updCore_same]

/-- A task that is listed is found as it was changed. -/
theorem find_tasks_updTask {s : State} {ep key : Nat} {x : Task} (f : Task → Task) (h : (s.core ep).tasks.find key = some x) :
    ((updTask s ep key f).core ep).tasks.find key = some (f x) := by
  rw [tasks_updTask, NMap.find_adjust_same, h, Option.map_some]

/-! ### Tiles -/

/-- Every core's tiles are as before. -/
structure KeepsTiles (s s' : State) : Prop where
  tiles : ∀ ep, (s'.core ep).tiles = (s.core ep).tiles

namespace KeepsTiles

theorem refl (s : State) : KeepsTiles s s := ⟨fun _ => rfl⟩

theorem trans {s u v : State} (h : KeepsTiles s u) (k : KeepsTiles u v) : KeepsTiles s v := ⟨fun ep => (k.tiles ep).trans (h.tiles ep)⟩

theorem ofCore {s s' : State} (h : ∀ ep, s'.core ep = s.core ep) : KeepsTiles s s' := ⟨fun ep => congrArg Core.tiles (h ep)⟩

theorem updCore (s : State) (e : Nat) {f : Core → Core} (hf : ∀ c, (f c).tiles = c.tiles) : KeepsTiles s (s.updCore e f) := ⟨kept_updCore Core.tiles s e hf⟩

theorem foldl {α : Type} (l : List α) (f : State → α → State) (h : ∀ s x, KeepsTiles s (f s x)) (s : State) : KeepsTiles s (l.foldl f s) :=
  List.foldlRecOn l f (refl s) (fun u hu x _ => hu.trans (h u x))

theorem perfCount (s : State) (e code n : Nat) : KeepsTiles s (perfCount s e code n) := ⟨kept_perfCount Core.tiles s e code n fun _ _ _ => rfl⟩

theorem updTask (s : State) (e key : Nat) (f : Task → Task) : KeepsTiles s (updTask s e key f) := updCore s e fun _ => rfl

theorem dropReads (s : State) (e : Nat) : KeepsTiles s (dropReads s e) := updCore s e fun _ => rfl

theorem updQueue (s : State) (e q : Nat) (f : Queue → Queue) : KeepsTiles s (s.updQueue e q f) :=
  updCore s e fun c => by rcases q with _ | _ | _ | q <;> rfl

theorem dropEntry (s : State) (e q k : Nat) : KeepsTiles s (dropEntry s e q k) := by
  simp only [Machine.dropEntry]
  split
  · exact (ofCore fun ep => core_writeRings ..).trans (updQueue ..)
  · exact updQueue ..

theorem purgeCore (s : State) (e : Nat) (d : DWord) : KeepsTiles s (purgeCore s e d) := by
  simp only [Machine.purgeCore]
  refine updCore s e fun _ => ?_
  rfl

theorem purge (s : State) (e : Nat) (d : DWord) : KeepsTiles s (purge s e d) := by
  simp only [Machine.purge]
  split
  · split
    · exact ofCore fun _ => rfl
    · exact refl s
  · exact ofCore fun _ => rfl
  · exact ofCore fun _ => rfl
  · refine KeepsTiles.trans ?_ (foldl _ (fun u l => Machine.purgeCore u (endpoint (epDie e) l) d) (fun u l => purgeCore ..) _)
    exact ofCore fun _ => rfl
  · exact purgeCore ..

theorem sendNotices (s : State) (e : Nat) (d : DWord) (places : List Nat) : KeepsTiles s (sendNotices s e d places) := by
  refine foldl _ _ (fun u ep => ?_) s
  split
  · exact purge ..
  · exact ofCore fun _ => core_inject ..

theorem dropTask (s : State) (e key : Nat) (x : Task) (places : List Nat) : KeepsTiles s (dropTask s e key x places) := by
  have hcore : KeepsTiles s (s.updCore e (fun c => { c with tasks := c.tasks.drop key })) := updCore s e fun _ => rfl
  unfold Machine.dropTask
  split
  · exact hcore
  · exact ((hcore.trans (dropEntry ..)).trans (sendNotices ..)).trans (ofCore fun _ => rfl)

theorem commitExc (s : State) (e : Nat) (excs : BitVec 4) : KeepsTiles s (commitExc s e excs) := by
  simp only [Machine.commitExc]
  split
  · exact refl s
  · refine (updCore s e fun _ => ?_).trans (foldl _ _ (fun u i => ?_) _)
    · rfl
    · split
      · exact ofCore fun _ => rfl
      · exact refl u

theorem commitOnce (s : State) (e : Nat) (x : Task) (excs : BitVec 4) : KeepsTiles s (commitOnce s e x excs) := by
  unfold Machine.commitOnce
  split
  · exact commitExc ..
  · split
    · exact refl s
    · exact (commitExc ..).trans (ofCore fun _ => rfl)

theorem reportFault (s : State) (e : Nat) (x : Task) (code : Nat) (info : DWord) (version : Nat) : KeepsTiles s (reportFault s e x code info version) :=
  ofCore fun _ => rfl

end KeepsTiles

theorem teamTile_of_keepsTiles {s s' : State} (h : KeepsTiles s s') (m : Team) (i : Nat) : teamTile s' m i = teamTile s m i := by
  rw [teamTile, h.tiles, teamTile]

/-- A tile that is changed reads as changed. -/
theorem teamTile_updTile {s : State} {m : Team} {i : Nat} (f : Tile → Tile) (h : tileIndex m i < (s.core m.core).tiles.length) :
    teamTile (updTile s m i f) m i = f (teamTile s m i) := by
  rw [teamTile, updTile, State.core_updCore_same, teamTile]
  simp [List.getD_eq_getElem?_getD, h]

theorem lt_of_holds {s : State} {x : Task} {ep i : Nat} (h : Holds s x ep i) : tileIndex (s.team x.team) i < (s.core (s.team x.team).core).tiles.length := by
  obtain ⟨hcore, hlt⟩ := h
  rw [hcore]
  exact hlt

/-! ### Completion (R130, R133, R393) -/

/-- The task's tile is at the next version. -/
def raised (y : Tile) : Tile := { y with version := (y.version + 1) % 65536 }

theorem namedTiles_single {x : Task} (h : trKind x.record ≠ 4) : namedTiles x = [trTile x.record] := if_neg h

/-- But for its tile a task that completes leaves the tiles alone. -/
theorem keepsTiles_finishTask {s : State} {ep key : Nat} {x : Task} (h : trKind x.record ≠ 4) :
    KeepsTiles (updTile s (s.team x.team) (trTile x.record) raised) (finishTask s ep key x) := by
  have hend : ∀ (u : State) (f : Task → Task), KeepsTiles u (if trCt x.record = true then updTask u ep key f else dropTask u ep key x) := fun u f => by
    split
    · exact .updTask ..
    · exact .dropTask ..
  rw [finishTask, namedTiles_single h]
  refine (KeepsTiles.trans ?_ (KeepsTiles.trans (.perfCount ..) (.commitOnce ..))).trans (hend ..)
  split
  · exact .reportFault ..
  · exact .refl _

theorem teamTile_finishTask {s : State} {ep key : Nat} {x : Task} (h : trKind x.record ≠ 4) (ht : Holds s x ep (trTile x.record)) :
    teamTile (finishTask s ep key x) (s.team x.team) (trTile x.record) = raised (teamTile s (s.team x.team) (trTile x.record)) := by
  rw [teamTile_of_keepsTiles (keepsTiles_finishTask h), teamTile_updTile _ (lt_of_holds ht)]

theorem recordDeriv_none {s : State} {ep : Nat} {x : Task} (h : x.entry = none) : recordDeriv s ep x = none := by rw [recordDeriv, h]; rfl

theorem commitExc_zero (s : State) (ep : Nat) : commitExc s ep 0#4 = s := rfl

/-- A task of no record that has met no fault and no exception completes: its version rises, and its target is due or it is over. -/
theorem finishTask_plain {s : State} {ep key : Nat} {x : Task} (h : trKind x.record ≠ 4) (hf : x.fault = none) (hx : x.excs = 0#4) (he : x.entry = none)
    (ht : Holds s x ep (trTile x.record)) :
    let s1 := perfCount (updTile s (s.team x.team) (trTile x.record) raised) ep 9 1
    finishTask s ep key x = if trCt x.record = true then
        updTask s1 ep key (fun y => { y with due := some (raised (teamTile s (s.team x.team) (trTile x.record))).version })
      else s1.updCore ep (fun c => { c with tasks := c.tasks.drop key }) := by
  have hv := teamTile_updTile raised (lt_of_holds ht)
  have hcommit : ∀ u : State, commitOnce u ep x (x.excs ||| if x.fault.isSome = true then excFLT else 0#4) = u := fun u => by
    rw [commitOnce, recordDeriv_none he, hx, hf]
    exact commitExc_zero u ep
  have hdrop : ∀ u : State, dropTask u ep key x = u.updCore ep (fun c => { c with tasks := c.tasks.drop key }) := fun u => by
    rw [dropTask, he]
  intro s1
  simp only [finishTask, namedTiles_single h, List.foldl_cons, List.foldl_nil, hcommit, hdrop]
  simp only [hf]
  rw [← hv]
  rfl

/-! ### A step (R134) -/

section
variable {s : State} {ep key : Nat} {x : Task}

/-- A step that is made: the loop's last raises its tile's version at once (R135). -/
theorem shawmStep_ok {s1 : State} {x' : Task} {last : Bool} (h : Steps s ep key x) (hd : x.done = false) (hs : taskStep s ep x = .ok s1 (x', last)) :
    let y := { x' with step := x.step + 1, done := last }
    let s2 := updTask (perfCount (dropReads s1 ep) ep 10 1) ep key (fun _ => y)
    shawmStep s ep = if last = true ∧ trKind x.record = 2 then finishTask s2 ep key y else s2 := by
  obtain ⟨hfree, hwaves, hrun, -⟩ := h
  simp [shawmStep, hfree, hwaves, hrun, hd, hs]

/-- A step that meets a fault, of a task that is no loop. -/
theorem shawmStep_fault {s1 : State} {code : Nat} {info : DWord} (h : Steps s ep key x) (hd : x.done = false) (hk : trKind x.record ≠ 2)
    (hs : taskStep s ep x = .fault s1 code info) :
    shawmStep s ep = updTask (dropReads s1 ep) ep key (fun _ => { x with fault := some (code, info), done := true }) := by
  obtain ⟨hfree, hwaves, hrun, -⟩ := h
  simp [shawmStep, hfree, hwaves, hrun, hd, hs, hk]

/-- A step of a kind other than the loop's ends with the task changed in its place. -/
theorem shawmStep_ok_other {s1 : State} {x' : Task} {last : Bool} (h : Steps s ep key x) (hd : x.done = false) (hs : taskStep s ep x = .ok s1 (x', last))
    (hl : trKind x.record = 2 → last = false) :
    shawmStep s ep = updTask (perfCount (dropReads s1 ep) ep 10 1) ep key (fun _ => { x' with step := x.step + 1, done := last }) := by
  rw [shawmStep_ok h hd hs, if_neg]
  rintro ⟨rfl, h2⟩
  cases hl h2

/-- What a step that is made leaves of the tiles. -/
theorem keepsTiles_stepped (s : State) (ep key : Nat) (f : Task → Task) : KeepsTiles s (updTask (perfCount (dropReads s ep) ep 10 1) ep key f) :=
  (KeepsTiles.dropReads ..).trans ((KeepsTiles.perfCount ..).trans (.updTask ..))

theorem tasks_stepped (s : State) (ep key : Nat) (f : Task → Task) :
    ((updTask (perfCount (dropReads s ep) ep 10 1) ep key f).core ep).tasks = (s.core ep).tasks.adjust key f := by
  rw [tasks_updTask, tasks_perfCount, tasks_dropReads]

theorem mem_stepped (s : State) (ep key : Nat) (f : Task → Task) : (updTask (perfCount (dropReads s ep) ep 10 1) ep key f).mem = s.mem :=
  mem_perfCount ..

/-- A step leaves the task its record and its team. -/
def SameTask (x : Task) (r : StepEnd) : Prop := ∀ s1 x' last, r = .ok s1 (x', last) → x'.record = x.record ∧ x'.team = x.team

theorem sameTask_ok {u : State} {y : Task} {last : Bool} (hr : y.record = x.record) (ht : y.team = x.team) : SameTask x (.ok u (y, last)) := by
  rintro s1 x' l ⟨⟩
  exact ⟨hr, ht⟩

theorem sameTask_stepIter : SameTask x (stepIter s x) := by
  simp only [stepIter, iterGo, iterStop]
  -- phase 0 transposes, 1 multiplies, 2 takes the residual; from 3 on the diagonal updates, and last the product with the polynomial
  split
  · exact sameTask_ok rfl rfl
  split
  · split
    · rintro _ _ _ ⟨⟩
    · exact sameTask_ok rfl rfl
  split
  · split
    · exact sameTask_ok rfl rfl
    · split
      · exact sameTask_ok rfl rfl
      · exact sameTask_ok rfl rfl
  split
  · split
    · exact sameTask_ok rfl rfl
    · exact sameTask_ok rfl rfl
  · split
    · exact sameTask_ok rfl rfl
    · exact sameTask_ok rfl rfl

end

/-! ### The rows of the table -/

section
variable {s : State} {ep key : Nat} {x : Task}

/-- The tile's state word as a loop begins (R135). -/
def restarted (y : Tile) : Tile := { y with status := 1, phase := 0, iter := 0 }

/-- TILE_TASK_START (R130, R392): the ready task is on the array, or its fault is found; a loop starts over in its tile's state word. -/
theorem startTask_started (hfree : arrayFree s ep = true) (hwaves : (s.core ep).waves = []) (hrun : runningTask s ep = none) (hnext : nextTask s ep = some (key, x))
    (hx : (s.core ep).tasks.find key = some x) :
    ((startTask s ep).core ep).tasks.find key = some { x with started := true, fault := startFault s x, done := (startFault s x).isSome } ∧
      (startTask s ep).mem = s.mem ∧
      (trKind x.record = 2 → startFault s x = none → Holds s x ep (trTile x.record) →
        let y := teamTile (startTask s ep) (s.team x.team) (trTile x.record)
        y.status = 1 ∧ y.phase = 0 ∧ y.iter = 0) := by
  let s1 := updTask s ep key (fun y => { y with started := true, fault := startFault s x, done := (startFault s x).isSome })
  have hfind : (s1.core ep).tasks.find key = some { x with started := true, fault := startFault s x, done := (startFault s x).isSome } := find_tasks_updTask _ hx
  have hstart : startTask s ep = if (trKind x.record = 2 ∧ startFault s x = none) then updTile s1 (s.team x.team) (trTile x.record) restarted else s1 := by
    simp only [startTask, hfree, hwaves, hrun, hnext, List.isEmpty_nil, Bool.not_true, Bool.or_false, Option.isSome_none, Bool.false_eq_true, if_false,
      Bool.and_eq_true, decide_eq_true_eq, Option.isNone_iff_eq_none]
    rfl
  rw [hstart]
  split
  · next h =>
    refine ⟨(tasks_updTile ..).symm ▸ hfind, rfl, fun _ _ ht => ?_⟩
    have hlt : tileIndex (s.team x.team) (trTile x.record) < (s1.core (s.team x.team).core).tiles.length := by
      rw [(KeepsTiles.updTask ..).tiles]
      exact lt_of_holds ht
    rw [teamTile_updTile _ hlt]
    exact ⟨rfl, rfl, rfl⟩
  · next h => exact ⟨hfind, rfl, fun hk hf _ => absurd ⟨hk, hf⟩ h⟩

/-- While a task is on the array no other starts. -/
theorem startTask_running {p : Nat × Task} (h : runningTask s ep = some p) : startTask s ep = s := by
  simp [startTask, h]

/-- The step at which a loop stops raises its tile's version (R135). -/
theorem shawmStep_raises {s1 : State} {x' : Task} (h : Steps s ep key x) (hd : x.done = false) (hk : trKind x.record = 2) (hs : taskStep s ep x = .ok s1 (x', true))
    (ht : Holds s1 x ep (trTile x.record)) (hteams : s1.teams = s.teams) :
    teamTile (shawmStep s ep) (s.team x.team) (trTile x.record) = raised (teamTile s1 (s.team x.team) (trTile x.record)) := by
  obtain ⟨hrec, hteam⟩ : x'.record = x.record ∧ x'.team = x.team := by
    rw [taskStep, hk] at hs
    exact sameTask_stepIter _ _ _ hs
  let y : Task := { x' with step := x.step + 1, done := true }
  let s2 := updTask (perfCount (dropReads s1 ep) ep 10 1) ep key (fun _ => y)
  have hy : trTile y.record = trTile x.record := congrArg trTile hrec
  have hs2 : s2.team y.team = s.team x.team := by
    have h1 : s2.teams = s1.teams := (agents_perfCount (dropReads s1 ep) ep 10 1).teams
    show (s2.teams.find x'.team).getD default = _
    rw [h1, hteams, hteam]
    rfl
  have hs1 : s1.team x.team = s.team x.team := by rw [State.team, hteams]; rfl
  have hkeep : KeepsTiles s1 s2 := keepsTiles_stepped ..
  have hty : Holds s2 y ep (trTile y.record) := by
    rw [Holds, hy, hs2, hkeep.tiles, ← hs1]
    exact ht
  have hfin := teamTile_finishTask (key := key) (show trKind y.record ≠ 4 by rw [show y.record = x.record from hrec, hk]; decide) hty
  rw [hy, hs2, teamTile_of_keepsTiles hkeep] at hfin
  rw [shawmStep_ok h hd hs, if_pos ⟨rfl, hk⟩]
  exact hfin

/-- A tile of zeros, of a width (R129). -/
def cleared (w16 : Bool) (y : Tile) : Tile := { y with elems := zeroTile, w16 := w16 }

/-- ZERO clears its tile (R129). -/
theorem shawmStep_zero (h : Steps s ep key x) (hd : x.done = false) (hk : trKind x.record = 8) (ht : Holds s x ep (trTile x.record)) :
    ((shawmStep s ep).core ep).tasks.find key = some { x with step := x.step + 1, done := true } ∧
      (teamTile (shawmStep s ep) (s.team x.team) (trTile x.record)).elems = List.replicate 1024 0#32 ∧ (shawmStep s ep).mem = s.mem := by
  have hs : taskStep s ep x = .ok (updTile s (s.team x.team) (trTile x.record) (cleared ((trMode x.record).testBit 0))) (x, true) := by
    rw [taskStep, hk]
    rfl
  have ⟨_, _, _, hfind⟩ := h
  rw [shawmStep_ok_other h hd hs (fun h2 => absurd (hk.symm.trans h2) (by decide))]
  refine ⟨?_, ?_, mem_stepped ..⟩
  · rw [tasks_stepped, tasks_updTile, NMap.find_adjust_same, hfind]
    rfl
  · rw [teamTile_of_keepsTiles (keepsTiles_stepped ..), teamTile_updTile _ (lt_of_holds ht)]
    rfl

/-- A task's read of one range of scratch, where it meets no error. -/
theorem taskRead_scratch {addr n off : Nat} (ha : trAspace x.record = true) (ho : scratchOffset s ep (s.team x.space) x.priv false addr n = some off)
    (he : hitsError s (scratchLoc ep off) n false = false) : taskRead s ep x [(addr, n)] = .ok s (readScratch s ep off n) := by
  simp [taskRead, ha, ho, he]

/-- LOAD from scratch takes a row of 32-bit elements as it stands (R137, R299). -/
theorem shawmStep_load {off : Nat} (h : Steps s ep key x) (hd : x.done = false) (hk : trKind x.record = 7) (hm : trMode x.record = 0) (ht : Holds s x ep (trTile x.record))
    (ha : trAspace x.record = true) (ho : scratchOffset s ep (s.team x.space) x.priv false (trAaddr x.record + x.step * trAstride x.record) 128 = some off)
    (he : hitsError s (scratchLoc ep off) 128 false = false) :
    (teamTile (shawmStep s ep) (s.team x.team) (trTile x.record)).elems =
      setWords (teamTile s (s.team x.team) (trTile x.record)).elems (32 * x.step) (bytesToWords 32 (readScratch s ep off 128)) := by
  obtain ⟨x', last, hs⟩ : ∃ x' last, taskStep s ep x = .ok (setElems s x (setWords (teamTile s (s.team x.team) (trTile x.record)).elems (32 * x.step)
      (bytesToWords 32 (readScratch s ep off 128)))) (x', last) := by
    simp [taskStep, hk, stepRow, hm, taskRead_scratch ha ho he, rowWords]
  rw [shawmStep_ok_other h hd hs (fun h2 => absurd (hk.symm.trans h2) (by decide)), teamTile_of_keepsTiles (keepsTiles_stepped ..), setElems, teamTile_updTile _ (lt_of_holds ht)]

/-- TILE_TASK_COMPLETE of the only task, which is done (R130, R133, R393): its version rises, and its target is due or it is over. -/
theorem completeTask_done (htasks : (s.core ep).tasks = [(key, x)]) (hrun : runningTask s ep = some (key, x)) (hdue : x.due = none) (hd : x.done = true)
    (hf : x.fault = none) (hx : x.excs = 0#4) (hk : trKind x.record ≠ 4) (ht : Holds s x ep (trTile x.record)) (he : x.entry = none) :
    teamTile (completeTask s ep) (s.team x.team) (trTile x.record) = raised (teamTile s (s.team x.team) (trTile x.record)) ∧
      ((completeTask s ep).core ep).mxexc = (s.core ep).mxexc ∧ (completeTask s ep).mem = s.mem ∧
      ((completeTask s ep).core ep).tasks =
        if trCt x.record = true then [(key, { x with due := some (raised (teamTile s (s.team x.team) (trTile x.record))).version })] else [] := by
  have hcomplete : completeTask s ep = finishTask s ep key x := by simp [completeTask, htasks, hdue, hrun, hd]
  let s1 := perfCount (updTile s (s.team x.team) (trTile x.record) raised) ep 9 1
  have hmx : (s1.core ep).mxexc = (s.core ep).mxexc :=
    (kept_perfCount Core.mxexc _ _ _ _ (fun _ _ _ => rfl) ep).trans (mxexc_updTile ..)
  have hts : (s1.core ep).tasks = [(key, x)] := (tasks_perfCount ..).trans ((tasks_updTile ..).trans htasks)
  have hmem : s1.mem = s.mem := mem_perfCount ..
  refine ⟨hcomplete ▸ teamTile_finishTask hk ht, ?_⟩
  rw [hcomplete, finishTask_plain hk hf hx he ht]
  split
  · refine ⟨?_, hmem, ?_⟩
    · rw [updTask, State.core_updCore_same]
      exact hmx
    · rw [tasks_updTask, hts]
      simp [NMap.adjust]
  · refine ⟨?_, hmem, ?_⟩
    · rw [State.core_updCore_same]
      exact hmx
    · rw [State.core_updCore_same, hts]
      simp [NMap.drop]

/-- A completion target that is due is written, and the task is over (R133). -/
theorem completeTask_due {v pa : Nat} {s1 s2 : State} {e : DWord} {bs : List Byte} (hfind : (s.core ep).tasks.find? (fun p => p.2.due.isSome) = some (key, x))
    (hv : x.due = some v) (ha : trCtaddr x.record % 4 = 0)
    (hp : agentPlace s ep (s.team x.space).asid (s.team x.space).root x.priv (if trCtadd x.record then 3 else 1) (trCtaddr x.record) = .ok s1 pa e)
    (hw : writeTarget s1 ep x v pa e = .ok s2 bs) (he : x.entry = none) :
    completeTask s ep = s2.updCore ep (fun c => { c with tasks := c.tasks.drop key }) := by
  simp [completeTask, hfind, payTarget, ha, hp, hv, hw, dropTask, he]

/-- The place of a lane among a wave's lanes, where there is one. -/
theorem idxOf?_single (lane i : Nat) : [lane].idxOf? i = if i = lane then some 0 else none := by
  by_cases h : i = lane
  · simp [h, List.idxOf?_cons]
  · simp [h, Ne.symm h, List.idxOf?_cons]

/-- TWMMA_RUN for one lane (R307). -/
theorem runWave_single {w : WaveTask} {rest : List WaveTask} {lane k op : Nat} {cols : List (List Byte)} (hfree : arrayFree s ep = true)
    (hwaves : (s.core ep).waves = w :: rest) (hlanes : w.lanes = [(lane, k, op)])
    (hcols : columnRead s (s.team w.team) w.boff (4 * widthOf (w.o.p5.toNat % 16)) = .ok cols) :
    let ta := w.o.ty.toNat
    let tb := w.o.p5.toNat % 16
    let row := fun i => (⟨if i = lane then (unpackElems (widthOf ta) 32 (wordsToBytes (w.rows.getD 0 []))).map some else
      List.replicate 32 (some (if ta = 14 then 16 else 0)), 127⟩ : Strip)
    let acc := (List.range 32).flatMap (fun i => if i = lane ∧ w.accs ≠ [] then w.accs.getD 0 [] else List.replicate 32 0#32)
    let r := chunkProduct ta tb w.book w.book ((List.range 32).map row) (columnStrips (widthOf tb) cols) acc
    runWave s ep = commitExc (completeOp (opReady (s.updCore ep (fun c => { c with waves := rest })) k op (resultBytes w.o ((r.1.drop (32 * lane)).take 32))) k op) ep r.2 := by
  intro ta tb row acc r
  simp only [runWave, hfree, hwaves, hlanes, hcols, List.map_cons, List.map_nil, idxOf?_single, List.foldl_cons, List.foldl_nil, Bool.not_true, Bool.false_eq_true, if_false]
  refine congrArg (fun p : List Word × BitVec 4 => commitExc (completeOp (opReady _ k op (resultBytes w.o ((p.1.drop (32 * lane)).take 32))) k op) ep p.2)
    (congrArg₂ (chunkProduct ta tb w.book w.book · (columnStrips (widthOf tb) cols) ·) (List.map_congr_left fun i _ => ?rows) (List.flatMap_congr fun i _ => ?accs))
  case rows =>
    by_cases h : i = lane
    · simp [h, row, ta]
    · simp [h, row, ta]
  case accs =>
    by_cases h : i = lane
    · by_cases hn : w.accs = []
      · simp [h, hn]
      · simp [h, hn]
    · simp [h]

/-- VERSION_UNREACHABLE for a team of one thread (R395). -/
theorem unreachableVersion_single {k i v lk : Nat} {t : Thread} (hl : lendingTeam s t.team = some lk) (hts : s.threads.filter (fun p => p.2.team == t.team) = [(k, t)])
    (hw : t.state = .waiting) (ha : awaited s t k = some (i, v)) (hi : i < (s.team lk).tiles.length) (hv : versionReached (teamTile s (s.team lk) i) v = false)
    (hidle : ∀ y ∈ queuedTasks (s.core (s.team lk).core), y.2.team = lk → y.2.started = false ∧ taskReady s y.2 = false) :
    unreachableVersion s t.team = takeTrap s k (trapAt 0x43 (BitVec.ofNat 64 (v + (teamTile s (s.team lk) i).version * 65536)) t.pc) := by
  have hstill : noTaskMoves s lk = true := by
    simp only [noTaskMoves, Bool.not_eq_true', List.any_eq_false, Bool.and_eq_true, beq_iff_eq, Bool.or_eq_true, not_and, not_or, Bool.not_eq_true]
    exact hidle
  simp [unreachableVersion, hl, hts, hstill, hw, ha, hi, hv]

end

/-- Settles O51: each clause by the lemma on its row. -/
theorem tileTasksRunOnTheArray : Obligations.TileTasksRunOnTheArray := by
  unfold Obligations.TileTasksRunOnTheArray
  rintro s ep key x rfl
  refine ⟨?start, fun k hrun => congrArg Host.Outcome.next (startTask_running hrun), ?step, ?stops, ?fault, ?zero, ?load, ?done, ?due, ?wave, ?unreachable⟩
  case start =>
    intro hfree hwaves hrun hnext hx
    exact ⟨_, rfl, startTask_started hfree hwaves hrun hnext hx⟩
  case step =>
    intro s1 x' last h hd hs hl
    exact congrArg Host.Outcome.next (shawmStep_ok_other h hd hs hl)
  case stops =>
    intro s1 x' h hd hk hs ht hteams
    exact ⟨_, rfl, shawmStep_raises h hd hk hs ht hteams⟩
  case fault =>
    intro s1 code info h hd hk hs
    exact congrArg Host.Outcome.next (shawmStep_fault h hd hk hs)
  case zero =>
    intro h hd hk ht
    obtain ⟨hfind, helems, hmem⟩ := shawmStep_zero h hd hk ht
    exact ⟨_, _, rfl, hfind, rfl, helems, hmem⟩
  case load =>
    intro off h hd hk hm ht ha y ho he
    exact ⟨_, rfl, shawmStep_load h hd hk hm ht ha ho he⟩
  case done =>
    rintro v htasks hrun hdue hd hf hx hk ht rfl he
    obtain ⟨htile, hrest⟩ := completeTask_done htasks hrun hdue hd hf hx hk ht he
    exact ⟨_, rfl, congrArg Tile.version htile, hrest⟩
  case due =>
    intro v s1 s2 pa e bs hfind hv ha hp hw he
    exact congrArg Host.Outcome.next (completeTask_due hfind hv ha hp hw he)
  case wave =>
    intro w rest lane k op cols hfree hwaves hlanes ta tb hcols
    exact congrArg Host.Outcome.next (runWave_single hfree hwaves hlanes hcols)
  case unreachable =>
    intro k t i v lk hobj hl _ hts hw ha hi hv hidle
    have hexec : exec .versionUnreachable s = .next (unreachableVersion s t.team) := congrArg (fun n => Host.Outcome.next (unreachableVersion s n)) hobj
    exact hexec.trans (congrArg Host.Outcome.next (unreachableVersion_single hl hts hw ha hi hv hidle))

end Sys2Proof.MatrixLaws
end

section
/-! PROOFS. Packets that arrive (R149, R152, R433): what waits, and what is dropped for its incarnation. -/

namespace Sys2Proof.FabricLaws

open Sys2Proof Sys2Proof.Machine Sys2Proof.Claims Sys2Proof.ExecutionLaws

/-- Every row of the arrivals takes the packet named by State.obj, where it is of the row's TYPE. -/
theorem exec_arrival {typ : Nat} {i : Instr} (h : (typ, i) ∈ arrivalTypes) :
    ∃ act : State → Nat → Packet → Option State, ∀ s, exec i s = .next (arrive s (fun p => p.typ == typ) act) := by
  simp only [arrivalTypes, List.mem_cons, Prod.mk.injEq, List.not_mem_nil, or_false] at h
  rcases h with ⟨rfl, rfl⟩ | ⟨rfl, rfl⟩ | ⟨rfl, rfl⟩ | ⟨rfl, rfl⟩ | ⟨rfl, rfl⟩ | ⟨rfl, rfl⟩ | ⟨rfl, rfl⟩ | ⟨rfl, rfl⟩ | ⟨rfl, rfl⟩ | ⟨rfl, rfl⟩ | ⟨rfl, rfl⟩ | ⟨rfl, rfl⟩ |
    ⟨rfl, rfl⟩ | ⟨rfl, rfl⟩ | ⟨rfl, rfl⟩ | ⟨rfl, rfl⟩ | ⟨rfl, rfl⟩ | ⟨rfl, rfl⟩ <;> exact ⟨_, fun _ => rfl⟩

section
variable {s : State} {p : Packet} {accept : Packet → Bool} {act : State → Nat → Packet → Option State}

theorem overtakes_iff : overtakes s s.obj p = true ↔ Behind s p := by
  simp only [overtakes, Behind, Bool.and_eq_true, List.any_eq_true, decide_eq_true_eq, beq_iff_eq, and_assoc]

theorem arrive_behind (hf : s.packets.find s.obj = some p) (h : Behind s p) : arrive s accept act = s := by
  simp [arrive, hf, overtakes_iff.mpr h]

theorem arrive_absent (hf : s.packets.find s.obj = some p) (h : (s.die (epDie p.dst)).present = false) : arrive s accept act = s := by
  simp [arrive, hf, h]

theorem arrive_elsewhere (hf : s.packets.find s.obj = some p) (h : epPackage p.dst ≠ Config.package) : arrive s accept act = s := by
  simp [arrive, hf, h]

/-- A packet with a stale incarnation is dropped and counted. -/
theorem arrive_stale (h : AtHand s p) (hs : Stale s p) (ha : accept p = true) : arrive s accept act = dropCounted (gone s) (epDie p.dst) p.src := by
  obtain ⟨hf, hpkg, hdie, hb⟩ := h
  obtain ⟨hfar, htyp, hinc⟩ := hs
  have ho : overtakes s s.obj p = false := Bool.eq_false_iff.mpr fun h => hb (overtakes_iff.mp h)
  simp [arrive, hf, ha, ho, hpkg, hdie, hfar, htyp, hinc, gone]

end

/-- Settles O45: the rows arrive in one way, by the checks of which the clauses speak. -/
theorem arrivingPacketsAreChecked : Obligations.ArrivingPacketsAreChecked := by
  intro s p typ i hi hf ht
  obtain ⟨act, hexec⟩ := exec_arrival hi
  rw [hexec]
  exact ⟨fun h => congrArg _ (arrive_behind hf h), fun h => congrArg _ (arrive_absent hf h), fun h => congrArg _ (arrive_elsewhere hf h),
    fun h hs => congrArg _ (arrive_stale h hs (beq_iff_eq.mpr ht))⟩

end Sys2Proof.FabricLaws
end

section
/-! PROOFS. Views and collectives at the issuing core (spec/06_fabric_and_collectives.md): CINIT, VIEW, BADDQ, BLKQ and CWAIT (R160, R161, R330 to R336). -/

namespace Sys2Proof.FabricLaws

open Sys2Proof Sys2Proof.Machine Sys2Proof.Claims Sys2Proof.ExecutionLaws

section
variable {s : State} {k : Nat} {t : Thread} {o : Long}

/-- A BADDQ whose blocks lie in scratch, aligned, of their types and without errors, and whose count is no divisor zero (R334). -/
theorem effBaddq_of_blocksFit {pa pb pc : Nat} (hc : Clear t false false) (h : BlocksFit s t o pa pb pc) :
    effBaddq o s k t =
      (let st := (o.sub.extractLsb' 8 4).toNat
      let block := fun p => readScratch s t.core p (blockSize st)
      let b := if o.m4.toNat % 4 = 0 then pb else (scratchOffset s t.core (s.team t.team) t.sr.priv false (src32 t o .b).toNat (blockSize st)).getD 0
      let r := combineBlock (o.m4.toNat % 4) (o.sub.toNat % 16) st (o.sub.extractLsb' 4 3).toNat t.gen (block pa) (block b)
      .go ((writeLoc s (scratchLoc t.core pc) r.1).updThread k (fun u => { u.raiseFlags r.2.1 with gen := r.2.2 }))) := by
  obtain ⟨hst, hdt, halign, hpa, hpc, hea, hta, hb, hcount⟩ := h
  have haa := halign .a (by simp)
  have hac := halign .c (by simp)
  by_cases hm : o.m4.toNat % 4 = 0
  · -- both sources are blocks
    obtain ⟨hab, hpb, heb, htb⟩ := hb hm
    simp only [effBaddq, memGate_clear hc, hm, hst, hdt, haa, hac, hab, hpa, hpb, hpc, hea, heb, hta, htb, List.find?_cons, List.find?_nil, List.cons_append, List.nil_append,
      if_true, bne_self_eq_false, Bool.not_true, Bool.false_eq_true, if_false, Option.isNone_some, Option.getD_some, zero_ne_one, false_and]
  · -- the first source alone is a block
    have hn : ¬ (o.m4.toNat % 4 = 1 ∧ field (readScratch s t.core pa (blockSize (o.sub.extractLsb' 8 4).toNat)) 2 2 = 0) := fun h => hcount h.1 h.2
    simp only [effBaddq, memGate_clear hc, hm, hst, hdt, haa, hac, hpa, hpc, hea, hta, hn, List.find?_cons, List.find?_nil, List.cons_append, List.nil_append,
      bne_self_eq_false, Bool.not_true, Bool.false_eq_true, if_false, Option.isNone_some, Option.getD_some]

/-- The lowest of some indices, that of the first among them. -/
theorem foldl_min_cons (b : Block) (bs : List Block) :
    (b :: bs).foldl (fun m x => min m x.index) b.index = bs.foldl (fun m x => min m x.index) b.index := by simp

/-- A BLKQ on a core that serves the domain is assigned the lowest index left (R333, R457). -/
theorem effBlkq_served {d : Domain} (hf : Free t o false false) (hg : epDie t.core = 22 ∨ epDie t.core = 23)
    (hd : domainOf s ((src32 t o .a).toNat % 16) = some d) (hs : servesDomain s t.core d = true) (hb : (s.core t.core).msgs.bound = true) :
    effBlkq o s k t =
      (let gw := epDie t.core
      let dom := (src32 t o .a).toNat % 16
      let seq := (src32 t o .a).toNat / 2 ^ 16
      let d := (domainOf s dom).getD default
      let mine := d.blocks.filter (fun b => b.gateway == gw && b.seq == seq)
      let left := mine.filter (fun b => !d.assigned.any (fun x => x.1 == gw && x.2.1 == seq && x.2.2.1 == b.index))
      let answer := fun (s : State) v => Out.go (addReady s k { mkOp t o with dst := some (o.d.toNat, 1), size := 4 } (leBytes 4 v))
      match left with
      | [] => answer s 0
      | b :: bs =>
        let i := bs.foldl (fun m x => min m x.index) b.index
        let s1 := updDomain s dom (fun d => { d with
          assigned := d.assigned ++ [(gw, seq, i, t.core)]
          blocks := d.blocks.filter (fun b => !(b.gateway == gw && b.seq == seq && b.index == i)) })
        answer ((mine.filter (fun b => b.index == i)).foldl (fun s b => forwardBlock s gw t.core b) s1) (2 ^ 31 + i)) := by
  have hgw : ¬ (epDie t.core ≠ 22 ∧ epDie t.core ≠ 23) := by omega
  simp only [effBlkq, hgw, memStart_free (release := none) hf (by simp), hd, hs, hb, if_false, Bool.not_true, Bool.or_false, Bool.false_eq_true, Nat.reducePow,
    Option.getD_some]
  generalize List.filter _ (List.filter _ d.blocks) = left
  rcases left with _ | ⟨b, bs⟩
  · rfl
  · simp only [foldl_min_cons]

/-- In the state in which an instruction begins, the thread under its key is the one that has begun it. -/
theorem updThread_began {len : Nat} {f g : Thread → Thread} (h : f (t.begun len) = g (t.begun len)) : (s.began k t len).updThread k f = (s.began k t len).updThread k g := by
  simp only [State.began, State.updThread, NMap.adjust, List.map_map, State.mk.injEq, and_true]
  refine List.map_congr_left fun p _ => ?_
  by_cases hk : p.1 = k
  · simp [hk, h]
  · simp [hk]

/-- A CWAIT of an armed thread whose view stands polls its mailbox (R336). -/
theorem effCwait_armed (ha : t.sr.carm.getLsbD 31 = true) (hv : viewTrap s t t.pc = none) (hf : Free t o true false) :
    effCwait o s k t = pollDid o (src64 t o .a) s k t := by
  simp only [effCwait, ha, Bool.not_true, Bool.false_eq_true, if_false, memStart_free (release := none) hf (by simp), hv, startPoll, pollDid]
  rcases placeGlobal s k t 0 false false (src64 t o .a) 8 8 with ⟨s1, _ | ⟨piece, rest⟩⟩ | r <;> rfl

end

/-- Settles O43, form by form. -/
theorem collectiveInstructionsArmReadCombineAndWait : Obligations.CollectiveInstructionsArmReadCombineAndWait := by
  intro o
  refine ⟨alone_of_runLong (fun _ => rfl) fun _ _ _ _ _ => rfl, alone_of_runLong (fun _ => rfl) fun _ _ _ _ _ => congrArg Out.go (updThread_began rfl),
    alone_of_runLong (fun _ => rfl) fun _ _ _ _ _ => rfl, fun pa pb pc => alone_of_runLong (fun _ => rfl) fun s k t _ ⟨hc, h⟩ => ?baddq,
    alone_of_runLong (fun _ => rfl) fun s k t _ ⟨hf, hg, d, hd, hs, hb⟩ => ?blkq, alone_of_runLong (fun _ => rfl) fun s k t _ ⟨ha, hv, hf⟩ => ?cwait,
    alone_of_runLong (fun _ => rfl) fun s k t _ ha => ?cred, alone_of_runLong (fun _ => rfl) fun s k t _ ha => ?unarmed⟩
  case baddq => exact effBaddq_of_blocksFit (t := t.begun o.bytes) hc h
  case blkq => exact effBlkq_served (t := t.begun o.bytes) hf hg hd hs hb
  case cwait => exact effCwait_armed (t := t.begun o.bytes) ha hv hf
  case cred =>
    have ha' : (t.begun o.bytes).sr.carm.getLsbD 31 = false := ha
    rw [effCred, ha']
    rfl
  case unarmed =>
    have ha' : (t.begun o.bytes).sr.carm.getLsbD 31 = false := ha
    rw [effCwait, ha']
    rfl

end Sys2Proof.FabricLaws
end

section
/-! PROOFS. Ports and view domains (spec/06_fabric_and_collectives.md): a port whose sequence number stands outside its range (R153, R430), and a member that is to join
while its package is lost (R446, R449). -/

namespace Sys2Proof.FabricLaws

open Sys2Proof Sys2Proof.Machine Sys2Proof.Claims

/-! ### A sequence number of 2^48 -/

/-- A port that is up and has nothing to send; its next sequence number is one that no sum modulo 2^48 gives. -/
def idlePort : Port := { Port.reset with cfg := 0x80000000#32, up := true, sendSeq := 2 ^ 48 }

/-- The port is port 0. -/
def idlePortState : State := State.reset.updPkg (fun k => { k with ports := k.ports.set 0 idlePort })

/-- Nothing leaves an idle port, and its number stays. -/
theorem sendUnits_idlePort : ((sendUnits idlePortState 0).pkg.ports[0]?).map (·.sendSeq) = some (2 ^ 48) := by decide +kernel

/-- Refutes O54: a port that packs no unit keeps its sequence number as it stands; the statement has the number taken modulo 2^48 even then, and the number is
any natural number of the state (that of a port that has sent is below 2^48, R153). -/
theorem not_linksCarryUnitsAndRecover : ¬ Obligations.LinksCarryUnitsAndRecover := by
  intro h
  obtain ⟨-, -, -, -, -, ⟨-, -, -, hpacks, -⟩, -⟩ := h idlePortState 0 (by decide)
  obtain ⟨s', us, q', hexec, hport, -, -, hseq, hlen, -⟩ := hpacks ⟨by decide, rfl, rfl⟩ (by decide) (by decide) (by decide) (by decide) (by decide) (fun b => Nat.zero_le _)
  have hs : sendUnits idlePortState 0 = s' := by injection hexec
  have hnone : us.length = 0 := hlen
  have hsent := sendUnits_idlePort
  rw [hs, hport, Option.map_some, hseq, hnone] at hsent
  exact absurd hsent (by decide)

/-! ### A wanted join of a member whose package is lost -/

/-- This package's member coordinates; of package 1 member 2 is live, and member 1 is to join. -/
def joiningDomain : Domain :=
  { (default : Domain) with members := [(0, 0), (1, 0), (1, 1)], set := [true, false, true], phase := .stable, wanted := [(1, true)] }

/-- Package 1 could not be reached, has been heard again, and is silent for 50 microseconds now. -/
def silentState : State :=
  { (State.reset.updPkg (fun k => { k with domains := [(0, joiningDomain)], beats := [(1, 0)], unreachable := [1] })) with time := 50000, obj := 1 }

/-- With the loss of member 2 the join of member 1 is proposed too, and the view is installed at once. -/
theorem loseBeats_silentState : (domainOf (loseBeats silentState 1) 0).map (fun d => (d.set, d.wanted)) = some ([true, true, false], []) := by decide +kernel

/-- Refutes O56: a member that is not live when its package's heartbeats stop is not noted as lost, so its join, wanted before, goes through with the next view;
the statement has every member of that package wanted lost or out of the set. -/
theorem not_viewsChangeByProposalAndCommit : ¬ Obligations.ViewsChangeByProposalAndCommit := by
  intro h
  obtain ⟨-, -, -, -, -, -, -, -, -, hlost, -⟩ := h silentState default 0 0 0 [] default
  obtain ⟨s', hexec, -, -, hmembers⟩ := hlost 0 rfl (by decide)
  have hs : loseBeats silentState 1 = s' := by injection hexec
  obtain ⟨d, hd, hout⟩ := hmembers 0 joiningDomain 1 rfl (by decide) rfl
  have hafter := loseBeats_silentState
  rw [hs, hd, Option.map_some, Option.some.injEq, Prod.mk.injEq] at hafter
  rw [hafter.1, hafter.2] at hout
  exact absurd hout (by decide)

end Sys2Proof.FabricLaws
end

section
/-! PROOFS. Commands of the rings (R165 to R167, R367, R368): the command that firmware has in hand, and its completion. -/

namespace Sys2Proof.CommandLaws

open Sys2Proof Sys2Proof.Machine Sys2Proof.Claims Sys2Proof.HostLaws

/-! ### Memory that firmware has visited -/

section
variable {s : State} {pa : Nat}

/-- A visit of a home changes of a die what its L2 holds. -/
theorem field_visited {α : Type} (f : Die → α) (hf : ∀ x l, f { x with l2 := l } = f x) (d : Nat) : f ((visited s pa).die d) = f (s.die d) := by
  unfold visited touchL2
  split
  · rfl
  · dsimp only
    split
    · rfl
    · exact field_updDie f s _ d fun x => hf x _

theorem visited_eq_dies : visited s pa = { s with dies := (visited s pa).dies } := touchL2_eq_dies s pa 0

@[simp] theorem present_visited (d : Nat) : ((visited s pa).die d).present = (s.die d).present := field_visited Die.present (fun _ _ => rfl) d
@[simp] theorem inc_visited (d : Nat) : ((visited s pa).die d).inc = (s.die d).inc := field_visited Die.inc (fun _ _ => rfl) d
@[simp] theorem loss_visited (d : Nat) : ((visited s pa).die d).loss = (s.die d).loss := field_visited Die.loss (fun _ _ => rfl) d
@[simp] theorem enabled_visited (d : Nat) : ((visited s pa).die d).enabled = (s.die d).enabled := field_visited Die.enabled (fun _ _ => rfl) d
@[simp] theorem pkg_visited : (visited s pa).pkg = s.pkg := by rw [visited_eq_dies]
@[simp] theorem host_visited : (visited s pa).host = s.host := by rw [visited_eq_dies]
@[simp] theorem mem_visited : (visited s pa).mem = s.mem := by rw [visited_eq_dies]
@[simp] theorem time_visited : (visited s pa).time = s.time := by rw [visited_eq_dies]
@[simp] theorem fresh_visited : (visited s pa).fresh = s.fresh := by rw [visited_eq_dies]
@[simp] theorem grids_visited : (visited s pa).grids = s.grids := by rw [visited_eq_dies]

/-- Plain memory is plain memory after a visit. -/
theorem hostBytes_visited (a n : Nat) : HostBytes (visited s pa) a n ↔ HostBytes s a n := by
  have hdark : ((visited s pa).die (homeDie a)).dark = (s.die (homeDie a)).dark := field_visited Die.dark (fun _ _ => rfl) _
  have hon : memoryOn (visited s pa) a = memoryOn s a := by simp only [memoryOn, present_visited, hdark]
  have hplain : Plain (visited s pa) a n ↔ Plain s a n := by rw [visited_eq_dies]; exact Iff.rfl
  rw [HostBytes, HostBytes, hon, hplain]

end

/-! ### The turn of the rings (R166) -/

section
variable {s : State}

/-- The address of a ring's command. -/
theorem ringCommand_eq (q n : Nat) : (ringOf s q).command n = ringBase (ring s q) + n % slotsOf (ring s q) * 64 := by
  simp [Ring.command, Ring.address, Ring.slots, ringBase, slotsOf, ringOf, ring, Nat.shiftRight_eq_div_pow]

/-- The address of a command's completion. -/
theorem ringCompletion_eq (c : Command) : (ringOf s c.ring).completion c.seq = completionAt s c := by
  simp [Ring.completion, Ring.address, Ring.slots, completionAt, ringBase, slotsOf, ringOf, ring, Nat.shiftRight_eq_div_pow]

theorem firmwareUp_iff : firmwareUp s = true ↔ FirmwareServes s := by simp [firmwareUp, FirmwareServes]

/-- The row's test of a ring. -/
theorem hasCommand_iff (q : Nat) : ((ringOf s q).on && (ringOf s q).head != (ringOf s q).tail) = true ↔ HasCommand s q := by
  simp [HasCommand, Ring.on, ringOf, ring]

/-- In order from the next ring, the first that holds a command. -/
theorem nextCommandRing_turn {q : Nat} (h : Turn s q) : nextCommandRing s = some q := by
  obtain ⟨i, hi, rfl, hc, hbefore⟩ := h
  rw [nextCommandRing, List.find?_map, Option.map_eq_some_iff]
  exact ⟨i, (List.find?_range_eq_some (p := _)).mpr ⟨(hasCommand_iff _).mpr hc, List.mem_range.mpr hi, fun j hj => by
    rw [Bool.not_eq_true', Bool.eq_false_iff]
    exact fun h => hbefore j hj ((hasCommand_iff _).mp h)⟩, rfl⟩

theorem nextCommandRing_none (h : ∀ q, q < 16 → ¬ HasCommand s q) : nextCommandRing s = none := by
  rw [nextCommandRing, List.find?_eq_none]
  intro q hq hc
  obtain ⟨i, -, rfl⟩ := List.mem_map.mp hq
  exact h _ (Nat.mod_lt _ (by decide)) ((hasCommand_iff _).mp hc)

/-! ### The command in hand -/

theorem inHand_idle (h : ¬ FirmwareServes s ∨ (s.host.command = none ∧ ∀ q, q < 16 → ¬ HasCommand s q)) : inHand s = .none := by
  by_cases hf : firmwareUp s = true
  · obtain ⟨hc, hr⟩ := h.resolve_left (not_not.mpr (firmwareUp_iff.mp hf))
    simp only [inHand, hf, hc, nextCommandRing_none hr, Bool.not_true, Bool.false_eq_true, if_false]
  · simp only [inHand, Bool.eq_false_iff.mpr hf, Bool.not_false, if_true]

/-- The command in progress, or the one just read. -/
theorem inHand_some {c : Command} (h : InHand s c) : inHand s = .some (handed s c) c := by
  obtain ⟨hf, -, -, hc | ⟨hc, hturn, hseq, hw, hu, hb, hbytes⟩⟩ := h
  · simp only [inHand, firmwareUp_iff.mpr hf, hc, handed, Option.isSome_some, Bool.not_true, Bool.false_eq_true, if_false, if_true]
  · have hread : memoryRead s ((ringOf s c.ring).command (ringOf s c.ring).head.toNat) 64 = some (visited s (ringBase (ring s c.ring) + c.seq % slotsOf (ring s c.ring) * 64), c.bytes) := by
      rw [ringCommand_eq, show (ringOf s c.ring).head.toNat = c.seq from hseq.symm, hbytes]
      exact memoryRead_of_hostBytes hb
    obtain ⟨q, n, bs, ws, u⟩ := c
    obtain rfl : n = (ring s q).head.toNat := hseq
    obtain rfl : ws = [] := hw
    obtain rfl : u = none := hu
    simp only [inHand, firmwareUp_iff.mpr hf, hc, nextCommandRing_turn hturn, hread, handed, Option.isSome_none, Bool.not_true, Bool.false_eq_true, if_false]
    rfl

/-- Of some bytes the first piece is at their address. -/
theorem linePieces_first {a n : Nat} (hn : 1 ≤ n) : ∃ p ∈ linePieces a n, p.1 = a := by
  refine ⟨_, List.mem_filter.mpr ⟨List.mem_map.mpr ⟨0, by simp, rfl⟩, ?_⟩, by dsimp only; omega⟩
  simp only [bne_iff_ne]
  omega

/-- A ring whose next command is not in memory. -/
theorem inHand_unreadable {q : Nat} (hf : FirmwareServes s) (hc : s.host.command = none) (ht : Turn s q)
    (hr : let a := ringBase (ring s q) + (ring s q).head.toNat % slotsOf (ring s q) * 64; regionOf a ≠ .hbm ∧ regionOf a ≠ .lpddr) :
    inHand s = .unreadable q (ring s q).head.toNat := by
  have hread : memoryRead s ((ringOf s q).command (ringOf s q).head.toNat) 64 = none := by
    rw [ringCommand_eq, show (ringOf s q).head = (ring s q).head from rfl]
    generalize ringBase (ring s q) + (ring s q).head.toNat % slotsOf (ring s q) * 64 = a at hr
    have hplain : plainMemory s a 64 = false := by
      obtain ⟨p, hp, rfl⟩ := linePieces_first (a := a) (n := 64) (by decide)
      rw [plainMemory, List.all_eq_false]
      exact ⟨p, hp, by simp [hr.1, hr.2]⟩
    simp [memoryRead, hplain]
  simp only [inHand, firmwareUp_iff.mpr hf, hc, nextCommandRing_turn ht, hread, Bool.not_true, Bool.false_eq_true, if_false]
  rfl

/-! ### A row with a command in hand -/

section
variable {c : Command} {mine : Command → Bool} {act : State → Command → Done}

theorem plaod_other (h : InHand s c) (hm : mine c = false) : plaod s mine act = s := by simp [plaod, inHand_some h, hm]

theorem plaod_status (h : InHand s c) (hm : mine c = true) {s2 : State} {n : Nat} (ha : act (handed s c) c = .status s2 n) : plaod s mine act = finish s2 c n := by
  simp [plaod, inHand_some h, hm, ha]

theorem plaod_stays (h : InHand s c) (hm : mine c = true) {s2 : State} (ha : act (handed s c) c = .stays s2) : plaod s mine act = s2 := by
  simp [plaod, inHand_some h, hm, ha]

end

/-! ### Completions (R166, R167) -/

/-- The completion is written where its bytes are plain memory, and its vector is signalled. -/
theorem writeCompletion_eq {q n tag status op : Nat} (h : HostBytes s ((ringOf s q).completion n) 16) :
    writeCompletion s q n tag status op =
      some ((putAt s ((ringOf s q).completion n) (completionBytes s tag status op)).updHost (fun h => heldOrSent h (.vector q))) := by
  have hlen : (completionBytes s tag status op).length = 16 := by simp [completionBytes, ExecutionLaws.leBytes_length]
  rw [← hlen] at h
  rw [writeCompletion, memoryWrite_of_hostBytes h, Option.map_some, toHost_eq]

theorem heldOrSent_rings (h : HostPort) (m : HostMessage) : (heldOrSent h m).rings = h.rings := by unfold heldOrSent; split <;> rfl

/-- A command completes: completion written, vector signalled, CRHEAD past it, the next ring's turn. -/
theorem finish_eq {c : Command} {n : Nat} (h : HostBytes s (completionAt s c) 16) : finish s c n = finished s c n := by
  rw [← ringCompletion_eq] at h
  rw [finish, writeCompletion_eq h, ringCompletion_eq]
  have hrings (u : HostPort) (hu : u = s.host) : (heldOrSent u (.vector c.ring)).rings.modify c.ring (fun r => { r with head := BitVec.ofNat 32 (c.seq + 1) }) =
      u.rings.set c.ring { ring s c.ring with head := BitVec.ofNat 32 (c.seq + 1) } := by
    rw [heldOrSent_rings, List.modify_eq_set, ← List.getD_eq_getElem?_getD, hu]
    rfl
  simp only [passCommand, endTurn, updRing, finished, State.updHost, hrings _ (putAt_host _)]
  rfl

theorem finishes_of_plaod {i : Instr} {c : Command} {mine : Command → Bool} {act : State → Command → Done} (hi : exec i s = .next (plaod s mine act)) (h : InHand s c)
    (hm : mine c = true) {s2 : State} {n : Nat} (ha : act (handed s c) c = .status s2 n) : Finishes i s s2 c n := fun hb => by
  rw [hi, plaod_status h hm ha, finish_eq hb]

end

end Sys2Proof.CommandLaws
end

section
/-! PROOFS. What walks, write-backs, polls and traps leave alone: the view domains, the ports' number, and of the dies their views and L2 TLBs (R76, R158, R160). -/

namespace Sys2Proof.FabricLaws

open Sys2Proof Sys2Proof.Machine Sys2Proof.Claims Sys2Proof.HostLaws

/-- View domains, the ports' number, the dies' views and their L2 TLBs are as before, and every event record that was on its way still is. -/
structure KeepsTables (s s' : State) : Prop where
  domains : s'.pkg.domains = s.pkg.domains
  ports : s'.pkg.ports.length = s.pkg.ports.length
  views : ∀ d, (s'.die d).views = (s.die d).views
  tlb : ∀ d, (s'.die d).tlb = (s.die d).tlb
  reports : s.events ⊆ s'.events

namespace KeepsTables

theorem refl (s : State) : KeepsTables s s := ⟨rfl, rfl, fun _ => rfl, fun _ => rfl, fun _ h => h⟩

theorem trans {s u v : State} (h : KeepsTables s u) (k : KeepsTables u v) : KeepsTables s v :=
  ⟨k.domains.trans h.domains, k.ports.trans h.ports, fun d => (k.views d).trans (h.views d), fun d => (k.tlb d).trans (h.tlb d), fun _ m => k.reports (h.reports m)⟩

theorem foldl {α : Type} (l : List α) (f : State → α → State) (h : ∀ s x, KeepsTables s (f s x)) (s : State) : KeepsTables s (l.foldl f s) :=
  List.foldlRecOn l f (refl s) (fun u hu x _ => hu.trans (h u x))

/-- A state that differs in nothing that is spoken of. -/
theorem of_eq {s s' : State} (hp : s'.pkg = s.pkg) (hd : s'.dies = s.dies) (he : s.events ⊆ s'.events) : KeepsTables s s' :=
  ⟨by rw [hp], by rw [hp], fun d => by simp only [State.die, hd], fun d => by simp only [State.die, hd], he⟩

end KeepsTables

section
variable (s : State)

theorem keepsTables_updDie (d : Nat) (f : Die → Die) (hv : ∀ x, (f x).views = x.views := by intro; rfl) (ht : ∀ x, (f x).tlb = x.tlb := by intro; rfl) : KeepsTables s (s.updDie d f) :=
  ⟨rfl, rfl, fun e => field_updDie Die.views s d e hv, fun e => field_updDie Die.tlb s d e ht, fun _ h => h⟩

theorem keepsTables_event (src cls code sev : Nat) (thread : Bool) (d0 d1 : Nat) : KeepsTables s (s.event src cls code sev thread d0 d1) :=
  ⟨rfl, rfl, fun _ => rfl, fun _ => rfl, fun _ h => List.mem_append_left _ h⟩

theorem keepsTables_updCore (ep : Nat) (f : Core → Core) : KeepsTables s (s.updCore ep f) := .of_eq rfl rfl fun _ h => h
theorem keepsTables_updThread (k : Nat) (f : Thread → Thread) : KeepsTables s (s.updThread k f) := .of_eq rfl rfl fun _ h => h
theorem keepsTables_updTeam (k : Nat) (f : Team → Team) : KeepsTables s (s.updTeam k f) := .of_eq rfl rfl fun _ h => h
theorem keepsTables_write (a : Nat) (bs : List Byte) : KeepsTables s (s.write a bs) := .of_eq rfl rfl fun _ h => h
theorem keepsTables_homeWrite (a : Nat) (bs : List Byte) : KeepsTables s (homeWrite s a bs) := .of_eq rfl rfl fun _ h => h
theorem keepsTables_fresh (n : Nat) : KeepsTables s { s with fresh := n } := .of_eq rfl rfl fun _ h => h
theorem keepsTables_updOp (k key : Nat) (f : Op → Op) : KeepsTables s (updOp s k key f) := keepsTables_updThread ..
theorem keepsTables_opRefused (k key code : Nat) (info : DWord) : KeepsTables s (opRefused s k key code info) := keepsTables_updThread ..

theorem keepsTables_perfCount (ep code n : Nat) : KeepsTables s (perfCount s ep code n) := by
  simp only [perfCount]
  split
  · exact .refl s
  · exact keepsTables_updCore ..

/-! ### Packets that leave -/

theorem keepsTables_queueAtPort (n : Nat) (p : Packet) : KeepsTables s (queueAtPort s n p) :=
  ⟨rfl, List.length_set, fun _ => rfl, fun _ => rfl, fun _ h => h⟩

theorem keepsTables_inject (p : Packet) : KeepsTables s (s.inject p) := by
  simp only [State.inject]
  split
  · exact .refl s
  · split
    · exact .of_eq rfl rfl fun _ h => h
    · split
      · exact keepsTables_queueAtPort ..
      · exact .of_eq rfl rfl fun _ h => h

theorem keepsTables_send (p : Packet) : KeepsTables s (s.send p) := by
  simp only [State.send]
  split
  · exact (keepsTables_updCore ..).trans (keepsTables_inject ..)
  · exact keepsTables_inject ..

theorem keepsTables_sendFar (ep pa : Nat) (a : Access) (d : DWord) (i : Nat) : KeepsTables s (sendFar s ep pa a d i) := by
  unfold sendFar
  split
  · exact .refl s
  · exact (keepsTables_updDie ..).trans (keepsTables_send ..)

/-! ### Lines that leave an L1 (R65, R66, R72) -/

theorem keepsTables_touchL2 (pa hint : Nat) : KeepsTables s (touchL2 s pa hint) := by
  unfold touchL2
  split
  · exact .refl s
  · dsimp only
    split
    · exact .refl s
    · exact keepsTables_updDie ..

theorem keepsTables_foldLine (ep l op kind n : Nat) (x : Line) : KeepsTables s (foldLine s ep l op kind n x) := by
  refine .foldl _ _ (fun u i => ?_) s
  dsimp only
  split
  · split
    · exact keepsTables_sendFar ..
    · split
      · exact keepsTables_event ..
      · exact (keepsTables_touchL2 ..).trans (keepsTables_homeWrite ..)
  · exact .refl u

theorem keepsTables_dropLine (ep l : Nat) : KeepsTables s (s.dropLine ep l) := by
  unfold State.dropLine
  split
  · exact keepsTables_updCore ..
  · exact .refl s

theorem keepsTables_recallLine (l : Nat) : KeepsTables s (recallLine s l) := by
  refine .foldl _ _ (fun u e => ?_) s
  split
  · split
    · exact (keepsTables_foldLine ..).trans (keepsTables_dropLine ..)
    · exact .refl u
  · exact .refl u

theorem keepsTables_testStep (d : Nat) : KeepsTables s (testStep s d) := by
  unfold testStep
  dsimp only
  split
  · exact .refl s
  · exact (((keepsTables_write ..).trans (keepsTables_write ..)).trans (keepsTables_updDie ..)).trans
      (.foldl _ _ (fun u w => keepsTables_inject ..) _)

theorem keepsTables_storeBack (ep l : Nat) (x : Line) : KeepsTables s (storeBack s ep l x) := by
  unfold storeBack
  split
  · exact .foldl _ _ (fun u r => keepsTables_sendFar ..) s
  · refine KeepsTables.trans ?_ (.foldl _ _ keepsTables_testStep _)
    exact (keepsTables_touchL2 s l 0).trans (.of_eq rfl rfl fun _ h => h)

theorem keepsTables_writeBack (ep l : Nat) (x : Line) : KeepsTables s (writeBack s ep l x) := (keepsTables_recallLine ..).trans (keepsTables_storeBack ..)

theorem keepsTables_evictLine (ep l : Nat) : KeepsTables s (evictLine s ep l) := by
  unfold evictLine
  split
  · exact .refl s
  · split
    · exact (keepsTables_writeBack ..).trans (keepsTables_dropLine ..)
    · exact (keepsTables_foldLine ..).trans (keepsTables_dropLine ..)
    · exact keepsTables_dropLine ..

theorem keepsTables_cleanLine (ep l : Nat) : KeepsTables s (cleanLine s ep l) := by
  unfold cleanLine
  split
  · exact .refl s
  · split
    · exact (keepsTables_writeBack ..).trans (keepsTables_updCore ..)
    · exact .refl s

theorem keepsTables_clearPolled (ep pa : Nat) : KeepsTables s (clearPolled s ep pa) := by
  refine (keepsTables_evictLine ..).trans (.foldl _ _ (fun u e => ?_) _)
  split
  · exact .refl u
  · exact keepsTables_cleanLine ..

theorem keepsTables_acquireAction (ep scope : Nat) : KeepsTables s (acquireAction s ep scope) := by
  unfold acquireAction
  split
  · exact keepsTables_updCore ..
  · exact .refl s

theorem keepsTables_releaseAction (ep scope : Nat) : KeepsTables s (releaseAction s ep scope) := by
  unfold releaseAction
  split
  · exact .foldl _ _ (fun u p => keepsTables_cleanLine ..) s
  · exact .refl s

/-! ### Walks (R74, R76) -/

theorem keepsTables_sendWalkRead (die key : Nat) (w : Walk) : KeepsTables s (sendWalkRead s die key w) := by
  unfold sendWalkRead
  exact keepsTables_inject ..

theorem keepsTables_beginWalk (die key : Nat) (w : Walk) : KeepsTables s (beginWalk s die key w) := by
  unfold beginWalk
  dsimp only
  split
  · exact (keepsTables_updDie ..).trans (keepsTables_sendWalkRead ..)
  · exact keepsTables_updDie ..

theorem keepsTables_queueWalk (die key : Nat) (w : Walk) : KeepsTables s (queueWalk s die key w) := by
  refine (keepsTables_updDie ..).trans (.foldl _ _ (fun u p => ?_) _)
  split
  · exact keepsTables_beginWalk ..
  · exact .refl u

theorem keepsTables_restartWalks (die : Nat) : KeepsTables s (restartWalks s die) :=
  .foldl _ _ (fun u p => ((keepsTables_fresh u _).trans (keepsTables_updDie ..)).trans (keepsTables_queueWalk ..)) s

theorem keepsTables_startWalk (ep thread asid root va cls : Nat) (fe priv soft : Bool) : KeepsTables s (startWalk s ep thread asid root va cls fe priv soft) :=
  ((keepsTables_fresh s _).trans (keepsTables_perfCount ..)).trans (keepsTables_queueWalk ..)

/-- A look into the TLBs fills at most the core's. -/
theorem keepsTables_lookupTlb {ep asid va : Nat} {x : Tlb} {u : State} (h : lookupTlb s ep asid va = some (x, u)) : KeepsTables s u := by
  unfold lookupTlb at h
  split at h
  · cases h; exact .refl s
  · split at h
    · cases h; exact keepsTables_updCore ..
    · cases h

/-- The state that a translation for an agent leaves. -/
def placed : Placing → State
  | .ok s _ _ => s
  | .wait s => s
  | .refused s _ => s

theorem keepsTables_agentPlace (ep asid root : Nat) (priv : Bool) (cls va : Nat) : KeepsTables s (placed (agentPlace s ep asid root priv cls va)) := by
  unfold agentPlace
  split
  · exact .refl s
  · have htrans : ∀ u pa e, Machine.translate s ep asid priv cls va = .ok u pa e → KeepsTables s u := fun u pa e h => by
      unfold Machine.translate at h
      split at h
      · cases h
      · next hl =>
        dsimp only at h
        split at h
        · cases h
        · split at h
          · cases h
          · cases h; exact keepsTables_lookupTlb s hl
    have hrefuse : ∀ u code, Machine.translate s ep asid priv cls va = .refuse u code → KeepsTables s u := fun u code h => by
      unfold Machine.translate at h
      split at h
      · cases h
      · next hl =>
        dsimp only at h
        split at h
        · cases h; exact keepsTables_lookupTlb s hl
        · split at h
          · cases h; exact keepsTables_lookupTlb s hl
          · cases h
    split
    · next h => exact htrans _ _ _ h
    · next h => exact hrefuse _ _ h
    · split
      · exact keepsTables_startWalk ..
      · next key _ _ =>
        have hgone : KeepsTables s (s.updDie (epDie ep) (fun d => { d with walks := d.walks.drop key })) := keepsTables_updDie ..
        dsimp only
        split
        · exact hgone
        · exact hgone
        · exact .refl s

/-! ### Polls and traps (R336, R376, R448) -/

theorem keepsTables_opReady (k key : Nat) (data : List Byte) : KeepsTables s (opReady s k key data) := by
  rcases h : s.thread k with _ | t
  · simp only [opReady, h]
    exact .refl s
  · simp only [opReady, h]
    split
    · exact keepsTables_updOp ..
    · generalize (t.ops.find key).bind (·.release) = release, (t.ops.find key).bind (·.acquire) = acquire
      rcases release with _ | scope
      · simp only [Option.any_none, Bool.false_and, Bool.false_eq_true, if_false]
        rcases acquire with _ | scope
        · exact keepsTables_updOp ..
        · exact (keepsTables_updOp ..).trans (keepsTables_acquireAction ..)
      · have hrelease (f : Op → Op) : KeepsTables s (releaseAction (updOp s k key f) t.core scope) := (keepsTables_updOp ..).trans (keepsTables_releaseAction ..)
        dsimp only
        split
        · exact (hrelease _).trans (keepsTables_updOp ..)
        · rcases acquire with _ | scope
          · exact hrelease _
          · exact (hrelease _).trans (keepsTables_acquireAction ..)

theorem keepsTables_sendPiece_load (k key : Nat) (t : Thread) (pa n : Nat) : KeepsTables s (sendPiece s k key t { pa := pa, home := true, access := .load n }) := by
  simp only [sendPiece, Access.atHome, Access.logged, Bool.false_eq_true, if_false, Bool.false_and]
  exact (keepsTables_updOp ..).trans (keepsTables_send ..)

/-- A read that is performed at its home sets out, or is refused. -/
theorem keepsTables_runPieces_load (k key : Nat) (t : Thread) (pa n : Nat) (data : List Byte) :
    KeepsTables s (runPieces s k key t [{ pa := pa, home := true, access := .load n }] data) := by
  simp only [runPieces, if_true]
  split
  · exact keepsTables_updOp ..
  · split
    · exact (keepsTables_updOp ..).trans (keepsTables_sendPiece_load ..)
    · exact KeepsTables.trans (keepsTables_updOp ..) (keepsTables_opReady ..)

theorem keepsTables_pollAgain (k key : Nat) (t : Thread) (va : DWord) : KeepsTables s (pollAgain s k key t va) := by
  have hplace := keepsTables_agentPlace s t.core (s.team t.team).asid (s.team t.team).root t.sr.priv 0 va.toNat
  unfold pollAgain
  dsimp only
  split
  · next h => rw [h] at hplace; exact hplace
  · next h => rw [h] at hplace; exact hplace.trans (keepsTables_opRefused ..)
  · next h =>
    rw [h] at hplace
    have hread (u : State) (f : Op → Op) (h : KeepsTables s u) (pa : Nat) : KeepsTables s (updOp (clearPolled u t.core pa) k key f) :=
      (h.trans (keepsTables_clearPolled ..)).trans (keepsTables_updOp ..)
    split
    · exact hread _ _ hplace _
    · exact (hread _ _ hplace _).trans (keepsTables_runPieces_load ..)

theorem keepsTables_trapEvent (core : Nat) (x : Trap) : KeepsTables s (trapEvent s core x) := by
  unfold trapEvent
  split
  · exact .refl s
  · split
    · exact keepsTables_event ..
    · exact keepsTables_event ..

theorem keepsTables_takeTrap (k : Nat) (x : Trap) : KeepsTables s (takeTrap s k x) := by
  have hstop : ∀ l : List Nat, ∀ u, KeepsTables u (l.foldl (fun s j => s.updThread j Thread.stop) u) := fun l u => .foldl _ _ (fun u j => keepsTables_updThread ..) u
  unfold takeTrap
  split
  · exact .refl s
  · dsimp only
    split
    · exact (((keepsTables_updThread ..).trans (hstop _ _)).trans (keepsTables_updTeam ..)).trans (keepsTables_event ..)
    · exact (keepsTables_updThread ..).trans (keepsTables_trapEvent ..)

theorem keepsTables_pollTry (k : Nat) : KeepsTables s (pollTry s k) := by
  unfold pollTry
  split
  · exact .refl s
  · split
    · dsimp only
      split
      · exact (keepsTables_updThread ..).trans (keepsTables_takeTrap ..)
      · split
        · exact (keepsTables_acquireAction ..).trans (keepsTables_updOp ..)
        · split
          · exact .refl s
          · exact keepsTables_pollAgain ..
      · exact .refl s
    · exact .refl s

/-- The threads that are armed at a view that their die has left take their traps. -/
theorem keepsTables_trapArmed (die : Nat) : KeepsTables s (trapArmed s die) := by
  unfold trapArmed
  exact .foldl _ _ (fun _ _ => keepsTables_pollTry ..) s

end

end Sys2Proof.FabricLaws
end

section
/-! PROOFS. View changes (R158 to R160, R446, R449): messages on their way, installing a view, proposing one, and a wanted change. -/

namespace Sys2Proof.FabricLaws

open Sys2Proof Sys2Proof.Machine Sys2Proof.Claims Sys2Proof.HostLaws Sys2Proof.ExecutionLaws

/-! ### Packets that stay on their way while others leave -/

/-- A packet with a property is listed under a key that is no fresh one, or waits at a port. -/
def OnItsWay (s : State) (has : Packet → Prop) : Prop :=
  (∃ k r, k < s.fresh ∧ s.packets.find k = some r ∧ has r) ∨ ∃ (n : Nat) (q : Port), s.pkg.ports[n]? = some q ∧ ∃ r ∈ q.waiting, has r

theorem OnItsWay.inFlight {s : State} {has : Packet → Prop} (h : OnItsWay s has) : InFlight s has := by
  obtain ⟨k, r, -, hf, hr⟩ | ⟨n, q, hq, r, hw, hr⟩ := h
  · exact inFlight_of_find hf hr
  · exact ⟨r, .inr ⟨q, List.mem_of_getElem? hq, hw⟩, hr⟩

theorem OnItsWay.mono {s : State} {a b : Packet → Prop} (h : OnItsWay s a) (hab : ∀ r, a r → b r) : OnItsWay s b := by
  obtain ⟨k, r, hk, hf, hr⟩ | ⟨n, q, hq, r, hw, hr⟩ := h
  · exact .inl ⟨k, r, hk, hf, hab r hr⟩
  · exact .inr ⟨n, q, hq, r, hw, hab r hr⟩

theorem onItsWay_queueAtPort {s : State} {has : Packet → Prop} (h : OnItsWay s has) (n : Nat) (p : Packet) : OnItsWay (queueAtPort s n p) has := by
  obtain h | ⟨m, q, hq, r, hw, hr⟩ := h
  · exact .inl h
  · refine .inr ⟨m, ?_⟩
    have hlt : m < s.pkg.ports.length := (List.getElem?_eq_some_iff.mp hq).1
    by_cases hm : n = m
    · subst hm
      refine ⟨_, List.getElem?_set_self hlt, r, List.mem_append_left _ ?_, hr⟩
      rw [List.getD_eq_getElem?_getD, hq]
      exact hw
    · exact ⟨q, (List.getElem?_set_ne hm).trans hq, r, hw, hr⟩

theorem onItsWay_put {s : State} {has : Packet → Prop} (h : OnItsWay s has) (p : Packet) :
    OnItsWay { s with packets := s.packets.put s.fresh p, fresh := s.fresh + 1 } has := by
  obtain ⟨k, r, hk, hf, hr⟩ | h := h
  · exact .inl ⟨k, r, Nat.lt_succ_of_lt hk, (NMap.find_put_other _ _ (Nat.ne_of_lt hk)).trans hf, hr⟩
  · exact .inr h

/-- What is on its way stays so while another packet leaves. -/
theorem OnItsWay.inject {s : State} {has : Packet → Prop} (h : OnItsWay s has) (p : Packet) : OnItsWay (s.inject p) has := by
  simp only [State.inject]
  split
  · exact h
  · split
    · exact onItsWay_put h _
    · split
      · exact onItsWay_queueAtPort h _ _
      · exact onItsWay_put h _

theorem OnItsWay.foldl {α : Type} {s : State} {has : Packet → Prop} (h : OnItsWay s has) (l : List α) (f : State → α → State) (hf : ∀ u x, OnItsWay u has → OnItsWay (f u x) has) :
    OnItsWay (l.foldl f s) has := List.foldlRecOn l f h fun u hu x _ => hf u x hu

/-- A control packet for another package, or for a present die of this one, is on its way. -/
theorem onItsWay_ctl {s : State} {src dst typ : Nat} {body : Body} (h : epPackage dst = Config.package → (s.die (epDie dst)).present = true) :
    OnItsWay (s.ctl src dst typ body) (fun r => r.cls = 0 ∧ r.typ = typ ∧ r.src = src ∧ r.dst = dst ∧ r.body = body) := by
  have hsent : ∀ (m : NMap Packet) (r : Packet), OnItsWay { s with packets := m.put s.fresh r, fresh := s.fresh + 1 } (· = r) := fun m r =>
    .inl ⟨s.fresh, r, Nat.lt_succ_self _, NMap.find_put_same .., rfl⟩
  simp only [State.ctl, State.inject]
  split
  · next hdrop =>
    simp only [Bool.and_eq_true, beq_iff_eq, Bool.not_eq_true'] at hdrop
    exact absurd (hdrop.2.symm.trans (h hdrop.1.2)) Bool.false_ne_true
  · split
    · exact (hsent _ _).mono fun r hr => by subst hr; exact ⟨rfl, rfl, rfl, rfl, rfl⟩
    · split
      · next n hp => exact .inr ⟨n, _, List.getElem?_set_self (portFor_lt hp), _, List.mem_append_right _ (List.mem_singleton.mpr rfl), rfl, rfl, rfl, rfl, rfl⟩
      · exact (hsent _ _).mono fun r hr => by subst hr; exact ⟨rfl, rfl, rfl, rfl, rfl⟩

/-! ### What changes nothing but packets -/

/-- The states differ in the packets on their way alone, on the mesh and at the ports, and in the fresh key. -/
def OnlyPackets (s s' : State) : Prop := { s' with packets := s.packets, fresh := s.fresh, pkg := { s'.pkg with ports := s.pkg.ports } } = s

namespace OnlyPackets

theorem refl (s : State) : OnlyPackets s s := rfl

theorem trans {s u v : State} (h : OnlyPackets s u) (k : OnlyPackets u v) : OnlyPackets s v := by
  unfold OnlyPackets at *
  rw [← h, ← k]

theorem foldl {α : Type} (l : List α) (f : State → α → State) (h : ∀ s x, OnlyPackets s (f s x)) (s : State) : OnlyPackets s (l.foldl f s) :=
  List.foldlRecOn l f (refl s) (fun u hu x _ => hu.trans (h u x))

theorem inject (s : State) (p : Packet) : OnlyPackets s (s.inject p) := by
  simp only [State.inject]
  split
  · exact refl s
  · split
    · rfl
    · split
      · rfl
      · rfl

section
variable {s s' : State} (h : OnlyPackets s s')
include h
theorem eq : { s' with packets := s.packets, fresh := s.fresh, pkg := { s'.pkg with ports := s.pkg.ports } } = s := h
theorem die (d : Nat) : s'.die d = s.die d := (congrArg (fun x : State => x.die d) h.eq :)
theorem time : s'.time = s.time := (congrArg State.time h.eq :)
theorem host : s'.host = s.host := (congrArg State.host h.eq :)
theorem events : s'.events = s.events := (congrArg State.events h.eq :)
theorem chalumeau : s'.pkg.chalumeau = s.pkg.chalumeau := (congrArg (fun x : State => x.pkg.chalumeau) h.eq :)
theorem unreachable : s'.pkg.unreachable = s.pkg.unreachable := (congrArg (fun x : State => x.pkg.unreachable) h.eq :)
theorem domains : s'.pkg.domains = s.pkg.domains := (congrArg (fun x : State => x.pkg.domains) h.eq :)
end

end OnlyPackets

theorem onlyPackets_sendView (s : State) (pkg message dom view : Nat) (set : List Bool) (member : Nat) : OnlyPackets s (sendView s pkg message dom view set member) :=
  .inject ..

/-! ### View domains as they are read and changed (R158) -/

section
variable {s s' : State} {dom : Nat} {d : Domain}

theorem domainOf_congr (h : s'.pkg.domains = s.pkg.domains) (dom : Nat) : domainOf s' dom = domainOf s dom := by rw [domainOf, h, domainOf]

theorem domainOf_updDomain (h : domainOf s dom = some d) (f : Domain → Domain) : domainOf (updDomain s dom f) dom = some (f d) := by
  obtain ⟨p, hp, rfl⟩ := Option.map_eq_some_iff.mp h
  have hkey : p.1 = dom := by simpa using List.find?_some hp
  have hpred : (fun p : Nat × Domain => p.1 == dom) ∘ (fun p => if p.1 = dom then (p.1, f p.2) else p) = fun p => p.1 == dom := by
    funext q
    by_cases hq : q.1 = dom
    · simp [hq]
    · simp [hq]
  show (List.find? _ (List.map _ s.pkg.domains)).map _ = _
  rw [List.find?_map, hpred, hp]
  simp [hkey]

theorem liveMembers_eq (h : domainOf s dom = some d) : liveMembers s dom = (d.set.filter (fun b => b)).length := by
  obtain ⟨⟨n, e⟩, hp, rfl⟩ := Option.map_eq_some_iff.mp h
  simp only [liveMembers, hp]

/-! ### The members that count (R159, R446) -/

theorem coordinates_iff : coordinates s d = true ↔ Ours s d := by
  have hable (i : Nat) : (d.set.getD i false && !knownLost s d i) = true ↔ d.set.getD i false = true ∧ (i, false) ∉ d.wanted ∧ packageOf d i ∉ s.pkg.unreachable := by
    simp [knownLost, packageOf]
  simp only [coordinates, beq_iff_eq, Option.map_eq_some_iff, coordinator, List.find?_range_eq_some, List.mem_range, Ours, Leads]
  constructor
  · rintro ⟨i, ⟨hi, hlt, hbefore⟩, hp⟩
    exact ⟨i, ⟨hlt, (hable i).mp hi, fun j hj h => Bool.not_eq_true' _ |>.mp (hbefore j hj) |>.symm.trans ((hable j).mpr h) |> Bool.false_ne_true⟩, hp⟩
  · rintro ⟨i, ⟨hlt, hi, hbefore⟩, hp⟩
    exact ⟨i, ⟨(hable i).mpr hi, hlt, fun j hj => (Bool.not_eq_true' _).mpr (Bool.eq_false_iff.mpr (mt (hable j).mp (hbefore j hj)))⟩, hp⟩

/-- The packages to which a message about a set goes. -/
theorem mem_dest_iff {set : List Bool} {n : Nat} :
    n ∈ (packagesOf d set).filter (fun p => p != Config.package && !s.pkg.unreachable.contains p) ↔ Hosts s d set n := by
  have hmem : n ∈ packagesOf d set ↔ ∃ i, i < d.members.length ∧ i < set.length ∧ set.getD i false = true ∧ packageOf d i = n := by
    simp only [packagesOf, List.mem_eraseDups, List.mem_map, List.mem_filter]
    constructor
    · rintro ⟨⟨m, b⟩, ⟨hz, hb⟩, rfl⟩
      obtain ⟨i, hi, he⟩ := List.mem_iff_getElem.mp hz
      rw [List.length_zip, lt_min_iff] at hi
      rw [List.getElem_zip, Prod.mk.injEq] at he
      refine ⟨i, hi.1, hi.2, ?_, ?_⟩
      · simpa [hi.2, he.2] using hb
      · simp [packageOf, hi.1, he.1]
    · rintro ⟨i, hi, hi', hb, rfl⟩
      refine ⟨(d.members[i], set[i]), ⟨List.mem_iff_getElem.mpr ⟨i, by simp [hi, hi'], by simp⟩, by simpa [hi'] using hb⟩, by simp [packageOf, hi]⟩
  simp only [List.mem_filter, hmem, Bool.and_eq_true, bne_iff_ne, Bool.not_eq_true', List.contains_eq_mem, decide_eq_false_iff_not, Hosts]
  exact ⟨fun ⟨h, hn, hu⟩ => ⟨hn, hu, h⟩, fun ⟨hn, hu, h⟩ => ⟨h, hn, hu⟩⟩

end

/-! ### Messages between Chalumeaux -/

/-- Messages to some other packages are on their way once they have all been sent. -/
theorem viewSent_foldl {s : State} {l : List Nat} {message dom view member : Nat} {set : List Bool} {n : Nat} (hn : n ∈ l) (hp : n ≠ Config.package) :
    ViewSent s (l.foldl (fun s p => sendView s p message dom view set member) s) n message dom view set member := by
  obtain ⟨before, after, rfl⟩ := List.append_of_mem hn
  rw [List.foldl_append, List.foldl_cons]
  have hu : OnlyPackets s (before.foldl (fun s p => sendView s p message dom view set member) s) := .foldl _ _ (fun u p => onlyPackets_sendView u ..) s
  generalize before.foldl (fun s p => sendView s p message dom view set member) s = u at hu
  have hsrc : chalumeauOf u Config.package = endpoint s.pkg.chalumeau 125 := by simp [chalumeauOf, endpoint, hu.chalumeau]
  have hdst : chalumeauOf u n = n * 4096 + 22 * 128 + 125 := by simp [chalumeauOf, hp]
  have hsent : OnItsWay (sendView u n message dom view set member) (fun r => r.cls = 0 ∧ r.typ = 0x0A ∧ r.src = endpoint s.pkg.chalumeau 125 ∧
      r.dst = n * 4096 + 22 * 128 + 125 ∧ r.body = .viewProtocol message dom view set member) := by
    rw [sendView, hsrc, hdst]
    refine onItsWay_ctl fun h => absurd ?_ hp
    rw [← h, epPackage]
    omega
  exact (hsent.foldl after _ fun v p hv => hv.inject _).inFlight

/-! ### Installing (R159, R160, R446 to R448) -/

section
variable {s : State} {dom view : Nat} {set : List Bool} {d : Domain}

/-- Some dies hold a view of a domain. -/
def putViews (dom view : Nat) (l : List Nat) (s : State) : State := l.foldl (fun s i => s.updDie i (fun x => { x with views := x.views.put dom view })) s

theorem pkg_putViews (l : List Nat) (s : State) : (putViews dom view l s).pkg = s.pkg := List.foldlRecOn (motive := fun u : State => u.pkg = s.pkg) l _ rfl fun _ hu _ _ => hu
theorem time_putViews (l : List Nat) (s : State) : (putViews dom view l s).time = s.time := List.foldlRecOn (motive := fun u : State => u.time = s.time) l _ rfl fun _ hu _ _ => hu
theorem events_putViews (l : List Nat) (s : State) : (putViews dom view l s).events = s.events := List.foldlRecOn (motive := fun u : State => u.events = s.events) l _ rfl fun _ hu _ _ => hu
theorem host_putViews (l : List Nat) (s : State) : (putViews dom view l s).host = s.host := List.foldlRecOn (motive := fun u : State => u.host = s.host) l _ rfl fun _ hu _ _ => hu

theorem inc_putViews (l : List Nat) (s : State) (e : Nat) : ((putViews dom view l s).die e).inc = (s.die e).inc :=
  List.foldlRecOn (motive := fun u : State => (u.die e).inc = (s.die e).inc) l _ rfl fun u hu i _ =>
    (field_updDie Die.inc u i e (f := fun x => { x with views := x.views.put dom view }) fun _ => rfl).trans hu

theorem viewAt_putViews {l : List Nat} {e : Nat} (h : e ∈ l) (s : State) : viewAt (putViews dom view l s) e dom = view := by
  induction l generalizing s with
  | nil => cases h
  | cons i l ih =>
    rw [putViews, List.foldl_cons]
    by_cases hl : e ∈ l
    · exact ih hl _
    · obtain rfl := (List.mem_cons.mp h).resolve_right hl
      refine List.foldlRecOn (motive := fun u => viewAt u e dom = view) l _ ?_ fun u hu j hj => ?_
      · rw [viewAt, State.die_updDie_same, NMap.find_put_same, Option.getD_some]
      · rw [viewAt, State.die_updDie_other _ _ fun h : e = j => hl (h ▸ hj)]
        exact hu

theorem mem_presentDies_iff (e : Nat) : e ∈ presentDies s ↔ e < 24 ∧ (s.die e).present = true := by simp [presentDies]

/-- An installed view is installed of a state that differed in packets alone. -/
theorem installed_of_onlyPackets {u s' : State} (hu : OnlyPackets s u) (h : Installed u s' dom d view set) : Installed s s' dom d view set := by
  obtain ⟨hd, hv, hr⟩ := h
  simp only [hu.die] at hd hv
  rw [hu.chalumeau] at hr
  refine ⟨hd, hv, ?_⟩
  obtain ⟨e, he, hb⟩ := hr
  exact ⟨e, he, by rw [hb, hu.time, hu.die]⟩

/-- The domain while its dies install a view. -/
def installing (dies : List Nat) (view : Nat) (set : List Bool) (d : Domain) : Domain :=
  { d with view := view, set := set, phase := .installing, accepts := [], installs := dies, wanted := d.wanted.filter (fun w => set.getD w.1 false != w.2), blocks := [], assigned := [] }

/-- Event 0x69 of a view installed, and its count; threads armed at the old view take their traps. -/
def announce (s : State) (dom view : Nat) (dies : List Nat) : State :=
  dies.foldl trapArmed ((s.event (chalumeauOf s Config.package) 0 0x69 1 false view (liveMembers s dom)).count (lifeKey 9 dom 0) 1)

theorem keepsTables_count (s : State) (key n : Nat) : KeepsTables s (s.count key n) := ⟨rfl, rfl, fun _ => rfl, fun _ => rfl, fun _ h => h⟩

theorem keepsTables_announce (s : State) (dom view : Nat) (dies : List Nat) :
    KeepsTables (s.event (chalumeauOf s Config.package) 0 0x69 1 false view (liveMembers s dom)) (announce s dom view dies) := by
  unfold announce
  exact (keepsTables_count ..).trans (.foldl _ _ (fun u i => keepsTables_trapArmed u i) _)

/-- A view is installed in every present die, with its event. -/
theorem installed_installView (h : domainOf s dom = some d) : Installed s (installView s dom view set) dom d view set := by
  obtain ⟨u, hu⟩ : ∃ u, u = updDomain s dom (installing (presentDies s) view set) := ⟨_, rfl⟩
  obtain ⟨v, hv⟩ : ∃ v, v = putViews dom view (presentDies s) u := ⟨_, rfl⟩
  have heq : installView s dom view set = announce v dom view (presentDies s) := by
    simp only [installView, h, hv, hu]
    rfl
  have hpkg : v.pkg = u.pkg := by rw [hv, pkg_putViews]
  have hk := keepsTables_announce v dom view (presentDies s)
  have hall : KeepsTables v (announce v dom view (presentDies s)) := (keepsTables_event ..).trans hk
  have hd : domainOf v dom = some (installing (presentDies s) view set d) := by
    rw [domainOf_congr (s := u) (by rw [hpkg]), hu]
    exact domainOf_updDomain h _
  have hviews (e : Nat) (he : e < 24) (hp : (s.die e).present = true) : viewAt v e dom = view := by
    rw [hv]
    exact viewAt_putViews ((mem_presentDies_iff e).mpr ⟨he, hp⟩) u
  have hsrc : chalumeauOf v Config.package = endpoint s.pkg.chalumeau 125 := by
    rw [chalumeauOf, if_pos rfl, hpkg, hu]
    rfl
  have htime : v.time = s.time := by rw [hv, time_putViews, hu]; rfl
  have hinc (e : Nat) : (v.die e).inc = (s.die e).inc := by rw [hv, inc_putViews, hu]; rfl
  rw [heq]
  clear hv hu heq
  refine ⟨⟨installing (presentDies s) view set d, (domainOf_congr hall.domains dom).trans hd, rfl, rfl, rfl, rfl, rfl, rfl, fun e => mem_presentDies_iff e, rfl⟩, fun e he hp => ?_, ?_⟩
  · rw [viewAt, hall.views]
    exact hviews e he hp
  · rw [← hsrc, ← show liveMembers v dom = (set.filter (fun b => b)).length from liveMembers_eq hd]
    exact reported_of_event htime (hinc _) hk.reports

/-! ### Proposing (R159, R446) -/

/-- The coordinator commits: the view is installed here. -/
theorem installed_commitView (h : domainOf s dom = some d) : Installed s (commitView s dom) dom d d.propView d.propSet := by
  simp only [commitView, h]
  have hu (l : List Nat) : OnlyPackets s (l.foldl (fun s p => sendView s p 3 dom d.propView d.propSet 0) s) := .foldl _ _ (fun u p => onlyPackets_sendView u ..) s
  exact installed_of_onlyPackets (hu _) (installed_installView ((domainOf_congr (hu _).domains dom).trans h))

/-- The domain while a proposal is open. -/
def proposing (view : Nat) (set : List Bool) (dest : List Nat) (d : Domain) : Domain :=
  { d with phase := .proposing, propView := view, propSet := set, propFrom := coordinatorIndex d Config.package, accepts := dest }

/-- The coordinator of a stable domain proposes the changes wanted. -/
theorem proposed_proposeView (h : domainOf s dom = some d) (hw : d.wanted ≠ []) (hs : d.phase = .stable) (ho : Ours s d) : Proposed s (proposeView s dom) dom d := by
  have hset : d.wanted.foldl (fun l w => l.set w.1 w.2) d.set = wantedSet d := rfl
  unfold Proposed
  dsimp only
  rw [hset]
  generalize hview : (d.view + 1) % 2 ^ 24 = view, hdest : (packagesOf d (wantedSet d)).filter (fun p => p != Config.package && !s.pkg.unreachable.contains p) = dest
  have hmem (n : Nat) : n ∈ dest ↔ Hosts s d (wantedSet d) n := hdest ▸ mem_dest_iff
  have hd := domainOf_updDomain h (proposing view (wantedSet d) dest)
  have heq : proposeView s dom = if dest.isEmpty then commitView (updDomain s dom (proposing view (wantedSet d) dest)) dom
      else dest.foldl (fun s p => sendView s p 0 dom view (wantedSet d) 0) (updDomain s dom (proposing view (wantedSet d) dest)) := by
    simp only [proposeView, h, List.isEmpty_eq_false_iff.mpr hw, hs, coordinates_iff.mpr ho, bne_self_eq_false, Bool.not_true, Bool.or_false, Bool.false_eq_true, if_false, hview, hdest]
    rfl
  refine ⟨fun ⟨n, hn⟩ => ?_, fun hnone => ?_⟩
  · have hne : dest.isEmpty = false := List.isEmpty_eq_false_iff.mpr (List.ne_nil_of_mem ((hmem n).mpr hn))
    rw [heq, hne]
    have hu (u : State) : OnlyPackets u (dest.foldl (fun s p => sendView s p 0 dom view (wantedSet d) 0) u) := .foldl _ _ (fun u p => onlyPackets_sendView u ..) _
    exact ⟨proposing view (wantedSet d) dest d, (domainOf_congr (hu _).domains dom).trans hd, rfl, rfl, rfl, rfl, rfl, rfl, hmem,
      fun m hm => viewSent_foldl (s := updDomain s dom _) ((hmem m).mpr hm) hm.1⟩
  · have hempty : dest = [] := List.eq_nil_iff_forall_not_mem.mpr fun n hn => hnone n ((hmem n).mp hn)
    rw [heq, hempty]
    exact installed_commitView (hempty ▸ hd)

/-! ### A wanted change (R446, R449) -/

theorem wantChange_settled {i : Nat} {join : Bool} (report : Bool) (h : domainOf s dom = some d) (hs : Settled d i join) : wantChange s dom i join report = s := by
  have hs' : d.members.length ≤ i ∨ d.set.getD i false = join ∨ d.wanted.contains (i, join) = true := by simpa [Settled] using hs
  simp only [wantChange, h, hs', if_true]

/-- The domain with a change noted. -/
def noted (i : Nat) (join : Bool) (d : Domain) : Domain := { d with wanted := d.wanted.filter (fun w => w.1 != i) ++ [(i, join)] }

/-- What follows once a change is noted. -/
def afterNoted (s : State) (dom i : Nat) (join report : Bool) : State :=
  match domainOf s dom with
  | none => s
  | some e =>
    if coordinates s e then proposeView s dom
    else match coordinator s e with
      | some c => if report then sendView s (memberPackage e c) (if join then 4 else 5) dom e.view [] i else s
      | none => s

/-- A noted change is proposed where this package leads a stable domain, and else stays noted. -/
theorem wanted_afterNoted {i : Nat} {join : Bool} (report : Bool) (h : domainOf s dom = some d) (hw : d.wanted ≠ []) :
    (Ours s d ∧ d.phase = .stable → Proposed s (afterNoted s dom i join report) dom d) ∧
    (¬ (Ours s d ∧ d.phase = .stable) → domainOf (afterNoted s dom i join report) dom = some d) := by
  by_cases ho : Ours s d
  · have heq : afterNoted s dom i join report = proposeView s dom := by simp only [afterNoted, h, coordinates_iff.mpr ho, if_true]
    rw [heq]
    refine ⟨fun hs => proposed_proposeView h hw hs.2 ho, fun hs => ?_⟩
    have hphase : (d.phase != .stable) = true := bne_iff_ne.mpr fun hp => hs ⟨ho, hp⟩
    simp only [proposeView, h, hphase, Bool.or_true, Bool.true_or, if_true]
  · refine ⟨fun hs => absurd hs.1 ho, fun _ => ?_⟩
    have hc : coordinates s d = false := Bool.eq_false_iff.mpr (mt coordinates_iff.mp ho)
    simp only [afterNoted, h, hc, Bool.false_eq_true, if_false]
    split
    · split
      · exact (domainOf_congr (onlyPackets_sendView s ..).domains dom).trans h
      · exact h
    · exact h

/-- A change that is not made yet is noted, and proposed where this package leads a stable domain. -/
theorem wanted_wantChange {i : Nat} {join : Bool} (report : Bool) (h : domainOf s dom = some d) (hs : ¬ Settled d i join) :
    Wanted s (wantChange s dom i join report) dom d i join := by
  have hs' : ¬ (d.members.length ≤ i ∨ d.set.getD i false = join ∨ d.wanted.contains (i, join) = true) := by simpa [Settled] using hs
  have hopen : wantChange s dom i join report = afterNoted (updDomain s dom (noted i join)) dom i join report := by
    simp only [wantChange, h, hs', if_false]
    rfl
  rw [hopen]
  have hw := wanted_afterNoted (i := i) (join := join) report (domainOf_updDomain h (noted i join)) (by simp [noted])
  exact hw

/-! ### A domain that is set up (R158) -/

/-- A domain set up anew is stable, with every member live, and every present die holds its view. -/
theorem domainOf_setDomain (s : State) (dom view : Nat) (l : List (Nat × Nat)) :
    ∃ d, domainOf (setDomain s dom view l) dom = some d ∧ d.members = l ∧ d.set = List.replicate l.length true ∧ d.view = view ∧ d.phase = .stable ∧ d.wanted = [] ∧
      ∀ e, e < 24 → (s.die e).present = true → viewAt (setDomain s dom view l) e dom = view := by
  obtain ⟨d, u, hu, heq, hfields⟩ : ∃ (d : Domain) (u : State), (u = s.updPkg fun k => { k with domains := (dom, d) :: k.domains.filter (fun p => p.1 != dom) }) ∧
      setDomain s dom view l = putViews dom view (presentDies u) u ∧ d.members = l ∧ d.set = List.replicate l.length true ∧ d.view = view ∧ d.phase = .stable ∧ d.wanted = [] :=
    ⟨_, _, rfl, rfl, rfl, List.map_const' .., rfl, rfl, rfl⟩
  obtain ⟨hmembers, hset, hview, hphase, hwanted⟩ := hfields
  refine ⟨d, ?_, hmembers, hset, hview, hphase, hwanted, fun e he hp => ?_⟩
  · rw [heq, domainOf_congr (congrArg (·.domains) (pkg_putViews _ _)) dom, hu]
    simp [domainOf, State.updPkg]
  · rw [heq]
    exact viewAt_putViews ((mem_presentDies_iff e).mpr ⟨he, hu ▸ hp⟩) _

end

end Sys2Proof.FabricLaws
end

section
/-! PROOFS. The rows of the commands whose effect is in memory, in the fault buffers or in the queues (R168, R174, R176, R374, R403), and of VIEW_CHANGE and HOST_SWITCH. -/

namespace Sys2Proof.CommandLaws

open Sys2Proof Sys2Proof.Machine Sys2Proof.Claims Sys2Proof.HostLaws Sys2Proof.FabricLaws

section
variable {s t1 s2 : State} {c : Command}

/-! ### The state in which a command is carried out -/

/-- It is the state before, or that state after a visit. -/
theorem handed_cases (P : State → Prop) (h : P s) (hv : ∀ pa, P (visited s pa)) (c : Command) : P (handed s c) := by
  unfold handed
  split
  · exact h
  · exact hv _

@[simp] theorem present_handed (d : Nat) : ((handed s c).die d).present = (s.die d).present := handed_cases (fun u => (u.die d).present = (s.die d).present) rfl (fun _ => present_visited d) c
@[simp] theorem inc_handed (d : Nat) : ((handed s c).die d).inc = (s.die d).inc := handed_cases (fun u => (u.die d).inc = (s.die d).inc) rfl (fun _ => inc_visited d) c
@[simp] theorem loss_handed (d : Nat) : ((handed s c).die d).loss = (s.die d).loss := handed_cases (fun u => (u.die d).loss = (s.die d).loss) rfl (fun _ => loss_visited d) c
@[simp] theorem enabled_handed (d : Nat) : ((handed s c).die d).enabled = (s.die d).enabled := handed_cases (fun u => (u.die d).enabled = (s.die d).enabled) rfl (fun _ => enabled_visited d) c
@[simp] theorem pkg_handed : (handed s c).pkg = s.pkg := handed_cases (fun u => u.pkg = s.pkg) rfl (fun _ => pkg_visited) c
@[simp] theorem host_handed : (handed s c).host = s.host := handed_cases (fun u => u.host = s.host) rfl (fun _ => host_visited) c
@[simp] theorem mem_handed : (handed s c).mem = s.mem := handed_cases (fun u => u.mem = s.mem) rfl (fun _ => mem_visited) c
@[simp] theorem time_handed : (handed s c).time = s.time := handed_cases (fun u => u.time = s.time) rfl (fun _ => time_visited) c
@[simp] theorem fresh_handed : (handed s c).fresh = s.fresh := handed_cases (fun u => u.fresh = s.fresh) rfl (fun _ => fresh_visited) c
@[simp] theorem grids_handed : (handed s c).grids = s.grids := handed_cases (fun u => u.grids = s.grids) rfl (fun _ => grids_visited) c

theorem hostBytes_handed (a n : Nat) : HostBytes (handed s c) a n ↔ HostBytes s a n :=
  handed_cases (fun u => HostBytes u a n ↔ HostBytes s a n) Iff.rfl (fun _ => hostBytes_visited a n) c

theorem read_congr {u v : State} (h : u.mem = v.mem) (a n : Nat) : u.read a n = v.read a n := by simp only [State.read, h]

/-- A command in progress is carried out in the state as it is. -/
theorem handed_of_command (h : s.host.command = some c) : handed s c = s := by simp [handed, h]

/-! ### Fields (R167, R367, R373) -/

theorem fieldsClear_iff (l : List (Nat × Nat)) : fieldsClear c l = true ↔ Blank c l := by simp [fieldsClear, Blank, and_assoc]

theorem fieldsClear_false {l : List (Nat × Nat)} (h : ¬ Blank c l) : fieldsClear c l = false := Bool.eq_false_iff.mpr (mt (fieldsClear_iff l).mp h)

theorem testBit_mask (d : Nat) : c.mask.testBit d = true ↔ d < 24 ∧ (field c.bytes 8 4).testBit d = true := by
  rw [Command.mask, Nat.testBit_mod_two_pow, Bool.and_eq_true, decide_eq_true_iff]

theorem mem_maskDies {d : Nat} : d ∈ maskDies c.mask ↔ d < 24 ∧ (field c.bytes 8 4).testBit d = true := by
  rw [maskDies, List.mem_filter, List.mem_range, testBit_mask]
  tauto

theorem maskAbsent_iff {u : State} (hp : ∀ d, (u.die d).present = (s.die d).present) : maskAbsent u c.mask = true ↔ NoneThere s c := by
  have hne : c.mask ≠ 0 ↔ ∃ d, d < 24 ∧ (field c.bytes 8 4).testBit d = true := by
    refine ⟨fun h => ?_, fun ⟨d, hd⟩ h => ?_⟩
    · by_contra hn
      refine h (Nat.zero_of_testBit_eq_false fun d => Bool.eq_false_iff.mpr fun hd => hn ⟨d, (testBit_mask d).mp hd⟩)
    · have hbit := (testBit_mask d).mpr hd
      rw [h, Nat.zero_testBit] at hbit
      exact absurd hbit Bool.false_ne_true
  have hall : (maskDies c.mask).any (fun d => (u.die d).present) = false ↔ ∀ d, d < 24 → (field c.bytes 8 4).testBit d = true → (s.die d).present = false := by
    simp only [List.any_eq_false, mem_maskDies, hp, Bool.not_eq_true]
    exact ⟨fun h d hd hb => h d ⟨hd, hb⟩, fun h d hd => h d hd.1 hd.2⟩
  rw [maskAbsent, Bool.and_eq_true, bne_iff_ne, Bool.not_eq_true', hne, hall, NoneThere]

theorem maskAbsent_handed (h : NoneThere s c) : maskAbsent (handed s c) c.mask = true := (maskAbsent_iff fun d => present_handed d).mpr h

theorem maskAbsent_handed_false (h : ¬ NoneThere s c) : maskAbsent (handed s c) c.mask = false := Bool.eq_false_iff.mpr (mt (maskAbsent_iff fun d => present_handed d).mp h)

/-! ### Rows that a command completes -/

/-- A row completes the command of its opcode as its command function says. -/
theorem finishes_row {i : Instr} {k n : Nat} {act : State → Command → Done} (hi : exec i s = .next (plaod s (fun c => c.opcode == k) act)) (h : InHand s c)
    (hop : field c.bytes 0 2 = k) (ha : act (handed s c) c = .status s2 n) : Finishes i s s2 c n :=
  finishes_of_plaod hi h (by simp [Command.opcode, hop]) ha

theorem unassigned_finishes (h : InHand s c) (hop : field c.bytes 0 2 = 0 ∨ 13 < field c.bytes 0 2) : Finishes .plaodUnassignedOpcode s (handed s c) c 1 :=
  finishes_of_plaod rfl h (by rwa [Command.opcode, Bool.or_eq_true, beq_iff_eq, decide_eq_true_iff]) rfl

/-! ### MAP -/

/-- Fields of a MAP or UNMAP within their ranges. -/
def MapFields (c : Command) (l : List (Nat × Nat)) : Prop := Blank c (l ++ [(14, 2), (41, 23)]) ∧ field c.bytes 24 8 < 2 ^ 56 ∧ 1 ≤ field c.bytes 40 1 ∧ field c.bytes 40 1 ≤ 4

theorem mapOk_iff (l : List (Nat × Nat)) : mapOk c l = true ↔ MapFields c l := by
  simp only [mapOk, Bool.and_eq_true, fieldsClear_iff, decide_eq_true_iff, MapFields, and_assoc]

theorem mapOk_false {l : List (Nat × Nat)} (h : ¬ MapFields c l) : mapOk c l = false := Bool.eq_false_iff.mpr (mt (mapOk_iff l).mp h)

theorem map_invalid (h : InHand s c) (hop : field c.bytes 0 2 = 2) (hok : ¬ MapFields c []) : Finishes .map s (handed s c) c 2 :=
  finishes_row rfl h hop (by simp only [runMap, mapOk_false hok, Bool.not_false, if_true])

theorem map_noEntry (h : InHand s c) (hop : field c.bytes 0 2 = 2) (hok : MapFields c []) (hn : namedEntry (handed s c) c = none) : Finishes .map s (handed s c) c 4 :=
  finishes_row rfl h hop (by simp only [runMap, (mapOk_iff []).mpr hok, hn, Bool.not_true, Bool.false_eq_true, if_false])

theorem map_writes {a : Nat} (h : InHand s c) (hop : field c.bytes 0 2 = 2) (hok : MapFields c []) (hn : namedEntry (handed s c) c = some (t1, a)) (hb : HostBytes t1 a 8) :
    Finishes .map s (putAt t1 a (leBytes 8 (field c.bytes 32 8))) c 0 := by
  have hw : memoryWrite t1 a (leBytes 8 (field c.bytes 32 8)) = some (putAt t1 a (leBytes 8 (field c.bytes 32 8))) :=
    memoryWrite_of_hostBytes ((ExecutionLaws.leBytes_length 8 _).symm ▸ hb)
  exact finishes_row rfl h hop (by simp only [runMap, (mapOk_iff []).mpr hok, hn, hw, Bool.not_true, Bool.false_eq_true, if_false])

/-! ### REPLAY_ALL, QUEUE_SETUP -/

theorem replayAll_invalid (h : InHand s c) (hop : field c.bytes 0 2 = 4) (hok : ¬ Blank c [(12, 52)]) : Finishes .replayAll s (handed s c) c 2 :=
  finishes_row rfl h hop (by simp only [runReplay, fieldsClear_false hok, Bool.not_false, if_true])

theorem replayAll_absent (h : InHand s c) (hop : field c.bytes 0 2 = 4) (hok : Blank c [(12, 52)]) (ha : NoneThere s c) : Finishes .replayAll s (handed s c) c 5 :=
  finishes_row rfl h hop (by simp only [runReplay, (fieldsClear_iff _).mpr hok, maskAbsent_handed ha, Bool.not_true, Bool.false_eq_true, if_false, if_true])

theorem replayAll_replays (h : InHand s c) (hop : field c.bytes 0 2 = 4) (hok : Blank c [(12, 52)]) (ha : ¬ NoneThere s c) :
    Finishes .replayAll s (((maskDies c.mask).filter (fun d => (s.die d).present)).foldl replayDie (handed s c)) c 0 :=
  finishes_row rfl h hop (by simp only [runReplay, (fieldsClear_iff _).mpr hok, maskAbsent_handed_false ha, present_handed, Bool.not_true, Bool.false_eq_true, if_false])

theorem runQueueSetup_ok {u : State} (hb : bindQueue u c.bytes = .ok s2) : runQueueSetup u c = .status s2 0 := by
  unfold runQueueSetup
  generalize bindQueue u c.bytes = r at hb
  subst hb
  rfl

theorem runQueueSetup_status {u : State} {n : Nat} (hb : bindQueue u c.bytes = .status n) : runQueueSetup u c = .status u n := by
  unfold runQueueSetup
  generalize bindQueue u c.bytes = r at hb
  subst hb
  rfl

theorem queueSetup_binds (h : InHand s c) (hop : field c.bytes 0 2 = 5) (hb : bindQueue (handed s c) c.bytes = .ok s2) : Finishes .queueSetup s s2 c 0 :=
  finishes_row rfl h hop (runQueueSetup_ok hb)

theorem queueSetup_refuses {n : Nat} (h : InHand s c) (hop : field c.bytes 0 2 = 5) (hb : bindQueue (handed s c) c.bytes = .status n) : Finishes .queueSetup s (handed s c) c n :=
  finishes_row rfl h hop (runQueueSetup_status hb)

/-! ### VIEW_CHANGE (R159) -/

/-- Fields of a VIEW_CHANGE within their ranges. -/
def ChangeFields (c : Command) : Prop := Blank c [(12, 4), (19, 45)] ∧ field c.bytes 16 1 ≤ 15 ∧ field c.bytes 17 1 ≤ 1

theorem changeOk_iff : (!fieldsClear c [(12, 4), (19, 45)] || decide (15 < field c.bytes 16 1) || decide (1 < field c.bytes 17 1)) = false ↔ ChangeFields c := by
  simp only [Bool.or_eq_false_iff, Bool.not_eq_false', fieldsClear_iff, decide_eq_false_iff_not, Nat.not_lt, ChangeFields, and_assoc]

theorem domainOf_handed (n : Nat) : domainOf (handed s c) n = domainOf s n := domainOf_congr (by rw [pkg_handed]) n

theorem viewChange_invalid (h : InHand s c) (hop : field c.bytes 0 2 = 7) (hok : ¬ ChangeFields c ∨ domainOf s (field c.bytes 16 1) = none) : Finishes .viewChange s (handed s c) c 2 := by
  refine finishes_row rfl h hop ?_
  by_cases hf : ChangeFields c
  · simp only [runViewChange, changeOk_iff.mpr hf, domainOf_handed, hok.resolve_left (not_not.mpr hf), Bool.false_eq_true, if_false]
  · simp only [runViewChange, Bool.not_eq_false _ |>.mp (mt changeOk_iff.mp hf), if_true]

variable {d : Domain}

theorem viewChange_noMember (h : InHand s c) (hop : field c.bytes 0 2 = 7) (hok : ChangeFields c) (hd : domainOf s (field c.bytes 16 1) = some d) (hi : d.members.length ≤ field c.bytes 18 1) :
    Finishes .viewChange s (handed s c) c 2 :=
  finishes_row rfl h hop (by simp only [runViewChange, changeOk_iff.mpr hok, domainOf_handed, hd, hi, Bool.false_eq_true, if_false, if_true])

theorem viewChange_wants (h : InHand s c) (hop : field c.bytes 0 2 = 7) (hok : ChangeFields c) (hd : domainOf s (field c.bytes 16 1) = some d) (hi : field c.bytes 18 1 < d.members.length) :
    Finishes .viewChange s (wantChange (handed s c) (field c.bytes 16 1) (field c.bytes 18 1) (field c.bytes 17 1 == 1) true) c 0 :=
  finishes_row rfl h hop (by simp only [runViewChange, changeOk_iff.mpr hok, domainOf_handed, hd, Nat.not_le.mpr hi, Bool.false_eq_true, if_false])

/-! ### CONFIG_READ, ATTEST and LIFETIME_READ, where their fields or dies fail -/

theorem configRead_invalid (h : InHand s c) (hop : field c.bytes 0 2 = 10) (hok : ¬ Blank c [(12, 4), (24, 40)]) : Finishes .configRead s (handed s c) c 2 :=
  finishes_row rfl h hop (by simp only [runConfigRead, fieldsClear_false hok, Bool.not_false, if_true])

/-- CONFIG_READ writes its image. -/
theorem configRead_writes (h : InHand s c) (hop : field c.bytes 0 2 = 10) (hok : Blank c [(12, 4), (24, 40)]) (hw : memoryWrite (handed s c) (field c.bytes 16 8) (configImage (handed s c)) = some s2) :
    Finishes .configRead s s2 c 0 :=
  finishes_row rfl h hop (by simp only [runConfigRead, (fieldsClear_iff _).mpr hok, hw, Bool.not_true, Bool.false_eq_true, if_false])

theorem configRead_fails (h : InHand s c) (hop : field c.bytes 0 2 = 10) (hok : Blank c [(12, 4), (24, 40)]) (hw : memoryWrite (handed s c) (field c.bytes 16 8) (configImage (handed s c)) = none) :
    Finishes .configRead s (handed s c) c 4 :=
  finishes_row rfl h hop (by simp only [runConfigRead, (fieldsClear_iff _).mpr hok, hw, Bool.not_true, Bool.false_eq_true, if_false])

theorem attest_invalid (h : InHand s c) (hop : field c.bytes 0 2 = 9) (hok : ¬ Blank c [(12, 4), (32, 32)]) : Finishes .attest s (handed s c) c 2 :=
  finishes_row rfl h hop (by simp only [runAttest, fieldsClear_false hok, Bool.not_false, if_true])

/-- ATTEST reads its nonce. -/
theorem nonce_read (hn : HostBytes s (field c.bytes 16 8) 32) : memoryRead (handed s c) (field c.bytes 16 8) 32 = some (visited (handed s c) (field c.bytes 16 8), s.read (field c.bytes 16 8) 32) := by
  rw [memoryRead_of_hostBytes ((hostBytes_handed _ _).mpr hn), read_congr mem_handed]

theorem attest_noKey (h : InHand s c) (hop : field c.bytes 0 2 = 9) (hok : Blank c [(12, 4), (32, 32)]) (hn : HostBytes s (field c.bytes 16 8) 32) (hk : s.host.keyOk = false) :
    Finishes .attest s ((handed s c).event (faultUnit s.host.serving) 11 0x8A 2 false 0 0) c 8 :=
  finishes_row rfl h hop (by simp only [runAttest, (fieldsClear_iff _).mpr hok, nonce_read hn, host_handed, hk, Bool.not_true, Bool.not_false, Bool.false_eq_true, if_false, if_true])

section
variable (h : InHand s c) (hop : field c.bytes 0 2 = 9) (hok : Blank c [(12, 4), (32, 32)]) (hn : HostBytes s (field c.bytes 16 8) 32) (hk : s.host.keyOk = true)
include h hop hok hn hk

theorem attest_writes (hw : memoryWrite (visited (handed s c) (field c.bytes 16 8)) (field c.bytes 24 8) (attestReport (visited (handed s c) (field c.bytes 16 8)) (s.read (field c.bytes 16 8) 32)) = some s2) :
    Finishes .attest s s2 c 0 :=
  finishes_row rfl h hop (by simp only [runAttest, (fieldsClear_iff _).mpr hok, nonce_read hn, host_handed, hk, hw, Bool.not_true, Bool.false_eq_true, if_false])

theorem attest_fails (hw : memoryWrite (visited (handed s c) (field c.bytes 16 8)) (field c.bytes 24 8) (attestReport (visited (handed s c) (field c.bytes 16 8)) (s.read (field c.bytes 16 8) 32)) = none) :
    Finishes .attest s (handed s c) c 4 :=
  finishes_row rfl h hop (by simp only [runAttest, (fieldsClear_iff _).mpr hok, nonce_read hn, host_handed, hk, hw, Bool.not_true, Bool.false_eq_true, if_false])

end

/-- Fields of a LIFETIME_READ within their ranges. -/
def LifetimeFields (c : Command) : Prop := Blank c [(12, 4), (17, 7), (32, 32)] ∧ (field c.bytes 16 1 = 22 ∨ field c.bytes 16 1 = 23)

theorem lifetimeOk_iff : (!fieldsClear c [(12, 4), (17, 7), (32, 32)] || (field c.bytes 16 1 != 22 && field c.bytes 16 1 != 23)) = false ↔ LifetimeFields c := by
  simp only [Bool.or_eq_false_iff, Bool.not_eq_false', fieldsClear_iff, Bool.and_eq_false_iff, bne_eq_false_iff_eq, LifetimeFields]

theorem lifetimeRead_invalid (h : InHand s c) (hop : field c.bytes 0 2 = 13) (hok : ¬ LifetimeFields c) : Finishes .lifetimeRead s (handed s c) c 2 :=
  finishes_row rfl h hop (by simp only [runLifetimeRead, Bool.not_eq_false _ |>.mp (mt lifetimeOk_iff.mp hok), if_true])

section
variable (h : InHand s c) (hop : field c.bytes 0 2 = 13) (hok : LifetimeFields c)
include h hop hok

theorem lifetimeRead_absent (hp : (s.die (field c.bytes 16 1)).present = false) : Finishes .lifetimeRead s (handed s c) c 5 :=
  finishes_row rfl h hop (by simp only [runLifetimeRead, lifetimeOk_iff.mpr hok, present_handed, hp, Bool.not_false, Bool.false_eq_true, if_false, if_true])

/-- LIFETIME_READ writes the gateways' contents, or fails to. -/
theorem lifetimeRead_writes (hp : (s.die (field c.bytes 16 1)).present = true) : ∃ image : List Byte, image.length = 2 ^ 18 ∧
    (∀ s2, memoryWrite (handed s c) (field c.bytes 24 8) image = some s2 → Finishes .lifetimeRead s s2 c 0) ∧
    (memoryWrite (handed s c) (field c.bytes 24 8) image = none → Finishes .lifetimeRead s (handed s c) c 4) := by
  refine ⟨(List.range 0x40000).map (Config.lifetimeByte s.pkg.lifetime), by rw [List.length_map, List.length_range]; norm_num, fun s2 hw => ?_, fun hw => ?_⟩
  · exact finishes_row rfl h hop (by simp only [runLifetimeRead, lifetimeOk_iff.mpr hok, present_handed, pkg_handed, hp, hw, Bool.not_true, Bool.false_eq_true, if_false])
  · exact finishes_row rfl h hop (by simp only [runLifetimeRead, lifetimeOk_iff.mpr hok, present_handed, pkg_handed, hp, hw, Bool.not_true, Bool.false_eq_true, if_false])

end

/-! ### HOST_SWITCH (R171) -/

theorem hostSwitch_invalid (h : InHand s c) (hop : field c.bytes 0 2 = 12) (hok : ¬ Blank c [(12, 52)]) : Finishes .hostSwitch s (handed s c) c 2 :=
  finishes_row rfl h hop (by simp only [runHostSwitch, fieldsClear_false hok, Bool.not_false, if_true])

theorem hostSwitch_down (h : InHand s c) (hop : field c.bytes 0 2 = 12) (hok : Blank c [(12, 52)]) (hl : 23 ∉ s.host.links) : Finishes .hostSwitch s (handed s c) c 7 :=
  finishes_row rfl h hop (by simp [runHostSwitch, (fieldsClear_iff _).mpr hok, hl])

/-- The host's link is the new gateway's, and what was held goes out. -/
theorem hostSwitch_switches (h : InHand s c) (hop : field c.bytes 0 2 = 12) (hok : Blank c [(12, 52)]) (hl : 23 ∈ s.host.links) :
    Finishes .hostSwitch s ((handed s c).updHost (fun h => { h with gateway := 23, toHost := h.held.reverse ++ h.toHost, held := [] })) c 0 := by
  have hup : hostLinkUp ((handed s c).updHost (fun h => { h with gateway := 23 })) = true := by
    simp [hostLinkUp, State.updHost, hl]
  refine finishes_row rfl h hop ?_
  simp only [runHostSwitch, hostRelease, (fieldsClear_iff _).mpr hok, host_handed, List.contains_eq_mem, hl, hup, decide_true, Bool.not_true, Bool.false_eq_true, if_false, if_true]
  rfl

end

end Sys2Proof.CommandLaws
end

section
/-! PROOFS. The images that CONFIG_READ and ATTEST write (R174, R374). -/

namespace Sys2Proof.CommandLaws

open Sys2Proof Sys2Proof.Machine Sys2Proof.Claims Sys2Proof.HostLaws Sys2Proof.ExecutionLaws

/-! ### Tables of entries of one length -/

section
variable {α : Type} {f : α → List Byte} {k : Nat} (hf : ∀ x, (f x).length = k)
include hf

theorem length_table (l : List α) : (l.flatMap f).length = k * l.length := by
  induction l with
  | nil => rfl
  | cons x l ih => rw [List.flatMap_cons, List.length_append, ih, hf, List.length_cons]; ring

/-- An entry of a table, as a field of the image that it stands in. -/
theorem field_table (n d : Nat) (hd : d < n) (g : Nat → α) {pre post : List Byte} {off : Nat} (ho : off = pre.length + k * d) :
    field (pre ++ (List.range n).flatMap (fun i => f (g i)) ++ post) off k = leNat (f (g d)) := by
  have hsplit : List.range n = List.range d ++ [d] ++ (List.range (n - d - 1)).map (fun i => d + 1 + i) := by
    rw [← List.range_succ, ← List.range_add, show d + 1 + (n - d - 1) = n by omega]
  have hlen : (pre ++ (List.range d).flatMap (fun i => f (g i))).length = off := by
    rw [List.length_append, length_table (f := fun i => f (g i)) (fun i => hf _), List.length_range, ho]
  rw [hsplit]
  simp only [List.flatMap_append, List.flatMap_cons, List.flatMap_nil, List.append_nil, ← List.append_assoc]
  rw [List.append_assoc _ _ post]
  exact field_append hlen (hf _)

end

/-! ### Maps of bits -/

/-- A number whose bits are the elements of a list. -/
theorem testBit_sum_two_pow {l : List Nat} (hl : l.Nodup) (n : Nat) : (l.map (fun c => 2 ^ c)).sum.testBit n = true ↔ n ∈ l := by
  rw [← List.sum_toFinset _ hl, ← Nat.mem_bitIndices, ← List.mem_toFinset, Finset.toFinset_bitIndices_sum_two_pow, List.mem_toFinset]

/-! ### The CONFIG_READ image -/

section
variable (s : State)

/-- The incarnation byte of a die. -/
def incByte (die : Nat) : Nat := if (s.die die).present then (s.die die).inc else 0

theorem configImage_eq : configImage s = (List.range 16).flatMap (fun d => leBytes 10 (enabledMap s d)) ++ (List.range 24).flatMap (fun d => leBytes 1 (incByte s d)) ++
    (leBytes 1 (if s.host.cxl then 1 else 0) ++ List.replicate 71 0#8) := by
  rw [← List.append_assoc]
  rfl

theorem length_maps : ((List.range 16).flatMap (fun d => leBytes 10 (enabledMap s d))).length = 160 := by
  rw [length_table (f := fun d => leBytes 10 (enabledMap s d)) (fun d => leBytes_length 10 _), List.length_range]

theorem length_configImage : (configImage s).length = 256 := by
  rw [configImage_eq, List.length_append, List.length_append, length_maps, length_table (f := fun d => leBytes 1 (incByte s d)) (fun d => leBytes_length 1 _),
    List.length_append, leBytes_length, List.length_replicate, List.length_range]

/-- The bits of a die's map are its enabled positions. -/
theorem configImage_map {d n : Nat} (hd : d < 16) (hn : n < 80) (hl : (s.die d).enabled.Nodup) :
    (field (configImage s) (10 * d) 10).testBit n = true ↔ (s.die d).present = true ∧ n ∈ (s.die d).enabled := by
  have hfield : field (configImage s) (10 * d) 10 = enabledMap s d % 2 ^ 80 := by
    rw [configImage_eq, List.append_assoc, ← List.nil_append (List.flatMap _ (List.range 16)),
      field_table (f := leBytes 10) (leBytes_length 10) 16 d hd (enabledMap s) (by simp), leNat_leBytes]
  rw [hfield, Nat.testBit_mod_two_pow, decide_eq_true hn, Bool.true_and, enabledMap]
  split
  · next hp => rw [testBit_sum_two_pow hl, and_iff_right hp]
  · next hp => simp [hp]

/-- The byte of a die's incarnation. -/
theorem configImage_inc {d : Nat} (hd : d < 24) (hi : (s.die d).inc < 256) : field (configImage s) (160 + d) 1 = incByte s d := by
  have hlt : incByte s d < 2 ^ (8 * 1) := by unfold incByte; split <;> omega
  rw [configImage_eq, field_table (f := leBytes 1) (leBytes_length 1) 24 d hd (incByte s) (by rw [length_maps, Nat.one_mul]), leNat_leBytes, Nat.mod_eq_of_lt hlt]

end

theorem configImage_congr {s u : State} (hh : u.host = s.host) (hp : ∀ d, (u.die d).present = (s.die d).present) (hi : ∀ d, (u.die d).inc = (s.die d).inc)
    (he : ∀ d, (u.die d).enabled = (s.die d).enabled) : configImage u = configImage s := by
  have hm : enabledMap u = enabledMap s := funext fun d => by simp only [enabledMap, hp, he]
  simp only [configImage, hm, hh, hp, hi]

/-! ### The attestation report -/

theorem length_shaRound {h : List DWord} (hh : h.length = 8) (kw : DWord × DWord) : (shaRound h kw).length = 8 := by
  unfold shaRound
  split
  · rfl
  · exact hh

theorem length_shaBlock {h : List DWord} (hh : h.length = 8) (bs : List Byte) : (shaBlock h bs).length = 8 := by
  have hrounds : ∀ l : List (DWord × DWord), (l.foldl shaRound h).length = 8 := fun l =>
    List.foldlRecOn (motive := fun h : List DWord => h.length = 8) l _ hh fun _ hu kw _ => length_shaRound hu kw
  rw [shaBlock, List.length_zipWith, hrounds, hh, Nat.min_self]

theorem length_sha512 (bs : List Byte) : (sha512 bs).length = 64 := by
  have hblocks : ∀ l : List Nat, (l.foldl (fun h i => shaBlock h (((shaPad bs).drop (128 * i)).take 128)) shaInit).length = 8 := fun l =>
    List.foldlRecOn (motive := fun h : List DWord => h.length = 8) l _ rfl fun _ hu _ _ => length_shaBlock hu _
  rw [sha512, length_table (f := bigBytes) (k := 8) (fun w => by rw [bigBytes, List.length_map, List.length_range]), hblocks]

section
variable {s : State} {nonce : List Byte} (hn : nonce.length = 32)
include hn

theorem length_attestReport : (attestReport s nonce).length = 272 := by
  simp only [attestReport, List.length_append, hn, List.length_map, List.length_range, length_sha512, leBytes_length, List.length_replicate]

theorem take_attestReport : (attestReport s nonce).take 32 = nonce := by
  simp only [attestReport, List.append_assoc]
  exact List.take_left' hn

/-- The hash of the configuration stands in the report. -/
theorem hash_attestReport : ((attestReport s nonce).drop 96).take 64 = sha512 (configImage s) := by
  have hpre : (nonce ++ (List.range 64).map Config.firmwareByte).length = 96 := by rw [List.length_append, hn, List.length_map, List.length_range]
  have hdrop (rest : List Byte) : (nonce ++ (List.range 64).map Config.firmwareByte ++ rest).drop 96 = rest := List.drop_left' hpre
  simp only [attestReport]
  simp only [List.append_assoc]
  rw [← List.append_assoc nonce, hdrop]
  exact List.take_left' (length_sha512 _)

end

/-! ### CONFIG_READ and ATTEST -/

section
variable {s : State} {c : Command}

theorem configImage_handed : configImage (handed s c) = configImage s := configImage_congr host_handed present_handed inc_handed enabled_handed

theorem configRead_image (h : InHand s c) (hop : field c.bytes 0 2 = 10) (hok : Blank c [(12, 4), (24, 40)]) : ∃ image : List Byte, image.length = 256 ∧
    (∀ d n, d < 16 → n < 80 → (s.die d).enabled.Nodup → (∀ x ∈ (s.die d).enabled, x < 80) → ((field image (10 * d) 10).testBit n = true ↔ (s.die d).present = true ∧ n ∈ (s.die d).enabled)) ∧
    (∀ d, d < 24 → (s.die d).inc < 256 → field image (160 + d) 1 = if (s.die d).present then (s.die d).inc else 0) ∧
    (∀ s2, memoryWrite (handed s c) (field c.bytes 16 8) image = some s2 → Finishes .configRead s s2 c 0) ∧
    (memoryWrite (handed s c) (field c.bytes 16 8) image = none → Finishes .configRead s (handed s c) c 4) :=
  ⟨configImage s, length_configImage s, fun _ _ hd hn hl _ => configImage_map s hd hn hl, fun _ hd hi => configImage_inc s hd hi,
    fun _ hw => configRead_writes h hop hok (configImage_handed.symm ▸ hw), fun hw => configRead_fails h hop hok (configImage_handed.symm ▸ hw)⟩

theorem attest_report (h : InHand s c) (hop : field c.bytes 0 2 = 9) (hok : Blank c [(12, 4), (32, 32)]) (hn : HostBytes s (field c.bytes 16 8) 32) (hk : s.host.keyOk = true) :
    ∃ report : List Byte, report.length = 272 ∧ report.take 32 = s.read (field c.bytes 16 8) 32 ∧ (report.drop 96).take 64 = sha512 (configImage s) ∧
      (∀ s2, memoryWrite (visited (handed s c) (field c.bytes 16 8)) (field c.bytes 24 8) report = some s2 → Finishes .attest s s2 c 0) ∧
      (memoryWrite (visited (handed s c) (field c.bytes 16 8)) (field c.bytes 24 8) report = none → Finishes .attest s (handed s c) c 4) := by
  have hlen : (s.read (field c.bytes 16 8) 32).length = 32 := by simp [State.read, memReads]
  have himage : configImage (visited (handed s c) (field c.bytes 16 8)) = configImage s :=
    (configImage_congr host_visited present_visited inc_visited enabled_visited).trans configImage_handed
  exact ⟨attestReport (visited (handed s c) (field c.bytes 16 8)) (s.read (field c.bytes 16 8) 32), length_attestReport hlen, take_attestReport hlen,
    himage ▸ hash_attestReport hlen, fun _ hw => attest_writes h hop hok hn hk hw, fun hw => attest_fails h hop hok hn hk hw⟩

/-- ATTEST with no key: status 8, memory as it was, and event 0x8A. -/
theorem attest_keyless (h : InHand s c) (hop : field c.bytes 0 2 = 9) (hok : Blank c [(12, 4), (32, 32)]) (hn : HostBytes s (field c.bytes 16 8) 32) (hk : s.host.keyOk = false) :
    ∃ s2, Finishes .attest s s2 c 8 ∧ s2.mem = s.mem ∧ Reported s s2 (endpoint s.host.serving 121) 11 0x8A 2 0 0 :=
  ⟨_, attest_noKey h hop hok hn hk, mem_handed, reported_of_event (u := handed s c) time_handed (inc_handed _) (List.Subset.refl _)⟩

end

end Sys2Proof.CommandLaws
end

section
/-! PROOFS. Rings that are idle or unreadable (R166, R368), and LAUNCH with the completion of its grid (R169, R170, R199). -/

namespace Sys2Proof.CommandLaws

open Sys2Proof Sys2Proof.Machine Sys2Proof.Claims Sys2Proof.HostLaws Sys2Proof.ExecutionLaws

section
variable {s : State} {c : Command} {k : Nat} {i : Instr}

/-! ### The rows of the commands -/

/-- A row of an opcode is a turn of firmware that acts on commands of this opcode alone. -/
theorem row_eq (h : (k, i) ∈ commandRows) (ho : s.obj = 0) : ∃ mine act, exec i s = .next (plaod s mine act) ∧ ∀ c, mine c = true → field c.bytes 0 2 = k := by
  have hone : ∀ k c, (Command.opcode c == k) = true → field c.bytes 0 2 = k := fun _ _ h => beq_iff_eq.mp h
  simp only [commandRows, List.mem_cons, Prod.mk.injEq, List.not_mem_nil, or_false] at h
  rcases h with ⟨rfl, rfl⟩ | ⟨rfl, rfl⟩ | ⟨rfl, rfl⟩ | ⟨rfl, rfl⟩ | ⟨rfl, rfl⟩ | ⟨rfl, rfl⟩ | ⟨rfl, rfl⟩ | ⟨rfl, rfl⟩ | ⟨rfl, rfl⟩ | ⟨rfl, rfl⟩ | ⟨rfl, rfl⟩ | ⟨rfl, rfl⟩ | ⟨rfl, rfl⟩
  · exact ⟨_, acceptLaunch, congrArg _ (if_pos ho), hone 1⟩
  · exact ⟨_, _, rfl, hone 2⟩
  · exact ⟨_, _, rfl, hone 3⟩
  · exact ⟨_, _, rfl, hone 4⟩
  · exact ⟨_, _, rfl, hone 5⟩
  · exact ⟨_, _, rfl, hone 6⟩
  · exact ⟨_, _, rfl, hone 7⟩
  · exact ⟨_, _, rfl, fun c hc => hone 8 c ((Bool.and_eq_true _ _).mp hc).1⟩
  · exact ⟨_, _, rfl, hone 9⟩
  · exact ⟨_, _, rfl, hone 10⟩
  · exact ⟨_, _, rfl, hone 11⟩
  · exact ⟨_, _, rfl, hone 12⟩
  · exact ⟨_, _, rfl, hone 13⟩

/-- With no command in hand a row changes nothing. -/
theorem row_idle (h : (k, i) ∈ commandRows) (ho : s.obj = 0) (hidle : ¬ FirmwareServes s ∨ (s.host.command = none ∧ ∀ q, q < 16 → ¬ HasCommand s q)) : exec i s = .next s := by
  obtain ⟨mine, act, hi, -⟩ := row_eq h ho
  rw [hi, plaod, inHand_idle hidle]

/-- With another command in hand a row changes nothing. -/
theorem row_other (h : (k, i) ∈ commandRows) (ho : s.obj = 0) (hc : InHand s c) (hop : field c.bytes 0 2 ≠ k) : exec i s = .next s := by
  obtain ⟨mine, act, hi, hmine⟩ := row_eq h ho
  rw [hi, plaod_other hc (Bool.eq_false_iff.mpr fun hm => hop (hmine c hm))]

/-- A ring whose next command is not in memory is stopped, with event 0x84 (R368). -/
theorem row_unreadable {q : Nat} (h : (k, i) ∈ commandRows) (ho : s.obj = 0) (hf : FirmwareServes s) (hl : s.host.rings.length = 16) (hc : s.host.command = none) (ht : Turn s q)
    (hr : let a := ringBase (ring s q) + (ring s q).head.toNat % slotsOf (ring s q) * 64; regionOf a ≠ .hbm ∧ regionOf a ≠ .lpddr) :
    ∃ s', exec i s = .next s' ∧ (ring s' q).base = (ring s q).base &&& ~~~0x100#64 ∧ (ring s' q).head = (ring s q).head ∧ s'.mem = s.mem ∧
      Reported s s' (endpoint s.host.serving 121) 11 0x84 2 q (ring s q).head.toNat := by
  obtain ⟨mine, act, hi, -⟩ := row_eq h ho
  have hq : q < s.host.rings.length := by
    obtain ⟨j, -, rfl, -⟩ := ht
    rw [hl]
    exact Nat.mod_lt _ (by decide)
  have hring : ring (endTurn (stopRing s q (ring s q).head.toNat) q) q = { ring s q with base := (ring s q).base &&& ~~~0x100#64 } := by
    show (s.host.rings.modify q _).getD q default = _
    rw [List.getD_eq_getElem?_getD, List.getElem?_modify_eq, ring, List.getD_eq_getElem?_getD, List.getElem?_eq_getElem hq]
    rfl
  refine ⟨endTurn (stopRing s q (ring s q).head.toNat) q, by rw [hi, plaod, inHand_unreadable hf hc ht hr], by rw [hring], by rw [hring], rfl, ?_⟩
  exact reported_of_event (u := updRing s q _) rfl rfl (List.Subset.refl _)

end

/-! ### LAUNCH (R169, R456) -/

section
variable {s : State} {c : Command}

theorem field_lt (bs : List Byte) (off n : Nat) : field bs off n < 256 ^ n := by
  have h := leNat_lt ((bs.drop off).take n)
  exact h.trans_le (Nat.pow_le_pow_right (by decide) (List.length_take_le ..))

/-- An 8-byte field is kept whole in a register. -/
theorem toNat_field (bs : List Byte) (off : Nat) : (BitVec.ofNat 64 (field bs off 8)).toNat = field bs off 8 := by
  rw [BitVec.toNat_ofNat]
  exact Nat.mod_eq_of_lt (field_lt bs off 8)

/-- No cluster, where cluster width and height are both zero. -/
theorem noCluster_iff (n : Nat) : (n % 16 = 0 ∧ n / 16 = 0) ↔ n = 0 := by omega

theorem launchOk_iff : launchOk c = true ↔ LaunchFields c := by
  unfold launchOk gridOf LaunchFields
  simp only [Bool.and_eq_true, Bool.or_eq_true, fieldsClear_iff, decide_eq_true_iff, beq_iff_eq, toNat_field, noCluster_iff, and_assoc,
    show 16 ≤ 16 * field c.bytes 15 1 ↔ 1 ≤ field c.bytes 15 1 by omega, show 16 * field c.bytes 15 1 ≤ 512 ↔ field c.bytes 15 1 ≤ 32 by omega,
    show 4096 * field c.bytes 50 1 ≤ 0x20000 ↔ field c.bytes 50 1 ≤ 32 by omega]
  tauto

theorem couldAdmit_iff (h : LaunchFields c) (d : Nat) : couldAdmit (gridOf c) d = true ↔ field c.bytes 48 2 * 4096 ≤ 0x1F0000 ∧
    (if d < 16 then field c.bytes 14 1 * (16 * field c.bytes 15 1) ≤ 4096
      else field c.bytes 46 1 = 0 ∧ field c.bytes 47 1 = 0 ∧ field c.bytes 50 1 = 0 ∧ field c.bytes 14 1 ≤ 63 ∧ field c.bytes 14 1 * (16 * field c.bytes 15 1) ≤ 4032) := by
  obtain ⟨-, -, -, -, -, -, -, -, -, -, -, -, -, hcluster⟩ := h
  have hcw : field c.bytes 46 1 % 16 = 0 ↔ field c.bytes 46 1 = 0 := by
    refine ⟨fun h0 => hcluster.resolve_right fun h => ?_, fun h0 => by rw [h0]⟩
    rw [h0, Nat.zero_mul] at h
    exact absurd h.1 (Nat.lt_irrefl 0)
  rw [couldAdmit, Bool.and_eq_true, decide_eq_true_iff, gridOf, Nat.mul_comm 4096]
  refine and_congr_right fun _ => ?_
  split
  · exact decide_eq_true_iff
  · simp only [Bool.and_eq_true, beq_iff_eq, decide_eq_true_iff, hcw, and_assoc, show 4096 * field c.bytes 50 1 = 0 ↔ field c.bytes 50 1 = 0 by omega]

theorem room_iff (h : LaunchFields c) : ((maskDies c.mask).filter (fun d => (s.die d).present)).any (couldAdmit (gridOf c)) = true ↔ RoomSomewhere s c := by
  simp only [List.any_filter, List.any_eq_true, Bool.and_eq_true, couldAdmit_iff h]
  exact Iff.rfl

/-- A grid waits for room: the instruction caches of its dies are empty, and the ring's next command may follow. -/
def launched (t : State) (dies : List Nat) (c : Command) : State :=
  passCommand (clearIcaches { t with grids := t.grids.put t.fresh (gridOf c), fresh := t.fresh + 1 } dies) c

/-- A row of LAUNCH with no grid named takes the next command. -/
theorem launch_row (ho : s.obj = 0) : exec .launch s = .next (plaod s (fun c => c.opcode == 1) acceptLaunch) := congrArg _ (if_pos ho)

section
variable (h : InHand s c) (hop : field c.bytes 0 2 = 1) (ho : s.obj = 0)
include h hop ho

theorem launch_invalid (hl : ¬ LaunchFields c) : Finishes .launch s (handed s c) c 2 := by
  have hok : launchOk c = false := Bool.eq_false_iff.mpr (mt launchOk_iff.mp hl)
  exact finishes_row (launch_row ho) h hop (by simp only [acceptLaunch, hok, Bool.not_false, if_true])

variable (hl : LaunchFields c)
include hl

theorem launch_absent (ha : NoneThere s c) : Finishes .launch s (handed s c) c 5 :=
  finishes_row (launch_row ho) h hop (by simp only [acceptLaunch, launchOk_iff.mpr hl, maskAbsent_handed ha, Bool.not_true, Bool.false_eq_true, if_false, if_true])

variable (ha : ¬ NoneThere s c)
include ha

theorem launch_noRoom (hr : ¬ RoomSomewhere s c) : Finishes .launch s (handed s c) c 2 := by
  have hroom : ((maskDies c.mask).filter (fun d => (s.die d).present)).any (couldAdmit (gridOf c)) = false := Bool.eq_false_iff.mpr (mt (room_iff hl).mp hr)
  exact finishes_row (launch_row ho) h hop
    (by simp only [acceptLaunch, launchOk_iff.mpr hl, maskAbsent_handed_false ha, present_handed, hroom, Bool.not_true, Bool.not_false, Bool.false_eq_true, if_false, if_true])

/-- The grid waits for room, and the ring's next command may follow. -/
theorem launch_accepts (hr : RoomSomewhere s c) :
    ∃ s', exec .launch s = .next s' ∧ s'.mem = s.mem ∧ (ring s' c.ring).head = BitVec.ofNat 32 (c.seq + 1) ∧ s'.host.command = none ∧ s'.grids.find s.fresh = some (gridOf c) := by
  have hmine : (c.opcode == 1) = true := beq_iff_eq.mpr hop
  have hq : c.ring < s.host.rings.length := by
    obtain ⟨-, hlen, hring, -⟩ := h
    rwa [hlen]
  have hact : acceptLaunch (handed s c) c = .stays (launched (handed s c) ((maskDies c.mask).filter (fun d => (s.die d).present)) c) := by
    simp only [acceptLaunch, launchOk_iff.mpr hl, maskAbsent_handed_false ha, present_handed, (room_iff hl).mpr hr, Bool.not_true, Bool.false_eq_true, if_false]
    rfl
  refine ⟨launched (handed s c) _ c, by rw [launch_row ho, plaod_stays h hmine hact], mem_handed (s := s), ?_, rfl, ?_⟩
  · show (List.getD ((handed s c).host.rings.modify c.ring _) c.ring default).head = _
    rw [host_handed, List.getD_eq_getElem?_getD, List.getElem?_modify_eq, List.getElem?_eq_getElem hq]
    rfl
  · show NMap.find ((handed s c).grids.put (handed s c).fresh (gridOf c)) s.fresh = _
    rw [fresh_handed, NMap.find_put_same]

end

end

/-! ### The completion of a grid (R170) -/

section
variable {s : State}

/-- Of a number its low bytes are written. -/
theorem leBytes_mod (n v : Nat) : leBytes n (v % 2 ^ (8 * n)) = leBytes n v := by
  induction n generalizing v with
  | zero => rfl
  | succ n ih =>
    have hpow : 2 ^ (8 * (n + 1)) = 256 * 2 ^ (8 * n) := by rw [Nat.mul_succ, pow_add, Nat.mul_comm]; rfl
    have hlow : BitVec.ofNat 8 (v % (256 * 2 ^ (8 * n))) = BitVec.ofNat 8 v := BitVec.eq_of_toNat_eq (Nat.mod_mod_of_dvd v (Dvd.intro _ rfl))
    rw [leBytes, leBytes, hpow, hlow, Nat.mod_mul_right_div_self, ih]

/-- The bytes that a completion takes of a launch: its tag and opcode. -/
theorem launchBytes (tag : Nat) : field (leBytes 2 1 ++ leBytes 2 0 ++ leBytes 4 tag) 4 4 = tag % 2 ^ 32 ∧ field (leBytes 2 1 ++ leBytes 2 0 ++ leBytes 4 tag) 0 2 = 1 := by
  constructor
  · have hfield : field (leBytes 2 1 ++ leBytes 2 0 ++ leBytes 4 tag ++ []) 4 4 = leNat (leBytes 4 tag) := field_append rfl (leBytes_length 4 tag)
    rw [← List.append_nil (_ ++ leBytes 4 tag), hfield, leNat_leBytes]
  · have hfield : field ([] ++ leBytes 2 1 ++ (leBytes 2 0 ++ leBytes 4 tag)) 0 2 = leNat (leBytes 2 1) := field_append rfl rfl
    rw [List.append_assoc, ← List.nil_append (leBytes 2 1), hfield]
    rfl

theorem launch_waits {x : Grid} (ho : s.obj ≠ 0) (hg : s.grids.find s.obj = some x) (hl : x.left ≠ 0) : exec .launch s = .next s := by
  have hcomplete : completeLaunch s s.obj = s := by simp only [completeLaunch, hg, hl, ne_eq, not_false_eq_true, true_or, if_true]
  show Host.Outcome.next (if s.obj = 0 then _ else completeLaunch s s.obj) = _
  rw [if_neg ho, hcomplete]

/-- The state without the grid that is named. -/
def withoutGrid (s : State) : State := { s with grids := s.grids.drop s.obj }

section
variable (u : State) (a : Nat) (bs : List Byte) (f : HostPort → HostPort)
theorem stored_grids : ((homeWrite u a bs).updHost f).grids = u.grids := rfl
theorem stored_inc (d : Nat) : (((homeWrite u a bs).updHost f).die d).inc = (u.die d).inc := rfl
theorem signalled_grids : ((putAt u a bs).updHost f).grids = u.grids := by rw [putAt, stored_grids, grids_visited]
theorem signalled_inc (d : Nat) : (((putAt u a bs).updHost f).die d).inc = (u.die d).inc := by rw [putAt, stored_inc, inc_visited]
theorem signalled_mem : ((putAt u a bs).updHost f).mem = (putAt u a bs).mem := rfl
theorem signalled_host : ((putAt u a bs).updHost f).host = f u.host := congrArg f (putAt_host bs)
end

/-- A grid all of whose teams have retired leaves, with its completion. -/
theorem launch_completes {x : Grid} {g : Command} (ho : s.obj ≠ 0) (hx : s.grids.find s.obj = some x) (hf : FirmwareServes s)
    (hg : g = { ring := x.ring, seq := x.seq, bytes := leBytes 2 1 ++ leBytes 2 0 ++ leBytes 4 x.tag, waits := [], undo := none }) (hl : x.left = 0) (hb : HostBytes s (completionAt s g) 16) :
    ∃ s', exec .launch s = .next s' ∧ s'.grids.find s.obj = none ∧ s'.mem = (finished s g 0).mem ∧ s'.host = heldOrSent s.host (.vector x.ring) := by
  obtain ⟨htag, hopcode⟩ := launchBytes x.tag
  have hring : g.ring = x.ring := by rw [hg]
  have hseq : g.seq = x.seq := by rw [hg]
  have hdata : g.bytes = leBytes 2 1 ++ leBytes 2 0 ++ leBytes 4 x.tag := by rw [hg]
  have haddr : (ringOf (withoutGrid s) x.ring).completion x.seq = completionAt s g := by
    rw [← hring, ← hseq, show ringOf (withoutGrid s) g.ring = ringOf s g.ring from rfl, ringCompletion_eq]
  have hbytes : HostBytes (withoutGrid s) ((ringOf (withoutGrid s) x.ring).completion x.seq) 16 := haddr ▸ hb
  have hcomplete : completeLaunch s s.obj =
      (putAt (withoutGrid s) (completionAt s g) (completionBytes (withoutGrid s) x.tag 0 1)).updHost (fun h => heldOrSent h (.vector x.ring)) := by
    have hready : ¬ (x.left ≠ 0 ∨ (!firmwareUp s) = true) := by simp [hl, firmwareUp_iff.mpr hf]
    have hw := writeCompletion_eq (tag := x.tag) (status := 0) (op := 1) hbytes
    rw [haddr] at hw
    simp only [completeLaunch, hx, hready, if_false]
    exact congrArg (fun o => Option.getD o _) hw
  have htail : completionBytes (withoutGrid s) x.tag 0 1 = leBytes 4 (field g.bytes 4 4) ++ leBytes 2 0 ++ leBytes 2 (field g.bytes 0 2) ++ leBytes 8 s.time := by
    rw [hdata, htag, hopcode, leBytes_mod 4]
    rfl
  refine ⟨_, congrArg Host.Outcome.next ((if_neg ho).trans hcomplete), ?_, ?_, ?_⟩
  · rw [signalled_grids]
    exact find_drop_same ..
  · rw [signalled_mem, htail, finished, signalled_mem, putAt_mem, putAt_mem]
    rfl
  · rw [signalled_host]
    rfl

end

end Sys2Proof.CommandLaws
end

section
/-! PROOFS. UNMAP: its entry is no longer valid, and the translations that it covers leave the masked dies (R77, R168). -/

namespace Sys2Proof.CommandLaws

open Sys2Proof Sys2Proof.Machine Sys2Proof.Claims Sys2Proof.HostLaws Sys2Proof.FabricLaws

section
variable {s : State}

/-! ### Walks that begin again write no memory -/

theorem mem_inject (s : State) (p : Packet) : (s.inject p).mem = s.mem := by
  simp only [State.inject]
  split
  · rfl
  · split
    · rfl
    · split <;> rfl

theorem mem_foldl {α : Type} (l : List α) (f : State → α → State) (h : ∀ u x, (f u x).mem = u.mem) (s : State) : (l.foldl f s).mem = s.mem :=
  List.foldlRecOn (motive := fun u : State => u.mem = s.mem) l f rfl fun u hu x _ => (h u x).trans hu

theorem mem_beginWalk (s : State) (die key : Nat) (w : Walk) : (beginWalk s die key w).mem = s.mem := by
  unfold beginWalk
  dsimp only
  split
  · exact mem_inject ..
  · rfl

theorem mem_queueWalk (s : State) (die key : Nat) (w : Walk) : (queueWalk s die key w).mem = s.mem := by
  refine mem_foldl _ _ (fun u p => ?_) _
  split
  · exact mem_beginWalk ..
  · rfl

theorem mem_restartWalks (s : State) (die : Nat) : (restartWalks s die).mem = s.mem := by
  refine mem_foldl _ _ (fun u p => ?_) s
  exact mem_queueWalk ..

/-! ### Translations that leave (R77) -/

/-- A die's L2 TLB holds no translation of a kind. -/
def Rid (hit : Tlb → Bool) (d : Nat) (s : State) : Prop := ∀ x ∈ (s.die d).tlb, hit x = false

theorem rid_updDie_same (s : State) (hit : Tlb → Bool) (d : Nat) : Rid hit d (s.updDie d (fun x => { x with tlb := x.tlb.filter (fun x => !hit x) })) := by
  intro x hx
  rw [State.die_updDie_same] at hx
  exact (Bool.not_eq_true' _).mp (List.mem_filter.mp hx).2

theorem rid_updDie_other {hit : Tlb → Bool} {d e : Nat} (h : Rid hit d s) (f : Die → Die) (hd : d ≠ e) : Rid hit d (s.updDie e f) := by
  intro x hx
  rw [State.die_updDie_other _ _ hd] at hx
  exact h x hx

/-- Translations that have left every listed die. -/
theorem rid_foldl {hit : Tlb → Bool} {d : Nat} (l : List Nat) (s : State) (h : d ∈ l ∨ Rid hit d s) :
    Rid hit d (l.foldl (fun s d => s.updDie d (fun x => { x with tlb := x.tlb.filter (fun x => !hit x) })) s) := by
  induction l generalizing s with
  | nil => exact h.resolve_left List.not_mem_nil
  | cons e l ih =>
    refine ih _ ?_
    by_cases hd : d = e
    · exact .inr (hd ▸ rid_updDie_same s hit d)
    · refine h.imp (fun h => (List.mem_cons.mp h).resolve_left hd) fun h => rid_updDie_other h _ hd

theorem rid_invalidate {hit : Tlb → Bool} {dies : List Nat} {d : Nat} (h : d ∈ dies) : Rid hit d (invalidate s dies hit).1 := by
  intro x hx
  simp only [invalidate] at hx
  rw [(KeepsTables.foldl _ _ (fun u d => keepsTables_restartWalks u d) _).tlb d] at hx
  exact rid_foldl dies _ (.inl h) x hx

theorem mem_invalidate (s : State) (dies : List Nat) (hit : Tlb → Bool) : (invalidate s dies hit).1.mem = s.mem := by
  refine (mem_foldl _ _ mem_restartWalks _).trans ?_
  refine (mem_foldl _ _ (fun u d => ?_) _).trans rfl
  rfl

end

/-! ### UNMAP -/

section
variable {s t1 : State} {c : Command}

theorem unmap_waits (h : InHand s c) (hop : field c.bytes 0 2 = 3) (hc : s.host.command = some c) (hu : stillUsed s c.waits = true) : exec .unmap s = .next s := by
  have hmine : (c.opcode == 3) = true := beq_iff_eq.mpr hop
  have hact : runUnmap (handed s c) c = .stays (handed s c) := by simp only [runUnmap, handed_of_command hc, hc, hu, Option.isSome_some, if_true]
  rw [show exec .unmap s = .next (plaod s (fun c => c.opcode == 3) runUnmap) from rfl, plaod_stays h hmine hact, handed_of_command hc]

theorem unmap_performed (h : InHand s c) (hop : field c.bytes 0 2 = 3) (hc : s.host.command = some c) (hu : stillUsed s c.waits = false) : Finishes .unmap s (handed s c) c 0 :=
  finishes_row rfl h hop (by simp only [runUnmap, handed_of_command hc, hc, hu, Option.isSome_some, Bool.false_eq_true, if_false, if_true])

section
variable (h : InHand s c) (hop : field c.bytes 0 2 = 3) (hc : s.host.command = none)
include h hop hc

theorem unmap_invalid (hok : ¬ MapFields c [(32, 8)]) : Finishes .unmap s (handed s c) c 2 :=
  finishes_row rfl h hop (by simp only [runUnmap, host_handed, hc, mapOk_false hok, Option.isSome_none, Bool.not_false, Bool.false_eq_true, if_false, if_true])

variable (hok : MapFields c [(32, 8)])
include hok

theorem unmap_absent (ha : NoneThere s c) : Finishes .unmap s (handed s c) c 5 :=
  finishes_row rfl h hop (by simp only [runUnmap, host_handed, hc, (mapOk_iff _).mpr hok, maskAbsent_handed ha, Option.isSome_none, Bool.not_true, Bool.false_eq_true, if_false, if_true])

variable (ha : ¬ NoneThere s c)
include ha

theorem unmap_noEntry (hn : namedEntry (handed s c) c = none) : Finishes .unmap s (handed s c) c 4 :=
  finishes_row rfl h hop (by simp only [runUnmap, host_handed, hc, (mapOk_iff _).mpr hok, maskAbsent_handed_false ha, hn, Option.isSome_none, Bool.not_true, Bool.false_eq_true, if_false])

/-- The bytes of an entry whose V is cleared. -/
def cleared (t1 : State) (a : Nat) : List Byte := leBytes 8 (leNat (t1.read a 8) / 2 * 2)

/-- The state and the operations of an UNMAP that has cleared its entry. -/
def unmapped (s t1 : State) (c : Command) (a : Nat) : State × List Nat :=
  invalidate (putAt (visited t1 a) a (cleared t1 a)) ((maskDies c.mask).filter (fun d => (s.die d).present)) (unmapHits c)

/-- An UNMAP in progress. -/
def unmapping (r : State × List Nat) (c : Command) (a old : Nat) : State :=
  r.1.updHost (fun h => { h with command := some { c with waits := r.2, undo := some (a, old) } })

/-- UNMAP clears V and the TLBs; it waits for the accesses translated before, or completes. -/
theorem unmap_clears {a : Nat} (hn : namedEntry (handed s c) c = some (t1, a)) (hb : HostBytes t1 a 8) :
    ∃ s2, s2.mem = (t1.write a (cleared t1 a)).mem ∧
      (∀ d x, d ∈ maskDies c.mask → (s.die d).present = true → x ∈ (s2.die d).tlb → ¬ unmapHits c x) ∧
      (exec .unmap s = .next s2 ∧ (∃ c2, s2.host.command = some c2 ∧ c2.bytes = c.bytes ∧ stillUsed s2 c2.waits = true) ∨ Finishes .unmap s s2 c 0) := by
  have hmine : (c.opcode == 3) = true := beq_iff_eq.mpr hop
  have hread : memoryRead t1 a 8 = some (visited t1 a, t1.read a 8) := memoryRead_of_hostBytes hb
  have hwrite : memoryWrite (visited t1 a) a (cleared t1 a) = some (putAt (visited t1 a) a (cleared t1 a)) :=
    memoryWrite_of_hostBytes (by rw [cleared, ExecutionLaws.leBytes_length]; exact (hostBytes_visited a 8).mpr hb)
  have hmem : (unmapped s t1 c a).1.mem = (t1.write a (cleared t1 a)).mem := by
    rw [unmapped, mem_invalidate, putAt_mem]
    exact congrArg (memWrites · a _) mem_visited
  have htlb (d : Nat) (x : Tlb) (hd : d ∈ maskDies c.mask) (hp : (s.die d).present = true) (hx : x ∈ ((unmapped s t1 c a).1.die d).tlb) : ¬ unmapHits c x = true :=
    Bool.eq_false_iff.mp (rid_invalidate (List.mem_filter.mpr ⟨hd, hp⟩) x hx)
  have hact : runUnmap (handed s c) c =
      if stillUsed (unmapped s t1 c a).1 (unmapped s t1 c a).2 then
        .stays (unmapping (unmapped s t1 c a) c a (leNat (t1.read a 8)))
      else .status (unmapped s t1 c a).1 0 := by
    rw [cleared] at hwrite
    simp only [runUnmap, host_handed, hc, (mapOk_iff _).mpr hok, maskAbsent_handed_false ha, hn, hread, hwrite, present_handed, Option.isSome_none, Bool.not_true, Bool.false_eq_true, if_false]
    rfl
  by_cases hu : stillUsed (unmapped s t1 c a).1 (unmapped s t1 c a).2 = true
  · rw [if_pos hu] at hact
    exact ⟨unmapping (unmapped s t1 c a) c a (leNat (t1.read a 8)), hmem, htlb, .inl ⟨congrArg Host.Outcome.next (plaod_stays h hmine hact), _, rfl, rfl, hu⟩⟩
  · rw [if_neg hu] at hact
    exact ⟨_, hmem, htlb, .inr (finishes_row rfl h hop hact)⟩

end

end

end Sys2Proof.CommandLaws
end

section
/-! PROOFS. VIEW_SETUP (R158, R373), and RESET of a die with its fence (R375, R432). -/

namespace Sys2Proof.CommandLaws

open Sys2Proof Sys2Proof.Machine Sys2Proof.Claims Sys2Proof.HostLaws Sys2Proof.FabricLaws Sys2Proof.ExecutionLaws

section
variable {s : State} {c : Command}

/-! ### VIEW_SETUP (R158, R373) -/

/-- Fields of a VIEW_SETUP within their ranges. -/
def SetupFields (c : Command) : Prop := Blank c [(12, 4), (22, 2), (32, 32)] ∧ field c.bytes 16 1 ≤ 15 ∧ 1 ≤ field c.bytes 20 2 ∧ field c.bytes 20 2 ≤ 256

theorem setupOk_iff : (!fieldsClear c [(12, 4), (22, 2), (32, 32)] || decide (15 < field c.bytes 16 1) || field c.bytes 20 2 == 0 || decide (256 < field c.bytes 20 2)) = false ↔ SetupFields c := by
  simp only [Bool.or_eq_false_iff, Bool.not_eq_false', fieldsClear_iff, decide_eq_false_iff_not, beq_eq_false_iff_ne, Nat.not_lt, SetupFields, and_assoc, Nat.one_le_iff_ne_zero]

/-- Bytes of another package are not plain memory. -/
theorem memoryRead_beyond {a n : Nat} (hn : 1 ≤ n) (ha : 2 ^ 44 ≤ a) : memoryRead s a n = none := by
  have hplain : plainMemory s a n = false := by
    obtain ⟨p, hp, rfl⟩ := linePieces_first (a := a) hn
    have hpkg : p.1 / 2 ^ 44 ≠ Config.package := (Nat.div_pos ha (by decide)).ne'
    rw [plainMemory, List.all_eq_false]
    exact ⟨p, hp, by simp only [beq_eq_false_iff_ne.mpr hpkg, Bool.false_and, Bool.false_eq_true, not_false_eq_true]⟩
  simp [memoryRead, hplain]

/-- The members that a list in memory names. -/
def listed (c : Command) (bs : List Byte) : List (Nat × Nat) := (List.range (field c.bytes 20 2)).map (fun i => memberOf (field bs (2 * i) 2))

section
variable (h : InHand s c) (hop : field c.bytes 0 2 = 6)
include h hop

theorem viewSetup_invalid (hok : ¬ SetupFields c) : Finishes .viewSetup s (handed s c) c 2 :=
  finishes_row rfl h hop (by simp only [runViewSetup, Bool.not_eq_false _ |>.mp (mt setupOk_iff.mp hok), if_true])

variable (hok : SetupFields c)
include hok

theorem viewSetup_noMemory (ha : 2 ^ 44 ≤ field c.bytes 24 8) : Finishes .viewSetup s (handed s c) c 4 := by
  have hread : memoryRead (handed s c) (field c.bytes 24 8) (2 * field c.bytes 20 2) = none := memoryRead_beyond (by have := hok.2.2.1; omega) ha
  exact finishes_row rfl h hop (by simp only [runViewSetup, setupOk_iff.mpr hok, hread, Bool.false_eq_true, if_false])

variable (hb : HostBytes s (field c.bytes 24 8) (2 * field c.bytes 20 2))
include hb

omit h hop hok in
theorem list_read : memoryRead (handed s c) (field c.bytes 24 8) (2 * field c.bytes 20 2) =
    some (visited (handed s c) (field c.bytes 24 8), s.read (field c.bytes 24 8) (2 * field c.bytes 20 2)) := by
  rw [memoryRead_of_hostBytes ((hostBytes_handed _ _).mpr hb), read_congr mem_handed]

theorem viewSetup_noDie (hm : ∃ m ∈ listed c (s.read (field c.bytes 24 8) (2 * field c.bytes 20 2)), 24 ≤ m.2) : Finishes .viewSetup s (handed s c) c 2 := by
  have hany : (listed c (s.read (field c.bytes 24 8) (2 * field c.bytes 20 2))).any (fun m => decide (24 ≤ m.2)) = true := by simpa only [List.any_eq_true, decide_eq_true_iff] using hm
  rw [listed] at hany
  exact finishes_row rfl h hop (by simp only [runViewSetup, setupOk_iff.mpr hok, list_read hb, hany, Bool.false_eq_true, if_false, if_true])

variable (hm : ∀ m ∈ listed c (s.read (field c.bytes 24 8) (2 * field c.bytes 20 2)), m.2 < 24)
include hm

omit h hop hok hb in
theorem list_dies : (listed c (s.read (field c.bytes 24 8) (2 * field c.bytes 20 2))).any (fun m => decide (24 ≤ m.2)) = false := by
  simpa only [List.any_eq_false, decide_eq_true_iff, Nat.not_le] using hm

theorem viewSetup_absent (ha : ∃ m ∈ listed c (s.read (field c.bytes 24 8) (2 * field c.bytes 20 2)), m.1 = Config.package ∧ (s.die m.2).present = false) : Finishes .viewSetup s (handed s c) c 5 := by
  have hany : (listed c (s.read (field c.bytes 24 8) (2 * field c.bytes 20 2))).any (fun m => m.1 == Config.package && !(s.die m.2).present) = true := by
    simpa only [List.any_eq_true, Bool.and_eq_true, beq_iff_eq, Bool.not_eq_true'] using ha
  have hdies := list_dies hm
  rw [listed] at hany hdies
  exact finishes_row rfl h hop (by simp only [runViewSetup, setupOk_iff.mpr hok, list_read hb, hdies, present_handed, hany, Bool.false_eq_true, if_false, if_true])

/-- The domain is set up: stable in its initial view, with every listed member live. -/
theorem viewSetup_sets (hp : ∀ m ∈ listed c (s.read (field c.bytes 24 8) (2 * field c.bytes 20 2)), m.1 = Config.package → (s.die m.2).present = true) :
    ∃ s2 d, Finishes .viewSetup s s2 c 0 ∧ domainOf s2 (field c.bytes 16 1) = some d ∧ d.members = listed c (s.read (field c.bytes 24 8) (2 * field c.bytes 20 2)) ∧
      d.set = List.replicate (field c.bytes 20 2) true ∧ d.view = field c.bytes 17 3 ∧ d.phase = .stable ∧ d.wanted = [] ∧
      ∀ e, e < 24 → (s.die e).present = true → viewAt s2 e (field c.bytes 16 1) = field c.bytes 17 3 := by
  have hany : (listed c (s.read (field c.bytes 24 8) (2 * field c.bytes 20 2))).any (fun m => m.1 == Config.package && !(s.die m.2).present) = false := by
    rw [List.any_eq_false]
    intro m hmem
    simpa only [Bool.and_eq_true, beq_iff_eq, Bool.not_eq_true', not_and, Bool.not_eq_false] using hp m hmem
  have hdies := list_dies hm
  have hact : runViewSetup (handed s c) c = .status (setDomain (visited (handed s c) (field c.bytes 24 8)) (field c.bytes 16 1) (field c.bytes 17 3)
      (listed c (s.read (field c.bytes 24 8) (2 * field c.bytes 20 2)))) 0 := by
    rw [listed] at hany hdies ⊢
    simp only [runViewSetup, setupOk_iff.mpr hok, list_read hb, hdies, present_handed, hany, Bool.false_eq_true, if_false]
  have hlen : (listed c (s.read (field c.bytes 24 8) (2 * field c.bytes 20 2))).length = field c.bytes 20 2 := by rw [listed, List.length_map, List.length_range]
  generalize listed c (s.read (field c.bytes 24 8) (2 * field c.bytes 20 2)) = l at hact hlen
  obtain ⟨d, hd, hmembers, hset, hview, hphase, hwanted, hviews⟩ := domainOf_setDomain (visited (handed s c) (field c.bytes 24 8)) (field c.bytes 16 1) (field c.bytes 17 3) l
  refine ⟨_, d, finishes_row rfl h hop hact, hd, hmembers, hlen ▸ hset, hview, hphase, hwanted, fun e he hpe => hviews e he ?_⟩
  rw [present_visited, present_handed, hpe]

end

end

/-! ### The fence of a lost die (R432) -/

section
variable {s u : State} {d : Nat}

theorem onlyPackets_ctl (s : State) (src dst typ : Nat) (body : Body) : OnlyPackets s (s.ctl src dst typ body) := .inject ..

/-- An incarnation is published by packets alone. -/
theorem onlyPackets_publish (s : State) (src die inc : Nat) : OnlyPackets s (publish s src die inc) :=
  (OnlyPackets.foldl _ _ (fun _ _ => onlyPackets_ctl ..) s).trans (.foldl _ _ (fun u _ => .foldl _ _ (fun _ _ => onlyPackets_ctl ..) u) _)

/-- It is on its way to every present die. -/
theorem published {src inc e : Nat} (he : e < 24) (hp : (s.die e).present = true) : Control (publish s src d inc) src (endpoint e 127) 0x09 (.incarnationUpdate d inc) := by
  obtain ⟨before, after, hl⟩ := List.append_of_mem ((mem_presentDies_iff e).mpr ⟨he, hp⟩)
  rw [publish, hl, List.foldl_append, List.foldl_cons]
  have hu : OnlyPackets s (before.foldl (fun s d' => s.ctl src (endpoint d' 127) 0x09 (.incarnationUpdate d inc)) s) := .foldl _ _ (fun u p => onlyPackets_ctl ..) s
  generalize before.foldl (fun s d' => s.ctl src (endpoint d' 127) 0x09 (.incarnationUpdate d inc)) s = u at hu
  have hdie : epDie (endpoint e 127) = e := by simp only [epDie, endpoint, Config.package]; omega
  have hsent : OnItsWay (u.ctl src (endpoint e 127) 0x09 (.incarnationUpdate d inc)) (fun r => r.cls = 0 ∧ r.typ = 0x09 ∧ r.src = src ∧ r.dst = endpoint e 127 ∧ r.body = .incarnationUpdate d inc) :=
    onItsWay_ctl fun _ => by rw [hdie, hu.die, hp]
  exact ((hsent.foldl after _ fun v p hv => hv.inject _).foldl _ _ fun v p hv => hv.foldl _ _ fun w g hw => hw.inject _).inFlight

/-- The state of a die that is lost. -/
def fenced (r : Bool) (x : Die) : Die := { x with present := false, loss := .fence, tryReset := r }

/-- The state in which a lost die is reported: where it held the fault unit that decides losses, the other link gateway has taken over. -/
def takenOver (s : State) (d : Nat) (r : Bool) : State :=
  if s.host.serving = d then settleNext (((s.updDie d (fenced r)).updHost (fun h => { h with serving := 45 - d })).event (faultUnit (45 - d)) 11 0x85 1 false d 0)
  else s.updDie d (fenced r)

theorem takenOver_frame (s : State) (d : Nat) (r : Bool) : (takenOver s d r).dies = (s.updDie d (fenced r)).dies ∧ (takenOver s d r).time = s.time ∧
    (takenOver s d r).host.command = s.host.command ∧ (takenOver s d r).host.serving = if s.host.serving = d then 45 - d else s.host.serving := by
  unfold takenOver
  split
  · unfold settleNext
    split <;> exact ⟨rfl, rfl, rfl, rfl⟩
  · exact ⟨rfl, rfl, rfl, rfl⟩

/-- A die in service that is lost is fenced, with event 0x66; the command in progress stays. -/
theorem fenced_loseDie (h : InService s d) (r : Bool) : Fenced s (loseDie s d r) d r ∧ (loseDie s d r).host.command = s.host.command := by
  obtain ⟨hd, hp, hl⟩ := h
  have hok : ¬ (24 ≤ d ∨ (!(s.die d).present) = true ∨ (s.die d).loss ≠ .serving) := by simp [hd, hp, hl]
  obtain ⟨hdies, htime, hcommand, hserving⟩ := takenOver_frame s d r
  have heq : loseDie s d r = publish ((takenOver s d r).event (lossUnit (takenOver s d r)) 8 0x66 3 false d 0) (lossUnit (takenOver s d r)) d 0 := by
    simp only [loseDie, hok, if_false]
    rfl
  have hdie (e : Nat) : (takenOver s d r).die e = (s.updDie d (fenced r)).die e := by simp only [State.die, hdies]
  have hunit : lossUnit (takenOver s d r) = endpoint (if s.host.serving = d then 45 - d else s.host.serving) 121 := by rw [lossUnit, faultUnit, hserving]
  generalize takenOver s d r = u at *
  have hpk := onlyPackets_publish (u.event (lossUnit u) 8 0x66 3 false d 0) (lossUnit u) d 0
  have hself : (u.die d) = fenced r (s.die d) := by rw [hdie, State.die_updDie_same]
  rw [heq]
  refine ⟨⟨?_, ?_, ?_, ?_, fun e he hne hpe => ?_⟩, ?_⟩
  · rw [hpk.die]; exact congrArg Die.present hself
  · rw [hpk.die]; exact congrArg Die.loss hself
  · rw [hpk.die]; exact congrArg Die.tryReset hself
  · rw [← hunit]
    exact reported_of_event (u := u) htime (by rw [hdie]; exact field_updDie Die.inc _ _ _ fun _ => rfl) (by rw [hpk.events]; exact List.Subset.refl _)
  · rw [← hunit]
    refine published he ?_
    show (u.die e).present = true
    rw [hdie, State.die_updDie_other _ _ hne, hpe]
  · rw [hpk.host]
    exact hcommand

/-- A fence is one of every state with the same dies and serving gateway. -/
theorem Fenced.congr {s' : State} {r : Bool} (h : Fenced u s' d r) (hs : u.host.serving = s.host.serving) (ht : u.time = s.time) (hp : ∀ e, (u.die e).present = (s.die e).present)
    (hi : ∀ e, (u.die e).inc = (s.die e).inc) : Fenced s s' d r := by
  obtain ⟨hpresent, hloss, htry, hr, hc⟩ := h
  rw [hs] at hr hc
  obtain ⟨e, he, hb⟩ := hr
  exact ⟨hpresent, hloss, htry, ⟨e, he, by rw [hb, ht, hi]⟩, fun e he hne hpe => hc e he hne ((hp e).trans hpe)⟩

end

/-! ### RESET of a die (R375) -/

section
variable {s : State} {c : Command} (h : InHand s c) (hop : field c.bytes 0 2 = 8) (hk : field c.bytes 16 1 ≠ 1)

theorem resetDie_mine (hop : field c.bytes 0 2 = 8) (hk : field c.bytes 16 1 ≠ 1) : (c.opcode == 8 && field c.bytes 16 1 != 1) = true := by
  simp [Command.opcode, hop, hk]

include h hop hk

theorem resetDie_finishes {s2 : State} {n : Nat} (ha : runResetDie (handed s c) c = .status s2 n) : Finishes .resetDie s s2 c n :=
  finishes_of_plaod rfl h (resetDie_mine hop hk) ha

theorem resetDie_stays {s2 : State} (ha : runResetDie (handed s c) c = .stays s2) : exec .resetDie s = .next s2 :=
  congrArg Host.Outcome.next (plaod_stays h (resetDie_mine hop hk) ha)

section
variable (hc : s.host.command = some c)
include hc

/-- The die has rejoined: the command completes, and event 0x89 follows. -/
theorem resetDie_rejoined (hl : (s.die (field c.bytes 17 1)).loss = .serving) (hb : HostBytes s (completionAt s c) 16) : exec .resetDie s =
    .next ((finished s c 0).event (endpoint s.host.serving 121) 0 0x89 1 false (field c.bytes 17 1 + (s.die (field c.bytes 17 1)).inc * 256) 0) := by
  have hact : runResetDie (handed s c) c = .stays (rejoinEvent (finish s c 0) (field c.bytes 17 1)) := by
    simp only [runResetDie, handed_of_command hc, hc, hl, Option.isSome_some, if_true]
  have hserving : (finished s c 0).host.serving = s.host.serving := by
    show (heldOrSent (putAt s _ _).host _).serving = _
    rw [putAt_host]
    unfold heldOrSent
    split <;> rfl
  have hinc (d : Nat) : ((finished s c 0).die d).inc = (s.die d).inc := by
    rw [finished, signalled_inc]
  rw [resetDie_stays h hop hk hact, finish_eq hb, rejoinEvent, lossUnit, faultUnit, hserving, hinc]

theorem resetDie_failed (hl : (s.die (field c.bytes 17 1)).loss = .absent) : Finishes .resetDie s (handed s c) c 5 :=
  resetDie_finishes h hop hk (by simp only [runResetDie, handed_of_command hc, hc, hl, Option.isSome_some, if_true])

theorem resetDie_waits (hl : (s.die (field c.bytes 17 1)).loss = .fence ∨ (s.die (field c.bytes 17 1)).loss = .resetting) : exec .resetDie s = .next s := by
  refine resetDie_stays h hop hk ?_
  rcases hl with hl | hl
  · simp only [runResetDie, handed_of_command hc, hc, hl, Option.isSome_some, if_true]
  · simp only [runResetDie, handed_of_command hc, hc, hl, Option.isSome_some, if_true]

end

/-- Fields of a RESET of a die within their ranges. -/
def ResetFields (s : State) (c : Command) : Prop := Blank c [(12, 4), (18, 46)] ∧ field c.bytes 16 1 = 0 ∧ field c.bytes 17 1 < 24 ∧ field c.bytes 17 1 ≠ s.host.gateway

omit h hop hk in
theorem resetOk_iff : (!fieldsClear c [(12, 4), (18, 46)] || field c.bytes 16 1 != 0 || decide (24 ≤ field c.bytes 17 1) || field c.bytes 17 1 == s.host.gateway) = false ↔ ResetFields s c := by
  simp only [Bool.or_eq_false_iff, Bool.not_eq_false', fieldsClear_iff, bne_eq_false_iff_eq, decide_eq_false_iff_not, beq_eq_false_iff_ne, Nat.not_le, ResetFields, and_assoc]

section
variable (hc : s.host.command = none)
include hc

theorem resetDie_invalid (hok : ¬ ResetFields s c) : Finishes .resetDie s (handed s c) c 2 :=
  resetDie_finishes h hop hk (by simp only [runResetDie, host_handed, hc, Bool.not_eq_false _ |>.mp (mt resetOk_iff.mp hok), Option.isSome_none, Bool.false_eq_true, if_false, if_true])

variable (hok : ResetFields s c)
include hok

theorem resetDie_absent (hs : ¬ InService s (field c.bytes 17 1)) : Finishes .resetDie s (handed s c) c 5 := by
  have hout : (!(s.die (field c.bytes 17 1)).present || (s.die (field c.bytes 17 1)).loss != .serving) = true := by
    rw [← Bool.not_eq_false]
    intro h
    rw [Bool.or_eq_false_iff, Bool.not_eq_false', bne_eq_false_iff_eq] at h
    exact hs ⟨hok.2.2.1, h.1, h.2⟩
  exact resetDie_finishes h hop hk
    (by simp only [runResetDie, host_handed, hc, resetOk_iff.mpr hok, present_handed, loss_handed, hout, Option.isSome_none, Bool.false_eq_true, if_false, if_true])

/-- The die is lost, and the command goes on. -/
theorem resetDie_fences (hs : InService s (field c.bytes 17 1)) : ∃ s', exec .resetDie s = .next s' ∧ Fenced s s' (field c.bytes 17 1) true ∧ s'.host.command = some c := by
  have hin : (!(s.die (field c.bytes 17 1)).present || (s.die (field c.bytes 17 1)).loss != .serving) = false := by
    rw [hs.2.1, hs.2.2]
    rfl
  have hserves : InService ((handed s c).updHost (fun h => { h with command := some c })) (field c.bytes 17 1) :=
    ⟨hs.1, (present_handed _).trans hs.2.1, (loss_handed _).trans hs.2.2⟩
  have hserving : ((handed s c).updHost (fun h => { h with command := some c })).host.serving = s.host.serving := by
    show (handed s c).host.serving = _
    rw [host_handed]
  obtain ⟨hfenced, hcommand⟩ := fenced_loseDie hserves true
  refine ⟨_, resetDie_stays h hop hk ?_, Fenced.congr hfenced hserving time_handed present_handed inc_handed, hcommand⟩
  simp only [runResetDie, host_handed, hc, resetOk_iff.mpr hok, present_handed, loss_handed, hin, Option.isSome_none, Bool.false_eq_true, if_false]

end

end

end Sys2Proof.CommandLaws
end

section
/-! PROOFS. RESET of the package (R375), and PORT_SETUP (R155). -/

namespace Sys2Proof.CommandLaws

open Sys2Proof Sys2Proof.Machine Sys2Proof.Claims Sys2Proof.HostLaws Sys2Proof.FabricLaws Sys2Proof.ExecutionLaws

/-! ### RESET of the package (R375) -/

section
variable {s : State} {c : Command}

theorem lifetime_fold_idle (s : State) (hc : s.pkg.counts = []) {key : Nat} (h1 : key / 2 ^ 32 ≠ 1) (h2 : key / 2 ^ 32 ≠ 2) :
    (fold s).pkg.lifetime.find key = s.pkg.lifetime.find key := by
  have hhours : key ≠ lifeKey 1 0 0 := fun e => h1 (e ▸ lifeKey_kind (by decide) (by decide))
  have hsamples : ∀ d < 24, ∀ x, key ≠ lifeKey 2 d (x % 16) := fun d hd x e => h2 (e ▸ lifeKey_kind (by omega) (by omega))
  refine find_foldl_addLifetime_absent _ _ ?_
  simp only [hc, NMap.keys, presentDies, List.nil_append, List.singleton_append, List.map_cons, List.map_map, List.mem_cons, List.mem_map, List.mem_filter,
    List.mem_range, Function.comp_apply, not_or, not_exists, not_and]
  exact ⟨hhours, fun d hd e => hsamples d hd.1 _ e.symm⟩

/-- The command of a RESET of the package by a row of a ring. -/
theorem resetPackage_mine (hop : field c.bytes 0 2 = 8) (hk : field c.bytes 16 1 = 1) : (c.opcode == 8 && field c.bytes 16 1 == 1 && c.ring == c.ring) = true := by
  simp [Command.opcode, hop, hk]

section
variable (h : InHand s c) (b : BootOutcome)
include h

theorem resetPackage_otherRing {q : Nat} (hq : q ≠ c.ring) : exec (.resetPackage q b) s = .next s :=
  congrArg Host.Outcome.next (plaod_other h (by simp [hq.symm]))

variable (hop : field c.bytes 0 2 = 8) (hk : field c.bytes 16 1 = 1)
include hop hk

theorem resetPackage_invalid (hok : ¬ Blank c [(12, 4), (18, 46)]) : Finishes (.resetPackage c.ring b) s (handed s c) c 2 :=
  finishes_of_plaod (act := fun s c => if !fieldsClear c [(12, 4), (18, 46)] then .status s 2 else .stays (bootStart (fold s) b)) rfl h (resetPackage_mine hop hk)
    (by simp only [fieldsClear_false hok, Bool.not_false, if_true])

/-- Boot begins after a fold. -/
theorem resetPackage_boots (hok : Blank c [(12, 4), (18, 46)]) : ∃ s', exec (.resetPackage c.ring b) s = .next s' ∧ s'.mem = [] ∧ s'.threads = [] ∧ s'.time = s.time ∧ s'.host.command = none ∧
    s'.host.boot = some b ∧ s'.host.bootstat = 0#32 ∧ (s.pkg.counts = [] → ∀ key, key / 2 ^ 32 ≠ 1 → key / 2 ^ 32 ≠ 2 → s'.pkg.lifetime.find key = s.pkg.lifetime.find key) := by
  refine ⟨bootStart (fold (handed s c)) b, congrArg Host.Outcome.next (plaod_stays h (resetPackage_mine hop hk) ?_), rfl, rfl, time_handed (s := s), rfl, rfl, rfl, fun hc key h1 h2 => ?_⟩
  · simp only [(fieldsClear_iff _).mpr hok, Bool.not_true, Bool.false_eq_true, if_false]
  · exact (lifetime_fold_idle (handed s c) (by rw [pkg_handed, hc]) h1 h2).trans (by rw [pkg_handed])

end

end

/-! ### Ports while held packets leave (R155) -/

/-- PROUTE, GWSEL and the ports' configurations are as before. -/
structure KeepsRouting (s s' : State) : Prop where
  proute : s'.pkg.proute = s.pkg.proute
  gwsel : s'.pkg.gwsel = s.pkg.gwsel
  cfg : ∀ n, (portOf s' n).cfg = (portOf s n).cfg

theorem keepsRouting_queueAtPort (s : State) (n : Nat) (p : Packet) : KeepsRouting s (queueAtPort s n p) := by
  refine ⟨rfl, rfl, fun m => ?_⟩
  simp only [portOf, queueAtPort, State.updPkg, List.getD_eq_getElem?_getD, List.getElem?_set]
  split
  · next hm =>
    subst hm
    split
    · rfl
    · next hlt => rw [List.getElem?_eq_none (Nat.not_lt.mp hlt)]
  · rfl

theorem keepsRouting_sendHeld (s : State) : KeepsRouting s (sendHeld s) := by
  refine List.foldlRecOn (motive := fun u : State => KeepsRouting s u) _ _ ⟨rfl, rfl, fun _ => rfl⟩ fun u hu p _ => ?_
  split
  · have hq := keepsRouting_queueAtPort { u with packets := u.packets.drop p.1 } ‹Nat› p.2
    exact ⟨hq.proute.trans hu.proute, hq.gwsel.trans hu.gwsel, fun n => (hq.cfg n).trans (hu.cfg n)⟩
  · exact hu

/-! ### PROUTE of a gateway (R155) -/

/-- A gateway's entries are those of the image. -/
theorem prouteOf_setProutes (s : State) (gw : Nat) (image : List Byte) {n : Nat} (hn : n < 256) : prouteOf (setProutes s gw image) gw n = field image (4 * n) 2 := by
  have hold : (s.pkg.proute.filter (fun r => r.1 != gw)).find? (fun r => r.1 == gw && r.2.1 == n) = none := by
    rw [List.find?_eq_none]
    intro r hr h
    simp only [List.mem_filter, bne_iff_ne, Bool.and_eq_true, beq_iff_eq] at hr h
    exact hr.2 h.1
  have hnew : ((((List.range 256).map (fun n => (gw, n, field image (4 * n) 2))).filter (fun r => r.2.2 != 0)).find? (fun r => r.1 == gw && r.2.1 == n)) =
      if field image (4 * n) 2 = 0 then none else some (gw, n, field image (4 * n) 2) := by
    rw [List.find?_filter, List.find?_map]
    split
    · next h0 =>
      rw [Option.map_eq_none_iff, List.find?_eq_none]
      intro m _ hm
      simp only [Function.comp_apply, bne_iff_ne, Bool.and_eq_true, beq_iff_eq, decide_eq_true_iff] at hm
      obtain ⟨hne, -, rfl⟩ := hm
      exact hne h0
    · next h0 =>
      rw [Option.map_eq_some_iff]
      refine ⟨n, List.find?_range_eq_some.mpr ⟨by simp [h0], List.mem_range.mpr hn, fun m hm => ?_⟩, rfl⟩
      simp [hm.ne]
  have hfind : (setProutes s gw image).pkg.proute.find? (fun r => r.1 == gw && r.2.1 == n) = if field image (4 * n) 2 = 0 then none else some (gw, n, field image (4 * n) 2) := by
    show List.find? _ (_ ++ _) = _
    rw [List.find?_append, hnew, hold, Option.or_none]
  unfold prouteOf
  rw [hfind]
  by_cases h0 : field image (4 * n) 2 = 0
  · rw [if_pos h0, h0]
  · rw [if_neg h0]

theorem prouteOf_congr {s s' : State} (h : s'.pkg.proute = s.pkg.proute) (gw n : Nat) : prouteOf s' gw n = prouteOf s gw n := by rw [prouteOf, h, prouteOf]

/-! ### A read of firmware leaves the ports (R67) -/

theorem keepsTables_performHome_load {s : State} {pa n : Nat} {y : State × List Byte} (h : performHome s pa (.load n) = some y) : KeepsTables s y.1 := by
  have hk : KeepsTables s (touchL2 (recallLine s (lineOf pa)) pa 0) := (keepsTables_recallLine s _).trans (keepsTables_touchL2 ..)
  simp only [performHome, show ((0 : Nat) == 7) = false from rfl, Bool.false_and, Bool.false_eq_true, if_false] at h
  split at h
  · cases h
  · rw [if_neg (by simp [Access.writes])] at h
    cases h
    exact hk

theorem keepsTables_memoryRead {s t : State} {a n : Nat} {bs : List Byte} (h : memoryRead s a n = some (t, bs)) : KeepsTables s t := by
  unfold memoryRead at h
  split at h
  · cases h
  · refine List.foldlRecOn (motive := fun r : Option (State × List Byte) => ∀ y, r = some y → KeepsTables s y.1) _ _ (fun y hy => ?_) (fun r hr p _ y hy => ?_) (t, bs) h
    · cases hy; exact .refl s
    · obtain ⟨x, rfl, hx⟩ := Option.bind_eq_some_iff.mp hy
      obtain ⟨z, hz, rfl⟩ := Option.map_eq_some_iff.mp hx
      exact (hr x rfl).trans (keepsTables_performHome_load (y := z) hz)

/-! ### PORT_SETUP (R155) -/

section
variable {s : State} {c : Command}

/-- Fields of a PORT_SETUP within their ranges. -/
def PortFields (c : Command) : Prop := Blank c [(12, 4), (17, 3)] ∧ field c.bytes 16 1 ≤ 15

theorem portOk_iff : (!fieldsClear c [(12, 4), (17, 3)] || decide (15 < field c.bytes 16 1)) = false ↔ PortFields c := by
  simp only [Bool.or_eq_false_iff, Bool.not_eq_false', fieldsClear_iff, decide_eq_false_iff_not, Nat.not_lt, PortFields]

/-- The state after a PORT_SETUP: PORTCFG, PROUTE and GWSEL. -/
def portSet (t1 : State) (c : Command) (image : List Byte) : State :=
  sendHeld ((setPortcfg (setProutes t1 (22 + field c.bytes 16 1 / 8) image) (field c.bytes 16 1) (BitVec.ofNat 32 (field c.bytes 20 4))).updPkg (fun k => { k with
    gwsel := (List.range 256).map (fun n => (field c.bytes (32 + n / 8) 1).testBit (n % 8)) }))

theorem cfg_portSet (t1 : State) (image : List Byte) (hp : field c.bytes 16 1 < t1.pkg.ports.length) :
    (portOf (portSet t1 c image) (field c.bytes 16 1)).cfg = BitVec.ofNat 32 (field c.bytes 20 4) &&& 0x800101FF#32 := by
  rw [portSet, (keepsRouting_sendHeld _).cfg]
  refine ((keepsRouting_sendHeld _).cfg (field c.bytes 16 1)).trans ?_
  show (List.getD (t1.pkg.ports.modify _ _) _ _).cfg = _
  rw [List.getD_eq_getElem?_getD, List.getElem?_modify_eq, List.getElem?_eq_getElem hp]
  rfl

theorem gwsel_portSet (t1 : State) (image : List Byte) {n : Nat} (hn : n < 256) : (portSet t1 c image).pkg.gwsel.getD n false = (field c.bytes (32 + n / 8) 1).testBit (n % 8) := by
  rw [portSet, (keepsRouting_sendHeld _).gwsel]
  simp [State.updPkg, hn]

theorem prouteOf_portSet (t1 : State) (image : List Byte) {n : Nat} (hn : n < 256) : prouteOf (portSet t1 c image) (22 + field c.bytes 16 1 / 8) n = field image (4 * n) 2 := by
  rw [portSet, prouteOf_congr (keepsRouting_sendHeld _).proute]
  exact (prouteOf_congr (keepsRouting_sendHeld _).proute _ _).trans (prouteOf_setProutes t1 _ image hn)

section
variable (h : InHand s c) (hop : field c.bytes 0 2 = 11)
include h hop

theorem portSetup_invalid (hok : ¬ PortFields c) : Finishes .portSetup s (handed s c) c 2 :=
  finishes_row rfl h hop (by simp only [runPortSetup, Bool.not_eq_false _ |>.mp (mt portOk_iff.mp hok), if_true])

variable (hok : PortFields c)
include hok

theorem portSetup_absent (hp : (s.die (22 + field c.bytes 16 1 / 8)).present = false) : Finishes .portSetup s (handed s c) c 5 :=
  finishes_row rfl h hop (by simp only [runPortSetup, portOk_iff.mpr hok, present_handed, hp, Bool.not_false, Bool.false_eq_true, if_false, if_true])

variable (hp : (s.die (22 + field c.bytes 16 1 / 8)).present = true)
include hp

theorem portSetup_enabled (he : (portOf s (field c.bytes 16 1)).cfg.getLsbD 31 = true) : Finishes .portSetup s (handed s c) c 3 := by
  have hon : portOn (portOf (handed s c) (field c.bytes 16 1)) = true := by rw [portOn, portOf, pkg_handed]; exact he
  exact finishes_row rfl h hop (by simp only [runPortSetup, portOk_iff.mpr hok, present_handed, hp, hon, Bool.not_true, Bool.false_eq_true, if_false, if_true])

theorem portSetup_sets {t1 : State} {image : List Byte} (he : (portOf s (field c.bytes 16 1)).cfg.getLsbD 31 = false) (hl : s.pkg.ports.length = 16)
    (hr : memoryRead (handed s c) (field c.bytes 24 8) 1024 = some (t1, image)) : ∃ s2, Finishes .portSetup s s2 c 0 ∧
      (s2.pkg.ports.getD (field c.bytes 16 1) Port.reset).cfg = BitVec.ofNat 32 (field c.bytes 20 4) &&& 0x800101FF#32 ∧
      (∀ n, n < 256 → s2.pkg.gwsel.getD n false = (field c.bytes (32 + n / 8) 1).testBit (n % 8) ∧ prouteOf s2 (22 + field c.bytes 16 1 / 8) n = field image (4 * n) 2) := by
  have hoff : portOn (portOf (handed s c) (field c.bytes 16 1)) = false := by rw [portOn, portOf, pkg_handed]; exact he
  have hlen : t1.pkg.ports.length = 16 := by rw [(keepsTables_memoryRead hr).ports, pkg_handed, hl]
  have hact : runPortSetup (handed s c) c = .status (portSet t1 c image) 0 := by
    simp only [runPortSetup, portOk_iff.mpr hok, present_handed, hp, hoff, hr, Bool.not_true, Bool.false_eq_true, if_false]
    rfl
  exact ⟨_, finishes_row rfl h hop hact, cfg_portSet t1 image (by rw [hlen]; exact Nat.lt_succ_of_le hok.2), fun n hn => ⟨gwsel_portSet t1 image hn, prouteOf_portSet t1 image hn⟩⟩

end

end

end Sys2Proof.CommandLaws
end

section
/-! PROOFS. Every command of the rings has its effect and completes with its status (R165 to R171, R174, R176, R367, R368, R373 to R375, R403). -/

namespace Sys2Proof.CommandLaws

open Sys2Proof Sys2Proof.Machine Sys2Proof.Claims Sys2Proof.HostLaws Sys2Proof.FabricLaws Sys2Proof.ExecutionLaws

/-- Settles O59: the command in hand, its row, and the completion of each. -/
theorem plaodCommandsComplete : Obligations.PlaodCommandsComplete := by
  unfold Obligations.PlaodCommandsComplete
  intro s c
  dsimp only
  refine ⟨fun k i hi ho hidle => row_idle hi ho hidle, fun k i q hi ho hf hl hc ht hr => row_unreadable hi ho hf hl hc ht hr, fun h => ?_, fun g x ho hg hf hx => ?_⟩
  · refine ⟨fun k i hi ho hop => row_other hi ho h hop, fun hop => unassigned_finishes h hop, fun hop ho => ?launch, fun hop => ?map, fun hop hc => ?unmapAgain, fun hop hc => ?unmap,
      fun hop => ?replay, fun hop => ?queue, fun hop => ?setup, fun hop => ?change, fun hop hk => ?resetDie, fun hop hk b => ?resetPackage, fun hop => ?attest, fun hop => ?config,
      fun hop => ?port, fun hop => ?switch, fun hop => ?lifetime⟩
    case launch =>
      refine ⟨launch_invalid h hop ho, launch_absent h hop ho, launch_noRoom h hop ho, fun hl ha hr => ?_⟩
      obtain ⟨s', he, hmem, hhead, hcommand, hgrid⟩ := launch_accepts h hop ho hl ha hr
      exact ⟨s', gridOf c, he, hmem, hhead, hcommand, hgrid, by simp only [gridOf, Command.mask, and_self]⟩
    case map => exact ⟨map_invalid h hop, map_noEntry h hop, fun t1 a hok hn hb => map_writes h hop hok hn hb⟩
    case unmapAgain => exact ⟨unmap_waits h hop hc, unmap_performed h hop hc⟩
    case unmap => exact ⟨unmap_invalid h hop hc, unmap_absent h hop hc, unmap_noEntry h hop hc, fun t1 a hok ha hn hb => unmap_clears h hop hc hok ha hn hb⟩
    case replay => exact ⟨replayAll_invalid h hop, replayAll_absent h hop, replayAll_replays h hop⟩
    case queue => exact ⟨fun s2 hb => queueSetup_binds h hop hb, fun n hb => queueSetup_refuses h hop hb⟩
    case setup =>
      exact ⟨viewSetup_invalid h hop, viewSetup_noMemory h hop, fun hok hb => ⟨viewSetup_noDie h hop hok hb, viewSetup_absent h hop hok hb,
        fun hm => viewSetup_sets h hop hok hb (fun m hl => (hm m hl).1) (fun m hl => (hm m hl).2)⟩⟩
    case change =>
      refine ⟨viewChange_invalid h hop, fun d hok hd => ⟨viewChange_noMember h hop hok hd, fun hi hs => ?_, fun hs => ?_⟩⟩
      · have hdone := viewChange_wants h hop hok hd hi
        rwa [wantChange_settled true ((domainOf_handed _).trans hd) hs] at hdone
      · exact ⟨_, viewChange_wants h hop hok hd (Nat.not_le.mp fun hi => hs (.inl hi)), wanted_wantChange true ((domainOf_handed _).trans hd) hs⟩
    case resetDie =>
      exact ⟨fun hc => ⟨resetDie_rejoined h hop hk hc, resetDie_failed h hop hk hc, resetDie_waits h hop hk hc⟩,
        fun hc => ⟨resetDie_invalid h hop hk hc, resetDie_absent h hop hk hc, resetDie_fences h hop hk hc⟩⟩
    case resetPackage => exact ⟨resetPackage_invalid h b hop hk, resetPackage_boots h b hop hk, fun q hq => resetPackage_otherRing h b hq⟩
    case attest => exact ⟨attest_invalid h hop, attest_keyless h hop, attest_report h hop⟩
    case config => exact ⟨configRead_invalid h hop, configRead_image h hop⟩
    case port =>
      exact ⟨portSetup_invalid h hop, portSetup_absent h hop, portSetup_enabled h hop, fun t1 image hok hp he hl hr => portSetup_sets h hop hok hp he hl hr⟩
    case switch => exact ⟨hostSwitch_invalid h hop, hostSwitch_down h hop, hostSwitch_switches h hop⟩
    case lifetime => exact ⟨lifetimeRead_invalid h hop, lifetimeRead_absent h hop, lifetimeRead_writes h hop⟩
  · exact ⟨launch_waits ho hg, launch_completes ho hg hf hx⟩

end Sys2Proof.CommandLaws
end

section
/-! PROOFS. The float functions and FRND (spec/11_floating_point_instructions.md R258, R259): their lanes compute in their own threads. -/

namespace Sys2Proof.ExecutionLaws

open Sys2Proof Sys2Proof.Machine Sys2Proof.Claims

section
variable {o : Long} {f : Thread → Nat × Nat × Word}

/-- A float instruction whose code, flags and generator do not look at the thread's course neither reads nor sets it. -/
theorem inner_finishLane (hf : ∀ t, f t.still = f t) : Inner (fun t => finishLane o t (f t)) where
  still t := by rw [hf]; rfl
  after _ := rfl

/-- A row of a float instruction of one code writes that code, the flags and the generator in every lane. -/
theorem computes_floatLane {op : LongOp} {i : Instr} (hi : ∀ s, exec i s = runLong op o (floatLane o f) s) (hf : ∀ t, f t.still = f t) :
    Computes i op o o.bytes (fun _ t => finishLane o t (f t)) :=
  computes_inner (inner_finishLane hf) hi

end

/-- A function's effect is its code and flags of the operand, the generator left alone. -/
theorem functionDid_function (o : Long) (t : Thread) : ∀ op ∈ functions, functionDid op o t =
    finishLane o t ((functionOf op ⟨0, o.sat, t.ftz⟩ (src32 t o .a)).1, (functionOf op ⟨0, o.sat, t.ftz⟩ (src32 t o .a)).2, t.gen) := by
  simp only [functions, List.forall_mem_cons, List.not_mem_nil, false_imp_iff, implies_true, and_true]
  exact ⟨rfl, rfl, rfl, rfl, rfl, rfl, rfl⟩

theorem computes_function (o : Long) {op : LongOp} (hop : op ∈ functions) : Computes (op.instr o) op o o.bytes (fun _ => functionDid op o) := by
  rw [show functionDid op o = _ from funext fun t => functionDid_function o t op hop]
  exact computes_floatLane (fun _ => exec_function op hop) fun _ => rfl

theorem computes_frnd (o : Long) : Computes (.frnd o) .frnd o o.bytes (fun _ => functionDid .frnd o) :=
  computes_floatLane (f := fun t => frndOp (fmt o) (modeOf o t) (o.m4.getLsbD 0) t.gen (elem t o .a o.ty)) (fun _ => rfl) fun _ => rfl

/-- Settles O19: the seven functions by their opcode, and FRND. -/
theorem floatFunctionsWriteTheirResult : Obligations.FloatFunctionsWriteTheirResult := by
  unfold Obligations.FloatFunctionsWriteTheirResult
  intro op hop o
  rcases List.mem_append.mp (show op ∈ functions ++ [.frnd] from hop) with h | h
  · exact computes_function o h
  · obtain rfl := List.mem_singleton.mp h
    exact computes_frnd o

end Sys2Proof.ExecutionLaws
end

section
/-! PROOFS. Rounding onto a grid (spec/08_number_formats.md R185, R186): which of the two neighbors each mode takes, and that a number of a format (R179) comes back
from its value. -/

namespace Sys2Proof.RoundingLaws

open Sys2Proof Sys2Proof.Machine Sys2Proof.Claims

section
variable {m sh : Nat}

/-! ### The two neighbors and their distances -/

theorem apart_below (m sh : Nat) : apart m (m / 2 ^ sh * 2 ^ sh) = m % 2 ^ sh := by
  have h := Nat.div_add_mod' m (2 ^ sh)
  unfold apart
  omega

theorem apart_above (m sh : Nat) : apart m ((m / 2 ^ sh + 1) * 2 ^ sh) = 2 ^ sh - m % 2 ^ sh := by
  have h := Nat.div_add_mod' m (2 ^ sh)
  have hlt : m % 2 ^ sh < 2 ^ sh := Nat.mod_lt _ (Nat.two_pow_pos sh)
  rw [apart, Nat.succ_mul]
  omega

theorem nearerThan_below_iff : nearerThan m sh (m / 2 ^ sh) (m / 2 ^ sh + 1) ↔ 2 * (m % 2 ^ sh) < 2 ^ sh := by
  rw [nearerThan, apart_below, apart_above]
  omega

theorem nearerThan_above_iff : nearerThan m sh (m / 2 ^ sh + 1) (m / 2 ^ sh) ↔ 2 ^ sh < 2 * (m % 2 ^ sh) := by
  have hlt : m % 2 ^ sh < 2 ^ sh := Nat.mod_lt _ (Nat.two_pow_pos sh)
  rw [nearerThan, apart_below, apart_above]
  omega

theorem halfway_iff : apart m (m / 2 ^ sh * 2 ^ sh) = apart m ((m / 2 ^ sh + 1) * 2 ^ sh) ↔ 2 * (m % 2 ^ sh) = 2 ^ sh := by
  have hlt : m % 2 ^ sh < 2 ^ sh := Nat.mod_lt _ (Nat.two_pow_pos sh)
  rw [apart_below, apart_above]
  omega

/-! ### The modes (R186) -/

/-- A value on the grid is kept by every mode, and is exact. -/
theorem roundSteps_onGrid (h : m % 2 ^ sh = 0) (rm : Nat) (neg : Bool) (u : Nat) : roundSteps rm neg m sh false u = (m / 2 ^ sh, true) := by
  unfold roundSteps
  simp only [h, beq_self_eq_true, Bool.not_false, Bool.and_self, if_true, Bool.false_eq_true, if_false]

/-- The modes by their codes: whether a value that lies r of unit beyond the lo-th grid step goes to the step above. The draw of STO is an argument, which
keeps the 2^24 of its scale out of the cases. -/
def goesUp (rm : Nat) (neg : Bool) (lo r unit : Nat) (drawn : Bool) : Bool :=
  match rm with
  | 0 => decide (unit < 2 * r ∨ 2 * r = unit ∧ lo % 2 = 1)
  | 1 => false
  | 2 => neg
  | 3 => !neg
  | 4 => decide (unit ≤ 2 * r)
  | 5 => drawn
  | _ => decide (lo % 2 = 0)

/-- Off the grid the mode takes one of the two neighbors. -/
theorem roundSteps_offGrid (h : m % 2 ^ sh ≠ 0) (rm : Nat) (neg : Bool) (u : Nat) : (roundSteps rm neg m sh false u).1 =
    if goesUp rm neg (m / 2 ^ sh) (m % 2 ^ sh) (2 ^ sh) (decide (u < m % 2 ^ sh * 2 ^ 24 / 2 ^ sh)) then m / 2 ^ sh + 1 else m / 2 ^ sh := by
  unfold roundSteps
  obtain ⟨drawn, hdrawn⟩ : ∃ b, b = decide (u < m % 2 ^ sh * 2 ^ 24 / 2 ^ sh) := ⟨_, rfl⟩
  dsimp only
  rw [← hdrawn]
  simp only [beq_false_of_ne h, Bool.and_false, Bool.or_false, Bool.not_false, Bool.and_true, Bool.false_eq_true, if_false]
  congr 2
  rcases rm with _ | _ | _ | _ | _ | _ | _
  case zero => simp [goesUp, Bool.beq_eq_decide_eq]
  case succ.succ.succ.succ.zero => simp [goesUp, Nat.le_iff_lt_or_eq, Bool.beq_eq_decide_eq, eq_comm]
  all_goals rfl

end

/-! ### Numbers of a format round to themselves (R179, R185) -/

/-- The greatest exponent field of a number. -/
def topField (f : Fmt) : Nat := if f.inf then 2 ^ f.e - 2 else 2 ^ f.e - 1

/-- The greatest finite magnitude is that of the greatest code that stands for a number: the greatest field, and the greatest fraction beside it that is no
NaN's. -/
structure MaxFits (f : Fmt) : Prop where
  fraction : 1 ≤ f.m
  field : 2 ≤ f.e
  exp : f.maxExp = topField f - f.bias - f.m
  mant : f.maxMant = if f.hasNan ∧ ¬ f.inf then 2 ^ (f.m + 1) - 2 else 2 ^ (f.m + 1) - 1

theorem maxFits_iff (f : Fmt) : MaxFits f ↔ 1 ≤ f.m ∧ 2 ≤ f.e ∧ f.maxExp = topField f - f.bias - f.m ∧
    f.maxMant = if f.hasNan ∧ ¬ f.inf then 2 ^ (f.m + 1) - 2 else 2 ^ (f.m + 1) - 1 :=
  ⟨fun ⟨hm, he, hexp, hmant⟩ => ⟨hm, he, hexp, hmant⟩, fun ⟨hm, he, hexp, hmant⟩ => ⟨hm, he, hexp, hmant⟩⟩

theorem maxFits_formats : ∀ f ∈ [f32, f16, bf16, e4m3, e5m2, e2m1], MaxFits f := by
  simp only [maxFits_iff]
  decide

/-- m × 2^e lies above the format's greatest finite magnitude. -/
def Overflows (f : Fmt) (m : Nat) (e : Int) : Prop :=
  if f.maxExp ≤ e then f.maxMant < m * 2 ^ (e - f.maxExp).toNat else f.maxMant * 2 ^ (f.maxExp - e).toNat < m

theorem not_overflows {f : Fmt} {m : Nat} {e : Int} (he : e ≤ f.maxExp) (htop : e = f.maxExp → m ≤ f.maxMant) (hm : m ≤ 2 * f.maxMant) : ¬ Overflows f m e := by
  unfold Overflows
  split
  · next h =>
    obtain rfl := le_antisymm he h
    simpa using htop rfl
  · next h =>
    have hk : 1 ≤ (f.maxExp - e).toNat := by omega
    have hpow : 2 ^ 1 ≤ 2 ^ (f.maxExp - e).toNat := Nat.pow_le_pow_right two_pos hk
    exact Nat.not_lt.mpr (calc m ≤ f.maxMant * 2 ^ 1 := by omega
      _ ≤ _ := Nat.mul_le_mul_left _ hpow)

/-- The code of the number m × 2^e on the grid of its magnitude: a subnormal's fraction, or exponent field and fraction. -/
def gridCode (f : Fmt) (m : Nat) (e : Int) : Nat := if m < 2 ^ f.m then m else (e + f.m + f.bias).toNat * 2 ^ f.m + (m - 2 ^ f.m)

/-- Without FTZ a value rounds to this code and raises nothing. -/
def RoundsTo (f : Fmt) (rm : Nat) (sat : Bool) (gen : Word) (v : XVal) (c : Nat) : Prop :=
  (roundTo f ⟨rm, sat, false⟩ gen v).1 = c ∧ (roundTo f ⟨rm, sat, false⟩ gen v).2.1 = 0

section
variable {f : Fmt} {rm : Nat} {sat : Bool} {gen : Word}

/-- A number on the grid of its own magnitude, and not too great, is kept. -/
theorem roundsTo_onGrid {neg : Bool} {m : Nat} {e : Int} (hgrid : max (magLog m e) (1 - f.bias) - f.m = e) (hfit : ¬ Overflows f m e) :
    RoundsTo f rm sat gen (.num neg m e false) (withSign f neg (gridCode f m e)) := by
  have hfit' : ¬ (if f.maxExp ≤ e then decide (f.maxMant < m * 2 ^ (e - f.maxExp).toNat) else decide (f.maxMant * 2 ^ (f.maxExp - e).toNat < m)) = true := by
    unfold Overflows at hfit
    split_ifs at hfit ⊢ <;> exact mt of_decide_eq_true hfit
  simp only [RoundsTo, roundTo, hgrid, Int.sub_self, Int.toNat_zero, Nat.pow_zero, Nat.mul_one, roundSteps_onGrid (sh := 0) (Nat.mod_one m), Nat.div_one, if_neg hfit', gridCode]
  split <;> simp

/-! ### The code of a number -/

/-- A code is its fields put together. -/
theorem withSign_splitCode {c : Nat} (hc : c < 2 ^ (f.m + f.e + 1)) :
    withSign f (splitCode f c).1 ((splitCode f c).2.1 * 2 ^ f.m + (splitCode f c).2.2) = c := by
  have hmag : c / 2 ^ f.m % 2 ^ f.e * 2 ^ f.m + c % 2 ^ f.m = c % 2 ^ (f.m + f.e) := by
    rw [Nat.pow_add, Nat.mod_mul, Nat.mul_comm, Nat.add_comm]
  have hlt : c / 2 ^ (f.m + f.e) < 2 := Nat.div_lt_of_lt_mul (by rwa [← Nat.pow_succ])
  have hsign : (if c / 2 ^ (f.m + f.e) % 2 = 1 then 2 ^ (f.m + f.e) else 0) = 2 ^ (f.m + f.e) * (c / 2 ^ (f.m + f.e)) := by
    rcases Nat.le_one_iff_eq_zero_or_eq_one.mp (Nat.le_of_lt_succ hlt) with h | h <;> simp [h]
  simp only [withSign, splitCode, decide_eq_true_eq, hmag, hsign, Nat.mod_add_div]

section
variable {c : Nat} {s : Bool} {x y : Nat} (hs : splitCode f c = (s, x, y))
include hs

theorem decodeF_of_splitCode : decodeF f false c =
    if x = 2 ^ f.e - 1 ∧ f.inf then (if y = 0 then .inf s else .nan)
    else if f.hasNan ∧ ¬ f.inf ∧ x = 2 ^ f.e - 1 ∧ y = 2 ^ f.m - 1 then .nan
    else if x = 0 then (if y = 0 then .zero s else .num s y (1 - f.bias - f.m) false)
    else .num s (2 ^ f.m + y) (x - f.bias - f.m) false := by
  simp [decodeF, hs]

/-- What a code stands for that is neither an infinity nor a NaN: a zero, a subnormal, or a number with an exponent field up to the greatest. -/
theorem decodeF_number (hx : x < 2 ^ f.e) (hinf : ∀ n, decodeF f false c ≠ .inf n) (hnan : decodeF f false c ≠ .nan) :
    (x = 0 ∧ y = 0 ∧ decodeF f false c = .zero s) ∨
    (x = 0 ∧ y ≠ 0 ∧ decodeF f false c = .num s y (1 - f.bias - f.m) false) ∨
    (x ≠ 0 ∧ x ≤ topField f ∧ (f.hasNan → f.inf = false → x = topField f → y ≠ 2 ^ f.m - 1) ∧ decodeF f false c = .num s (2 ^ f.m + y) (x - f.bias - f.m) false) := by
  rw [decodeF_of_splitCode hs] at hinf hnan ⊢
  split at hnan
  · next hspecial =>
    rw [if_pos hspecial] at hinf
    split at hnan
    · next hy => exact absurd (if_pos hy) (hinf s)
    · exact absurd rfl hnan
  · next hspecial =>
    split at hnan
    · exact absurd rfl hnan
    · next hquiet =>
      rw [if_neg hspecial, if_neg hquiet]
      by_cases hx0 : x = 0
      · rw [if_pos hx0]
        by_cases hy0 : y = 0
        · exact .inl ⟨hx0, hy0, if_pos hy0⟩
        · exact .inr (.inl ⟨hx0, hy0, if_neg hy0⟩)
      · refine .inr (.inr ⟨hx0, ?_, fun hn hi ht hy => hquiet ⟨hn, by simp [hi], by simpa [topField, hi] using ht, hy⟩, if_neg hx0⟩)
        unfold topField
        split
        · next hi =>
          have hne : x ≠ 2 ^ f.e - 1 := fun he => hspecial ⟨he, hi⟩
          omega
        · omega

end

variable (hf : MaxFits f)
include hf

/-- The greatest significand is one short of a power of two, or with a NaN above it two. -/
theorem MaxFits.mant_ge : 2 * 2 ^ f.m - 2 ≤ f.maxMant := by
  rw [hf.mant, Nat.pow_succ]
  split <;> omega

theorem MaxFits.one_le_topField : 1 ≤ topField f := by
  have h : 2 ^ 2 ≤ 2 ^ f.e := Nat.pow_le_pow_right two_pos hf.field
  unfold topField
  split <;> omega

/-- A subnormal stands on the grid of its magnitude. -/
theorem roundsTo_subnormal {s : Bool} {y : Nat} (h0 : y ≠ 0) (hy : y < 2 ^ f.m) : RoundsTo f rm sat gen (.num s y (1 - f.bias - f.m) false) (withSign f s y) := by
  have hlog : Nat.log2 y < f.m := (Nat.log2_lt h0).mpr hy
  have hpow : 2 ^ 1 ≤ 2 ^ f.m := Nat.pow_le_pow_right two_pos hf.fraction
  have hmant := hf.mant_ge
  have htop := hf.one_le_topField
  have hexp := hf.exp
  have h := roundsTo_onGrid (f := f) (rm := rm) (sat := sat) (gen := gen) (neg := s) (m := y) (e := 1 - f.bias - f.m) (by unfold magLog; omega)
    (not_overflows (by omega) (fun _ => by omega) (by omega))
  rwa [gridCode, if_pos hy] at h

/-- A number of exponent field x and fraction y stands on the grid of its magnitude. -/
theorem roundsTo_normal {s : Bool} {x y : Nat} (hx : x ≤ topField f) (hy : y < 2 ^ f.m) (hnan : f.hasNan → f.inf = false → x = topField f → y ≠ 2 ^ f.m - 1) (h0 : x ≠ 0) :
    RoundsTo f rm sat gen (.num s (2 ^ f.m + y) (x - f.bias - f.m) false) (withSign f s (x * 2 ^ f.m + y)) := by
  have hlog : Nat.log2 (2 ^ f.m + y) = f.m := (Nat.log2_eq_iff (by omega)).mpr ⟨by omega, by rw [Nat.pow_succ]; omega⟩
  have hpow : 2 ^ 1 ≤ 2 ^ f.m := Nat.pow_le_pow_right two_pos hf.fraction
  have hmant := hf.mant_ge
  have hexp := hf.exp
  have hmax : x = topField f → 2 ^ f.m + y ≤ f.maxMant := by
    intro ht
    rw [hf.mant, Nat.pow_succ]
    split
    · next hn =>
      have hy' := hnan hn.1 (by simpa using hn.2) ht
      omega
    · omega
  have hfield : ((x : Int) - f.bias - f.m + f.m + f.bias).toNat = x := by omega
  have h := roundsTo_onGrid (f := f) (rm := rm) (sat := sat) (gen := gen) (neg := s) (m := 2 ^ f.m + y) (e := x - f.bias - f.m) (by unfold magLog; omega)
    (not_overflows (by omega) (fun _ => hmax (by omega)) (by omega))
  rwa [gridCode, if_neg (by omega), hfield, Nat.add_sub_cancel_left] at h

/-- A code that stands for a number comes back from its value. -/
theorem roundsTo_decodeF {c : Nat} (hc : c < 2 ^ (f.m + f.e + 1)) (hinf : ∀ n, decodeF f false c ≠ .inf n) (hnan : decodeF f false c ≠ .nan) :
    RoundsTo f rm sat gen (decodeF f false c) c := by
  obtain ⟨s, x, y, hs⟩ : ∃ s x y, splitCode f c = (s, x, y) := ⟨_, _, _, rfl⟩
  have hx : x < 2 ^ f.e := (congrArg (·.2.1) hs).symm.trans_lt (Nat.mod_lt _ (Nat.two_pow_pos _))
  have hy : y < 2 ^ f.m := (congrArg (·.2.2) hs).symm.trans_lt (Nat.mod_lt _ (Nat.two_pow_pos _))
  have hcode : withSign f s (x * 2 ^ f.m + y) = c := by simpa only [hs] using withSign_splitCode hc
  obtain ⟨rfl, rfl, hd⟩ | ⟨rfl, h0, hd⟩ | ⟨h0, htop, hn, hd⟩ := decodeF_number hs hx hinf hnan
  · rw [Nat.zero_mul, Nat.add_zero] at hcode
    rw [hd]
    exact ⟨hcode, rfl⟩
  · rw [Nat.zero_mul, Nat.zero_add] at hcode
    rw [hd, ← hcode]
    exact roundsTo_subnormal hf h0 hy
  · rw [hd, ← hcode]
    exact roundsTo_normal hf htop hy hn h0

end

/-- Settles O21: the modes one by one, and the codes of a format by their fields. -/
theorem roundingModesTakeTheNamedNeighbor : Obligations.RoundingModesTakeTheNamedNeighbor := by
  unfold Obligations.RoundingModesTakeTheNamedNeighbor
  refine ⟨fun neg m sh u => ⟨fun h rm => congrArg Prod.fst (roundSteps_onGrid h rm neg u), fun h => ?_⟩,
    fun f hf c hc rm sat gen hinf hnan => roundsTo_decodeF (maxFits_formats f hf) hc hinf hnan⟩
  simp only [roundSteps_offGrid h, goesUp, nearerThan_below_iff, nearerThan_above_iff, halfway_iff, decide_eq_true_eq]
  refine ⟨rfl, trivial, ?up, fun hbelow => ?below, fun habove => ?above, fun hhalf => ?half, ?odd, ?oddNeighbor, trivial⟩
  case up => cases neg <;> rfl
  case below => exact ⟨if_neg (by omega), if_neg (by omega)⟩
  case above => exact ⟨if_pos (.inl habove), if_pos habove.le⟩
  case half =>
    refine ⟨?_, ?_, if_pos hhalf.ge⟩
    · split <;> omega
    · split <;> simp
  case odd => split <;> omega
  case oddNeighbor => split <;> simp

end Sys2Proof.RoundingLaws
end

section
/-! PROOFS. Encoding (spec/09_instruction_encoding.md R198 to R202, R209, R214, R215): the fields of the words that encode an instruction, and that decoding them gives it back. -/

namespace Sys2Proof.EncodingLaws

open Sys2Proof Sys2Proof.Machine Sys2Proof.Claims

/-! ### Fields of a word -/

/-- A field of the low part.  Stated of `BitVec.append`, whose operands fix the widths that the type of a word does not show. -/
theorem extractLsb'_append_low {v w s n : Nat} {x : BitVec v} {y : BitVec w} (h : s + n ≤ w) : (x.append y).extractLsb' s n = y.extractLsb' s n :=
  BitVec.extractLsb'_append_eq_of_add_le h

/-- A field of the high part. -/
theorem extractLsb'_append_high {v w s n : Nat} {x : BitVec v} {y : BitVec w} (h : w ≤ s) : (x.append y).extractLsb' s n = x.extractLsb' (s - w) n :=
  BitVec.extractLsb'_append_eq_of_le h

/-! ### Long instructions (R202, R215) -/

/-- The first word of a long instruction. -/
def opcodeWord (op : LongOp) (o : Long) : Word := o.m4 ++ o.a ++ o.d ++ op.code ++ (if o.lit.isSome then 2#2 else 1#2)

/-- The second word: the operands B, C and E. -/
def operandWord (o : Long) : Word := o.kc ++ o.kb ++ o.fs ++ o.e ++ o.c ++ o.b

/-- The third word: SUB13, the modifiers and the guards. -/
def guardWord (o : Long) : Word := o.sub ++ o.yh ++ o.hint ++ o.ret ++ o.gc ++ o.n2 ++ o.g2 ++ o.n1 ++ o.g1 ++ o.ka

theorem longFields_words (op : LongOp) (o : Long) : longFields (opcodeWord op o) (operandWord o) (guardWord o) o.lit = o := by
  simp [longFields, opcodeWord, operandWord, guardWord, HAppend.hAppend, extractLsb'_append_low, extractLsb'_append_high, -BitVec.append_eq]

theorem opcodeWord_fields (op : LongOp) (o : Long) :
    (opcodeWord op o).extractLsb' 0 2 = (if o.lit.isSome then 2#2 else 1#2) ∧ (opcodeWord op o).extractLsb' 2 8 = op.code := by
  simp [opcodeWord, HAppend.hAppend, extractLsb'_append_low, extractLsb'_append_high, -BitVec.append_eq]

/-- The words of a long instruction without a literal. -/
theorem encodeLong_three {op : LongOp} {o : Long} (h : o.lit = none) : encodeLong op o = [opcodeWord op o, operandWord o, guardWord o] := by
  rw [encodeLong, opcodeWord, h]
  rfl

/-- The words of a long instruction with one. -/
theorem encodeLong_five {op : LongOp} {o : Long} {v : BitVec 64} (h : o.lit = some v) :
    encodeLong op o = [opcodeWord op o, operandWord o, guardWord o, v.extractLsb' 0 32, v.extractLsb' 32 32] := by
  rw [encodeLong, opcodeWord, h]
  rfl

/-- The code, with the M4 or MODE that picks the row among those that share it, names the row. -/
theorem longRow_code {op : LongOp} {o : Long} (h : op.selects o = true) : longRow op.code o.m4 o.mode = some op := by
  cases op
  case fclsTest | tcoefGet | vmovGet | abindUn | viewSet | residReq | eschedStep | clkCyc | sstepBind => exact if_pos (eq_of_beq h)
  case fcls | tcoef | abind | view | resid | sstep => exact if_neg (by simpa [LongOp.selects] using h)
  case flushAll | recqHeld => exact if_pos (by simpa [LongOp.selects, and_assoc] using h)
  case flush | recq =>
    refine if_neg fun ⟨h1, h2, h3⟩ => ?_
    rw [LongOp.selects, h1, eq_false_of_ne_true h2, eq_false_of_ne_true h3] at h
    cases h
  case vmovPut | eschedAdv | clkWait =>
    have h2 := eq_of_beq h
    exact (if_neg (by rw [h2]; decide)).trans (if_pos h2)
  case eschedClr =>
    have h3 := eq_of_beq h
    exact (if_neg (by rw [h3]; decide)).trans ((if_neg (by rw [h3]; decide)).trans (if_pos h3))
  case vmovRow | clkSync =>
    obtain ⟨h1, h2⟩ : o.m4 ≠ 1#4 ∧ o.m4 ≠ 2#4 := by simpa [LongOp.selects] using h
    exact (if_neg h1).trans (if_neg h2)
  case eschedLoad =>
    obtain ⟨⟨h1, h2⟩, h3⟩ : (o.m4 ≠ 1#4 ∧ o.m4 ≠ 2#4) ∧ o.m4 ≠ 3#4 := by simpa [LongOp.selects] using h
    exact (if_neg h1).trans ((if_neg h2).trans (if_neg h3))
  all_goals rfl

theorem decodeLong_words {op : LongOp} {o : Long} (h : op.selects o = true) : decodeLong (opcodeWord op o) (operandWord o) (guardWord o) o.lit = .ok (op.instr o) := by
  simp only [decodeLong, longFields_words, opcodeWord_fields, longRow_code h]

theorem decode_encodeLong {op : LongOp} {o : Long} (h : op.selects o = true) (rest : List Word) : decode (encodeLong op o ++ rest) = .ok (op.instr o, rest) := by
  have hd := decodeLong_words h
  have hlen := (opcodeWord_fields op o).1
  rcases hlit : o.lit with _ | v
  · rw [hlit] at hd hlen
    simp [encodeLong_three hlit, decode, hlen, hd, Except.map]
  · have hv : v.extractLsb' 32 32 ++ v.extractLsb' 0 32 = v := BitVec.extractLsb'_append_extractLsb'
    rw [hlit] at hd hlen
    simp [encodeLong_five hlit, decode, hlen, hv, hd, Except.map]

theorem eq_instr_of_long? {i : Instr} {op : LongOp} {o : Long} (h : i.long? = some (op, o)) : i = op.instr o := by
  cases i <;> cases h <;> rfl

/-! ### Short instructions and headers (R201, R209, R214) -/

theorem wordS_fields (op6 x : BitVec 6) (a d : BitVec 9) :
    (wordS op6 x a d).extractLsb' 0 2 = 0#2 ∧ (wordS op6 x a d).extractLsb' 2 6 = op6 ∧ (wordS op6 x a d).extractLsb' 8 9 = d ∧
      (wordS op6 x a d).extractLsb' 17 9 = a ∧ (wordS op6 x a d).extractLsb' 26 6 = x := by
  simp [wordS, HAppend.hAppend, extractLsb'_append_low, extractLsb'_append_high, -BitVec.append_eq]

theorem wordSB_fields (op6 : BitVec 6) (off : BitVec 19) (neg : BitVec 1) (gp : BitVec 4) :
    (wordSB op6 off neg gp).extractLsb' 0 2 = 0#2 ∧ (wordSB op6 off neg gp).extractLsb' 2 6 = op6 ∧ (wordSB op6 off neg gp).extractLsb' 8 4 = gp ∧
      (wordSB op6 off neg gp).extractLsb' 12 1 = neg ∧ (wordSB op6 off neg gp).extractLsb' 13 19 = off := by
  simp [wordSB, HAppend.hAppend, extractLsb'_append_low, extractLsb'_append_high, -BitVec.append_eq]

/-- X6 of a mask form: which form it is, over the mask. -/
theorem maskX6_fields (form : BitVec 2) (m : BitVec 4) : (form ++ m).extractLsb' 0 4 = m ∧ (form ++ m).extractLsb' 4 2 = form :=
  ⟨BitVec.extractLsb'_append_eq_right, BitVec.extractLsb'_append_eq_left⟩

theorem headerWord_fields (kind : BitVec 2) (length : BitVec 8) (setb seta : BitVec 4) (wait : BitVec 12) :
    let w : Word := kind ++ length ++ setb ++ seta ++ wait ++ 3#2
    w.extractLsb' 0 2 = 3#2 ∧ decodeHeader w = .clauseStart kind length setb seta wait := by
  simp [decodeHeader, HAppend.hAppend, extractLsb'_append_low, extractLsb'_append_high, -BitVec.append_eq]

theorem decode_short {w : Word} {i : Instr} (hlen : w.extractLsb' 0 2 = 0#2) (h : decodeShort w = .ok i) (rest : List Word) : decode ([w] ++ rest) = .ok (i, rest) := by
  simp [decode, hlen, h, Except.map]

theorem decode_header {w : Word} (hlen : w.extractLsb' 0 2 = 3#2) (rest : List Word) : decode ([w] ++ rest) = .ok (decodeHeader w, rest) := by
  simp [decode, hlen]

/-- Of the rows that are no long instruction the short forms and the header come back; no other row is the meaning of a word. -/
theorem decode_encode_of_short {i : Instr} (hl : i.long? = none) (h : i.wellFormed = true) (rest : List Word) : decode (encode i ++ rest) = .ok (i, rest) := by
  cases i
  case movShort | addShort | subShort | faddShort | fmulShort | addi | shli | shri | sari | andi | lis | ldw | stw | ldsw | stsw | nopShort | retShort | exitShort
    | yieldShort =>
    exact decode_short (wordS_fields ..).1 (by simp only [decodeShort, wordS_fields]; rfl) rest
  case joinShort m | leaveShort m | waitkShort m =>
    have hm : ¬ 11 < m.toNat := Nat.not_lt.mpr (of_decide_eq_true h)
    exact decode_short (wordS_fields ..).1 (by simp only [decodeShort, wordS_fields, maskX6_fields]; exact if_neg hm) rest
  case braShort | callShort =>
    exact decode_short (wordSB_fields ..).1 (by simp only [decodeShort, wordSB_fields]; rfl) rest
  case clauseStart kind length setb seta wait =>
    obtain ⟨hlen, hheader⟩ := headerWord_fields kind length setb seta wait
    exact (decode_header hlen rest).trans (by rw [hheader])
  -- a long row contradicts hl, a row that no word encodes contradicts h
  all_goals cases hl
  all_goals cases h

/-- Settles O1: long instructions by their words' fields and the row that the code picks, the others row by row. -/
theorem decodingUndoesEncoding : Obligations.DecodingUndoesEncoding := by
  unfold Obligations.DecodingUndoesEncoding
  intro i rest h
  rcases hl : i.long? with _ | ⟨op, o⟩
  · exact decode_encode_of_short hl h rest
  · have hsel : op.selects o = true := by
      unfold Instr.wellFormed at h
      rwa [hl] at h
    have hwords : encode i = encodeLong op o := by
      unfold encode
      rw [hl]
    rw [hwords, eq_instr_of_long? hl]
    exact decode_encodeLong hsel rest

end Sys2Proof.EncodingLaws
end

section
/-! PROOFS. The fetch of a word from memory (spec/09_instruction_encoding.md R198, R199): it reaches the word's home, whose L2 takes its line (R67, R207). -/

namespace Sys2Proof.EncodingLaws

open Sys2Proof Sys2Proof.Machine Sys2Proof.Claims Sys2Proof.MemoryLaws

/-- The lines that a die's L2 slices hold after a fetch. -/
def linesFetched (f : Fetched) (die : Nat) : List (Nat × List Nat) :=
  match f with
  | .ok s _ => (s.die die).l2
  | .out _ => []

/-- A fetch at address 0, where no L2 holds a line, brings its line into the L2. -/
theorem linesFetched_first : linesFetched (fetchWord prefetchingState 10 ExecutionLaws.lastLane 0) 16 = [(0, [0])] := by decide +kernel

section
variable {s : State} {ep asid va : Nat} {x : Tlb}

/-- An entry of the core's own TLB that allows the access translates it and leaves the state as it is (R76, R461). -/
theorem translate_of_hit {priv : Bool} {cls : Nat} (hx : (s.core ep).tlb.find? (fun x => x.hits asid va) = some x)
    (hallow : ((ptePriv x.entry && !priv) || !classAllows x.entry cls) = false)
    (hregion : (regionOf (ptePa x.entry + (va - x.va)) == .agent && pteKind x.entry != 0) = false) :
    Machine.translate s ep asid priv cls va = .ok s (ptePa x.entry + (va - x.va)) x.entry := by
  simp only [Machine.translate, lookupTlb, hx, hallow, hregion, Bool.false_eq_true, if_false]

end

/-- The page of address 0 holds code, and its word lies in no cache. -/
theorem fetchesFromMemory_first : fetchesFromMemory prefetchingState ExecutionLaws.lastLane 0 prefetchingState 0 firstPage.entry :=
  ⟨translate_of_hit (x := firstPage) (by decide +kernel) (by decide +kernel) (by decide +kernel), by decide +kernel, by decide +kernel, by decide +kernel⟩

/-- Refutes O7: the fetch is an access at the word's home, which brings its line into the L2 there (R67, R207); the statement has the die stay as the translation
leaves it. -/
theorem not_instructionWordsComeFromMemory : ¬ Obligations.InstructionWordsComeFromMemory := by
  unfold Obligations.InstructionWordsComeFromMemory
  intro h
  have hlines := linesFetched_first
  rw [h _ _ 10 _ _ _ _ fetchesFromMemory_first] at hlines
  exact absurd hlines (by decide +kernel)

end Sys2Proof.EncodingLaws
end

section
/-! PROOFS. Clause headers (spec/09_instruction_encoding.md R209 to R213): what a thread at a header comes to once its clause is fetched. -/

namespace Sys2Proof.EncodingLaws

open Sys2Proof Sys2Proof.Machine Sys2Proof.Claims Sys2Proof.ExecutionLaws

/-- A region is entered by the kinds 1 and 3 (R209). -/
theorem getLsbD_zero_iff (kind : BitVec 2) : kind.getLsbD 0 = true ↔ kind = 1#2 ∨ kind = 3#2 := by
  revert kind
  decide

theorem enterClause_eq (t : Thread) (kind : BitVec 2) (header : Word) (ws : List Word) : enterClause t kind header ws = clauseBegun t kind header ws := by
  simp only [enterClause, clauseBegun, getLsbD_zero_iff]

theorem execClauseStart_alone {kind : BitVec 2} {length : BitVec 8} {setb seta : BitVec 4} {wait : BitVec 12} {s : State} {k : Nat} (hc : s.cur = [k]) :
    exec (.clauseStart kind length setb seta wait) s = .next (restop (startClause kind length setb seta wait (kind ++ length ++ setb ++ seta ++ wait ++ 3#2) s k)) := by
  show Host.Outcome.next _ = _
  rw [hc]
  rfl

/-- Settles O8: with the clause's words at hand the header goes on from the fetch as the statement says. -/
theorem clauseHeadersStartTheirClause : Obligations.ClauseHeadersStartTheirClause := by
  unfold Obligations.ClauseHeadersStartTheirClause
  intro kind length setb seta wait s s1 k t ws header t1 yields waits hc ht hf
  rw [execClauseStart_alone hc, startClause, ht]
  dsimp only [t1] at hf ⊢
  simp only [hf, enterClause_eq]
  rfl

end Sys2Proof.EncodingLaws
end

section
/-! PROOFS. The course of a thread after its instruction (spec/09_instruction_encoding.md R204, R208, R238, R28): what the issue leaves of it for each outcome. -/

namespace Sys2Proof.EncodingLaws

open Sys2Proof Sys2Proof.Machine Sys2Proof.Claims Sys2Proof.ExecutionLaws

theorem kept_team (op : LongOp) (o : Long) (u t : Thread) : (u.kept op o t).team = u.team := by
  obtain ⟨b, r, h⟩ := kept_eq op o u t
  rw [h]

theorem kept_stopping (op : LongOp) (o : Long) (u t : Thread) : (u.kept op o t).stopping = u.stopping := by
  obtain ⟨b, r, h⟩ := kept_eq op o u t
  rw [h]

theorem kept_pc (op : LongOp) (o : Long) (u t : Thread) : (u.kept op o t).pc = u.pc := by
  obtain ⟨b, r, h⟩ := kept_eq op o u t
  rw [h]

section
variable {s : State} {k : Nat} {u : Thread} (hc : s.cur = [k]) (hu : s.thread k = some u) (hh : (s.team u.team).halted = false)
include hc hu hh

/-- Where the team runs undisturbed, a step of the thread's own that keeps its team is what the issue leaves of it. -/
theorem thread_restop_updThread {g : Thread → Thread} (hg : (g u).team = u.team) : (restop (s.updThread k g)).thread k = some (g u) := by
  have h : (s.updThread k g).thread k = some (g u) := by rw [State.thread_updThread_same, hu]; rfl
  rw [restop_lone (by exact hc) h (by rw [hg]; exact hh), h]

/-- The same when YH then renews the thread's entry, but for the thread's own time of arrival (R208). -/
theorem thread_restop_renewed {g : Thread → Thread} (hg : (g u).team = u.team) (yh : BitVec 1) :
    ∃ v, (restop (if yh = 1#1 then touchEntry (s.updThread k g) k else s.updThread k g)).thread k = some v ∧ v.untimed = (g u).untimed := by
  split_ifs
  · have hone : OnlyThreads s (touchEntry (s.updThread k g) k) := (OnlyThreads.updThread s k g).trans (onlyThreads_touchEntry ..)
    obtain ⟨v, hv, he⟩ := exists_of_untimed (untimed_touchEntry (s.updThread k g) k k) ((State.thread_updThread_same s k g).trans (congrArg _ hu))
    have hteam : v.team = u.team := (congrArg Thread.team he :).trans hg
    refine ⟨v, ?_, he⟩
    rw [restop_lone ((hone.congr State.cur fun _ _ => rfl).trans hc) hv (by rw [hteam, hone.congr (fun x => x.team u.team) fun _ _ => rfl]; exact hh), hv]
  · exact ⟨g u, thread_restop_updThread hc hu hh hg, rfl⟩

/-- A thread that waits without yielding stands where it stood. -/
theorem thread_restop_waitIn (hp : (s.team u.team).preq = false) (st : ThreadState) : (restop (waitIn s k st)).thread k = some { u with state := st } := by
  have hw : waitIn s k st = s.updThread k (fun t => { t with state := st, yielded := t.yielded || false }) := by simp [waitIn, hu, hp]
  rw [hw, thread_restop_updThread hc hu hh rfl, Bool.or_false]

variable (op : LongOp) (o : Long) (t : Thread)

theorem thread_restop_go : ∃ v, (restop (settle op o t k (.go s))).thread k = some v ∧ v.still = (u.kept op o t).still ∧ v.pc = u.after ∧
    v.state = (if u.stopping then .stopped else .runnable) ∧ v.last = u.pc ∧ v.ranOn = true := by
  obtain ⟨v, hv, he⟩ := thread_restop_renewed hc hu hh (g := fun u => (u.kept op o t).advance (s.now t)) (kept_team ..) o.yh
  refine ⟨v, hv, (still_of_untimed he).trans rfl, (pc_of_untimed he).trans (kept_after ..), (congrArg Thread.state he :).trans ?_, (congrArg Thread.last he :).trans (kept_pc ..),
    (congrArg Thread.ranOn he :)⟩
  show (if (u.kept op o t).stopping then _ else _) = _
  rw [kept_stopping]

theorem thread_restop_jump (a : DWord) : ∃ v, (restop (settle op o t k (.jump s a))).thread k = some v ∧ v.still = (u.kept op o t).still ∧ v.pc = a ∧
    v.state = (if u.stopping then .stopped else .runnable) ∧ v.clause = none ∧ v.last = u.pc ∧ v.ranOn = false := by
  obtain ⟨v, hv, he⟩ := thread_restop_renewed hc hu hh (g := fun u => (u.kept op o t).goto a (s.now t) true) (kept_team ..) o.yh
  refine ⟨v, hv, (still_of_untimed he).trans rfl, pc_of_untimed he, (congrArg Thread.state he :).trans ?_, (congrArg Thread.clause he :), (congrArg Thread.last he :).trans (kept_pc ..),
    (congrArg Thread.ranOn he :)⟩
  show (if (u.kept op o t).stopping then _ else _) = _
  rw [kept_stopping]

theorem thread_restop_done (hy : o.yh = 0#1) : (restop (settle op o t k (.done s))).thread k = some (u.kept op o t) := by
  rw [settle, keepTouch, if_pos hy]
  exact thread_restop_updThread hc hu hh (kept_team ..)

/-- A thread whose instruction has YH set and that waits at it renews its entry when it goes on (R208). -/
theorem thread_restop_done_held (hy : o.yh = 1#1) (hpc : u.pc = t.pc) :
    (restop (settle op o t k (.done s))).thread k = some { u.kept op o t with touch := true } := by
  have hk : (s.updThread k (fun u => u.kept op o t)).thread k = some (u.kept op o t) := by rw [State.thread_updThread_same, hu]; rfl
  rw [settle, keepTouch, if_neg (by rw [hy]; decide), hk]
  dsimp only
  rw [if_pos ((kept_pc ..).trans hpc)]
  exact thread_restop_updThread (s := s.updThread k (fun u => u.kept op o t)) (by exact hc) hk (by rw [kept_team]; exact hh) (g := fun u => { u with touch := true }) rfl

end

/-- Settles O12: the outcomes one by one. -/
theorem outcomesSetTheThreadsCourse : Obligations.OutcomesSetTheThreadsCourse := by
  unfold Obligations.OutcomesSetTheThreadsCourse
  intro op o t u len k s hc hu hteam hh kept on
  rw [← hteam] at hh ⊢
  refine ⟨thread_restop_go hc hu hh op o _, thread_restop_jump hc hu hh op o _, thread_restop_done hc hu hh op o _, thread_restop_done_held hc hu hh op o _,
    fun j hj => ?other, onlyThreads_restop_settle_go .., fun hp st => ⟨_, thread_restop_waitIn hc hu hh hp st, rfl, rfl, rfl⟩, fun _ => rfl⟩
  case other =>
    have hcur : (settle op o (t.begun len) k (.go s)).cur = [k] := ((onlyThreads_settle_go ..).congr State.cur fun _ _ => rfl).trans hc
    rw [settled, thread_restop_other (by rw [hcur]; simpa using hj)]
    exact untimed_settle_go_other _ _ _ _ hj

end Sys2Proof.EncodingLaws
end

section
/-! PROOFS. The short arithmetic forms (spec/09_instruction_encoding.md R214): their long forms in type I32 without SAT, or in F32, as operations on words. -/

namespace Sys2Proof.EncodingLaws

open Sys2Proof Sys2Proof.Machine Sys2Proof.Claims Sys2Proof.ExecutionLaws

theorem inner_setRegs {d : Nat} {v : Thread → Word} (hv : ∀ t, v t.still = v t) : Inner (fun t => t.setRegs d [v t]) where
  still t := by rw [hv]; rfl
  after _ := rfl

/-- The signed value of a 32-bit code. -/
theorem codeInt_toNat (x : Word) : codeInt 32 true x.toNat = x.toInt := by
  have hlt : x.toNat < 2 ^ 32 := x.isLt
  rw [codeInt, Nat.mod_eq_of_lt hlt, BitVec.toInt_eq_toNat_cond]
  simp only [Bool.true_and, decide_eq_true_eq]
  split_ifs <;> omega

section
variable {o : Long} (h : o.sub = 0#13)
include h

/-- SUB13 of zero is type I32 without SAT (R206). -/
theorem type_of_sub_zero : o.ty = 0#4 ∧ o.sat = false := by
  rw [Long.ty, Long.sat, h]
  decide

theorem srcInt_word (t : Thread) (w : Src) : srcInt t o w = (src32 t o w).toNat := by
  rw [srcInt, (type_of_sub_zero h).1]
  rfl

theorem opInt_word (t : Thread) (w : Src) : opInt o w t = (src32 t o w).toInt := by
  rw [opInt, srcInt_word h, (type_of_sub_zero h).1]
  exact codeInt_toNat _

theorem setInt_word (t : Thread) (x : Int) : setInt o x t = t.setRegs o.d.toNat [BitVec.ofInt 32 x] := by
  have hcode : BitVec.ofNat 32 (x % 2 ^ 32).toNat = BitVec.ofInt 32 x :=
    BitVec.eq_of_toNat_eq ((BitVec.toNat_ofNat ..).trans ((Nat.mod_eq_of_lt (by omega)).trans (BitVec.toNat_ofInt ..).symm))
  rw [setInt, intResult, (type_of_sub_zero h).1, (type_of_sub_zero h).2]
  exact congrArg (fun v => t.setRegs o.d.toNat [v]) hcode

theorem setBits_word (t : Thread) (v : Nat) : setBits o v t = t.setRegs o.d.toNat [BitVec.ofNat 32 v] := by
  rw [setBits, (type_of_sub_zero h).1]
  exact congrArg (fun v => t.setRegs o.d.toNat [v]) (BitVec.eq_of_toNat_eq (by simp [intWidth, isWide]))

theorem shlInt_word (t : Thread) : BitVec.ofInt 32 (shlInt o t) = src32 t o .a <<< shiftBy o t := by
  have hmod : shlInt o t = ((src32 t o .a).toNat * 2 ^ shiftBy o t % 2 ^ 32 : Nat) := by
    rw [shlInt, (type_of_sub_zero h).2, srcInt_word h, (type_of_sub_zero h).1]
    rfl
  rw [hmod, BitVec.ofInt_natCast]
  exact BitVec.eq_of_toNat_eq (by rw [BitVec.toNat_ofNat, Nat.mod_mod, BitVec.toNat_shiftLeft, Nat.shiftLeft_eq])

theorem sarInt_word (t : Thread) : BitVec.ofInt 32 (sarInt o t) = (src32 t o .a).sshiftRight (shiftBy o t) := by
  have hdiv : sarInt o t = (src32 t o .a).toInt / (2 ^ shiftBy o t : Nat) := by
    rw [sarInt, srcInt_word h, (type_of_sub_zero h).1, Int.fdiv_eq_ediv_of_nonneg _ (by positivity), show codeInt (intWidth 0#4) true _ = _ from codeInt_toNat _]
    norm_cast
  rw [hdiv, BitVec.sshiftRight, Int.shiftRight_eq_div_pow]

variable {i : Instr} {op : LongOp} {w : Word} {v : Thread → Word} (hv : ∀ t, v t.still = v t)
include hv

/-- A short form of an exact result of type I32. -/
theorem computes_intWord {f : Thread → Int} (hi : ∀ s, exec i s = runShort op o w (intLane o f) s) (hf : ∀ t, BitVec.ofInt 32 (f t) = v t) :
    Computes i op o 4 (fun _ t => t.setRegs o.d.toNat [v t]) := by
  have hlane : intLane o f = pureLane (fun t => t.setRegs o.d.toNat [v t]) := congrArg pureLane (funext fun t => by rw [setInt_word h, hf])
  simp only [hlane] at hi
  exact computes_inner (inner_setRegs hv) hi

/-- A short form of an opcode on bits of type I32. -/
theorem computes_bitWord {f : Thread → Nat} (hi : ∀ s, exec i s = runShort op o w (bitLane o f) s) (hf : ∀ t, BitVec.ofNat 32 (f t) = v t) :
    Computes i op o 4 (fun _ t => t.setRegs o.d.toNat [v t]) := by
  have hlane : bitLane o f = pureLane (fun t => t.setRegs o.d.toNat [v t]) := congrArg pureLane (funext fun t => by rw [setBits_word h, hf])
  simp only [hlane] at hi
  exact computes_inner (inner_setRegs hv) hi

end

theorem setWidth_signExtend {n : Nat} (x : BitVec n) : (x.signExtend 64).setWidth 32 = x.signExtend 32 := by
  ext i hi
  simp [BitVec.getElem_signExtend, show i < 64 by omega]

/-- A six-bit amount survives as the narrow literal modulo 256. -/
theorem shiftBy_imm (a d : BitVec 9) (x : BitVec 6) (t : Thread) : shiftBy (aliasImm a d (x.setWidth 64)) t = x.toNat := by
  have hx : x.toNat < 2 ^ 6 := x.isLt
  show ((x.setWidth 64).setWidth 32).toNat % 256 = _
  rw [BitVec.toNat_setWidth, BitVec.toNat_setWidth]
  omega

/-- A short form of a float instruction of one code. -/
theorem computes_floatShort {i : Instr} {op : LongOp} {o : Long} {w : Word} {f g : Thread → Nat × Nat × Word} (hi : ∀ s, exec i s = runShort op o w (floatLane o f) s)
    (hf : ∀ t, f t = g t) (hg : ∀ t, g t.still = g t) : Computes i op o 4 (fun _ t => finishLane o t (g t)) := by
  obtain rfl : f = g := funext hf
  exact computes_inner (inner_finishLane hg) hi

/-- The F32 aliases compute in F32, rounding to nearest without SAT, on the whole words. -/
theorem aliasF32_reads (a d : BitVec 9) (t : Thread) : fmt (aliasF32 a d) = f32 ∧ modeOf (aliasF32 a d) t = ⟨0, false, t.ftz⟩ ∧
    elem t (aliasF32 a d) .a (aliasF32 a d).ty = (t.reg d.toNat).toNat ∧ elem t (aliasF32 a d) .b (aliasF32 a d).ty = (t.reg a.toNat).toNat :=
  ⟨rfl, by simp [modeOf, Long.rm, Long.sat, aliasF32], Nat.mod_eq_of_lt (t.reg d.toNat).isLt, Nat.mod_eq_of_lt (t.reg a.toNat).isLt⟩

/-- Settles O17: each form by the value of its long form at its operands, exact results, bits and floats apart. -/
theorem shortArithmeticRunsAsItsLongForm : Obligations.ShortArithmeticRunsAsItsLongForm := by
  unfold Obligations.ShortArithmeticRunsAsItsLongForm
  intro x a d
  refine ⟨computes_bitWord rfl (fun _ => rfl) (fun _ => rfl) fun t => ?mov, computes_intWord rfl (fun _ => rfl) (fun _ => rfl) fun t => ?add,
    computes_intWord rfl (fun _ => rfl) (fun _ => rfl) fun t => ?sub, computes_intWord rfl (fun _ => rfl) (fun _ => rfl) fun t => ?addi,
    computes_intWord rfl (fun _ => rfl) (fun _ => rfl) fun t => ?shli, computes_bitWord rfl (fun _ => rfl) (fun _ => rfl) fun t => ?shri,
    computes_intWord rfl (fun _ => rfl) (fun _ => rfl) fun t => ?sari, computes_bitWord rfl (fun _ => rfl) (fun _ => rfl) fun t => ?andi,
    computes_bitWord rfl (fun _ => rfl) (fun _ => rfl) fun t => ?lis,
    computes_floatShort (fun _ => rfl) (fun t => ?fadd) fun _ => rfl, computes_floatShort (fun _ => rfl) (fun t => ?fmul) fun _ => rfl⟩
  case mov =>
    rw [srcInt_word rfl, BitVec.ofNat_toNat, BitVec.setWidth_eq]
    rfl
  case add =>
    rw [opInt_word rfl, opInt_word rfl, BitVec.ofInt_add, BitVec.ofInt_toInt, BitVec.ofInt_toInt]
    rfl
  case sub =>
    rw [opInt_word rfl, opInt_word rfl, Int.sub_eq_add_neg, BitVec.ofInt_add, BitVec.ofInt_neg, BitVec.ofInt_toInt, BitVec.ofInt_toInt, ← BitVec.sub_eq_add_neg]
    rfl
  case addi =>
    rw [opInt_word rfl, opInt_word rfl, BitVec.ofInt_add, BitVec.ofInt_toInt, BitVec.ofInt_toInt, ← setWidth_signExtend]
    rfl
  case shli =>
    rw [shlInt_word rfl, shiftBy_imm]
    rfl
  case shri =>
    rw [srcInt_word rfl, shiftBy_imm, ← Nat.shiftRight_eq_div_pow]
    exact BitVec.eq_of_toNat_eq (by rw [BitVec.toNat_ofNat]; exact Nat.mod_eq_of_lt ((t.reg a.toNat) >>> x.toNat).isLt)
  case sari =>
    rw [sarInt_word rfl, shiftBy_imm]
    rfl
  case andi =>
    rw [srcInt_word rfl, srcInt_word rfl, BitVec.ofNat_and, BitVec.ofNat_toNat, BitVec.ofNat_toNat, BitVec.setWidth_eq, BitVec.setWidth_eq]
    exact congrArg (fun v => t.reg a.toNat &&& v) (BitVec.setWidth_setWidth_of_le x (by decide))
  case lis =>
    rw [BitVec.ofNat_toNat, ← setWidth_signExtend]
    rfl
  case fadd | fmul =>
    obtain ⟨hfmt, hmode, ha, hb⟩ := aliasF32_reads a d t
    rw [hfmt, hmode, ha, hb]

end Sys2Proof.EncodingLaws
end

section
/-! PROOFS. Loads and stores of global memory (spec/12_memory_sync_instructions.md R269, R274; R78): the access of one that nothing holds back. -/

namespace Sys2Proof.EncodingLaws

open Sys2Proof Sys2Proof.Machine Sys2Proof.Claims Sys2Proof.ExecutionLaws Sys2Proof.ConsistencyLaws

section
variable {o : Long} {s : State} {k : Nat} {t : Thread} {len : Nat}

/-- A memory instruction that nothing holds back begins its access (R66, R81, R212). -/
theorem memStart_of_ready {global : Bool} {go : State → Thread → Out} (h : Ready s k t o len global (ordRel o)) :
    memStart (s.began k t len) k (t.begun len) o global (relScope o) go = go (s.began k t len) (t.begun len) := by
  obtain ⟨hfree, hwaits⟩ := h
  have hsome : (relScope o).isSome = ordRel o := by
    unfold relScope
    split <;> simp_all
  have hany : (relScope o).any (releaseWaits (s.began k t len) t.core) = false := by
    unfold relScope
    split
    · next hr => exact hwaits hr
    · rfl
  exact memStart_of_not_releaseWaits (hsome ▸ hfree) hany

theorem effLd_of_ready (h : Ready s k t o len true (ordRel o)) :
    effLd o (s.began k t len) k (t.begun len) = globalLoad o (s.began k t len) k (t.begun len) := by
  rw [effLd, memStart_of_ready h]
  rfl

theorem effSt_of_ready (h : Ready s k t o len true (ordRel o)) :
    effSt o (s.began k t len) k (t.begun len) = globalStore o (s.began k t len) k (t.begun len) := by
  rw [effSt, memStart_of_ready h]
  rfl

end

/-- A short load or store has no order, so that its order includes no release (R214, R268). -/
theorem ordRel_of_sub_two {o : Long} (h : o.sub = 2#13) : ordRel o = no o := by
  rw [ordRel, Long.ord, h]
  rfl

theorem ready_of_no_order {o : Long} (ho : o.sub = 2#13) {len : Nat} {s : State} {k : Nat} {t : Thread} (h : freeFor true no o len s k t) :
    Ready s k t o len true (ordRel o) := by
  rw [ordRel_of_sub_two ho]
  exact h

/-- Settles O27: once nothing holds it back, each is its access. -/
theorem loadsAndStoresIssueTheirAccess : Obligations.LoadsAndStoresIssueTheirAccess := by
  unfold Obligations.LoadsAndStoresIssueTheirAccess
  intro o i a d
  exact ⟨alone_of_runLong (fun _ => rfl) fun _ _ _ _ h => effLd_of_ready h, alone_of_runLong (fun _ => rfl) fun _ _ _ _ h => effSt_of_ready h,
    alone_of_runShort (fun _ => rfl) fun _ _ _ _ h => effLd_of_ready (ready_of_no_order rfl h), alone_of_runShort (fun _ => rfl) fun _ _ _ _ h => effSt_of_ready (ready_of_no_order rfl h)⟩

end Sys2Proof.EncodingLaws
end
